-- ==== Sys2Proof/Word.lean ====
section
/-!
DEFINITION. The word types of the Zholdo model and their plainest field arithmetic.
-/

namespace Sys2Proof

/-- One byte; all data structures are little-endian (R8). -/
abbrev Byte := BitVec 8

/-- A 64-bit register, address or instruction word. -/
abbrev Word := BitVec 64

/-- A predicate register: bit 0 is its scalar value, all 512 bits are lane masks (R57, R58). -/
abbrev Pred := BitVec 512

/-- A vector register: 512 lanes of 32 bits, lane i in bits [32i+31:32i] (R57). -/
abbrev Vec := BitVec 16384

/-- Bits [hi:lo] of a natural number. -/
def bitsOf (n hi lo : Nat) : Nat := (n >>> lo) % 2 ^ (hi - lo + 1)

/-- `n` with its bits [hi:lo] replaced by the low bits of `v`. -/
def withBits (n hi lo v : Nat) : Nat :=
  n - (bitsOf n hi lo) * 2 ^ lo + (v % 2 ^ (hi - lo + 1)) * 2 ^ lo

/-- A word read as a signed (two's complement) number of `w` bits. -/
def signed (w n : Nat) : Int := if n % 2 ^ w < 2 ^ (w - 1) then (n % 2 ^ w : Nat) else (n % 2 ^ w : Nat) - (2 ^ w : Nat)

/-- Addition that saturates at 2^w - 1 (the spec's "saturating" counters). -/
def satAdd (w a b : Nat) : Nat := min (a + b) (2 ^ w - 1)

end Sys2Proof
end

