-- ==== Sys2Proof/Syntax.lean ====
section
/-!
DEFINITION. The commands of the block: one constructor of `Instr` per row of spec/opcode_table.json, with the
row's operands, and the data that packets, frames and service reports carry.
-/

namespace Sys2Proof

/-- The four paths into control space (R470), numbered as CS_HOLE.PATH numbers them. -/
inductive Path where
  | sequencer | management | i3c | jtag
  deriving DecidableEq, Repr

/-- A fabric packet: the four header words of R242 and the payload bytes. -/
structure Packet where
  w0 : Word
  w1 : Word
  w2 : Word
  w3 : Word
  payload : List Byte
  deriving DecidableEq, Repr

/-- A frame on a host port (R361), from its destination address to the end of its payload, without preamble and FCS, and the symbols that FEC
corrected in it. -/
structure Frame where
  bytes : List Byte
  corrected : Nat
  deriving DecidableEq, Repr

/-- Bits of a 16-byte word of the Rink that an upset has changed (R177): the word's offset, and whether more than one bit changed, so
that the check bits detect the error and do not correct it. -/
structure RinkError where
  addr : BitVec 29
  uncorrectable : Bool
  deriving DecidableEq, Repr

/-- Bits of a stored LPDDR block that an upset has changed (R207): the block's local address, and the bits' places in the block's code
word. Places 0 to 15 are those of the check value, and 16 onward the block's own, from bit 0 of byte 63 down to bit 7 of byte 0: the
order of the CRC from its end. -/
structure Upset where
  addr : BitVec 40
  bits : List (BitVec 10)
  deriving DecidableEq, Repr

/-- A fault in the combining of one element (R308): bits of the adder's sum that come out wrong, or two units of a pair, of the exponent
path or of the comparators, that disagree. -/
structure AdderFault where
  elem : BitVec 12
  flips : BitVec 72
  unit : Bool
  deriving DecidableEq, Repr

/-- A read that a memory channel serves for a fixed-function block with no stream (R208, R209): the first byte, the number of 16-byte
granules, and the upsets that the controller's arrays have seen by then. -/
structure MemService where
  addr : BitVec 40
  granules : BitVec 8
  upsets : List Upset
  deriving DecidableEq, Repr

/-- What a controller reads from its package's mode registers (R203, R204, R214): whether the package is on the qualification list,
and the activation count from which it wants refresh management, if it requires that. -/
structure Package where
  listed : Bool
  rfm : Option (BitVec 16)
  deriving DecidableEq, Repr

/-- The eight words of a link control flit (R234). -/
structure Lcf where
  w0 : Word
  w1 : Word
  w2 : Word
  w3 : Word
  w4 : Word
  w5 : Word
  w6 : Word
  w7 : Word
  deriving DecidableEq, Repr

/-- A group as a port receives it (R233 to R235): the bytes of its 31 flits, its LCF, and of the codewords that it touches the symbols
that FEC corrected and the number that it could not correct. The packets that it completes arrive as commands of their own, after it. -/
structure LcfGroup where
  flits : List Byte
  lcf : Lcf
  corrected : Nat
  uncorrectable : Nat
  deriving DecidableEq, Repr

/-- Upsets that the arrays of the Rink and of LPDDR have seen by a command (R177, R207). -/
structure Upsets where
  rink : List RinkError := []
  mem : List Upset := []
  deriving DecidableEq, Repr

/-- A lap marker as it arrives (R44, R47): its port, the packet, whether a replay brought it, and by how many 1/256 clk before this clk
it came. -/
structure MarkerArrival where
  port : Fin 12
  packet : Packet
  resent : Bool
  frac : BitVec 8
  deriving DecidableEq, Repr

/-- A HELLO as it arrives (R239): its group, and by how many 1/256 clk before this clk it came. -/
structure HelloArrival where
  group : LcfGroup
  frac : BitVec 8
  deriving DecidableEq, Repr

/-- A turn of a Relay Engine (R289), and whether the two leading-zero counts of the export that it makes disagree (R308). -/
structure RelayTurn where
  engine : Fin 4
  disagree : Bool
  deriving DecidableEq, Repr

/-- A frame that R361 or R362 has its port discard, with the symbols that FEC corrected in its codewords and the codewords that it could
not correct (R379). -/
structure DiscardedFrame where
  port : Fin 2
  corrected : Nat
  uncorrectable : Nat
  deriving DecidableEq, Repr

/-- The two consecutive groups that a census report closes (R400). -/
structure CensusGroups where
  first : LcfGroup
  second : LcfGroup
  deriving DecidableEq, Repr

/-- The commands of the block (one per row of the opcode table). -/
inductive Instr where
  /-- REG_WRITE (R4): A control-space write to a register that has no row of its own takes effect according to the
  access code of each field, with reserved fields ignored. -/
  | regWrite (path : Path) (off : BitVec 24) (v : Word)
  /-- DEFERRED_SETTING_WRITE (R478): A write to a setting that takes effect at a step boundary is applied at once,
  or held until the owning context's next step boundary or its exit from RUN, SAVING or SAVED. -/
  | deferredSettingWrite (path : Path) (off : BitVec 24) (v : Word)
  /-- BUFFER_AUDIT (R198): In each clk with LCC mod 1,024 = 1,023, the Buffer auditor checks the pool and
  requester counts and increments PASSES. -/
  | bufferAudit
  /-- LAP_ENABLE (R38): Setting LAP_CTRL.ENABLE in STOPPED begins lap LAP_CT.LAP in FREERUN or ACQUIRE, or is
  refused with F_LAP_CFG for an invalid SRC_PRI. -/
  | lapEnable (v : Word)
  /-- LAP_DISABLE (R38): Clearing ENABLE returns the Lap Unit to STOPPED when no context exists, and is otherwise
  ignored with F_LAP_CFG. -/
  | lapDisable (v : Word)
  /-- LAP_RELOCK (R38): Writing RELOCK returns the Lap Unit from LOCKED or HOLDOVER to ACQUIRE, provided no
  context has started. -/
  | lapRelock (v : Word)
  /-- LAP_CFG_WRITE (R54): A LAP_CFG write changes HOLD_MAX in any state and the other fields only in STOPPED; the
  offending fields are refused with F_LAP_CFG. -/
  | lapCfgWrite (v : Word)
  /-- LAP_EDGE (R37): The carry out of the phase accumulator ends the lap: the discipline loop is updated, states
  move, lap markers are sent and the lap-edge actions are taken. -/
  | lapEdge
  /-- LAP_IN_EDGE (R47): A rising edge on LAP_IN is stamped and measured as a reference edge against the internal
  edge. -/
  | lapInEdge (frac : BitVec 8)
  /-- PTP_LAP_EDGE (R31): The PTP clock reaches an instant at which (t - ORIGIN) mod period = 0, which is a
  reference edge. -/
  | ptpLapEdge (port : Fin 2) (sec : BitVec 48) (ns : BitVec 32)
  /-- LAP_MARKER_RX (R44): A received lap marker gives the parent's edge, or is discarded with F_LAP_MARKER when
  its lap number mismatches. -/
  | lapMarkerRx (m : MarkerArrival)
  /-- PTP_MESSAGE_RX (R33): A PTP Sync, Follow_Up or Delay_Resp message on a host port is timestamped and used by
  the slave-only ordinary clock. -/
  | ptpMessageRx (port : Fin 2) (f : Frame)
  /-- LAP_HOLDEXP (R41): The current holdover reaches HOLD_MAX laps, and F_LAP_HOLDEXP is reported once. -/
  | lapHoldexp
  /-- OVERRUN_SEND (R50): At stride D, a chip whose part of the step is incomplete sends an OVERRUN notice on its
  GROUP. -/
  | overrunSend (c : Fin 2)
  /-- OVERRUN_RX (R52): A received OVERRUN notice marks the step for its policy at the next edge, or tears the
  context down with F_LAP_LATEOVR when it is late. -/
  | overrunRx (n : Fin 13) (p : Packet)
  /-- TEMPLATE_RELEASE (R85): An armed entry whose release stride has come and whose selected counts are final
  releases one instance to its engine's queue. -/
  | templateRelease
  /-- INSTANCE_START (R87): The next queued template instance starts on a free stream with its initial state and
  arguments. -/
  | instanceStart (k : Fin 50)
  /-- COMMIT_GEN (R84): Writing LS_TCTL.COMMIT_GEN checks the general shadow bank and makes it active at the next
  step boundary, or refuses it with F_ISA_TMPL. -/
  | commitGen
  /-- COMMIT_RT (R84): Writing LS_TCTL.COMMIT_RT checks the real-time shadow bank and makes it active at the next
  step boundary, or refuses it with F_ISA_TMPL. -/
  | commitRt
  /-- NOP (R72): Does nothing. -/
  | nop (k : Fin 50) (b : BitVec 52)
  /-- END (R72): Waits for every memory operation of the stream, then ends the template instance. -/
  | endInstance (k : Fin 50) (b : BitVec 52)
  /-- TRAP (R72): Raises F_ISA_TRAP, with the code in ENG_FAULT.INFO. -/
  | trap (k : Fin 50) (b : BitVec 52)
  /-- BRK (R72): Stops the stream in BRK at D3, and raises F_ISA_BRK below D3. -/
  | brk (k : Fin 50) (b : BitVec 52)
  /-- FENCE (R70): Stalls issue until every earlier memory operation of the stream has completed. -/
  | fence (k : Fin 50) (b : BitVec 52)
  /-- MFSR (R67): Reads a special register into a scalar register. -/
  | mfsr (k : Fin 50) (b : BitVec 52)
  /-- MTSR (R67): Writes a scalar register into a writable special register. -/
  | mtsr (k : Fin 50) (b : BitVec 52)
  /-- ADD (R64): Scalar add modulo 2^64, with a register or immediate operand. -/
  | add (k : Fin 50) (imm : Bool) (b : BitVec 52)
  /-- SUB (R64): Scalar subtract modulo 2^64. -/
  | sub (k : Fin 50) (imm : Bool) (b : BitVec 52)
  /-- AND (R64): Scalar bitwise AND. -/
  | and (k : Fin 50) (imm : Bool) (b : BitVec 52)
  /-- OR (R64): Scalar bitwise OR. -/
  | or (k : Fin 50) (imm : Bool) (b : BitVec 52)
  /-- XOR (R64): Scalar bitwise XOR. -/
  | xor (k : Fin 50) (imm : Bool) (b : BitVec 52)
  /-- SHL (R64): Scalar left shift by b[5:0]. -/
  | shl (k : Fin 50) (imm : Bool) (b : BitVec 52)
  /-- SHR (R64): Scalar logical right shift. -/
  | shr (k : Fin 50) (imm : Bool) (b : BitVec 52)
  /-- SRA (R64): Scalar arithmetic right shift. -/
  | sra (k : Fin 50) (imm : Bool) (b : BitVec 52)
  /-- MUL (R64): Low 64 bits of the product. -/
  | mul (k : Fin 50) (imm : Bool) (b : BitVec 52)
  /-- MULHU (R64): High 64 bits of the unsigned product. -/
  | mulhu (k : Fin 50) (b : BitVec 52)
  /-- MULHS (R64): High 64 bits of the signed product. -/
  | mulhs (k : Fin 50) (b : BitVec 52)
  /-- MIN (R64): Signed minimum. -/
  | min (k : Fin 50) (imm : Bool) (b : BitVec 52)
  /-- MINU (R64): Unsigned minimum. -/
  | minu (k : Fin 50) (imm : Bool) (b : BitVec 52)
  /-- MAX (R64): Signed maximum. -/
  | max (k : Fin 50) (imm : Bool) (b : BitVec 52)
  /-- MAXU (R64): Unsigned maximum. -/
  | maxu (k : Fin 50) (imm : Bool) (b : BitVec 52)
  /-- CLZ (R64): Count of leading zeros. -/
  | clz (k : Fin 50) (b : BitVec 52)
  /-- POPC (R64): Count of set bits. -/
  | popc (k : Fin 50) (b : BitVec 52)
  /-- SEL (R64): Selects a or b by the guard value, and always writes d. -/
  | sel (k : Fin 50) (b : BitVec 52)
  /-- MOVI (R64): Loads a sign-extended 43-bit immediate. -/
  | movi (k : Fin 50) (b : BitVec 52)
  /-- MOVHI (R64): Loads the high 21 bits of a register, keeping its low 43 bits. -/
  | movhi (k : Fin 50) (b : BitVec 52)
  /-- CMP_EQ (R65): Sets a predicate to a = b. -/
  | cmpEq (k : Fin 50) (imm : Bool) (b : BitVec 52)
  /-- CMP_NE (R65): Sets a predicate to a != b. -/
  | cmpNe (k : Fin 50) (imm : Bool) (b : BitVec 52)
  /-- CMP_LT (R65): Sets a predicate to signed a < b. -/
  | cmpLt (k : Fin 50) (imm : Bool) (b : BitVec 52)
  /-- CMP_GE (R65): Sets a predicate to signed a >= b. -/
  | cmpGe (k : Fin 50) (imm : Bool) (b : BitVec 52)
  /-- CMP_LTU (R65): Sets a predicate to unsigned a < b. -/
  | cmpLtu (k : Fin 50) (imm : Bool) (b : BitVec 52)
  /-- CMP_GEU (R65): Sets a predicate to unsigned a >= b. -/
  | cmpGeu (k : Fin 50) (imm : Bool) (b : BitVec 52)
  /-- PAND (R65): Bitwise AND of predicates. -/
  | pand (k : Fin 50) (b : BitVec 52)
  /-- POR (R65): Bitwise OR of predicates. -/
  | por (k : Fin 50) (b : BitVec 52)
  /-- PXOR (R65): Bitwise XOR of predicates. -/
  | pxor (k : Fin 50) (b : BitVec 52)
  /-- PANDN (R65): Bitwise AND-NOT of predicates. -/
  | pandn (k : Fin 50) (b : BitVec 52)
  /-- AMOV (R66): Copies a scalar register into an address register. -/
  | amov (k : Fin 50) (b : BitVec 52)
  /-- SMOV (R66): Copies an address register into a scalar register. -/
  | smov (k : Fin 50) (b : BitVec 52)
  /-- AADD (R66): Adds a signed scalar to an address offset, raising F_ISA_AOVF on overflow. -/
  | aadd (k : Fin 50) (b : BitVec 52)
  /-- AADDI (R66): Adds a signed immediate to an address offset, raising F_ISA_AOVF on overflow. -/
  | aaddi (k : Fin 50) (b : BitVec 52)
  /-- LD (R68): Loads 1 to 8 bytes from an address in space 0x0 to 0x4, space 0x3 being a remote load. -/
  | ld (k : Fin 50) (b : BitVec 52)
  /-- ST (R68): Stores 1 to 8 bytes to an address in space 0x0 to 0x4, space 0x3 being a remote store. -/
  | st (k : Fin 50) (b : BitVec 52)
  /-- LD_COMPLETE (R78): A load's data returns, is written to its destination register and clears its pending bit.
  -/
  | ldComplete (k : Fin 50) (op : Nat) (upsets : Upsets)
  /-- XMOV (R69): Issues a copy of s[sl] bytes between spaces, checked whole at issue. -/
  | xmov (k : Fin 50) (b : BitVec 52)
  /-- XMOV_COMPLETE (R69): When a copy's last byte is written, cc[cc] is incremented by 1. -/
  | xmovComplete (k : Fin 50) (op : Nat) (upsets : Upsets)
  /-- BR (R71): Branches to pc plus 8 times the offset. -/
  | br (k : Fin 50) (b : BitVec 52)
  /-- CALL (R71): Saves the return address in a15 and branches. -/
  | call (k : Fin 50) (b : BitVec 52)
  /-- RET (R71): Branches to a15, raising F_ISA_FETCH for a non-Rink address. -/
  | ret (k : Fin 50) (b : BitVec 52)
  /-- LOOP (R71): Decrements s[c] and branches while it is non-zero. -/
  | loop (k : Fin 50) (b : BitVec 52)
  /-- CC_SET (R74): Sets a completion counter to an immediate, with release ordering. -/
  | ccSet (k : Fin 50) (b : BitVec 52)
  /-- CC_ADD (R74): Adds an immediate to a completion counter, with release ordering. -/
  | ccAdd (k : Fin 50) (b : BitVec 52)
  /-- CC_RD (R74): Reads a completion counter into a scalar register. -/
  | ccRd (k : Fin 50) (b : BitVec 52)
  /-- CC_SETR (R74): Sets a completion counter from a scalar register. -/
  | ccSetr (k : Fin 50) (b : BitVec 52)
  /-- WAIT_CC (R74): Waits until a counter reaches an immediate target. -/
  | waitCc (k : Fin 50) (b : BitVec 52)
  /-- WAIT_CCR (R74): Waits until a counter reaches a register target. -/
  | waitCcr (k : Fin 50) (b : BitVec 52)
  /-- WAIT_ST (R74): Waits for a stride in this lap or the next. -/
  | waitSt (k : Fin 50) (b : BitVec 52)
  /-- WAIT_CT (R74): Waits until course time reaches a register value. -/
  | waitCt (k : Fin 50) (b : BitVec 52)
  /-- WAIT_SATISFIED (R74): A waiting stream's counter or lap-phase condition becomes true at the end of a clk,
  and issue resumes in the next clk. -/
  | waitSatisfied (k : Fin 50)
  /-- WAIT_LIMIT_EXPIRY (R75): A counter or buffer wait still unsatisfied WAITLIM strides after it began raises
  F_ISA_WAITLIM. -/
  | waitLimitExpiry (k : Fin 50)
  /-- BUF_ALLOC (R76): Requests a buffer from the Locker and waits in FIFO order until it is granted. -/
  | bufAlloc (k : Fin 50) (b : BitVec 52)
  /-- BUF_TRY (R76): Requests a buffer and receives 0 if it is not granted in the clk. -/
  | bufTry (k : Fin 50) (b : BitVec 52)
  /-- BUF_REF (R194): Adds one reference to a handle after the checks of R189. -/
  | bufRef (k : Fin 50) (b : BitVec 52)
  /-- BUF_FREE (R194): Drops one reference to a handle, freeing the buffer at zero or raising F_LKR_DFREE. -/
  | bufFree (k : Fin 50) (b : BitVec 52)
  /-- BUF_ADDR (R76): Returns the Rink address of a handle. -/
  | bufAddr (k : Fin 50) (b : BitVec 52)
  /-- BUF_SIZE (R76): Returns the pool size of a handle. -/
  | bufSize (k : Fin 50) (b : BitVec 52)
  /-- VADD (R100): Vector FP32 add. -/
  | vadd (k : Fin 50) (b : BitVec 52)
  /-- VSUB (R100): Vector FP32 subtract. -/
  | vsub (k : Fin 50) (b : BitVec 52)
  /-- VMUL (R100): Vector FP32 multiply. -/
  | vmul (k : Fin 50) (b : BitVec 52)
  /-- VFMA (R100): Vector fused multiply-add with one rounding. -/
  | vfma (k : Fin 50) (b : BitVec 52)
  /-- VMIN (R100): Vector IEEE minimum. -/
  | vmin (k : Fin 50) (b : BitVec 52)
  /-- VMAX (R100): Vector IEEE maximum. -/
  | vmax (k : Fin 50) (b : BitVec 52)
  /-- VABS (R100): Vector absolute value. -/
  | vabs (k : Fin 50) (b : BitVec 52)
  /-- VNEG (R100): Vector negation. -/
  | vneg (k : Fin 50) (b : BitVec 52)
  /-- VMOV (R100): Vector move. -/
  | vmov (k : Fin 50) (b : BitVec 52)
  /-- VBCAST (R100): Broadcasts a scalar to the active lanes. -/
  | vbcast (k : Fin 50) (b : BitVec 52)
  /-- VIOTA (R100): Writes each lane's index. -/
  | viota (k : Fin 50) (b : BitVec 52)
  /-- VIADD (R100): Vector INT32 add. -/
  | viadd (k : Fin 50) (b : BitVec 52)
  /-- VISUB (R100): Vector INT32 subtract. -/
  | visub (k : Fin 50) (b : BitVec 52)
  /-- VAND (R100): Vector bitwise AND. -/
  | vand (k : Fin 50) (b : BitVec 52)
  /-- VOR (R100): Vector bitwise OR. -/
  | vor (k : Fin 50) (b : BitVec 52)
  /-- VXOR (R100): Vector bitwise XOR. -/
  | vxor (k : Fin 50) (b : BitVec 52)
  /-- VSHL (R100): Vector left shift. -/
  | vshl (k : Fin 50) (b : BitVec 52)
  /-- VSHR (R100): Vector logical right shift. -/
  | vshr (k : Fin 50) (b : BitVec 52)
  /-- VCMP_EQ (R101): Vector FP equality into a predicate. -/
  | vcmpEq (k : Fin 50) (b : BitVec 52)
  /-- VCMP_LT (R101): Vector FP less-than into a predicate. -/
  | vcmpLt (k : Fin 50) (b : BitVec 52)
  /-- VCMP_LE (R101): Vector FP less-or-equal into a predicate. -/
  | vcmpLe (k : Fin 50) (b : BitVec 52)
  /-- VCMP_UN (R101): Vector unordered test into a predicate. -/
  | vcmpUn (k : Fin 50) (b : BitVec 52)
  /-- VICMP_EQ (R101): Vector INT32 equality into a predicate. -/
  | vicmpEq (k : Fin 50) (b : BitVec 52)
  /-- VICMP_LT (R101): Vector signed INT32 less-than into a predicate. -/
  | vicmpLt (k : Fin 50) (b : BitVec 52)
  /-- VSEL (R101): Selects lanes of va or vb by the mask. -/
  | vsel (k : Fin 50) (b : BitVec 52)
  /-- VCVT (R102): Converts between FP32 and packed formats, including MX scale generation. -/
  | vcvt (k : Fin 50) (b : BitVec 52)
  /-- VEXT (R102): Extracts one lane into a scalar register. -/
  | vext (k : Fin 50) (b : BitVec 52)
  /-- VLD (R103): Loads 2,048 bytes into the active lanes. -/
  | vld (k : Fin 50) (b : BitVec 52)
  /-- VST (R103): Stores the active lanes. -/
  | vst (k : Fin 50) (b : BitVec 52)
  /-- VRSUM (R104): Lane sum in a fixed tree order. -/
  | vrsum (k : Fin 50) (b : BitVec 52)
  /-- VRMAX (R104): Lane maximum in a fixed tree order. -/
  | vrmax (k : Fin 50) (b : BitVec 52)
  /-- VRMIN (R104): Lane minimum in a fixed tree order. -/
  | vrmin (k : Fin 50) (b : BitVec 52)
  /-- VEXP2 (R105): Correctly rounded 2^x. -/
  | vexp2 (k : Fin 50) (b : BitVec 52)
  /-- VLOG2 (R105): Correctly rounded log2 x. -/
  | vlog2 (k : Fin 50) (b : BitVec 52)
  /-- VRCP (R105): Correctly rounded 1/x. -/
  | vrcp (k : Fin 50) (b : BitVec 52)
  /-- VRSQRT (R105): Correctly rounded 1/sqrt x. -/
  | vrsqrt (k : Fin 50) (b : BitVec 52)
  /-- VSQRT (R105): Correctly rounded sqrt x. -/
  | vsqrt (k : Fin 50) (b : BitVec 52)
  /-- GMM (R109): Issues a grouped matrix multiply over n GDT entries, checked at issue and queued in the GMU. -/
  | gmm (k : Fin 50) (b : BitVec 52)
  /-- GMM_ENTRY_DONE (R111): The GMU finishes a GDT entry, or faults on it after issue, and increments the counter
  as ce selects. -/
  | gmmEntryDone (u : Fin 32) (upsets : Upsets)
  /-- GROUTE (R126): Issues scoring, selection and dispatch of T tokens of a layer. -/
  | groute (k : Fin 50) (b : BitVec 52)
  /-- GSELECT (R126): Issues scoring and selection of T tokens and the combine-table write, with no dispatch. -/
  | gselect (k : Fin 50) (b : BitVec 52)
  /-- GCLOSE (R127): Closes a layer for the step and hands one TALLY per receiving group to injection or local
  intake. -/
  | gclose (k : Fin 50) (b : BitVec 52)
  /-- GATE_DISPATCH_CHOICE (R137): The dispatch stage decides one choice against capacity, spill and NaN, opens
  its ledger record and sends or drops it. -/
  | gateDispatchChoice (g : Fin 8)
  /-- GATE_INSTR_COMPLETE (R126): A gate instruction completes once every choice has its fate and the combine
  table is visible, and increments cc. -/
  | gateInstrComplete (g : Fin 8)
  /-- INTAKE_TOKEN_RX (R142): An accepted TOKEN record is held until all tallies are in, or placed in its row and
  return list with an increment of cc. -/
  | intakeTokenRx (g : Fin 8)
  /-- INTAKE_TALLY_RX (R142): A TALLY record is accepted, and the last one of a group writes the GDT entries and
  LS_CNT values and accepts the held tokens. -/
  | intakeTallyRx (g : Fin 8)
  /-- GE_LEDGER_WRITE (R139): A GE_LEDGER write takes effect at the step boundary and zeroes the new ledger, or is
  ignored with F_GATE_LEDGER when it leaves gate SRAM. -/
  | geLedgerWrite (g : Fin 8) (v : Word)
  /-- COURSE_LOAD (R153): Writing COURSE_ACT.LOAD starts copying and checking a Course image, discarding any
  staged Course. -/
  | courseLoad (v : Word)
  /-- COURSE_LOAD_DONE (R153): The load check ends with STAGED, or with a refusal by F_DSP_COURSE or F_DSP_DEPTH.
  -/
  | courseLoadDone
  /-- SLOT_START (R156): At the start clk of a slot the port decides it FILLED, IDLE or OPEN. -/
  | slotStart (n : Fin 12)
  /-- SLOT_END (R160): At the end of a valid slot, MISSED increments if a packet present at its start still waits.
  -/
  | slotEnd (n : Fin 12)
  /-- DSP_PACKET_RX (R165): A DSP packet at its destination is checked against epochs and ingress counts, and
  passed to intake or discarded. -/
  | dspPacketRx (n : Fin 12) (p : Packet)
  /-- RET_PACKET_RX (R165): A RET packet is checked and written to its return buffer, closing its record as
  RETURNED, or is discarded. -/
  | retPacketRx (n : Fin 12) (p : Packet)
  /-- PACKET_TRANSIT (R251): A packet for another chip is routed, replicated or fenced, and queued on its onward
  port. -/
  | packetTransit (n : Fin 12) (p : Packet)
  /-- CANCEL_LIST_EXPIRY (R171): A cancel-list entry leaves 1,024 laps after it entered. -/
  | cancelListExpiry (c : Fin 2)
  /-- RINK_SCRUB (R178): In each clk with LCC mod 65,536 = 65,535, every bank reads, corrects and rewrites one
  line. -/
  | rinkScrub (errs : List RinkError)
  /-- RINK_LOCK (R180): Setting RINK_CFG.LOCK makes FWRES read-only until reset. -/
  | rinkLock (v : Word)
  /-- LOCKER_LOCK (R187): Setting LKR_CTL.LOCK checks the pools and fixed quotas, then locks them and fills the
  free queues, or refuses with F_LKR_CFG. -/
  | lockerLock (v : Word)
  /-- LKR_QUOTA_WRITE (R190): A quota write that would break the reserve invariants is ignored with F_LKR_CFG;
  otherwise it takes effect as R478 states. -/
  | lkrQuotaWrite (r : Fin 64) (p : Fin 6) (v : Word)
  /-- LOCKER_GRANT (R192): The Locker grants a waiting buffer request that may_take now allows, and returns its
  handle. -/
  | lockerGrant
  /-- BUFFER_ZERO_DONE (R195): A freed buffer finishes zeroing and joins its pool's free queue, dropping its
  charge. -/
  | bufferZeroDone
  /-- MEM_START (R222): Writing MEM_CTL.START in OFF starts training. -/
  | memStart (m : Fin 12)
  /-- MEM_CTL_WRITE (R227): A MEM_CTL write takes effect at once in OFF or at the next lap edge in RUN, and is
  ignored with F_MEM_CFG in other states. -/
  | memCtlWrite (m : Fin 12) (v : Word)
  /-- MEM_TRAINING_DONE (R222): Training ends, and the controller goes to ZEROING, HELD, RUN or FAILED. -/
  | memTrainingDone (m : Fin 12) (failed : BitVec 16) (p : Package)
  /-- MEM_ZEROING_DONE (R222): Zeroing ends, and the controller goes to HELD, or to RUN under RELEASE. -/
  | memZeroingDone (m : Fin 12)
  /-- MEM_REQUEST_SERVED (R209): A channel serves a request, checking and correcting each returned block or
  reporting an uncorrectable one. -/
  | memRequestServed (m : Fin 12) (r : MemService)
  /-- MEM_BASE_REFRESH (R213): A channel issues a per-bank base refresh at its scheduled stride. -/
  | memBaseRefresh (m : Fin 12) (ch : Fin 16)
  /-- MEM_EXTRA_REFRESH (R214): A channel issues a temperature-derated extra refresh at its offset stride. -/
  | memExtraRefresh (m : Fin 12) (ch : Fin 16)
  /-- MR4_POLL (R214): At each stride that is a multiple of 65,536, each controller reads MR4 of its channels and
  adopts their refresh rates. -/
  | mr4Poll (m : Fin 12) (rates : List (BitVec 3))
  /-- MEM_RFM (R214): A bank whose activation count reaches the threshold receives an RFM command before its next
  activate. -/
  | memRfm (m : Fin 12) (ch : Fin 16) (bank : Fin 16)
  /-- MEM_PATROL_SCRUB (R216): A scheduled scrub reads a line at POS and rewrites any block with a single-bit
  error. -/
  | memPatrolScrub (m : Fin 12) (ch : Fin 16) (upsets : Upsets)
  /-- MEM_RETRAIN_STEP (R218): A tracking step of 112 clk runs in a usable slot, and the last step applies or
  fails the pass. -/
  | memRetrainStep (m : Fin 12) (ch : Fin 16) (drift : BitVec 8) (ok : Bool)
  /-- MEM_TRAINLATE (R220): A channel's last pass becomes older than 2 x PERIOD_MS, and F_MEM_TRAINLATE is
  reported. -/
  | memTrainlate (m : Fin 12) (ch : Fin 16)
  /-- PORT_ENABLE (R238): Setting PORT_CTL.EN takes the port from DOWN to TRAIN, and is refused in a ring of size
  1. -/
  | portEnable (n : Fin 12) (v : Word)
  /-- PORT_DISABLE (R238): Clearing EN takes the port to DOWN. -/
  | portDisable (n : Fin 12) (v : Word)
  /-- PORT_TRAINING_DONE (R238): All lanes train, and the port enters HELLO. -/
  | portTrainingDone (n : Fin 12)
  /-- PORT_TRAIN_TIMEOUT (R238): A lane fails or 100 ms pass, and the port goes to FAILED with F_FAB_TRAIN. -/
  | portTrainTimeout (n : Fin 12) (lane : BitVec 3)
  /-- HELLO_RX (R239): A HELLO LCF is checked and measured, and the port moves to HELD, UP or CTLONLY, or stays in
  HELLO with F_FAB_PEER. -/
  | helloRx (n : Fin 12) (h : HelloArrival)
  /-- HELLO_RECHECK (R238): Every 1 ms a port in HELLO repeats its hello check. -/
  | helloRecheck (n : Fin 12)
  /-- LCF_GROUP_RX (R235): A group with its LCF is accepted or NAKed, and its credits, ACKSEQ and aggregation
  records are applied. -/
  | lcfGroupRx (n : Fin 12) (g : LcfGroup)
  /-- NAK_RX (R235): A NAK starts a replay from the named group, and the port FAILS after 8 consecutive NAKs for
  one group. -/
  | nakRx (n : Fin 12) (g : LcfGroup)
  /-- RETRY_TIMEOUT (R235): After 10 µs with no ACKSEQ advance, the sender replays from the oldest unacknowledged
  group. -/
  | retryTimeout (n : Fin 12)
  /-- LANE_LOCK_LOSS (R237): A lane without block lock for more than 1 µs takes the port to FAILED with
  F_FAB_LANE. -/
  | laneLockLoss (n : Fin 12) (lane : BitVec 3)
  /-- LANE_CODEWORD_LIMIT (R237): 16 uncorrectable codewords out of 1,024 on a lane take the port to FAILED. -/
  | laneCodewordLimit (n : Fin 12) (lane : BitVec 3)
  /-- FAILOVER_HELLO_RX (R265): A failover HELLO LCF gives the peer's last delivered group, from which the resend
  starts. -/
  | failoverHelloRx (n : Fin 12) (g : LcfGroup)
  /-- HEARTBEAT_SEND (R250): Every HB_SLOTS slots, an UP or CTLONLY port sends a heartbeat with its configuration
  and flit and credit totals. -/
  | heartbeatSend (n : Fin 12)
  /-- HEARTBEAT_RX (R250): A received heartbeat is checked by the credit auditor and against the configuration
  epoch and digest. -/
  | heartbeatRx (n : Fin 12) (p : Packet)
  /-- HEARTBEAT_LOSS (R250): No heartbeat for HB_MISS periods reports F_FAB_HBLOSS and sets HBLOST. -/
  | heartbeatLoss (n : Fin 12)
  /-- CTL_DATA_RX (R243): A CTL DATA packet at a member increments its counter, or is discarded as stray. -/
  | ctlDataRx (n : Fin 13) (p : Packet)
  /-- FENCE_RX (R262): A FENCE packet with a later epoch updates the fence table, and is forwarded in any case. -/
  | fenceRx (n : Fin 12) (p : Packet)
  /-- FENCE_TABLE_WRITE (R262): A control-space write of FAB_FENCEn changes the fence table and purges queued
  packets toward fenced chips. -/
  | fenceTableWrite (entry : BitVec 8) (v : Word)
  /-- MGROUP_WRITE (R257): FAB_MGSEL.WRITE stores a mask group entry, or refuses it with F_FAB_MGROUP, abandoning
  any pending aggregation. -/
  | mgroupWrite (idx : BitVec 12)
  /-- MGROUP_READ (R269): FAB_MGSEL.READ loads a mask group entry into FAB_MGDATA0 to 3. -/
  | mgroupRead (idx : BitVec 12)
  /-- FAB_CFG_WRITE (R269): A FAB_CFG write is refused with F_FAB_CFG while a port is HELD, UP or CTLONLY, or when
  its sizes are out of range. -/
  | fabCfgWrite (v : Word)
  /-- RADD (R276): Remote atomic add. -/
  | radd (k : Fin 50) (b : BitVec 52)
  /-- RMIN (R276): Remote atomic signed minimum. -/
  | rmin (k : Fin 50) (b : BitVec 52)
  /-- RMINU (R276): Remote atomic unsigned minimum. -/
  | rminu (k : Fin 50) (b : BitVec 52)
  /-- RMAX (R276): Remote atomic signed maximum. -/
  | rmax (k : Fin 50) (b : BitVec 52)
  /-- RMAXU (R276): Remote atomic unsigned maximum. -/
  | rmaxu (k : Fin 50) (b : BitVec 52)
  /-- RSWP (R276): Remote atomic swap. -/
  | rswp (k : Fin 50) (b : BitVec 52)
  /-- RCAS (R276): Remote compare and swap. -/
  | rcas (k : Fin 50) (b : BitVec 52)
  /-- RSTN (R276): Remote store with notify. -/
  | rstn (k : Fin 50) (b : BitVec 52)
  /-- REQ_RX (R277): A REQ reaches its target, draws a buffer and enters the channel's queue order. -/
  | reqRx (n : Fin 12) (p : Packet)
  /-- REQ_SERVED (R278): The target performs the operation and sends an RSP with its status, incrementing cc on
  NOTIFY. -/
  | reqServed (op : Nat) (upsets : Upsets)
  /-- RSP_RX (R279): An RSP is matched by SEQ and completes the operation, or faults on a bad status, or is
  discarded as stray. -/
  | rspRx (n : Fin 12) (p : Packet)
  /-- REMOTE_TIMEOUT (R285): An outstanding entry reaches TIMEOUT without an RSP, and the context faults with
  F_RMEM_DEAD. -/
  | remoteTimeout (op : Nat)
  /-- RMEM_CTL_WRITE (R287): An RMEM_CTL write with TIMEOUT = 0 or a non-zero reserved field is ignored with
  F_RMEM_CFG. -/
  | rmemCtlWrite (c : Fin 2) (v : Word)
  /-- RPOST (R290): Copies an operation descriptor into the stream's trigger table. -/
  | rpost (k : Fin 50) (b : BitVec 52)
  /-- RCANCEL (R290): Removes every unfired operation of the stream, then increments cc. -/
  | rcancel (k : Fin 50) (b : BitVec 52)
  /-- RADMIT (R300): Queues a request for Reduction Store entries for a collective ID, checked at issue. -/
  | radmit (k : Fin 50) (b : BitVec 52)
  /-- RFREE (R302): Frees every entry that a collective still holds. -/
  | rfree (k : Fin 50) (b : BitVec 52)
  /-- TRIGGER_FIRE (R289): A posted operation's counter reaches THRESH, and the operation enters the run queue. -/
  | triggerFire (e : Fin 4) (c : Fin 2)
  /-- RELAY_PUT (R292): A fired PUT sends its bytes or exported chunk as COL packets, or writes them locally. -/
  | relayPut (x : RelayTurn)
  /-- RELAY_RPUT (R292): A fired RPUT sends a contribution to a collective chunk. -/
  | relayRput (x : RelayTurn)
  /-- RELAY_GATHER (R292): A fired GATHER sends concatenated pieces from a list. -/
  | relayGather (e : Fin 4)
  /-- RELAY_SCATTER (R295): A fired SCATTER sends one row per list entry, as RET packets when RETC = 1. -/
  | relayScatter (e : Fin 4)
  /-- RELAY_OP_END (R294): An operation's last packet leaves, and DCC is incremented and a FREE chunk is freed. -/
  | relayOpEnd (e : Fin 4)
  /-- RS_ADMIT_GRANT (R301): The head admission request fits, and is granted whole, with GRANTCC incremented and a
  grant notice sent. -/
  | rsAdmitGrant (c : Fin 2)
  /-- COL_PUT_RX (R296): A PUT packet is checked by epoch and landed in its landing zone, incrementing RCC. -/
  | colPutRx (n : Fin 13) (p : Packet)
  /-- COL_RPUT_RX (R303): An RPUT packet is checked and queued to combine into its chunk. -/
  | colRputRx (n : Fin 13) (p : Packet)
  /-- RS_COMBINE_DONE (R302): A contribution finishes combining, and the chunk moves to FILLING or COMPLETE with
  DONECC incremented. -/
  | rsCombineDone (faults : List AdderFault)
  /-- POISON_NOTICE_RX (R310): A poison notice taints the running step, or is stale or stray, or raises
  F_COL_LATEPOISON. -/
  | poisonNoticeRx (n : Fin 13) (p : Packet)
  /-- RS_CFG_WRITE (R317): An RS_CFG write is ignored with F_COL_CFG while an entry is held or when RT_ENTRIES
  exceeds 256. -/
  | rsCfgWrite (v : Word)
  /-- CREATE (R328): Checks the context's job, windows and piste map, and moves it to PREPARED or reports
  F_CTX_CFG. -/
  | create (c : Fin 2) (v : Word)
  /-- PREEMPT (R334): Stops the general context's streams and starts writing the save image. -/
  | preempt (c : Fin 2) (v : Word)
  /-- SAVE_COMPLETE (R334): The stream part of the save image is written, and the context becomes SAVED. -/
  | saveComplete (upsets : Upsets)
  /-- RESUME (R336): Reads the save image back and schedules the return to RUN at the edge of LAP. -/
  | resume (c : Fin 2) (v : Word)
  /-- HALT (R327): At the edge of LAP the context becomes HALTED, and its step commits or is cancelled. -/
  | halt (c : Fin 2) (v : Word)
  /-- DESTROY (R338): Releases everything the context holds without a code and returns it to NONE. -/
  | destroy (c : Fin 2) (v : Word)
  /-- TEARDOWN (R338): Tears the context down with F_CTX_TEARDOWN. -/
  | teardown (c : Fin 2) (v : Word)
  /-- CTX_RSET_WRITE (R323): A CTX_RSET write is taken only while both contexts are NONE, and is otherwise ignored
  with F_CTX_CFG. -/
  | ctxRsetWrite (v : Word)
  /-- CTX_JOB_WRITE (R328): A CTX_JOB write that changes SEPOCH in DELIVERED returns the context to PREPARED, and
  forbidden writes report F_CTX_CFG. -/
  | ctxJobWrite (c : Fin 2) (v : Word)
  /-- CTX_PISTE_WRITE (R328): A CTX_PISTE write is checked against the PMAP conditions and ignored if it fails
  them. -/
  | ctxPisteWrite (c : Fin 2) (v : Word)
  /-- DELIVER_RX (R331): A DELIVER copy is accepted, moving the context to DELIVERED, or counted pruned. -/
  | deliverRx (n : Fin 13) (p : Packet)
  /-- COMMIT_RX (R331): A COMMIT copy records START_LAP, or is late or refused, and is counted as such. -/
  | commitRx (n : Fin 13) (p : Packet)
  /-- JOB_LEAD_START (R332): Writing JOB_LEAD.START checks the leader and sends DELIVER on the mask group, or
  refuses with F_JOB_LEAD. -/
  | jobLeadStart (v : Word)
  /-- LEAD_PHASE_COMPLETE (R332): The aggregated count of a start phase reaches MEMBERS, and the leader sends
  COMMIT or ends DONE, FAILED or SHORT. -/
  | leadPhaseComplete
  /-- LEAD_PHASE_TIMEOUT (R332): A start phase is not complete within TIMEOUT, and F_JOB_STARTTMO is reported. -/
  | leadPhaseTimeout
  /-- SNP_CFG_WRITE (R345): An SNP_AREA or region write is taken only while allowed, and is otherwise ignored with
  F_SNP_CFG. -/
  | snpCfgWrite (off : BitVec 24) (v : Word)
  /-- SNP_SWEEP_PAGE (R347): The sweep copies a PENDING page to the rolling image, and the page becomes CLEAN. -/
  | snpSweepPage (c : Fin 2) (upsets : Upsets)
  /-- WRITE_PRESERVE_DONE (R348): A write held on a PENDING or uncopied page is released once the page's copy has
  been read, and the page becomes DIRTY. -/
  | writePreserveDone (c : Fin 2) (page : Nat) (upsets : Upsets)
  /-- ROLLBACK_COPY_DONE (R350): The copy-back of the DIRTY pages ends, and held writes and template release may
  proceed. -/
  | rollbackCopyDone (c : Fin 2) (upsets : Upsets)
  /-- CKPT_REQUEST (R352): SNP_CKPT REQ requests a checkpoint at a step boundary, or is refused with
  F_SNP_CKPTBUSY. -/
  | ckptRequest (c : Fin 2) (v : Word)
  /-- CKPT_RELEASE (R352): SNP_CKPT RELEASE discards the drain image, which becomes IDLE. -/
  | ckptRelease (c : Fin 2) (v : Word)
  /-- DRAIN_COPY_PAGE (R352): The drain copy copies one page, and the last page seals the image. -/
  | drainCopyPage (c : Fin 2) (upsets : Upsets)
  /-- SRD (R355): Reads part of a shard into the Rink and feeds its digest, or sends it to the host as a DRAIN
  capsule. -/
  | srd (k : Fin 50) (b : BitVec 52)
  /-- SDIG (R355): Finishes a digest context and writes the shard header. -/
  | sdig (k : Fin 50) (b : BitVec 52)
  /-- SMAN (R355): Builds and signs the manifest, making the drain image SIGNED. -/
  | sman (k : Fin 50) (b : BitVec 52)
  /-- SNAPSHOT_INSTR_COMPLETE (R355): A snapshot instruction completes and increments cc[cc]. -/
  | snapshotInstrComplete (c : Fin 2)
  /-- RESTORE_START (R357): SNP_RSTCTL START begins a restore by discarding the drain image and checking the list
  and manifests. -/
  | restoreStart (v : Word)
  /-- RESTORE_CHECK_DONE (R357): The list and manifest checks end in FEEDING or REJECTED. -/
  | restoreCheckDone
  /-- RESTORE_FEED (R357): Writing SNP_RSTFEED1 feeds a piece, which is hashed and staged, and a shard's close
  compares its digest. -/
  | restoreFeed (v : Word)
  /-- RESTORE_COMMIT (R358): COMMIT in FEEDING with every shard good starts copying staging to the live regions.
  -/
  | restoreCommit (v : Word)
  /-- RESTORE_COPY_DONE (R358): The commit copy ends, every page becomes PENDING, and the restore is DONE. -/
  | restoreCopyDone
  /-- RESTORE_ABANDON (R358): ABANDON discards the staging area, stopping a commit copy in progress. -/
  | restoreAbandon (v : Word)
  /-- HOST_PORT_ENABLE (R362): Setting HP_CTL.EN brings a host port from DOWN to TRAIN. -/
  | hostPortEnable (n : Fin 2) (v : Word)
  /-- HOST_TRAINING_DONE (R362): A host port finishes training, and enters HELD or UP under RELEASE. -/
  | hostTrainingDone (n : Fin 2)
  /-- HOST_LINK_LOSS (R362): Loss of link on an UP host port reports F_HOST_LINK and retrains it. -/
  | hostLinkLoss (n : Fin 2)
  /-- ARP_RX (R361): An ARP request for the port's own address is answered. -/
  | arpRx (n : Fin 2) (f : Frame)
  /-- NEIGHBOUR_SOLICITATION_RX (R361): An IPv6 neighbour solicitation for the port's own address is answered. -/
  | neighbourSolicitationRx (n : Fin 2) (f : Frame)
  /-- FRAME_DISCARD (R361): Any other received frame is discarded and counted in DROP. -/
  | frameDiscard (d : DiscardedFrame)
  /-- INIT_RX (R367): An INIT frame for a FREE session is answered with a signed RESP, and the session enters
  RESP_SENT. -/
  | initRx (n : Fin 2) (f : Frame)
  /-- FIN_RX (R366): A verified FIN opens the session, and a failed one frees it with F_WCP_AUTH. -/
  | finRx (n : Fin 2) (f : Frame)
  /-- HANDSHAKE_TIMEOUT (R366): 5 ms in RESP_SENT without a FIN frees the session with F_WCP_AUTH. -/
  | handshakeTimeout (x : Fin 16)
  /-- CAPSULE_RX (R370): A CAPSULE frame is verified and accepted, or discarded as a duplicate or beyond the
  window. -/
  | capsuleRx (n : Fin 2) (f : Frame)
  /-- WCP_ACK_SEND (R370): An ACK frame covering recent acceptances is sent within 10 µs. -/
  | wcpAckSend (x : Fin 16)
  /-- ACK_RX (R372): An ACK from the host advances the device capsules' CUM and completes acknowledged drain
  capsules. -/
  | ackRx (n : Fin 2) (f : Frame)
  /-- CLOSE_RX (R366): A verified CLOSE frees the session. -/
  | closeRx (n : Fin 2) (f : Frame)
  /-- SESSION_IDLE_TIMEOUT (R366): IDLE ms without a verified frame free an OPEN session. -/
  | sessionIdleTimeout (x : Fin 16)
  /-- WCP_RETRANSMIT (R372): Every RTO µs unacknowledged device capsules are resent, and RETRY_MAX periods without
  progress close the session. -/
  | wcpRetransmit (x : Fin 16)
  /-- SESSION_KILL (R366): Writing WCP_SESSs.KILL frees the session at once. -/
  | sessionKill (x : Fin 16)
  /-- MREAD (R374): Executes a management read of COUNT registers and returns them in an MRSP. -/
  | mread (x : Fin 16)
  /-- MWRITE (R374): Executes a management write of COUNT registers and returns an MRSP status. -/
  | mwrite (x : Fin 16)
  /-- PUT (R375): Checks a PUT capsule, then writes its payload and adds CCADD, or holds it for the next step
  boundary. -/
  | put (x : Fin 16)
  /-- WCP_NOP (R373): A NOP capsule is executed with no effect. -/
  | wcpNop (x : Fin 16)
  /-- BOOT_SLOT_VERIFIED (R383): Verification of a slot ends: a pass gives RELEASE and starts the firmware, a
  failure tries the other slot or gives DISCARD. -/
  | bootSlotVerified
  /-- LC_ADVANCE (R389): Checks a lifecycle token and makes the transition, or refuses it with F_SEC_LC or
  F_SEC_TOKEN. -/
  | lcAdvance (arg : BitVec 8)
  /-- DBG_SET (R391): Changes the debug level as the matrix allows, zeroising the identity keys on entry to D3. -/
  | dbgSet (arg : BitVec 8)
  /-- CRED_INSTALL (R394): Stores a staged host credential in the table. -/
  | credInstall (arg : BitVec 8)
  /-- CRED_REVOKE (R394): Clears a credential and closes every session using it. -/
  | credRevoke (arg : BitVec 8)
  /-- CERT_INSTALL (R390): Installs a certificate token whose keys and signatures check. -/
  | certInstall (arg : BitVec 8)
  /-- ATTEST (R388): Fills the quote window with a dual-signed quote over the host nonce. -/
  | attest (arg : BitVec 8)
  /-- SVN_COMMIT (R386): Blows fuse steps until the counter equals the running image's SVN. -/
  | svnCommit
  /-- SS_WRITE (R397): Writes 32 KiB of the image buffer into a slot at OFFSET. -/
  | ssWrite (slot : Bool) (off : BitVec 10)
  /-- SS_VERIFY (R397): Applies the boot checks to a slot and records the result. -/
  | ssVerify (slot : Bool)
  /-- SS_ACTIVATE (R397): Makes a verified slot preferred for the next reset. -/
  | ssActivate (slot : Bool)
  /-- SS_STORE (R396): Writes a settings record into the next copy. -/
  | ssStore
  /-- SS_WEAR_SCAN (R395): The wear manager reads a block, rewrites or moves it, and reports F_SEC_SS when it is
  uncorrectable. -/
  | ssWearScan (block : Nat) (uncorrectable : Bool)
  /-- CENSUS_START (R399): Writing CFG_CENSUS.START sends a CENSUS packet on the group from this root. -/
  | censusStart (v : Word)
  /-- CENSUS_RX (R399): A CENSUS packet is replicated, and the chip samples at the sample lap or at once if late.
  -/
  | censusRx (n : Fin 13) (p : Packet)
  /-- CENSUS_LCF_RX (R400): A pair of CENSUS LCFs is aggregated, and the result is sent toward the root or
  recorded there. -/
  | censusLcfRx (n : Fin 12) (r : CensusGroups)
  /-- CENSUS_TIMEOUT (R401): TIMEOUT strides pass at the root, and the census ends INCOMPLETE with F_SEC_CENSUS.
  -/
  | censusTimeout
  /-- TELEMETRY_SAMPLE (R415): At each sample stride the sampler reads its selections and queues a record. -/
  | telemetrySample
  /-- TELEMETRY_RECORD_WRITE (R417): A queued record is written to the ring through port 50, or dropped when the
  queue is full. -/
  | telemetryRecordWrite
  /-- TEL_CTL_WRITE (R418): Enabling the sampler with a bad ring or period is ignored and sets CFGERR. -/
  | telCtlWrite (v : Word)
  /-- READ_WINDOW_READ (R419): A read of the read window makes one Rink access as the debug level allows. -/
  | readWindowRead (off : BitVec 24)
  /-- STANDSTILL_ARMED (R420): At CT DBG_SSCT with ARM set, a standstill capture is taken. -/
  | standstillArmed
  /-- STANDSTILL_NOW (R420): Writing DBG_SSCTL.NOW takes a capture at once. -/
  | standstillNow (v : Word)
  /-- STANDSTILL_WRITE_DONE (R420): The capture has been written to the buffer, and DONE is set. -/
  | standstillWriteDone
  /-- DBG_RESUME (R422): Resumes a stream in BRK. -/
  | dbgResume (v : Word)
  /-- DBG_STEP (R422): Issues one instruction of a stream in BRK and returns it to BRK. -/
  | dbgStep (v : Word)
  /-- FREEZE_ASSERT (R423): FREEZE_N low for 1 µs at D3 captures a standstill and stops issue and Rink grants. -/
  | freezeAssert
  /-- FREEZE_MEM_STOP (R423): One clk after a freeze, the memory controllers stop and enter self-refresh. -/
  | freezeMemStop
  /-- FREEZE_CLOCK_STOP (R423): 256 clk after a freeze, every clock outside the always-on domain stops. -/
  | freezeClockStop
  /-- CSPACE (R424): JTAG CSPACE reads or writes control space, RO fields included. -/
  | cspace (write : Bool) (off : BitVec 24) (v : Word)
  /-- SCAN_DUMP (R424): JTAG SCAN_DUMP shifts the read-out segments through TDO. -/
  | scanDump
  /-- RO_START (R425): JTAG RO_START sends the segments named by the mask on the fast read-out port. -/
  | roStart (mask : BitVec 16)
  /-- IDCODE (R465): JTAG IDCODE selects the 32-bit identification register. -/
  | idcode
  /-- BYPASS (R465): JTAG BYPASS selects the 1-bit register. -/
  | bypass
  /-- SAMPLE_PRELOAD (R465): JTAG SAMPLE/PRELOAD selects the boundary scan chain. -/
  | samplePreload
  /-- EXTEST (R465): JTAG EXTEST drives the pins from the boundary scan chain. -/
  | extest (pins : Word)
  /-- TAP_RESET (R450): TRST_N resets only the TAP. -/
  | tapReset
  /-- SUPPLY_EXCURSION (R431): A supply out of its band for more than 1 µs sets ALARM and LIMIT and reports
  F_PWR_SUPPLY. -/
  | supplyExcursion (n : Fin 9) (now : BitVec 16)
  /-- POWER_AVERAGE_10MS (R436): At the end of each 10 ms window, an average above 1,500 W reports F_PWR_POWER and
  sets LIMIT. -/
  | powerAverage10ms (w : BitVec 16)
  /-- POWER_AVERAGE_1S (R436): At the end of each 1 s window, an average above 1,350 W reports F_PWR_POWER. -/
  | powerAverage1s (w : BitVec 16)
  /-- THERMAL_SAMPLE (R437): Every 1,024 clk each sensor is read, and the device reports F_PWR_THERM or trips at
  115 °C. -/
  | thermalSample (temps : List (BitVec 16))
  /-- PWR_DOM_WRITE (R439): A domain write is applied at the next lap edge, or refused whole with F_PWR_DOM. -/
  | pwrDomWrite (dom : Fin 2) (v : Word)
  /-- DOMAIN_SWITCH (R440): A domain's turn comes in ascending order, and it is usable 40 µs later. -/
  | domainSwitch
  /-- P0 (R442): Returns from P1 by restoring domains, or, over I3C in P2, starts a retention exit. -/
  | p0 (path : Path)
  /-- P1 (R442): With no context in RUN or SAVING, switches off domains 0 to 39 at the lap edge. -/
  | p1 (path : Path)
  /-- P2 (R444): Checks the retention conditions and starts P2 entry at the lap edge. -/
  | p2 (path : Path)
  /-- WARM (R442): A power command from an allowed writer performs a warm reset. -/
  | warm (path : Path)
  /-- P2_ENTRY_DONE (R444): The retention part is written, the ports and memory rest and the domains are off, so
  STATE becomes P2 with an interrupt. -/
  | p2EntryDone
  /-- REFCLK_LOSS (R447): The active core reference has no edge for 200 ns, and the PLL switches to the other with
  F_PWR_REFCLK. -/
  | refclkLoss
  /-- REFCLK_BOTH_LOST (R447): Both core references absent for 100 µs is a device fault with F_PWR_CLKLOSS. -/
  | refclkBothLost
  /-- SREFCLK_LOSS (R448): Loss of a SerDes reference fails every port of that fabric die. -/
  | srefclkLoss (die : Fin 2)
  /-- COLD_RESET (R450): Power-up, or PORST_N low for 10 µs, resets everything including RWS fields. -/
  | coldReset
  /-- WARM_RESET (R450): WRST_N low for 1 µs, or a WARM command, resets all but RWS fields, the always-on domain
  and the supplies. -/
  | warmReset
  /-- RESET_RELEASE (R451): On release of PORST_N or WRST_N, or retention exit, start-up runs: fuses, keys,
  VDD_CORE, zeroing, training and verification. -/
  | resetRelease
  /-- I3C_PRIVATE_WRITE (R434): A BMC private write of an offset and 8 bytes writes an allowed register. -/
  | i3cPrivateWrite (off : BitVec 24) (v : Word)
  /-- I3C_PRIVATE_READ (R434): A BMC private read returns an allowed register, clearing RC fields. -/
  | i3cPrivateRead (off : BitVec 24)
  /-- SETDASA (R434): The I3C SETDASA command assigns the dynamic address. -/
  | setdasa (addr : BitVec 7)
  /-- ENTDAA (R434): The I3C ENTDAA procedure assigns the dynamic address. -/
  | entdaa (addr : BitVec 7)
  /-- HOST_PORT_DISABLE (R362): Clearing HP_CTL.EN takes a host port to DOWN, with its transmitters in electrical
  idle. -/
  | hostPortDisable (n : Fin 2) (v : Word)
  /-- REFCLK_RETURN (R447): A lost core reference clock that returns becomes the standby reference, and its
  presence bit in CLK_STATUS is set again. -/
  | refclkReturn
  /-- SUPPLY_IN_BAND (R431): At power-up a supply enters its band, and the always-on domain records F_PWR_SEQ and
  sets LIMIT if its predecessor is not yet in band. -/
  | supplyInBand (n : Fin 9)
  /-- LEDGER_ZEROING_DONE (R139): The writing of zeros over a newly effective ledger ends, and the dispatch stage
  that waited on it resumes at record 0. -/
  | ledgerZeroingDone (g : Fin 8)
  /-- SAVE_IMAGE_READBACK_DONE (R336): The read-back of a saved context's stream part, begun by RESUME, ends
  within 1 ms, or tears the context down with F_CTX_SAVE on an uncorrectable error. -/
  | saveImageReadbackDone (upsets : Upsets)
  /-- RETENTION_RESTORE_DONE (R337): After a retention exit, the restore of the retention part ends with every
  handle unchanged, and RESUME is no longer refused. -/
  | retentionRestoreDone
  /-- STORE_COMPLETE (R70): A local ST or VST completes, leaving the stream's outstanding count and releasing a
  waiting FENCE or END. -/
  | storeComplete (k : Fin 50) (op : Nat)
  /-- PACKET_LAST_FLIT_SENT (R161): A packet's last flit leaves a port, its buffer is freed and its credits
  returned, and the port chooses the next packet at that boundary. -/
  | packetLastFlitSent (n : Fin 12)
  /-- SS_COMMAND_DONE (R396): A Setting Store command such as STORE, WRITE or VERIFY completes, writes its result
  and clears SS_STATUS.BUSY. -/
  | ssCommandDone
  /-- SEC_COMMAND_DONE (R388): A security command such as ATTEST completes within its time limit, fills its window
  and clears SEC_STATUS.BUSY. -/
  | secCommandDone
  deriving DecidableEq, Repr

end Sys2Proof
end

