-- ==== Sys2Proof/WellFormed.lean ====
section
/-!
DEFINITION. What the operands of a command must be for the command to be one that the spec describes: aligned control-space
offsets, packets that carry the payload their header announces, and reports of the length their unit has.
-/

namespace Sys2Proof

/-- A control-space offset is 8-byte aligned (R374). -/
def offsetWf (off : BitVec 24) : Bool := off.toNat % 8 == 0

/-- The payload has the 16-byte units that LEN announces, at most 1,088 of them (R242). -/
def Packet.wf (p : Packet) : Bool :=
  p.payload.length == 16 * bitsOf p.w0.toNat 10 0 && decide (bitsOf p.w0.toNat 10 0 ≤ 1088)

/-- A Rink error names a 16-byte word of the 384 MiB Rink (R177). -/
def RinkError.wf (e : RinkError) : Bool := e.addr.toNat % 16 == 0 && decide (e.addr.toNat < 384 * 2 ^ 20)

/-- A request is made of 16-byte granules within one ECC line (R208). -/
def MemService.wf (r : MemService) : Bool :=
  r.addr.toNat % 16 == 0 && decide (0 < r.granules.toNat) && decide (r.addr.toNat % 1984 + 16 * r.granules.toNat ≤ 1984)

/-- A frame holds its two addresses and its type, and at most 9,216 bytes with its FCS (R361). -/
def Frame.wf (f : Frame) : Bool := decide (14 ≤ f.bytes.length) && decide (f.bytes.length ≤ 9212)

/-- A group has 31 flits of 64 bytes (R233). -/
def LcfGroup.wf (g : LcfGroup) : Bool := g.flits.length == 1984

/-- The operands are ones that the command's rule describes. -/
def Instr.wf : Instr → Bool
  | .regWrite _ off _ | .deferredSettingWrite _ off _ | .snpCfgWrite off _ | .readWindowRead off | .cspace _ off _
  | .i3cPrivateWrite off _ | .i3cPrivateRead off => offsetWf off
  | .overrunRx _ p | .dspPacketRx _ p | .retPacketRx _ p | .packetTransit _ p | .heartbeatRx _ p | .ctlDataRx _ p
  | .fenceRx _ p | .reqRx _ p | .rspRx _ p | .colPutRx _ p | .colRputRx _ p | .poisonNoticeRx _ p | .deliverRx _ p
  | .commitRx _ p | .censusRx _ p => p.wf
  | .lapMarkerRx m => m.packet.wf
  | .helloRx _ h => h.group.wf
  | .lcfGroupRx _ g | .nakRx _ g | .failoverHelloRx _ g => g.wf
  | .censusLcfRx _ r => r.first.wf && r.second.wf
  | .ptpLapEdge _ _ ns => decide (ns.toNat < 1000000000)
  | .arpRx _ f | .neighbourSolicitationRx _ f | .ptpMessageRx _ f | .initRx _ f | .finRx _ f | .capsuleRx _ f | .ackRx _ f | .closeRx _ f => f.wf
  | .rinkScrub errs => errs.all RinkError.wf
  | .ldComplete _ _ u | .xmovComplete _ _ u | .gmmEntryDone _ u | .memPatrolScrub _ _ u | .reqServed _ u | .saveComplete u
  | .snpSweepPage _ u | .writePreserveDone _ _ u | .rollbackCopyDone _ u | .drainCopyPage _ u | .saveImageReadbackDone u =>
    u.rink.all RinkError.wf
  | .memRequestServed _ r => r.wf
  | .mr4Poll _ rates => rates.length == 16
  | .thermalSample temps => temps.length == 24
  | .ssWearScan block _ => decide (block < 2 ^ 20)
  | _ => true

end Sys2Proof
end

