-- ==== Sys2Proof/Decode.lean ====
section
/-!
DEFINITION. No row of spec/opcode_table.json gives its command any bits, so no word spells a command by the table: the block takes its
commands as they are, from outside. What a Velim instruction word says, by the opcode map of R62, is here too.
-/

namespace Sys2Proof

/-- The command that a word spells by the table's bits: none, as no row has any. -/
def decodeTableWord (_nbits _w : Nat) : Option Instr := none

/-- MAJ and MIN of a Velim word (R60). -/
def velimMaj (w : BitVec 64) : Nat := (w >>> 58).toNat
def velimMin (w : BitVec 64) : Nat := (w >>> 52).toNat % 64

/-- The instruction that a Velim word is on stream `k`: its major and minor opcode pick it (R60, R62, R64 to R76, R100 to R109, R125, R276,
R290, R355), and the word's other bits are its operands; none where either is reserved (R63). The all-zero word is NOP. -/
def velimInstr (k : Fin 50) (w : BitVec 64) : Option Instr :=
  let b := w.setWidth 52
  let pick (l : List Instr) : Option Instr := l[velimMin w]?
  let pickSome (l : List (Option Instr)) : Option Instr := (l[velimMin w]?).join
  match velimMaj w with
  | 0x00 => pick [.nop k b, .endInstance k b, .trap k b, .brk k b, .fence k b, .mfsr k b, .mtsr k b]
  | 0x01 => pick [.add k false b, .sub k false b, .and k false b, .or k false b, .xor k false b, .shl k false b,
      .shr k false b, .sra k false b, .mul k false b, .mulhu k b, .mulhs k b, .min k false b,
      .minu k false b, .max k false b, .maxu k false b, .clz k b, .popc k b, .sel k b]
  | 0x02 => pickSome [some (.add k true b), some (.sub k true b), some (.and k true b), some (.or k true b),
      some (.xor k true b), some (.shl k true b), some (.shr k true b), some (.sra k true b),
      some (.mul k true b), none, none, some (.min k true b), some (.minu k true b), some (.max k true b),
      some (.maxu k true b)]
  | 0x03 => pick [.movi k b, .movhi k b]
  | 0x04 => pick [.cmpEq k false b, .cmpNe k false b, .cmpLt k false b, .cmpGe k false b, .cmpLtu k false b,
      .cmpGeu k false b]
  | 0x05 => pick [.cmpEq k true b, .cmpNe k true b, .cmpLt k true b, .cmpGe k true b, .cmpLtu k true b,
      .cmpGeu k true b]
  | 0x06 => pick [.pand k b, .por k b, .pxor k b, .pandn k b]
  | 0x07 => pick [.amov k b, .smov k b, .aadd k b, .aaddi k b]
  | 0x08 => pick [.ld k b]
  | 0x09 => pick [.st k b]
  | 0x0A => pick [.br k b, .call k b, .ret k b, .loop k b]
  | 0x0B => pick [.waitCc k b, .waitCcr k b, .waitSt k b, .waitCt k b]
  | 0x0C => pick [.ccSet k b, .ccAdd k b, .ccRd k b, .ccSetr k b]
  | 0x0D => pick [.bufAlloc k b, .bufTry k b, .bufRef k b, .bufFree k b, .bufAddr k b, .bufSize k b]
  | 0x0E => pick [.xmov k b]
  | 0x20 => pick [.vadd k b, .vsub k b, .vmul k b, .vfma k b, .vmin k b, .vmax k b, .vabs k b, .vneg k b, .vmov k b,
      .vbcast k b, .viota k b, .viadd k b, .visub k b, .vand k b, .vor k b, .vxor k b, .vshl k b,
      .vshr k b]
  | 0x21 => pickSome [some (.vcmpEq k b), some (.vcmpLt k b), some (.vcmpLe k b), some (.vcmpUn k b), some (.vicmpEq k b),
      some (.vicmpLt k b), none, none, some (.vsel k b)]
  | 0x22 => pick [.vcvt k b, .vext k b]
  | 0x23 => pick [.vld k b, .vst k b]
  | 0x24 => pick [.vrsum k b, .vrmax k b, .vrmin k b]
  | 0x25 => pick [.vexp2 k b, .vlog2 k b, .vrcp k b, .vrsqrt k b, .vsqrt k b]
  | 0x28 => pick [.gmm k b]
  | 0x30 => pick [.groute k b, .gselect k b]
  | 0x31 => pick [.gclose k b]
  | 0x38 => pick [.rpost k b, .rcancel k b]
  | 0x39 => pick [.radmit k b, .rfree k b]
  | 0x3C => pick [.radd k b, .rmin k b, .rminu k b, .rmax k b, .rmaxu k b, .rswp k b, .rcas k b, .rstn k b]
  | 0x3D => pick [.srd k b, .sdig k b, .sman k b]
  | _ => none

/-- The bit that INFO names for a word with a reserved opcode: 52 where the minor is reserved, 58 where the major is (R81). -/
def reservedAt (k : Fin 50) (w : BitVec 64) : Nat :=
  if (velimInstr k (BitVec.ofNat 64 (velimMaj w * 2 ^ 58))).isSome then 52 else 58

end Sys2Proof
end

