-- ==== Sys2Proof/Machine/Crc.lean ====
section
/-!
DEFINITION. The cyclic redundancy checks the spec names: CRC-32 of IEEE 802.3 (R234, R244), the CRC-16 of R207 and the CRC-64 of
ECMA-182 as R412 parametrises it.
-/

namespace Sys2Proof.Machine

/-- One bit of the reflected CRC-32. -/
def crc32Bit (c : BitVec 32) : BitVec 32 :=
  if c.getLsbD 0 then (c >>> 1) ^^^ 0xEDB88320#32 else c >>> 1

/-- CRC-32 of IEEE 802.3 over a byte string. -/
def crc32 (l : List Byte) : BitVec 32 :=
  ~~~ (l.foldl (fun c b => (List.range 8).foldl (fun x _ => crc32Bit x) (c ^^^ b.setWidth 32)) (0xFFFFFFFF#32))

/-- One bit of the CRC-16, not reflected. -/
def crc16Bit (c : BitVec 16) : BitVec 16 := if c.getLsbD 15 then (c <<< 1) ^^^ 0x1021#16 else c <<< 1

/-- CRC-16 with polynomial 0x1021, initial value 0xFFFF, no reflection and no final XOR (R207). -/
def crc16 (l : List Byte) : BitVec 16 :=
  l.foldl (fun c b => (List.range 8).foldl (fun x _ => crc16Bit x) (c ^^^ BitVec.shiftLeft (b.setWidth 16) 8)) 0xFFFF#16

/-- One bit of the CRC-64, not reflected. -/
def crc64Bit (c : BitVec 64) : BitVec 64 :=
  if c.getLsbD 63 then (c <<< 1) ^^^ 0x42F0E1EBA9EA3693#64 else c <<< 1

/-- CRC-64 with the ECMA-182 polynomial, initial value 0, no reflection and no final XOR (R412). -/
def crc64 (l : List Byte) : BitVec 64 :=
  l.foldl (fun c b => (List.range 8).foldl (fun x _ => crc64Bit x) (c ^^^ BitVec.shiftLeft (b.setWidth 64) 56)) 0#64

end Sys2Proof.Machine
end

