-- ==== Sys2Proof/Machine/Codes.lean ====
section
/-!
DEFINITION. Every fault code, by its name (R11, R476).
-/

namespace Sys2Proof.Machine

def F_LAP_CFG : Nat := 0x0101
def F_LAP_RANGE : Nat := 0x0102
def F_LAP_MARKER : Nat := 0x0103
def F_LAP_HOLDEXP : Nat := 0x0104
def F_LAP_OVERRUN : Nat := 0x0105
def F_LAP_LATEOVR : Nat := 0x0106
def F_ISA_FETCH : Nat := 0x0201
def F_ISA_ENC : Nat := 0x0202
def F_ISA_SPR : Nat := 0x0203
def F_ISA_ENGINE : Nat := 0x0204
def F_ISA_SPACE : Nat := 0x0205
def F_ISA_RANGE : Nat := 0x0206
def F_ISA_OWN : Nat := 0x0207
def F_ISA_ALIGN : Nat := 0x0208
def F_ISA_AOVF : Nat := 0x0209
def F_ISA_TRAP : Nat := 0x020A
def F_ISA_BRK : Nat := 0x020B
def F_ISA_WAITLIM : Nat := 0x020C
def F_ISA_TQOVF : Nat := 0x020D
def F_ISA_TMPL : Nat := 0x020E
def F_ISA_FMT : Nat := 0x020F
def F_ISA_GDT : Nat := 0x0210
def F_GATE_DESC : Nat := 0x0301
def F_GATE_CLOSED : Nat := 0x0302
def F_GATE_EHT : Nat := 0x0303
def F_GATE_LEDGER : Nat := 0x0304
def F_GATE_TALLY : Nat := 0x0305
def F_GATE_INTAKE : Nat := 0x0306
def F_GATE_CNTDUP : Nat := 0x0307
def F_DSP_COURSE : Nat := 0x0401
def F_DSP_DEPTH : Nat := 0x0402
def F_DSP_FLOW : Nat := 0x0403
def F_DSP_RETBAD : Nat := 0x0404
def F_DSP_STRAY : Nat := 0x0405
def F_DSP_UNCLOSED : Nat := 0x0406
def F_DSP_INGRESS : Nat := 0x0407
def F_LKR_SIZE : Nat := 0x0501
def F_LKR_HANDLE : Nat := 0x0502
def F_LKR_STALE : Nat := 0x0503
def F_LKR_DFREE : Nat := 0x0504
def F_LKR_REFOVF : Nat := 0x0505
def F_LKR_OWN : Nat := 0x0506
def F_LKR_REQID : Nat := 0x0507
def F_LKR_CFG : Nat := 0x0508
def F_LKR_NOQUOTA : Nat := 0x0509
def F_LKR_RINKUE : Nat := 0x050A
def F_MEM_UE : Nat := 0x0601
def F_MEM_CEHIGH : Nat := 0x0602
def F_MEM_TRAINFAIL : Nat := 0x0603
def F_MEM_TRAINLATE : Nat := 0x0604
def F_MEM_DRIFT : Nat := 0x0605
def F_MEM_TEMP : Nat := 0x0606
def F_MEM_PKG : Nat := 0x0607
def F_MEM_CFG : Nat := 0x0608
def F_FAB_TRAIN : Nat := 0x0701
def F_FAB_LANE : Nat := 0x0702
def F_FAB_RETRY : Nat := 0x0703
def F_FAB_PEER : Nat := 0x0704
def F_FAB_COMPAT : Nat := 0x0705
def F_FAB_CFGDIFF : Nat := 0x0706
def F_FAB_DEST : Nat := 0x0707
def F_FAB_HOPS : Nat := 0x0708
def F_FAB_ECRC : Nat := 0x0709
def F_FAB_NOPATH : Nat := 0x070A
def F_FAB_HBLOSS : Nat := 0x070B
def F_FAB_MGROUP : Nat := 0x070C
def F_FAB_ACKBUSY : Nat := 0x070D
def F_FAB_CFG : Nat := 0x070E
def F_RMEM_DEAD : Nat := 0x0801
def F_RMEM_UE : Nat := 0x0802
def F_RMEM_TARGET : Nat := 0x0803
def F_RMEM_STRAY : Nat := 0x0804
def F_RMEM_CFG : Nat := 0x0805
def F_COL_TOOBIG : Nat := 0x0901
def F_COL_ORDER : Nat := 0x0902
def F_COL_DESC : Nat := 0x0903
def F_COL_FLOW : Nat := 0x0904
def F_COL_NOENTRY : Nat := 0x0905
def F_COL_MEMBER : Nat := 0x0906
def F_COL_NOTREADY : Nat := 0x0907
def F_COL_LAND : Nat := 0x0908
def F_COL_RESIDUE : Nat := 0x0909
def F_COL_LATEPOISON : Nat := 0x090A
def F_COL_REPLAYMAX : Nat := 0x090B
def F_COL_STRAY : Nat := 0x090C
def F_COL_UNFREED : Nat := 0x090D
def F_COL_RETLEN : Nat := 0x090E
def F_COL_FREEBUSY : Nat := 0x090F
def F_COL_CFG : Nat := 0x0910
def F_CTX_CFG : Nat := 0x0A01
def F_CTX_CMD : Nat := 0x0A02
def F_CTX_SAVE : Nat := 0x0A03
def F_CTX_RETAIN : Nat := 0x0A04
def F_CTX_TEARDOWN : Nat := 0x0A05
def F_JOB_STARTTMO : Nat := 0x0A06
def F_JOB_STARTFAIL : Nat := 0x0A07
def F_JOB_SHORT : Nat := 0x0A08
def F_JOB_REFUSE : Nat := 0x0A09
def F_JOB_LATECOMMIT : Nat := 0x0A0A
def F_JOB_LEAD : Nat := 0x0A0B
def F_SNP_CFG : Nat := 0x0B01
def F_SNP_CKPTBUSY : Nat := 0x0B02
def F_SNP_UE : Nat := 0x0B03
def F_SNP_DESC : Nat := 0x0B04
def F_SNP_SIGN : Nat := 0x0B05
def F_RST_STEPMIX : Nat := 0x0B06
def F_RST_DIGEST : Nat := 0x0B07
def F_RST_SIG : Nat := 0x0B08
def F_RST_COORD : Nat := 0x0B09
def F_RST_MISSING : Nat := 0x0B0A
def F_RST_LIST : Nat := 0x0B0B
def F_RST_STATE : Nat := 0x0B0C
def F_HOST_LINK : Nat := 0x0C01
def F_HOST_CFG : Nat := 0x0C02
def F_WCP_AUTH : Nat := 0x0C03
def F_WCP_TAG : Nat := 0x0C04
def F_WCP_TIMEOUT : Nat := 0x0C05
def F_WCP_SEQEXH : Nat := 0x0C06
def F_WCP_DATA : Nat := 0x0C07
def F_WCP_LOST : Nat := 0x0C08
def F_WCP_EVLOSS : Nat := 0x0C09
def F_WCP_DENIED : Nat := 0x0C0A
def F_SEC_SIG : Nat := 0x0D01
def F_SEC_SVN : Nat := 0x0D02
def F_SEC_BOOT : Nat := 0x0D03
def F_SEC_TOKEN : Nat := 0x0D04
def F_SEC_LC : Nat := 0x0D05
def F_SEC_DBG : Nat := 0x0D06
def F_SEC_CRED : Nat := 0x0D07
def F_SEC_BUSY : Nat := 0x0D08
def F_SEC_SS : Nat := 0x0D09
def F_SEC_CENSUS : Nat := 0x0D0A
def F_SEC_IMG : Nat := 0x0D0B
def F_PWR_CMD : Nat := 0x0E01
def F_PWR_DOM : Nat := 0x0E02
def F_PWR_SEQ : Nat := 0x0E03
def F_PWR_SUPPLY : Nat := 0x0E04
def F_PWR_THERM : Nat := 0x0E05
def F_PWR_TRIP : Nat := 0x0E06
def F_PWR_POWER : Nat := 0x0E07
def F_PWR_REFCLK : Nat := 0x0E08
def F_PWR_CLKLOSS : Nat := 0x0E09
def F_PWR_AVS : Nat := 0x0E0A
def F_CSV_CREDIT : Nat := 0x0F01
def F_CSV_BUFFER : Nat := 0x0F02
def F_CSV_SLOT : Nat := 0x0F03
def F_CSV_LEDGER : Nat := 0x0F04
def F_CSV_COUNT : Nat := 0x0F05

end Sys2Proof.Machine
end

