-- ==== Sys2Proof/Machine/Net.lean ====
section
/-!
DEFINITION. Byte strings (R8), and the Ethernet, ARP, neighbour discovery, IPv4, IPv6 and UDP headers of the host ports (R361). The
spec names these by their standards and repeats no layout: PRESUMED. A frame runs from its destination address to the end of its
payload, without preamble and FCS.
-/

namespace Sys2Proof.Machine

/-! Little-endian bytes (R8). -/

/-- The number a little-endian byte string spells. -/
def leNat : List Byte → Nat
  | [] => 0
  | b :: l => b.toNat + 256 * leNat l

/-- The `n` little-endian bytes of a number. -/
def leBytes : Nat → Nat → List Byte
  | 0, _ => []
  | n + 1, v => BitVec.ofNat 8 v :: leBytes n (v / 256)

/-- The byte string as 64-bit words, the last padded with zeros. -/
def leWords (l : List Byte) : List Word :=
  (List.range ((l.length + 7) / 8)).map (fun i => BitVec.ofNat 64 (leNat ((l.drop (8 * i)).take 8)))

/-- The bytes of a list of words. -/
def wordBytes (l : List Word) : List Byte := l.flatMap (fun w => leBytes 8 w.toNat)

/-! Network byte order (R8). -/

/-- Big-endian bytes of a number. -/
def beBytes (n v : Nat) : List Byte := (leBytes n v).reverse

/-- The number a big-endian byte string spells. -/
def beNat (l : List Byte) : Nat := leNat l.reverse

/-- `n` bytes at `a`, and the big-endian number they spell. -/
def part (l : List Byte) (a n : Nat) : List Byte := (l.drop a).take n
def beAt (l : List Byte) (a n : Nat) : Nat := beNat (part l a n)

/-- The sum of the big-endian 16-bit words of a byte string. -/
def sum16 : List Byte → Nat
  | a :: b :: r => a.toNat * 256 + b.toNat + sum16 r
  | [a] => a.toNat * 256
  | [] => 0

/-- The Internet checksum. -/
def inetSum (l : List Byte) : Nat :=
  let x := sum16 l
  let y := x % 65536 + x / 65536
  65535 - (y % 65536 + y / 65536) % 65536

/-! Datagrams (R361). -/

/-- A UDP datagram: IP version, the far end's address and port, the port at this end, and the payload. -/
structure Dgram where
  v6 : Bool
  addr : Nat
  far : Nat
  near : Nat
  data : List Byte
  deriving DecidableEq, Repr

/-- An address as it stands in a header. -/
def ipBytes (v6 : Bool) (a : Nat) : List Byte := beBytes (if v6 then 16 else 4) a

/-- The checksum of a UDP datagram between two addresses, over its pseudo-header too. -/
def udpSum (v6 : Bool) (src dst : Nat) (udp : List Byte) : Nat :=
  inetSum (ipBytes v6 src ++ ipBytes v6 dst ++ beBytes 4 udp.length ++ beBytes 4 17 ++ udp)

/-- The UDP header and payload of a datagram that leaves from the address `own`: a checksum of 0 is sent as all ones. -/
def udpBytes (own : Nat) (d : Dgram) : List Byte :=
  let h (ck : Nat) : List Byte := beBytes 2 d.near ++ beBytes 2 d.far ++ beBytes 2 (8 + d.data.length) ++ beBytes 2 ck ++ d.data
  let ck := udpSum d.v6 own d.addr (h 0)
  h (if ck = 0 then 65535 else ck)

/-- An IPv4 header without options, with DF set (R361). Identification 0 and a life of 64 hops: PRESUMED. -/
def ipv4Header (own dst len : Nat) : List Byte :=
  let h (ck : Nat) : List Byte := beBytes 2 0x4500 ++ beBytes 2 (20 + len) ++ beBytes 2 0 ++ beBytes 2 0x4000 ++ beBytes 1 64 ++ beBytes 1 17 ++
    beBytes 2 ck ++ beBytes 4 own ++ beBytes 4 dst
  h (inetSum (h 0))

/-- An IPv6 header without extension headers. -/
def ipv6Header (own dst len next hops : Nat) : List Byte :=
  beBytes 4 0x60000000 ++ beBytes 2 len ++ beBytes 1 next ++ beBytes 1 hops ++ beBytes 16 own ++ beBytes 16 dst

/-- The IP packet of a datagram. -/
def ipPacket (own : Nat) (d : Dgram) : List Byte :=
  let u := udpBytes own d
  (if d.v6 then ipv6Header own d.addr u.length 17 64 else ipv4Header own d.addr u.length) ++ u

/-- The IP packet in the payload of a frame: version, source, destination and the UDP bytes. None where it has options, an extension
header, a fragment, another protocol or a bad checksum. -/
def ipOf (type : Nat) (l : List Byte) : Option (Bool × Nat × Nat × List Byte) :=
  if type = 0x0800 then
    let len := beAt l 2 2
    if beAt l 0 1 = 0x45 ∧ 20 ≤ len ∧ len ≤ l.length ∧ beAt l 6 2 % 0x4000 = 0 ∧ beAt l 9 1 = 17 ∧ inetSum (l.take 20) = 0 then
      some (false, beAt l 12 4, beAt l 16 4, part l 20 (len - 20))
    else none
  else if type = 0x86DD then
    let len := beAt l 4 2
    if beAt l 0 1 / 16 = 6 ∧ 40 + len ≤ l.length ∧ beAt l 6 1 = 17 then some (true, beAt l 8 16, beAt l 24 16, part l 40 len)
    else none
  else none

/-- The datagram in the UDP bytes: its checksum is checked on both IP versions, so that a datagram without one is bad (R361). -/
def udpOf (v6 : Bool) (src dst : Nat) (u : List Byte) : Option Dgram :=
  if 8 ≤ u.length ∧ beAt u 4 2 = u.length ∧ beAt u 6 2 ≠ 0 ∧ udpSum v6 src dst u = 0 then
    some ⟨v6, src, beAt u 0 2, beAt u 2 2, u.drop 8⟩
  else none

/-! Address resolution (R361). -/

/-- An ARP request: the target protocol address, and the sender's addresses. -/
structure ArpRequest where
  target : Nat
  senderMac : Nat
  senderIp : Nat
  deriving DecidableEq, Repr

def arpOf (type : Nat) (l : List Byte) : Option ArpRequest :=
  if type = 0x0806 ∧ 28 ≤ l.length ∧ part l 0 8 = beBytes 2 1 ++ beBytes 2 0x0800 ++ beBytes 1 6 ++ beBytes 1 4 ++ beBytes 2 1 then
    some ⟨beAt l 24 4, beAt l 8 6, beAt l 14 4⟩
  else none

/-- The reply. -/
def arpReply (mac ip : Nat) (a : ArpRequest) : List Byte :=
  beBytes 2 1 ++ beBytes 2 0x0800 ++ beBytes 1 6 ++ beBytes 1 4 ++ beBytes 2 2 ++ beBytes 6 mac ++ beBytes 4 ip ++ beBytes 6 a.senderMac ++
    beBytes 4 a.senderIp

/-- An IPv6 neighbour solicitation: its target and the sender's address. -/
structure Solicitation where
  target : Nat
  sender : Nat
  deriving DecidableEq, Repr

/-- The checksum of an ICMPv6 message. -/
def icmpSum (src dst : Nat) (m : List Byte) : Nat := inetSum (beBytes 16 src ++ beBytes 16 dst ++ beBytes 4 m.length ++ beBytes 4 58 ++ m)

def solicitationOf (type : Nat) (l : List Byte) : Option Solicitation :=
  let m := part l 40 (beAt l 4 2)
  if type = 0x86DD ∧ beAt l 0 1 / 16 = 6 ∧ beAt l 6 1 = 58 ∧ beAt l 7 1 = 255 ∧ 24 ≤ m.length ∧ beAt m 0 2 = 135 * 256 ∧
      icmpSum (beAt l 8 16) (beAt l 24 16) m = 0 then
    some ⟨beAt m 8 16, beAt l 8 16⟩
  else none

/-- The advertisement that answers it: solicited, with the port's link-layer address. -/
def advertisement (mac own : Nat) (a : Solicitation) : List Byte :=
  let m (ck : Nat) : List Byte := beBytes 2 (136 * 256) ++ beBytes 2 ck ++ beBytes 4 0x60000000 ++ beBytes 16 own ++ beBytes 1 2 ++ beBytes 1 1 ++
    beBytes 6 mac
  ipv6Header own a.sender 32 58 255 ++ m (icmpSum own a.sender (m 0))

end Sys2Proof.Machine
end

