-- ==== Sys2Proof/Config.lean ====
section
/-!
DEFINITION. What the spec leaves open: free values (opaque constants with no body, applied to a counter that
the step advances) and the cryptographic primitives it names by standard only (opaque, uninterpreted).
-/

namespace Sys2Proof.Config

/-- A value the spec leaves undefined or unstated, fresh for each counter value. -/
opaque freeNat : Nat → Nat

/-- SHA3-256 of a byte string (FIPS 202). -/
opaque sha3_256 : List Byte → List Byte

/-- SHA3-384 of a byte string (FIPS 202). -/
opaque sha3_384 : List Byte → List Byte

/-- Ed25519 verification (RFC 8032): key, message, signature. -/
opaque ed25519Verify : List Byte → List Byte → List Byte → Bool

/-- ML-DSA-65 verification (FIPS 204): key, message, signature. -/
opaque mldsaVerify : List Byte → List Byte → List Byte → Bool

/-- Ed25519 signature: seed, message. -/
opaque ed25519Sign : List Byte → List Byte → List Byte

/-- ML-DSA-65 signature: seed, message. -/
opaque mldsaSign : List Byte → List Byte → List Byte

/-- Ed25519 public key of a seed. -/
opaque ed25519Public : List Byte → List Byte

/-- ML-DSA-65 public key of a seed. -/
opaque mldsaPublic : List Byte → List Byte

/-- X25519 (RFC 7748): scalar, point. -/
opaque x25519 : List Byte → List Byte → List Byte

/-- ML-KEM-768 encapsulation (FIPS 203): public key, randomness; the ciphertext and the shared secret. -/
opaque mlkemEncaps : List Byte → List Byte → List Byte × List Byte

/-- ML-KEM-768 decapsulation: private key, ciphertext. -/
opaque mlkemDecaps : List Byte → List Byte → List Byte

/-- A key derivation named by the spec: label, key material, length in bytes. -/
opaque kdf : List Byte → List Byte → Nat → List Byte

/-- AES-256-GCM sealing (SP 800-38D): key, nonce, additional data, plaintext; ciphertext and tag. -/
opaque gcmSeal : List Byte → List Byte → List Byte → List Byte → List Byte × List Byte

/-- AES-256-GCM opening: key, nonce, additional data, ciphertext, tag; none where the tag does not verify. -/
opaque gcmOpen : List Byte → List Byte → List Byte → List Byte → List Byte → Option (List Byte)

/-- The root public keys: production Ed25519 and ML-DSA-65, then development Ed25519 and ML-DSA-65 (R381). They travel
with each signed object, at a place the spec does not give. -/
opaque rootKey : Nat → List Byte

/-- Public keys of manufacturing credential 0, held in ROM: Ed25519 (0) and ML-DSA-65 (1) (R394). -/
opaque romCredential : Nat → List Byte

/-- Private seeds of the ROM-held device keys with which credential 0 handshakes: Ed25519 (0) and ML-DSA-65 (1) (R392). -/
opaque romSeed : Nat → List Byte

/-- Identity public keys of another chip, by physical chip ID and scheme (R354): the spec does not say where a device
that restores a manifest finds them. -/
opaque chipKey : Nat → Nat → List Byte

/-- The STRAP_DIM balls: dimension 0 X, 1 Y, 2 Z; the board ties them (R461). -/
opaque strapDim : Nat → Bool

/-- The ADDR_SEL[1:0] balls, tied by the board (R434). -/
opaque addrSel : BitVec 2

end Sys2Proof.Config
end

