-- ==== Sys2Proof/Machine/Tbl.lean ====
section
/-!
DEFINITION. Sparse tables in one canonical form: keys strictly rising and no entry equal to what an unlisted
key reads as. Registers, memories and the per-unit records of the state are tables.
-/

namespace Sys2Proof.Machine

/-- The value at key `k`; an unlisted key reads as `d k`. -/
def tget {α : Type} (d : Nat → α) : List (Nat × α) → Nat → α
  | [], k => d k
  | e :: t, k => if e.1 = k then e.2 else tget d t k

/-- The table without key `k`. -/
def tdel {α : Type} (k : Nat) (t : List (Nat × α)) : List (Nat × α) := t.filter (fun e => e.1 != k)

/-- Put an entry before the first one of a higher key. -/
def tput {α : Type} (k : Nat) (v : α) : List (Nat × α) → List (Nat × α)
  | [] => [(k, v)]
  | e :: t => if k < e.1 then (k, v) :: e :: t else e :: tput k v t

/-- Write `v` at key `k`, keeping the canonical form: a value an unlisted key reads as removes the entry. -/
def tset {α : Type} [DecidableEq α] (d : Nat → α) (t : List (Nat × α)) (k : Nat) (v : α) : List (Nat × α) :=
  if v = d k then tdel k t else tput k v (tdel k t)

/-- Every key of the table is above `lo`, keys rise strictly and no entry holds its unlisted value. -/
def twfFrom {α : Type} [DecidableEq α] (d : Nat → α) : Nat → List (Nat × α) → Bool
  | _, [] => true
  | lo, (i, v) :: t => decide (lo ≤ i) && decide (v ≠ d i) && twfFrom d (i + 1) t

/-- The canonical form of a table. -/
def twf {α : Type} [DecidableEq α] (d : Nat → α) (t : List (Nat × α)) : Bool := twfFrom d 0 t

/-- Remove every entry whose key lies in [lo, hi). -/
def tclear {α : Type} (lo hi : Nat) (t : List (Nat × α)) : List (Nat × α) :=
  t.filter (fun e => decide (e.1 < lo) || decide (hi ≤ e.1))

/-- Write the values of `l` at keys `k`, `k + 1`, … -/
def tsetMany {α : Type} [DecidableEq α] (d : Nat → α) (t : List (Nat × α)) (k : Nat) : List α → List (Nat × α)
  | [] => t
  | v :: l => tsetMany d (tset d t k v) (k + 1) l

/-- The `n` values at keys `k`, `k + 1`, … -/
def tgetMany {α : Type} (d : Nat → α) (t : List (Nat × α)) (k : Nat) : Nat → List α
  | 0 => []
  | n + 1 => tget d t k :: tgetMany d t (k + 1) n

end Sys2Proof.Machine
end

