-- ==== Sys2Proof/Machine/State.lean ====
section
/-!
DEFINITION. The state of the block: every register (one table over the control space), every memory, and the
units' own state that no register shows. All of it is plain data.
-/

namespace Sys2Proof.Machine

/-- Access codes of register fields (R4). -/
inductive Acc where
  | rw | ro | w1c | rc | wo | rws | rwl
  deriving DecidableEq, Repr

/-- A register field: the register's control-space offset, bits [hi:lo] and the access code. -/
structure Fld where
  off : Nat
  hi : Nat
  lo : Nat
  acc : Acc
  deriving DecidableEq, Repr

/-- A row of the register table: name, base offset, array strides with their counts, and the fields of the
first register of the array. -/
structure RegRow where
  name : String
  base : Nat
  dims : List (Nat × Nat)
  fields : List Fld
  deriving DecidableEq, Repr

/-- The PTP slave clock of a host port (R33): its offset from the master and the path delay, in ns; the arrival of the latest
Sync with its sequence number and correction, and the sending of the latest Delay_Req with its sequence number. -/
structure PtpClock where
  offset : Int := 0
  delay : Int := 0
  syncAt : Nat := 0
  syncSeq : Nat := 0
  syncCorr : Int := 0
  reqAt : Nat := 0
  reqSeq : Nat := 0
  deriving DecidableEq, Repr

/-- The Lap Unit's state that no register holds (R36 to R44). -/
structure LapUnit where
  /-- Phase accumulator. -/
  acc : Word := 0
  /-- Integral of the loop, in 1/256 clk. -/
  integ : Int := 0
  /-- Effective clk per lap, in units of 1/(16,384 * 10^7) clk. -/
  nEff : Int := 0
  /-- Consecutive missed laps on the active source. -/
  missRun : Nat := 0
  /-- Consecutive laps with n_new clamped at 250 ppm. -/
  clampRun : Nat := 0
  /-- PHASE_INC of the last 16 locked laps, newest first. -/
  incHist : List Nat := []
  /-- The latest internal edge already has its usable reference edge. -/
  refDone : Bool := false
  /-- Phase error of a usable reference edge that came before its internal edge, in 1/256 clk. -/
  refEarly : Option Int := none
  /-- Phase error of the backup's usable edge for the latest internal edge. -/
  bakErr : Option Int := none
  /-- Phase error of the backup's usable edge that came before its internal edge. -/
  bakEarly : Option Int := none
  /-- Consecutive laps with |e_bak| within LOCK_TOL. -/
  bakRun : Nat := 0
  /-- The source that SRC_BAK names is the active one. -/
  onBackup : Bool := false
  /-- The phase step of ACQUIRE has been made. -/
  stepped : Bool := false
  /-- F_LAP_HOLDEXP has been reported for the current holdover. -/
  holdexp : Bool := false
  /-- PTP slave clocks of the two host ports. -/
  ptp : List (Nat × PtpClock) := []
  deriving DecidableEq, Repr

/-- A template instance (R85, R87): template index, entry offset, the eight arguments and the step's lap. -/
structure Inst where
  tmpl : Nat
  entry : Nat
  args : List Word
  lap : Nat
  deriving DecidableEq, Repr

/-- What a memory operation in flight does when it completes. -/
inductive MemKind where
  /-- A local load of `n` bytes, sign-extended if `sx`: the value goes to s[t]. -/
  | ld (t : Nat) (val : Word) (n : Nat) (sx : Bool)
  /-- A local store of `n` bytes. -/
  | st (n : Nat)
  /-- A copy of `n` bytes to the address `dst`: cc[cc] is incremented when its last byte is written. -/
  | xmov (cc dst n : Nat)
  /-- A vector load of the lanes `on`: the value goes to v[vd]. -/
  | vld (vd : Nat) (val : Vec) (on : Pred)
  /-- A vector store of the lanes `on`. -/
  | vst (on : Pred)
  /-- A space-0x3 operation: an outstanding entry holds the rest (R279). -/
  | remote (seq : Nat)
  /-- A queued GMM (R109). -/
  | gmm
  /-- A gate instruction (R126). -/
  | gate
  /-- A snapshot instruction: its minor opcode and counter (R355). -/
  | snap (min cc : Nat)
  deriving DecidableEq, Repr

/-- A memory operation in flight (R70, R78): its number in the stream, the pc and place of the access, and whether
a page copy still holds its write (R348). -/
structure MemOp where
  id : Nat
  pc : Nat
  kind : MemKind
  space : Nat
  addr : Nat
  /-- Clock at issue. -/
  since : Nat := 0
  /-- A buffer that a copy uses was freed: the bytes that it writes are undefined (R194). -/
  loose : Bool := false
  /-- The code of an uncorrectable error that its read has met (R177, R209). -/
  err : Option Nat := none
  /-- Its request has a place in its channel's queue (R211). -/
  queued : Bool := true
  deriving DecidableEq, Repr

/-- A completion-counter write that waits for earlier stores of its stream (R70). -/
structure HeldCc where
  after : List Nat
  cc : Nat
  val : Nat
  set : Bool
  deriving DecidableEq, Repr

/-- A FENCE or END that waits for the stream's memory operations (R70, R72). -/
inductive FenceWait where
  | fence | endInst
  deriving DecidableEq, Repr

/-- A Velim stream (R57). Registers s0 and p0 are hard-wired (R58) and never stored. -/
structure Stream where
  s : List (Nat × Word) := []
  a : List (Nat × Word) := []
  p : List (Nat × Pred) := []
  v : List (Nat × Vec) := []
  scratch : Word := 0
  /-- Scalar registers with a result pending (R78). -/
  pendS : List Nat := []
  /-- Vector registers with a result pending. -/
  pendV : List Nat := []
  /-- Memory operations in flight, oldest first. -/
  ops : List MemOp := []
  /-- Number of the next memory operation. -/
  nextOp : Nat := 0
  /-- Counter writes held until earlier stores complete. -/
  heldCc : List HeldCc := []
  /-- A FENCE or END in wait. -/
  fenceWait : Option FenceWait := none
  /-- CT at which the current wait began, in strides (R75). -/
  waitFrom : Nat := 0
  /-- Full CT target of a lap-phase wait (R74). -/
  waitCt : Nat := 0
  /-- Queue of template instances (R86). -/
  queue : List Inst := []
  /-- The running instance. -/
  cur : Option Inst := none
  /-- One instruction is to issue and the stream is to return to BRK (R422); it has issued as this memory operation. -/
  stepOne : Bool := false
  stepOp : Option Nat := none
  deriving DecidableEq, Repr

/-- The running step of a context (R49, R52, R336). -/
structure Step where
  /-- Lap at whose edge the step began, or, after RESUME, is counted as begun. -/
  lap : Nat
  epoch : Nat
  overrun : Bool := false
  stretched : Bool := false
  tainted : Bool := false
  /-- OVERRUN has been sent for this step. -/
  ovrSent : Bool := false
  /-- The CT at which the step completed on this chip, if it has. -/
  doneCt : Option Nat := none
  deriving DecidableEq, Repr

/-- A held PUT (R376): session and sequence number, destination, data, counter and its increment. -/
structure HeldPut where
  sess : Nat
  seq : Nat
  space : Nat
  addr : Nat
  data : List Byte
  cc : Nat
  ccadd : Nat
  buf : Option Nat
  deriving DecidableEq, Repr

/-- A write to LPDDR held on a page whose copy is not made (R348): the context it is made for (2 = none), the
stream operation that made it, and the bytes. -/
structure HeldWrite where
  ctx : Nat
  op : Option (Nat × Nat)
  addr : Nat
  data : List Byte
  deriving DecidableEq, Repr

/-- A context's snapshot state (R346 to R352). Page states: 0 CLEAN, 1 PENDING, 2 DIRTY, keyed by page number. -/
structure SnapCtx where
  /-- State of a page with no entry. -/
  pageDef : Nat := 0
  pages : List (Nat × Nat) := []
  held : List HeldWrite := []
  /-- A copy-back of the DIRTY pages is running (R350). -/
  copyBack : Bool := false
  /-- Lap of a requested checkpoint (R352). -/
  ckptReq : Option Nat := none
  /-- Pages of the drain image already copied. -/
  copied : List Nat := []
  /-- Logical chip when the checkpoint was taken (R353). -/
  lchip : Nat := 0
  /-- Clk with writes held beyond the units that SNP_COUNT.PRESERVE_CLK shows (R348). -/
  heldClk : Nat := 0
  /-- Shard headers that SDIG has written for the current checkpoint (R355). -/
  digests : List (List Byte) := []
  /-- Open digest contexts: DIG, region ID, and the bytes fed (R355). -/
  feeding : List (Nat × Nat × Nat) := []
  deriving DecidableEq, Repr

/-- A GMM in a GMU's queue (R109). -/
structure GmmOp where
  stream : Nat
  op : Nat
  pc : Nat
  addr : Nat
  count : Nat
  entry : Nat
  cc : Nat
  ce : Nat
  /-- The entry in progress, as read when the GMU reached it (R111). -/
  desc : List Nat := []
  /-- The code that this entry raises (R111). -/
  fault : Option Nat := none
  /-- Entries whose outputs are undefined, because an instruction touched their bytes (R119) or a buffer was freed (R194). -/
  loose : List Nat := []
  deriving DecidableEq, Repr

/-- A choice that capacity admits (R137): the candidate delivered, the replica's index and gate SRAM offset, the ordinal,
and whether it is a reserve. -/
structure Fate where
  cand : Nat
  rp : Nat
  rep : Nat
  ord : Nat
  spilled : Bool
  deriving DecidableEq, Repr

/-- A gate instruction held by an engine (R126), with the place the dispatch stage has reached (R137). -/
structure GateOp where
  kind : Nat
  op : Nat
  pc : Nat
  addr : Nat
  count : Nat
  cc : Nat
  /-- The descriptor words, once the instruction has started. -/
  desc : List Word := []
  tok : Nat := 0
  j : Nat := 0
  /-- Reserves of the current token already marked. -/
  marked : List Nat := []
  /-- The current token's ranked list: candidate, raw score and, for a choice, its weight (R133, R134). -/
  sel : List (Nat × Nat × Nat) := []
  /-- The decided choice that waits for its buffers. -/
  fate : Option Fate := none
  deriving DecidableEq, Repr

/-- A posted relay operation (R289): descriptor words, the pc that posted it, and the epoch when it fired. -/
structure Posted where
  desc : List Word
  pc : Nat
  fired : Bool := false
  epoch : Nat := 0
  /-- Byte offset of the next packet, or index of the next list entry. -/
  next : Nat := 0
  /-- Byte offset within the list entry's row (SCATTER). -/
  sub : Nat := 0
  /-- Class and SEQ of the packets handed to injection. -/
  sent : List (Nat × Nat) := []
  /-- A buffer that the operation uses was freed: its further bytes are undefined (R194). -/
  loose : Bool := false
  deriving DecidableEq, Repr

/-- A Relay stream's trigger table, in posting order; fired entries form the run queue. -/
structure Relay where
  posted : List Posted := []
  /-- The operation in execution. -/
  run : Option Posted := none
  deriving DecidableEq, Repr

/-- The save image of a pre-empted context (R334): the part whose bytes the spec does not lay out. Streams with their
queues, GMU, gate and Relay state, and the streams' registers. -/
structure Image where
  streams : List (Nat × Stream)
  gmm : List (Nat × List GmmOp)
  gate : List (Nat × List GateOp)
  relay : List (Nat × Relay)
  regs : List (Nat × Word)
  deriving DecidableEq, Repr

/-- A buffer of the Locker (R188). OWNER: 0 general, 1 real-time, 2 device. -/
structure Buf where
  alloc : Bool := false
  gen : Nat := 0
  refs : Nat := 0
  owner : Nat := 0
  req : Nat := 0
  zeroing : Bool := false
  /-- The buffer holds a record accepted by a context's intake (R329). -/
  intake : Option Nat := none
  deriving DecidableEq, Repr

/-- The retention part (R337) that LPDDR keeps through P2: the Rink cells of the context's windows and buffers, the buffers'
Locker state, the pool registers they were made with, and the LS_CNT values. -/
structure Retention where
  cells : List Host.Cell
  bufs : List (Nat × Buf)
  pools : List Word
  counts : List (Nat × Word)
  deriving DecidableEq, Repr

/-- A context's state that no register holds. -/
structure Ctx where
  /-- Completion counters (R73). -/
  cc : List (Nat × BitVec 32) := []
  /-- Cancel list: epoch and the lap in which it entered, newest first (R171). -/
  cxl : List (Nat × Nat) := []
  /-- Translation memory (R319). -/
  xlat : List (Nat × BitVec 16) := []
  startLap : Option Nat := none
  step : Option Step := none
  haltLap : Option Nat := none
  resumeLap : Option Nat := none
  image : Option Image := none
  readBack : Bool := false
  retained : Option Retention := none
  /-- Settings that wait for the step boundary: register offset, value and the bits that wait, oldest first (R478). -/
  deferred : List (Nat × Word × Word) := []
  /-- Held PUTs; the first `putsDue` of them belong to a step boundary that has been (R376). -/
  held : List HeldPut := []
  putsDue : Nat := 0
  /-- Template entries armed for the running step (R85). -/
  armed : List Nat := []
  /-- Last admitted-or-waiting collective ID (R300). -/
  lastCol : Option Nat := none
  replays : Nat := 0
  /-- Template release waits for a rollback copy (R311, R350). -/
  rollback : Bool := false
  /-- Release waits for the retention part (R337). -/
  needRetain : Bool := false
  /-- Epochs of the steps that have reached their boundary, with its lap, newest first (R310). -/
  committed : List (Nat × Nat) := []
  /-- Laps at whose edges a step of the context began, newest first (R53). -/
  begun : List Nat := []
  /-- Counters changed in this clk, and the clk: the sum of its increments, and the rank of the write that stands (R73). -/
  ccNow : List (Nat × Nat × Option Nat) := []
  ccAt : Nat := 0
  /-- Faults of its streams in this clk: stream, code and information field (R80). -/
  faults : List (Nat × Nat × Nat) := []
  deriving DecidableEq, Repr

/-- A request in a pool's wait queue (R192). `unit` is the stream, or 64 + g for a dispatch stage; `dst` the scalar
register that receives the handle. -/
structure WaitReq where
  unit : Nat
  req : Nat
  bytes : Nat
  dst : Nat
  /-- Clock at which it entered the queue. -/
  since : Nat := 0
  deriving DecidableEq, Repr

/-- A change of a buffer's reference count in this clk (R194): the buffer's key with its generation, the stream with its pc, none for
the device's own, and whether it adds. -/
structure RefChange where
  buf : Nat
  stream : Option (Nat × Nat)
  adds : Bool
  deriving DecidableEq, Repr

/-- The Locker's queues (R187, R192, R195). A buffer's key is pool * 2^21 + index; a reference to it that the device holds has the
generation at bits 24 and up. -/
structure Locker where
  bufs : List (Nat × Buf) := []
  free : List (Nat × List Nat) := []
  wait : List (Nat × List WaitReq) := []
  zero : List Nat := []
  /-- Reference changes of this clk, and buffers that join their free queues at its end. -/
  changes : List RefChange := []
  fresh : List Nat := []
  /-- Requesters and pools (8 * requester + pool) whose LIMIT was lowered below what they hold (R190, R198). -/
  lowered : List Nat := []
  /-- Grants made, and the clk that they were made in. -/
  grants : Nat := 0
  grantAt : Nat := 0
  deriving DecidableEq, Repr

/-- A packet in a queue of the chip: the buffer it occupies and the port and VC whose credits it holds. -/
structure QPkt where
  pkt : Packet
  buf : Option Nat := none
  fromPort : Option (Nat × Nat) := none
  /-- The buffers of the other records that a line packet combines (R161, R162). -/
  more : List Nat := []
  /-- Clock at which it entered its queue. -/
  since : Nat := 0
  deriving DecidableEq, Repr

/-- A group that a port has closed (R233 to R235): its GSEQ, its 31 flits and its LCF, and the packets whose last flit it holds. -/
structure SentGroup where
  seq : Nat
  flits : List Byte
  lcf : List Word
  packets : List Packet
  deriving DecidableEq, Repr

/-- What a port keeps of a link that left service (R265): the groups that no ACKSEQ covered, the packets that ended in the group being
formed, and the GSEQ of the last group delivered from it. -/
structure OldLink where
  groups : List SentGroup
  last : List Packet
  delivered : Nat
  deriving DecidableEq, Repr

/-- A failover HELLO to repeat (R265): the failed port, the GSEQ delivered from it, and the first group that it closed. -/
structure Tell where
  failed : Nat
  delivered : Nat
  first : Option Nat := none
  deriving DecidableEq, Repr

/-- The latest slot decided on a port (R156): its number in course time, 1 FILLED, 2 IDLE or 3 OPEN, the clock of the decision, whether
its end has been taken, and the packets of its flow at its start. -/
structure SlotRun where
  index : Nat
  kind : Nat
  since : Nat
  ended : Bool := false
  waiting : List Packet := []
  deriving DecidableEq, Repr

/-- A record at intake: its Rink offset and the buffer that holds it (R142); a local TALLY, to which no buffer is given,
carries its bytes. -/
structure HeldRec where
  addr : Nat
  buf : Option Nat
  data : List Byte
  deriving DecidableEq, Repr

/-- An intake group in the current step (R141, R142). -/
structure Group where
  /-- The entry's words as read in this step. -/
  entry : List Word := []
  /-- Accepted tallies: sender index and the 64 counts. -/
  tallies : List (Nat × List Nat) := []
  final : Bool := false
  held : List HeldRec := []
  accepted : Nat := 0
  deriving DecidableEq, Repr

/-- A line packet being combined (R162): its flow, the members' coordinates with the first 32 bytes of their records and
their buffers, and the shared part. -/
structure LinePkt where
  flow : Nat
  members : List (Nat × List Byte × Option Nat)
  shared : List Byte
  deriving DecidableEq, Repr

/-- A Gate Engine's state that no register or memory holds. -/
structure Gate where
  ops : List GateOp := []
  /-- Layers closed in the current step (R127). -/
  closed : List Nat := []
  /-- Next ledger record to open (R139). -/
  nextRec : Nat := 0
  /-- Records opened and closed in the current step, for the Ledger auditor (R170). -/
  opened : Nat := 0
  closedRecs : Nat := 0
  zeroing : Bool := false
  groups : List (Nat × Group) := []
  /-- TOKEN and TALLY records held for a later epoch, with the epoch (R144). -/
  later : List (Nat × HeldRec) := []
  /-- Records passed to intake and not yet entered, in arrival order. -/
  inbox : List HeldRec := []
  /-- Buffers of accepted TOKEN records, freed at the step boundary (R168). -/
  kept : List Nat := []
  /-- Gate SRAM offsets of the replica entries whose USED was raised since it was last cleared (R136). -/
  used : List Nat := []
  /-- The line packets being combined for the current token, oldest first (R162). -/
  line : List LinePkt := []
  /-- The buffers granted to the dispatch stage for the choice it works on: the return buffer, then the record's. -/
  granted : List Nat := []
  /-- Clk spent waiting on the Locker beyond the units that GE_COUNT1.RET_WAIT shows. -/
  waitClk : Nat := 0
  waiting : Bool := false
  deriving DecidableEq, Repr

/-- One of the two Course banks (R149). Slot (p, s) has key p * 16,384 + s. -/
structure Course where
  slots : List (Nat × Word) := []
  flows : List (Nat × Word) := []
  retmap : List (Nat × Nat) := []
  shares : List Word := []
  ingress : List Nat := []
  /-- COURSE_CTL.CALDYN as it was at the activation (R175). -/
  caldyn : Bool := false
  /-- SHA3-256 of the image as loaded (R398). -/
  hash : List Byte := []
  deriving DecidableEq, Repr

/-- A fabric port's state that no register holds. -/
structure Port where
  /-- Packets queued on each VC, oldest first. -/
  vcq : List (Nat × List QPkt) := []
  /-- Packets sent and not yet off the port: the one whose flits are leaving. -/
  sending : Option QPkt := none
  /-- Credits held per VC. -/
  credits : List (Nat × Nat) := []
  /-- Cumulative credits received and returned per VC. -/
  credRx : List (Nat × Nat) := []
  credTx : List (Nat × Nat) := []
  flitsTx : List (Nat × Nat) := []
  flitsRx : List (Nat × Nat) := []
  /-- Flits received and still holding credits, per VC. -/
  buffered : List (Nat × Nat) := []
  /-- Configured credits per VC, as last taken at TRAIN, and the peer's. -/
  advertised : List (Nat × Nat) := []
  /-- Flits buffered beyond the credits advertised when the link trained anew, per VC. -/
  debt : List (Nat × Nat) := []
  gseqTx : Nat := 0
  /-- GSEQ that the next group must carry to be in order. -/
  gseqRx : Nat := 0
  /-- The NAKs in a row that name one group, and that group (R237). -/
  nakRun : Nat := 0
  nakSeq : Nat := 0
  /-- A NAK has been sent and the replay of the missing group has not arrived. -/
  nakSent : Bool := false
  /-- Retry buffer, oldest group first (R235). -/
  retry : List SentGroup := []
  /-- Clock at which ACKSEQ last advanced, or groups became outstanding. -/
  ackAt : Nat := 0
  /-- Flits of the group being formed, and the packets that have ended in it, each with the offset of its end. -/
  forming : List Byte := []
  formed : List (Nat × Packet) := []
  /-- LCFs other than GROUP that wait for the next closings: TYPE and words 4 to 6. -/
  due : List (Nat × List Word) := []
  /-- Clock at which the replay in progress ends. -/
  replay : Option Nat := none
  /-- ACKSEQ of the latest LCF sent, and the clock at which it closed its group. -/
  ackTold : Nat := 4095
  closedAt : Nat := 0
  /-- Totals placed in the last 1,024 LCFs: group and CRED per VC (R250). -/
  lcfTotals : List (Nat × List Nat) := []
  slot : Option SlotRun := none
  filled : Nat := 0
  idle : Nat := 0
  opened : Nat := 0
  /-- The slots of this lap already decided, and whether one was filled twice (R24). -/
  seen : List Nat := []
  doubled : Bool := false
  /-- Ingress slots counted in this lap and the latest of them (R164). -/
  ingress : Nat := 0
  ingressSlot : Option Nat := none
  /-- Departures of this end's HELLOs that the peer has yet to answer, oldest first, and the arrival of its latest, in 1/256 clk. -/
  helloSent : List Nat := []
  helloAt : Nat := 0
  /-- Link delays measured, in 1/256 clk (R239). -/
  delays : List Nat := []
  helloPeer : Option (Word × Word) := none
  /-- Configuration of the peer already reported as different. -/
  diffSeen : Option (Nat × Nat) := none
  hbSeen : Nat := 0
  /-- Slot, in course time, for which the latest heartbeat was formed. -/
  hbSent : Option Nat := none
  /-- Aggregation records pending, oldest first: group, REAL, PRUNED (R260). -/
  agg : List (Nat × Nat × Nat) := []
  /-- The link that left service, until the peer has told what it delivered (R265). -/
  old : Option OldLink := none
  /-- What the peer delivered from this port's link, told before this end saw it fail. -/
  heard : Option Nat := none
  /-- Failover HELLOs that take the place of this port's GROUP LCFs. -/
  tell : List Tell := []
  deriving DecidableEq, Repr

/-- A mask group's aggregation state (R261). -/
structure Agg where
  arrival : Option Nat
  ctx : Nat
  ackcc : Nat
  pcc : Nat
  expect : Nat
  real : Nat
  pruned : Nat
  deriving DecidableEq, Repr

/-- The router's state that no register holds. -/
structure Router where
  ports : List (Nat × Port) := []
  /-- Mask group entries: key 4 * group + word (R257). -/
  mgroups : List (Nat × Word) := []
  agg : List (Nat × Option Agg) := []
  /-- Queues of the Course flows (R161). -/
  flows : List (Nat × List QPkt) := []
  /-- Sequence counters per class (R256). -/
  seq : List (Nat × Nat) := []
  nopathSeen : List Nat := []
  /-- Ports whose slots the rail partner serves until they are repaired and a new Course is loaded (R266). -/
  shared : List Nat := []
  /-- Fence registers changed in this clk, as they were before (R262). -/
  fenceOld : List (Nat × Word) := []
  deriving DecidableEq, Repr

/-- An outstanding space-0x3 operation (R279). -/
structure Remote where
  seq : Nat
  stream : Nat
  op : Nat
  pc : Nat
  opc : Nat
  dst : Nat
  /-- Sign-extend the loaded value. -/
  sx : Bool
  chip : Nat
  /-- The operation's 64-byte block at the target. -/
  block : Nat
  ct : Nat
  deriving DecidableEq, Repr

/-- A REQ at its target (R277, R278), or an own operation served without a packet (R272). -/
structure Request where
  pkt : Packet
  buf : Option Nat
  fromPort : Option (Nat × Nat)
  own : Bool
  /-- Clock of arrival. -/
  since : Nat := 0
  /-- It has a place in its channel's queue (R211). -/
  queued : Bool := true
  /-- The context here whose cancelled step issued it: its write to that context's protected regions does not survive (R350). -/
  dead : Option Nat := none
  deriving DecidableEq, Repr

/-- A waiting admission request (R300). -/
structure Admit where
  count : Nat
  colid : Nat
  desc : List Word
  pc : Nat
  stream : Nat
  /-- Address of the descriptor. -/
  addr : Nat
  deriving DecidableEq, Repr

/-- A Reduction Store entry (R302). State: 0 FREE, 1 ADMITTED, 2 FILLING, 3 COMPLETE. -/
structure RsEntry where
  st : Nat := 0
  colid : Nat := 0
  chunk : Nat := 0
  expectM1 : Nat := 0
  fop : Nat := 0
  ctx : Nat := 0
  poison : Bool := false
  arrived : Word := 0
  bytes : Nat := 0
  xanchor : Int := 0
  donecc : Nat := 0
  first : Nat := 0
  /-- The notice of a residue fault of the chunk has been sent (R309). -/
  noted : Bool := false
  deriving DecidableEq, Repr

/-- A contribution queued to combine (R303). -/
structure Contribution where
  ctx : Nat
  colid : Nat
  chunk : Nat
  midx : Nat
  poison : Bool
  src : Nat
  rcc : Nat
  /-- Epoch carried. -/
  epoch : Nat
  data : List Byte
  buf : Option Nat
  fromPort : Option (Nat × Nat)
  /-- A packet's RCC has not been counted yet. -/
  packet : Bool
  /-- The clk in which it arrived. -/
  since : Nat := 0
  deriving DecidableEq, Repr

/-- The collectives' state that no register or memory holds. Relay stream (e, c) has key 2e + c. -/
structure Col where
  relays : List (Nat × Relay) := []
  entries : List (Nat × RsEntry) := []
  admits : List (Nat × List Admit) := []
  /-- The RADMITs of this clk, until its end orders them (R300). -/
  asked : List Admit := []
  combine : List Contribution := []
  /-- Clk with a request waiting beyond the units that RS_COUNT.ADMIT_WAIT shows. -/
  waitClk : Nat := 0
  deriving DecidableEq, Repr

/-- The start procedure of a job leader (R332). -/
structure Lead where
  active : Bool := false
  ctx : Nat := 0
  mgroup : Nat := 0
  ackcc : Nat := 0
  pcc : Nat := 0
  startLap : Nat := 0
  timeout : Nat := 0
  ackBase : Nat := 0
  pBase : Nat := 0
  members : Nat := 0
  since : Nat := 0
  deriving DecidableEq, Repr

/-- A fault reported to the host (R377): code, course time, context (2 = none), job and information word. -/
structure Event where
  code : Nat
  ct : Nat
  ctx : Nat
  job : Nat
  info : Nat
  deriving DecidableEq, Repr

/-- A device capsule sent and not yet acknowledged (R372): its number, the frame as first sent, and, for a drain capsule,
the stream, operation, region ID and offset of its SRD. -/
structure TxCap where
  seq : Nat
  frame : List Byte
  drain : Option (Nat × Nat × Nat × Nat)
  deriving DecidableEq, Repr

/-- A host capsule accepted and not yet executed (R370, R371): the session's generation and rights, the capsule's number,
its plaintext and its buffer. -/
structure AccCap where
  gen : Nat
  rights : Nat
  seq : Nat
  plain : List Byte
  buf : Option Nat
  deriving DecidableEq, Repr

/-- A WCP session's state that no register holds (R366 to R372). -/
structure Sess where
  /-- Times this slot has been opened. -/
  gen : Nat := 0
  /-- The host's end: IPv6, address and UDP port of the latest frame of the session with a good tag, or of its handshake. -/
  peer : Bool × Nat × Nat := (false, 0, 0)
  h1 : List Byte := []
  rxKey : List Byte := []
  rxIv : List Byte := []
  txKey : List Byte := []
  txIv : List Byte := []
  /-- Clock of entry into RESP_SENT, and of the latest verified frame. -/
  since : Nat := 0
  /-- RTO, RETRY_MAX and IDLE of WCP_CFG when the session opened (R380). -/
  rto : Nat := 0
  retryMax : Nat := 0
  idle : Nat := 0
  /-- Host capsules accepted above CUM. -/
  rxAbove : List Nat := []
  accepted : List AccCap := []
  /-- Number of the next capsule to execute. -/
  nextExec : Nat := 1
  ackDue : Bool := false
  /-- Device capsules in flight, and the plaintexts that wait for the window. -/
  unacked : List TxCap := []
  queue : List (List Byte × Option (Nat × Nat × Nat × Nat)) := []
  /-- Number of the next ACK frame. -/
  ackNext : Nat := 1
  /-- Clock of the latest sending or resending, and periods in which CUM has not advanced. -/
  sentAt : Nat := 0
  periods : Nat := 0
  /-- Lap in which F_WCP_TAG was last reported. -/
  tagLap : Option Nat := none
  deriving DecidableEq, Repr

/-- The host interface's state that no register holds. -/
structure HostIf where
  sessions : List (Nat × Sess) := []
  /-- Drain capsules abandoned by a closed session, whose SRD has yet to complete (R372). -/
  lost : List (Nat × Nat × Nat × Nat) := []
  /-- The ring of events that wait for a session, oldest first (R377). -/
  events : List Event := []
  /-- F_WCP_EVLOSS has been reported for the current overflow. -/
  evLossSeen : Bool := false
  deriving DecidableEq, Repr


/-- A host credential (R394). -/
structure Cred where
  valid : Bool := false
  rights : Nat := 0
  ed : List Byte := []
  mldsa : List Byte := []
  deriving DecidableEq, Repr

/-- A Setting Store command that runs (R396, R397). -/
inductive SsJob where
  | write (slot : Bool) (off : Nat)
  | verify (slot : Bool)
  | activate (slot : Bool)
  | store
  deriving DecidableEq, Repr

/-- What the newest verification of an image found (R382, R383): the header's fields and the body's hash. -/
structure ImageInfo where
  version : Nat := 0
  feature : Nat := 0
  svn : Nat := 0
  cert : Bool := false
  devroot : Bool := false
  length : Nat := 0
  hash : List Byte := []
  deriving DecidableEq, Repr

/-- A chip's sample, or an aggregate, of a census (R399, R400). -/
structure CenSum where
  count : Nat := 0
  late : Nat := 0
  minEpoch : Nat := 2 ^ 32 - 1
  maxEpoch : Nat := 0
  minVer : Nat := 2 ^ 32 - 1
  maxVer : Nat := 0
  minDig : Nat := 2 ^ 64 - 1
  maxDig : Nat := 0
  deriving DecidableEq, Repr

/-- A router's census state (R400): CID, sample lap, arrival port (none at the root), the reports expected and the sum;
`sampled` once this chip's own sample is in. -/
structure CenState where
  cid : Nat
  lap : Nat
  arrival : Option Nat
  expect : Nat
  sampleDue : Bool
  sum : CenSum
  /-- CT at START, at the root. -/
  since : Nat := 0
  deriving DecidableEq, Repr

/-- The security and management block's state that no register holds. -/
structure Sec where
  /-- 0 no verdict, 1 RELEASE, 2 DISCARD (R383, R384): a level held until the next reset. -/
  verdict : Nat := 0
  /-- The slot under verification, and whether the other has failed. -/
  tried : Nat := 0
  running : ImageInfo := {}
  /-- Fuses: hashes of the four root keys, lifecycle, serial, seed, seed-kill and SVN (R381). -/
  rootHashes : List (List Byte) := []
  fuseLc : Nat := 0
  fuseSerial : Word := 0
  fuseSeed : List Byte := []
  seedKilled : Bool := false
  fuseSvn : Nat := 0
  /-- Identity private seeds, present until D3 (R387, R391). -/
  identity : Option (List Byte × List Byte) := none
  /-- The Setting Store (R395). -/
  mram : List Host.Cell := []
  /-- Its 64-byte blocks that cannot be read (R395). -/
  badBlocks : List Nat := []
  creds : List (Nat × Cred) := []
  /-- The installed certificate (R388). -/
  certificate : List Byte := []
  /-- Bytes of the windows of the control space that are plain storage: token, quote, credential and image buffer. -/
  windows : List Host.Cell := []
  ssJob : Option SsJob := none
  /-- The preferred-slot record of the Setting Store (R395, R397). -/
  preferred : Nat := 0
  /-- An ATTEST that runs. -/
  attesting : Bool := false
  /-- A lifecycle transition has been made: nothing is accepted until a cold reset (R389). -/
  closed : Bool := false
  census : Option CenState := none
  deriving DecidableEq, Repr


/-- What one clk has done that a later command of the same clk has to know. -/
structure ClkLog where
  clk : Nat := 0
  /-- Registers of which a read has cleared fields, with what they showed before (R415). -/
  cleared : List (Nat × Word) := []
  /-- How often each trouble counter has counted (R426). -/
  troubles : List (Nat × Nat) := []
  deriving DecidableEq, Repr

/-- A restore's state (R356, R357): the context and the step that START took, the manifests and entries as START read them, the bytes fed
of each shard (manifest, shard), and the shards closed good. -/
structure Restore where
  ctx : Nat := 0
  step : Nat := 0
  mans : List (List Byte) := []
  entries : List (List Nat) := []
  fed : List ((Nat × Nat) × List Byte) := []
  closed : List (Nat × Nat) := []
  deriving DecidableEq, Repr

/-- A memory controller's state that no register holds (R210, R213, R218). -/
structure MemCtl where
  /-- Next bank of a channel's round-robin refresh. -/
  banks : List (Nat × Nat) := []
  /-- Channel and step, from 0, of the tracking pass that is due next or runs. -/
  rotCh : Nat := 0
  rotStep : Nat := 0
  /-- Clock at which the latest pass started. -/
  passStart : Option Nat := none
  /-- Corrected errors of each channel in this lap. -/
  ce : List (Nat × Nat) := []
  /-- Channels whose lateness has been reported. -/
  late : List Nat := []
  /-- Training follows an exit from P2: contents are kept. -/
  kept : Bool := false
  /-- The activation count from which the package wants refresh management, if its mode registers require that. -/
  rfm : Option Nat := none
  /-- Activations of each bank since its latest RFM command; key 16 * channel + bank. -/
  acts : List (Nat × Nat) := []
  /-- Rows left open, plus 1, by the same key. -/
  openRow : List (Nat × Nat) := []
  /-- Course time of each channel's latest base refresh and scrub, plus 1. -/
  refreshed : List (Nat × Nat) := []
  scrubbed : List (Nat × Nat) := []
  /-- Clock at which the latest retraining step ends, and the slot, in course time, that it runs in. -/
  stepEnd : Nat := 0
  stepSlot : Nat := 0
  /-- Its channel. -/
  stepCh : Nat := 0
  /-- Rates that the channels follow from the next stride, with the stride of the poll in course time. -/
  rates : Option (Nat × List Nat) := none
  /-- The deepest queue of a channel in this lap. -/
  depth : Nat := 0
  deriving DecidableEq, Repr

/-- The power, clock and reset block's state that no register holds (R431 to R451), with the TAP's and the I3C target's. -/
structure Power where
  /-- Supplies in band, numbered from 0 in the order of R428, with the clock at which each entered its band. -/
  inBand : List (Nat × Nat) := []
  /-- A supply entered its band before its predecessor (R431). -/
  seqBad : Bool := false
  /-- Supplies in an excursion, and sensors at 100 °C or above, already reported. -/
  outside : List Nat := []
  hot : List Nat := []
  /-- THERMTRIP_N is driven low (R437). -/
  tripped : Bool := false
  /-- Power commands that wait for the lap edge, oldest first: the code, whether the writer may command WARM, and whether it is
  the BMC. -/
  commands : List (Nat × Bool × Bool) := []
  /-- Writes of PWR_DOM0 and PWR_DOM1 that wait for the lap edge. -/
  domains : List (Nat × Word) := []
  /-- Domains whose turn has yet to come, in ascending order, with the new state (R440). -/
  switches : List (Nat × Bool) := []
  /-- Domains switched on, with the clock from which each is usable. -/
  usable : List (Nat × Nat) := []
  /-- CAUSE of the start that the next release begins (R450). -/
  cause : Nat := 0
  /-- A reset is held, or a start is to run: the next RESET_RELEASE begins it. -/
  held : Bool := true
  /-- A start has begun and READY has yet to be set. -/
  starting : Bool := false
  /-- The I3C dynamic address (R434). -/
  i3cAddr : Option Nat := none
  /-- The TAP's instruction register, the last value of a CSPACE read, and the boundary-scan cells. -/
  ir : Nat := 1
  shiftData : Word := 0
  cells : Word := 0
  extest : Bool := false
  deriving DecidableEq, Repr

/-- A burst of 16 bytes on a channel (R208): read, write or masked write, at a bank (4 * group + bank), a row and a byte of it. -/
structure Burst where
  kind : Nat
  bank : Nat
  row : Nat
  byte : Nat
  deriving DecidableEq, Repr

/-- What the block has put on its links and pins, newest first. -/
inductive Out where
  /-- A packet whose flits begin to leave on a port. -/
  | packet (port : Nat) (p : Packet)
  /-- A group of a port, sent or sent again: its 32-byte blocks in order, each with its spare bit; block i goes to lane i mod 8
  (R231, R233). -/
  | group (port : Nat) (blocks : List (Bool × List Byte))
  /-- A frame on a host port. -/
  | frame (port : Nat) (bytes : List Byte)
  /-- An in-band interrupt to the BMC (R435); its payload byte holds PWR_STATUS.STATE. -/
  | ibi (state : Nat)
  /-- A pin driven by the block. -/
  | pin (name : String) (level : Bool)
  /-- A value shifted out of, or returned by, an access port: JTAG TDO, the fast read-out port, I3C. -/
  | shift (port : String) (bits : List Word)
  /-- An LPDDR command to a bank of a channel (refresh, RFM), or to all of a controller (self-refresh, reset). -/
  | mem (ctl : Nat) (ch : Nat) (bank : Nat) (cmd : String)
  /-- The bursts of a request on a device channel (R208). -/
  | bursts (ch : Nat) (l : List Burst)
  /-- A regulator set point (R433), in mV. -/
  | avs (mv : Nat)
  deriving DecidableEq, Repr

/-- The state of the block. -/
structure State where
  /-- Every control-space register, keyed by its offset; an unlisted register holds its reset value. -/
  regs : List (Nat × Word) := []
  /-- The Rink (R176). -/
  rink : List Host.Cell := []
  /-- Local LPDDR (R202). -/
  lpddr : List Host.Cell := []
  /-- Bits of LPDDR blocks that the arrays hold wrong, in check value and data (R207): one bit, which the code corrects, or bits that
  it does not. -/
  flips : List (Nat × List Nat) := []
  /-- 16-byte words of the Rink in error: 1 corrected on a read, 2 uncorrectable (R177). -/
  rinkErr : List (Nat × Nat) := []
  /-- Rink accesses pending: port, bank, and the clock of their presentation, oldest first (R184). -/
  rinkQ : List (Nat × Nat × Nat) := []
  /-- Cluster stores: cluster n at n * 4 MiB. -/
  store : List Host.Cell := []
  /-- Gate SRAM: engine g at g * 16 MiB. -/
  gsram : List Host.Cell := []
  /-- The Reduction Store: entry i at i * 16 KiB. -/
  rstore : List Host.Cell := []
  /-- Guard arrays: entry i at i * 2 KiB (R306). -/
  guard : List Host.Cell := []
  /-- Template banks: key bank * 4,096 + entry * 8 + word (R82). -/
  tmpl : List (Nat × Word) := []
  lap : LapUnit := {}
  streams : List (Nat × Stream) := []
  ctxs : List (Nat × Ctx) := []
  locker : Locker := {}
  gates : List (Nat × Gate) := []
  gmus : List (Nat × List GmmOp) := []
  courses : List (Nat × Course) := []
  /-- A Course load in progress: the image's Rink offset (R153). -/
  loading : Option Nat := none
  router : Router := {}
  remotes : List Remote := []
  requests : List Request := []
  col : Col := {}
  lead : Lead := {}
  host : HostIf := {}
  /-- Trouble causes counted once per lap, seen in this lap (R426). -/
  lapFlags : List Nat := []
  /-- A fixed-function release found a free buffer: the Buffer auditor's next round reports it (R194). -/
  bufBreach : Bool := false
  /-- Snapshot state of the two contexts. -/
  snaps : List (Nat × SnapCtx) := []
  restore : Restore := {}
  /-- Trail windows (context * 16 + window) in which a partial block was written (TRAIL_LINFO.PARTIAL, R412). -/
  partials : List Nat := []
  /-- A device fault has stopped the CTL heartbeats (R25). -/
  silenced : Bool := false
  /-- Codes persisted to the fault log, newest first (R395, R396). -/
  faultLog : List Nat := []
  sec : Sec := {}
  /-- What this clk has done (R415, R426). -/
  clkLog : ClkLog := {}
  /-- Clk spent at the tile floor by each GMU beyond the units that GMU_COUNT.FLOOR_CLK shows (R123). -/
  floors : List (Nat × Nat) := []
  /-- Trace and sampler records that wait for the ring (R417). -/
  telQueue : List (List Byte) := []
  /-- SEQ of the sampler's next record (R415). -/
  telSeq : Nat := 0
  /-- Course time of its latest record. -/
  telLast : Option Nat := none
  /-- DBG_REPEAT's counts of the current lap: 0 EXTRA, 1 RETRY, 2 SAMPLE, 3 RWIN, 4 SS, 5 UNHELD. -/
  repeats : List (Nat × Nat) := []
  /-- Power, clocks, resets and access ports. -/
  power : Power := {}
  /-- A freeze is in force: issue and Rink grants have stopped (R423). -/
  frozen : Bool := false
  /-- Every clock outside the always-on domain is stopped: 256 clk into a freeze, in P2, or while a reset is held, also one applied in operation. -/
  stopped : Bool := false
  /-- The read-out shadow: the capture taken at the freeze (R423). -/
  shadow : List Byte := []
  /-- The capture that is being written to the standstill buffer (R420). -/
  capture : List Byte := []
  /-- The memory controllers. -/
  mems : List (Nat × MemCtl) := []
  /-- Settings that take effect at the next lap edge: register offset and value, oldest first (R227, R398). -/
  lapDeferred : List (Nat × Word) := []
  /-- Of the current lap, per level of R185: saturation events (keys 0 to 3) and the largest QUEUED (keys 4 to 7). -/
  levels : List (Nat × Nat) := []
  /-- Clocks since reset: the model's own count, for ages and timeouts. -/
  clk : Nat := 0
  /-- Rink scrub position: the next line (R178). -/
  scrubLine : Nat := 0
  /-- Commands the block has yet to take, first in, first out. -/
  pending : List Instr := []
  /-- What the block has sent, newest first. -/
  out : List Out := []
  /-- Index of the next free value. -/
  freeCtr : Nat := 0
  deriving DecidableEq, Repr

/-- The reasons for which a step could end in a fault. The block has none: every device fault of the spec is an
effect on the state (R25, R80, R221), so no constructor is needed beyond the one below. -/
inductive Fault where
  /-- Raised by no command: the type has to name a reason. Safe, since it is never raised. -/
  | none
  deriving DecidableEq, Repr

/-- The reasons for which a command is refused. -/
inductive Refusal where
  /-- Raised by an arm of `exec` whose command has no meaning yet. Safe: nothing can be proved of the command. -/
  | notModelled (mnemonic : String)
  deriving DecidableEq, Repr

/-- The block right after cold reset: every register at the value R475 gives (an empty table), memories empty, no
command waiting. -/
def State.reset : State := {}

end Sys2Proof.Machine
end

