-- ==== Sys2Proof/Machine/RegTable.lean ====
section
/-!
DEFINITION. The control-space register table: one named field descriptor per field of every register
the spec defines (its chapters' field tables), at the offset R469 and R474 give, and the rows by which
an offset is looked up. Reserved fields have no descriptor: they read 0 (R7).
-/

namespace Sys2Proof.Machine

/-- Register base of stream `k`, numbered as R183 (R89). -/
def engBase (k : Nat) : Nat :=
  if k < 32 then 0x080000 + 0x4000 * k else if k < 40 then 0x100000 + 0x8000 * (k - 32)
  else if k < 48 then 0x160000 + 0x1000 * ((k - 40) / 2) + 0x100 * ((k - 40) % 2) else 0x200000 + 0x100 * (k - 48)

def DEV_ID.PKG : Fld := ⟨0x000000, 39, 32, .ro⟩
def DEV_ID.VENDOR : Fld := ⟨0x000000, 31, 24, .ro⟩
def DEV_ID.STEP_MAJOR : Fld := ⟨0x000000, 23, 20, .ro⟩
def DEV_ID.STEP_MINOR : Fld := ⟨0x000000, 19, 16, .ro⟩
def DEV_ID.PART : Fld := ⟨0x000000, 15, 0, .ro⟩
def CSV_STATUS.FAULT : Fld := ⟨0x000100, 63, 48, .rws⟩
def CSV_STATUS.PASSES : Fld := ⟨0x000100, 39, 32, .ro⟩
def CSV_STATUS.MISMATCH : Fld := ⟨0x000100, 12, 8, .w1c⟩
def CSV_STATUS.LIMIT : Fld := ⟨0x000100, 4, 4, .ro⟩
def CSV_STATUS.FRZSEEN : Fld := ⟨0x000100, 3, 3, .ro⟩
def CSV_STATUS.D3SEEN : Fld := ⟨0x000100, 2, 2, .ro⟩
def CSV_STATUS.CERT : Fld := ⟨0x000100, 1, 1, .ro⟩
def CSV_STATUS.PROMISED : Fld := ⟨0x000100, 0, 0, .ro⟩
def LAP_CTRL.TREE_GROUP : Fld := ⟨0x010000, 31, 20, .rw⟩
def LAP_CTRL.PARENT_PORT : Fld := ⟨0x010000, 19, 16, .rw⟩
def LAP_CTRL.SRC_PRI : Fld := ⟨0x010000, 10, 8, .rw⟩
def LAP_CTRL.SRC_BAK : Fld := ⟨0x010000, 6, 4, .rw⟩
def LAP_CTRL.PTP_PORT : Fld := ⟨0x010000, 3, 3, .rw⟩
def LAP_CTRL.MASTER : Fld := ⟨0x010000, 2, 2, .rw⟩
def LAP_CTRL.RELOCK : Fld := ⟨0x010000, 1, 1, .wo⟩
def LAP_CTRL.ENABLE : Fld := ⟨0x010000, 0, 0, .rw⟩
def LAP_CFG.HOLD_MAX : Fld := ⟨0x010008, 63, 48, .rw⟩
def LAP_CFG.PERIOD_US : Fld := ⟨0x010008, 47, 32, .rw⟩
def LAP_CFG.LOCK_TOL : Fld := ⟨0x010008, 31, 24, .rw⟩
def LAP_CFG.SLEW : Fld := ⟨0x010008, 23, 16, .rw⟩
def LAP_CFG.MISS_MAX : Fld := ⟨0x010008, 15, 8, .rw⟩
def LAP_STATUS.LAST_CODE : Fld := ⟨0x010010, 63, 48, .ro⟩
def LAP_STATUS.HOLD_LAPS : Fld := ⟨0x010010, 47, 16, .ro⟩
def LAP_STATUS.LOCK_RUN : Fld := ⟨0x010010, 15, 8, .ro⟩
def LAP_STATUS.CTX_SEEN : Fld := ⟨0x010010, 7, 7, .ro⟩
def LAP_STATUS.SRC_ACTIVE : Fld := ⟨0x010010, 6, 4, .ro⟩
def LAP_STATUS.STATE : Fld := ⟨0x010010, 2, 0, .ro⟩
def LAP_CT.LAP : Fld := ⟨0x010018, 63, 20, .rw⟩
def LAP_CT.STRIDE : Fld := ⟨0x010018, 19, 0, .ro⟩
def LAP_LCC.LAST_LAP_CLK : Fld := ⟨0x010020, 63, 32, .ro⟩
def LAP_LCC.LCC : Fld := ⟨0x010020, 31, 0, .ro⟩
def LAP_LOOP.PHASE_INC : Fld := ⟨0x010028, 47, 0, .ro⟩
def LAP_PERR.PERR : Fld := ⟨0x010030, 31, 0, .ro⟩
def LAP_PTP.ORIGIN : Fld := ⟨0x010038, 63, 0, .rw⟩
def LAP_OVR.GROUP (c : Nat) : Fld := ⟨0x010040 + 0x8 * c, 63, 52, .rw⟩
def LAP_OVR.DEADLINE (c : Nat) : Fld := ⟨0x010040 + 0x8 * c, 51, 32, .rw⟩
def LAP_OVR.ABORTS (c : Nat) : Fld := ⟨0x010040 + 0x8 * c, 31, 20, .rc⟩
def LAP_OVR.STRETCHES (c : Nat) : Fld := ⟨0x010040 + 0x8 * c, 19, 8, .rc⟩
def LAP_OVR.POLICY (c : Nat) : Fld := ⟨0x010040 + 0x8 * c, 0, 0, .rw⟩
def LAP_COUNT.MARKER_BAD : Fld := ⟨0x010050, 63, 48, .rc⟩
def LAP_COUNT.LATE_WAIT : Fld := ⟨0x010050, 47, 32, .rc⟩
def LAP_COUNT.GLITCH : Fld := ⟨0x010050, 31, 16, .rc⟩
def LAP_COUNT.MISSED : Fld := ⟨0x010050, 15, 0, .rc⟩
def ENG_CTL.WAITLIM (k : Nat) : Fld := ⟨engBase k + 0x00, 47, 16, .rw⟩
def ENG_CTL.REQID (k : Nat) : Fld := ⟨engBase k + 0x00, 13, 8, .rw⟩
def ENG_STATUS.OUTSTANDING (k : Nat) : Fld := ⟨engBase k + 0x08, 36, 32, .ro⟩
def ENG_STATUS.TMPL (k : Nat) : Fld := ⟨engBase k + 0x08, 24, 16, .ro⟩
def ENG_STATUS.QDEPTH (k : Nat) : Fld := ⟨engBase k + 0x08, 11, 8, .ro⟩
def ENG_STATUS.STATE (k : Nat) : Fld := ⟨engBase k + 0x08, 3, 0, .ro⟩
def ENG_PC.PC (k : Nat) : Fld := ⟨engBase k + 0x10, 28, 0, .ro⟩
def ENG_WAIT.TARGET (k : Nat) : Fld := ⟨engBase k + 0x18, 63, 32, .ro⟩
def ENG_WAIT.KIND (k : Nat) : Fld := ⟨engBase k + 0x18, 31, 30, .ro⟩
def ENG_WAIT.INDEX (k : Nat) : Fld := ⟨engBase k + 0x18, 27, 16, .ro⟩
def ENG_FAULT.CODE (k : Nat) : Fld := ⟨engBase k + 0x20, 63, 48, .ro⟩
def ENG_FAULT.PC (k : Nat) : Fld := ⟨engBase k + 0x20, 44, 16, .ro⟩
def ENG_FAULT.INFO (k : Nat) : Fld := ⟨engBase k + 0x20, 15, 0, .ro⟩
def ENG_COUNT.RETIRED (k : Nat) : Fld := ⟨engBase k + 0x28, 63, 32, .rc⟩
def ENG_COUNT.STALL_CLK (k : Nat) : Fld := ⟨engBase k + 0x28, 31, 0, .rc⟩
def LS_TCTL.PEND_RT : Fld := ⟨0x024000, 17, 17, .ro⟩
def LS_TCTL.PEND_GEN : Fld := ⟨0x024000, 16, 16, .ro⟩
def LS_TCTL.BANK_RT : Fld := ⟨0x024000, 9, 9, .ro⟩
def LS_TCTL.BANK_GEN : Fld := ⟨0x024000, 8, 8, .ro⟩
def LS_TCTL.COMMIT_RT : Fld := ⟨0x024000, 1, 1, .wo⟩
def LS_TCTL.COMMIT_GEN : Fld := ⟨0x024000, 0, 0, .wo⟩
def LS_TSTATUS.REL_GEN : Fld := ⟨0x024008, 63, 48, .ro⟩
def LS_TSTATUS.END_GEN : Fld := ⟨0x024008, 47, 32, .ro⟩
def LS_TSTATUS.REL_RT : Fld := ⟨0x024008, 31, 16, .ro⟩
def LS_TSTATUS.END_RT : Fld := ⟨0x024008, 15, 0, .ro⟩
def LS_CNT.FINAL (n : Nat) : Fld := ⟨0x024100 + 0x8 * n, 63, 63, .ro⟩
def LS_CNT.VALUE (n : Nat) : Fld := ⟨0x024100 + 0x8 * n, 31, 0, .ro⟩
def NUM_FLAGS.XOVF (k : Nat) : Fld := ⟨engBase k + 0x30, 6, 6, .w1c⟩
def NUM_FLAGS.LOSS (k : Nat) : Fld := ⟨engBase k + 0x30, 5, 5, .w1c⟩
def NUM_FLAGS.NX (k : Nat) : Fld := ⟨engBase k + 0x30, 4, 4, .w1c⟩
def NUM_FLAGS.UF (k : Nat) : Fld := ⟨engBase k + 0x30, 3, 3, .w1c⟩
def NUM_FLAGS.OF (k : Nat) : Fld := ⟨engBase k + 0x30, 2, 2, .w1c⟩
def NUM_FLAGS.DZ (k : Nat) : Fld := ⟨engBase k + 0x30, 1, 1, .w1c⟩
def NUM_FLAGS.NV (k : Nat) : Fld := ⟨engBase k + 0x30, 0, 0, .w1c⟩
def GMU_STATUS.ENTRY (u : Nat) : Fld := ⟨0x080040 + 0x4000 * u, 63, 48, .ro⟩
def GMU_STATUS.REMAIN (u : Nat) : Fld := ⟨0x080040 + 0x4000 * u, 47, 32, .ro⟩
def GMU_STATUS.CC (u : Nat) : Fld := ⟨0x080040 + 0x4000 * u, 31, 20, .ro⟩
def GMU_STATUS.MODE (u : Nat) : Fld := ⟨0x080040 + 0x4000 * u, 3, 3, .ro⟩
def GMU_STATUS.QUEUED (u : Nat) : Fld := ⟨0x080040 + 0x4000 * u, 2, 1, .ro⟩
def GMU_STATUS.BUSY (u : Nat) : Fld := ⟨0x080040 + 0x4000 * u, 0, 0, .ro⟩
def GMU_COUNT.BUSY_CLK (u : Nat) : Fld := ⟨0x080048 + 0x4000 * u, 63, 32, .rc⟩
def GMU_COUNT.FLOOR_CLK (u : Nat) : Fld := ⟨0x080048 + 0x4000 * u, 31, 16, .rc⟩
def GMU_COUNT.ENTRIES (u : Nat) : Fld := ⟨0x080048 + 0x4000 * u, 15, 0, .rc⟩
def GE_LEDGER.BASE (g : Nat) : Fld := ⟨0x100100 + 0x8000 * g, 63, 40, .rw⟩
def GE_LEDGER.SIZE_M1 (g : Nat) : Fld := ⟨0x100100 + 0x8000 * g, 39, 24, .rw⟩
def GE_RET.RETREQ (g : Nat) : Fld := ⟨0x100108 + 0x8000 * g, 25, 20, .rw⟩
def GE_RET.RET_BYTES (g : Nat) : Fld := ⟨0x100108 + 0x8000 * g, 19, 0, .rw⟩
def GE_INTAKE.BASE (g : Nat) : Fld := ⟨0x100110 + 0x8000 * g, 63, 40, .rw⟩
def GE_INTAKE.NGROUPS_M1 (g : Nat) : Fld := ⟨0x100110 + 0x8000 * g, 39, 30, .rw⟩
def GE_INTAKE.ENABLE (g : Nat) : Fld := ⟨0x100110 + 0x8000 * g, 0, 0, .rw⟩
def GE_STATUS.LAYER (g : Nat) : Fld := ⟨0x100118 + 0x8000 * g, 63, 56, .ro⟩
def GE_STATUS.TOKEN (g : Nat) : Fld := ⟨0x100118 + 0x8000 * g, 55, 40, .ro⟩
def GE_STATUS.HELD (g : Nat) : Fld := ⟨0x100118 + 0x8000 * g, 39, 24, .ro⟩
def GE_STATUS.GROUPS_FINAL (g : Nat) : Fld := ⟨0x100118 + 0x8000 * g, 23, 14, .ro⟩
def GE_STATUS.QUEUED (g : Nat) : Fld := ⟨0x100118 + 0x8000 * g, 7, 6, .ro⟩
def GE_STATUS.INTAKE (g : Nat) : Fld := ⟨0x100118 + 0x8000 * g, 3, 3, .ro⟩
def GE_STATUS.DISP (g : Nat) : Fld := ⟨0x100118 + 0x8000 * g, 2, 2, .ro⟩
def GE_STATUS.SELECT (g : Nat) : Fld := ⟨0x100118 + 0x8000 * g, 1, 1, .ro⟩
def GE_STATUS.SCORE (g : Nat) : Fld := ⟨0x100118 + 0x8000 * g, 0, 0, .ro⟩
def GE_COUNT0.TOKENS (g : Nat) : Fld := ⟨0x100120 + 0x8000 * g, 63, 32, .rc⟩
def GE_COUNT0.SENT (g : Nat) : Fld := ⟨0x100120 + 0x8000 * g, 31, 0, .rc⟩
def GE_COUNT1.SPILLS (g : Nat) : Fld := ⟨0x100128 + 0x8000 * g, 63, 48, .rc⟩
def GE_COUNT1.DROP_CAP (g : Nat) : Fld := ⟨0x100128 + 0x8000 * g, 47, 32, .rc⟩
def GE_COUNT1.DROP_NAN (g : Nat) : Fld := ⟨0x100128 + 0x8000 * g, 31, 16, .rc⟩
def GE_COUNT1.RET_WAIT (g : Nat) : Fld := ⟨0x100128 + 0x8000 * g, 15, 0, .rc⟩
def GE_COUNT2.ACCEPTED (g : Nat) : Fld := ⟨0x100130 + 0x8000 * g, 63, 32, .rc⟩
def GE_COUNT2.TALLIES (g : Nat) : Fld := ⟨0x100130 + 0x8000 * g, 31, 16, .rc⟩
def GE_COUNT2.HELD_MAX (g : Nat) : Fld := ⟨0x100130 + 0x8000 * g, 15, 0, .rc⟩
def COURSE_SRC.ADDR : Fld := ⟨0x020000, 28, 0, .rw⟩
def COURSE_ACT.ACT_LAP : Fld := ⟨0x020008, 63, 20, .rw⟩
def COURSE_ACT.LOAD : Fld := ⟨0x020008, 0, 0, .wo⟩
def COURSE_CTL.CALDYN : Fld := ⟨0x020010, 0, 0, .rw⟩
def COURSE_STATUS.LAST_CODE : Fld := ⟨0x020018, 63, 48, .ro⟩
def COURSE_STATUS.ACTIVE_LAP : Fld := ⟨0x020018, 47, 4, .ro⟩
def COURSE_STATUS.LOADING : Fld := ⟨0x020018, 3, 3, .ro⟩
def COURSE_STATUS.PENDING : Fld := ⟨0x020018, 2, 2, .ro⟩
def COURSE_STATUS.STAGED : Fld := ⟨0x020018, 1, 1, .ro⟩
def COURSE_STATUS.BANK : Fld := ⟨0x020018, 0, 0, .ro⟩
def DSP_RETCC.CC3 (n : Nat) : Fld := ⟨0x020020 + 0x8 * n, 47, 36, .rw⟩
def DSP_RETCC.CC2 (n : Nat) : Fld := ⟨0x020020 + 0x8 * n, 35, 24, .rw⟩
def DSP_RETCC.CC1 (n : Nat) : Fld := ⟨0x020020 + 0x8 * n, 23, 12, .rw⟩
def DSP_RETCC.CC0 (n : Nat) : Fld := ⟨0x020020 + 0x8 * n, 11, 0, .rw⟩
def DSP_COUNT.STALE : Fld := ⟨0x020030, 63, 48, .rc⟩
def DSP_COUNT.STRAY : Fld := ⟨0x020030, 47, 32, .rc⟩
def DSP_COUNT.INGRESS_DROP : Fld := ⟨0x020030, 31, 16, .rc⟩
def DSP_COUNT.UNCLOSED : Fld := ⟨0x020030, 15, 0, .rc⟩
def SLOT_CNT.FILLED (n : Nat) : Fld := ⟨0x020200 + 0x8 * n, 62, 48, .ro⟩
def SLOT_CNT.IDLE (n : Nat) : Fld := ⟨0x020200 + 0x8 * n, 46, 32, .ro⟩
def SLOT_CNT.OPEN (n : Nat) : Fld := ⟨0x020200 + 0x8 * n, 30, 16, .ro⟩
def SLOT_CNT.MISSED (n : Nat) : Fld := ⟨0x020200 + 0x8 * n, 15, 0, .rc⟩
def DSP_CXL.VALID (c : Nat) (n : Nat) : Fld := ⟨0x020400 + 0x200 * c + 0x8 * n, 16, 16, .ro⟩
def DSP_CXL.EPOCH (c : Nat) (n : Nat) : Fld := ⟨0x020400 + 0x200 * c + 0x8 * n, 15, 0, .ro⟩
def LKR_CTL.ZERO : Fld := ⟨0x040000, 1, 1, .rwl⟩
def LKR_CTL.LOCK : Fld := ⟨0x040000, 0, 0, .rwl⟩
def LKR_STATUS.LAST_CODE : Fld := ⟨0x040008, 63, 48, .ro⟩
def LKR_STATUS.ZEROING : Fld := ⟨0x040008, 20, 0, .ro⟩
def LKR_COUNT.NOQUOTA : Fld := ⟨0x040010, 63, 48, .rc⟩
def LKR_COUNT.TRY_FAIL : Fld := ⟨0x040010, 47, 32, .rc⟩
def LKR_COUNT.WAIT_CLK : Fld := ⟨0x040010, 31, 0, .rc⟩
def LKR_POOL.BASE (p : Nat) : Fld := ⟨0x040040 + 0x8 * p, 60, 32, .rwl⟩
def LKR_POOL.COUNT (p : Nat) : Fld := ⟨0x040040 + 0x8 * p, 20, 0, .rwl⟩
def LKR_PSTAT.WAITERS (p : Nat) : Fld := ⟨0x040080 + 0x8 * p, 63, 57, .ro⟩
def LKR_PSTAT.FREE (p : Nat) : Fld := ⟨0x040080 + 0x8 * p, 52, 32, .ro⟩
def LKR_PSTAT.ALLOCATED (p : Nat) : Fld := ⟨0x040080 + 0x8 * p, 20, 0, .ro⟩
def LKR_REQ.FIXED (r : Nat) : Fld := ⟨0x040100 + 0x8 * r, 2, 2, .ro⟩
def LKR_REQ.CTX (r : Nat) : Fld := ⟨0x040100 + 0x8 * r, 1, 1, .rw⟩
def LKR_REQ.EN (r : Nat) : Fld := ⟨0x040100 + 0x8 * r, 0, 0, .rw⟩
def LKR_QUOTA.RESV (r : Nat) (p : Nat) : Fld := ⟨0x041000 + 0x40 * r + 0x8 * p, 62, 42, .rw⟩
def LKR_QUOTA.LIMIT (r : Nat) (p : Nat) : Fld := ⟨0x041000 + 0x40 * r + 0x8 * p, 41, 21, .rw⟩
def LKR_QUOTA.ALLOC (r : Nat) (p : Nat) : Fld := ⟨0x041000 + 0x40 * r + 0x8 * p, 20, 0, .ro⟩
def RINK_CFG.FWRES : Fld := ⟨0x050000, 7, 1, .rwl⟩
def RINK_CFG.LOCK : Fld := ⟨0x050000, 0, 0, .rwl⟩
def RINK_STATUS.LAST_CODE : Fld := ⟨0x050008, 63, 48, .ro⟩
def RINK_STATUS.GROUPS_ON : Fld := ⟨0x050008, 39, 32, .ro⟩
def RINK_ECC.CE : Fld := ⟨0x050010, 63, 32, .rc⟩
def RINK_ECC.UE : Fld := ⟨0x050010, 31, 16, .rc⟩
def RINK_ECC.PASSES : Fld := ⟨0x050010, 15, 0, .ro⟩
def RINK_ERRADDR.VALID : Fld := ⟨0x050018, 63, 63, .w1c⟩
def RINK_ERRADDR.UE : Fld := ⟨0x050018, 62, 62, .ro⟩
def RINK_ERRADDR.ADDR : Fld := ⟨0x050018, 28, 0, .ro⟩
def RINK_PORT.GRANTS (n : Nat) : Fld := ⟨0x050040 + 0x8 * n, 63, 32, .rc⟩
def RINK_PORT.DENY_CLK (n : Nat) : Fld := ⟨0x050040 + 0x8 * n, 31, 0, .rc⟩
def LVL_OCC.SAT_LAST (n : Nat) : Fld := ⟨0x050200 + 0x8 * n, 63, 32, .ro⟩
def LVL_OCC.PEAK (n : Nat) : Fld := ⟨0x050200 + 0x8 * n, 31, 16, .ro⟩
def LVL_OCC.QUEUED (n : Nat) : Fld := ⟨0x050200 + 0x8 * n, 15, 0, .ro⟩
def LVL_SAT.VALID : Fld := ⟨0x050220, 3, 3, .ro⟩
def LVL_SAT.LEVEL : Fld := ⟨0x050220, 2, 0, .ro⟩
def MEM_CTL.CE_LIMIT (m : Nat) : Fld := ⟨0x1C0000 + 0x4000 * m, 63, 56, .rw⟩
def MEM_CTL.PERIOD_MS (m : Nat) : Fld := ⟨0x1C0000 + 0x4000 * m, 47, 32, .rw⟩
def MEM_CTL.SCRUB_RATE (m : Nat) : Fld := ⟨0x1C0000 + 0x4000 * m, 27, 24, .rw⟩
def MEM_CTL.RFM_EN (m : Nat) : Fld := ⟨0x1C0000 + 0x4000 * m, 2, 2, .rw⟩
def MEM_CTL.TRAIN_EN (m : Nat) : Fld := ⟨0x1C0000 + 0x4000 * m, 1, 1, .rw⟩
def MEM_CTL.START (m : Nat) : Fld := ⟨0x1C0000 + 0x4000 * m, 0, 0, .wo⟩
def MEM_STATUS.LAST_CODE (m : Nat) : Fld := ⟨0x1C0008 + 0x4000 * m, 63, 48, .ro⟩
def MEM_STATUS.CH_FAILED (m : Nat) : Fld := ⟨0x1C0008 + 0x4000 * m, 47, 32, .ro⟩
def MEM_STATUS.RATE (m : Nat) : Fld := ⟨0x1C0008 + 0x4000 * m, 26, 24, .ro⟩
def MEM_STATUS.STATE (m : Nat) : Fld := ⟨0x1C0008 + 0x4000 * m, 3, 0, .ro⟩
def MEM_TRAIN.STEPS_CAL (m : Nat) : Fld := ⟨0x1C0010 + 0x4000 * m, 63, 48, .rc⟩
def MEM_TRAIN.STEPS_DYN (m : Nat) : Fld := ⟨0x1C0010 + 0x4000 * m, 47, 32, .rc⟩
def MEM_TRAIN.PASSES (m : Nat) : Fld := ⟨0x1C0010 + 0x4000 * m, 31, 16, .rc⟩
def MEM_TRAIN.OLDEST (m : Nat) : Fld := ⟨0x1C0010 + 0x4000 * m, 15, 0, .ro⟩
def MEM_REFCNT.BASE (m : Nat) : Fld := ⟨0x1C0018 + 0x4000 * m, 63, 32, .rc⟩
def MEM_REFCNT.EXTRA (m : Nat) : Fld := ⟨0x1C0018 + 0x4000 * m, 31, 16, .rc⟩
def MEM_REFCNT.RFM (m : Nat) : Fld := ⟨0x1C0018 + 0x4000 * m, 15, 0, .rc⟩
def MEM_ECC.CE (m : Nat) : Fld := ⟨0x1C0020 + 0x4000 * m, 63, 32, .rc⟩
def MEM_ECC.UE (m : Nat) : Fld := ⟨0x1C0020 + 0x4000 * m, 31, 16, .rc⟩
def MEM_ECC.SCRUB_FIX (m : Nat) : Fld := ⟨0x1C0020 + 0x4000 * m, 15, 0, .rc⟩
def MEM_ERRADDR.VALID (m : Nat) : Fld := ⟨0x1C0028 + 0x4000 * m, 63, 63, .w1c⟩
def MEM_ERRADDR.UE (m : Nat) : Fld := ⟨0x1C0028 + 0x4000 * m, 62, 62, .ro⟩
def MEM_ERRADDR.CH (m : Nat) : Fld := ⟨0x1C0028 + 0x4000 * m, 61, 58, .ro⟩
def MEM_ERRADDR.SYNDROME (m : Nat) : Fld := ⟨0x1C0028 + 0x4000 * m, 55, 40, .ro⟩
def MEM_ERRADDR.ADDR (m : Nat) : Fld := ⟨0x1C0028 + 0x4000 * m, 39, 6, .ro⟩
def MEM_SCRUB.PASSES (m : Nat) : Fld := ⟨0x1C0030 + 0x4000 * m, 63, 32, .ro⟩
def MEM_SCRUB.POS (m : Nat) : Fld := ⟨0x1C0030 + 0x4000 * m, 20, 0, .ro⟩
def MEM_QUEUE.REFUSED (m : Nat) : Fld := ⟨0x1C0038 + 0x4000 * m, 63, 32, .rc⟩
def MEM_QUEUE.DEPTH_MAX (m : Nat) : Fld := ⟨0x1C0038 + 0x4000 * m, 5, 0, .ro⟩
def MEM_CH.LAST_PASS (m : Nat) (k : Nat) : Fld := ⟨0x1C0100 + 0x4000 * m + 0x8 * k, 63, 32, .ro⟩
def MEM_CH.CE_LAP (m : Nat) (k : Nat) : Fld := ⟨0x1C0100 + 0x4000 * m + 0x8 * k, 31, 24, .ro⟩
def MEM_CH.RATE (m : Nat) (k : Nat) : Fld := ⟨0x1C0100 + 0x4000 * m + 0x8 * k, 18, 16, .ro⟩
def MEM_CH.DRIFT (m : Nat) (k : Nat) : Fld := ⟨0x1C0100 + 0x4000 * m + 0x8 * k, 15, 8, .ro⟩
def MEM_CH.FAILED (m : Nat) (k : Nat) : Fld := ⟨0x1C0100 + 0x4000 * m + 0x8 * k, 0, 0, .ro⟩
def FAB_CFG.XS_M1 : Fld := ⟨0x140000, 63, 60, .rw⟩
def FAB_CFG.YS_M1 : Fld := ⟨0x140000, 59, 55, .rw⟩
def FAB_CFG.ZS_M1 : Fld := ⟨0x140000, 54, 50, .rw⟩
def FAB_CFG.CHIPID : Fld := ⟨0x140000, 49, 36, .rw⟩
def FAB_CFG.HB_SLOTS : Fld := ⟨0x140000, 31, 16, .rw⟩
def FAB_CFG.HB_MISS : Fld := ⟨0x140000, 15, 8, .rw⟩
def FAB_STATUS.LAST_CODE : Fld := ⟨0x140008, 63, 48, .ro⟩
def FAB_STATUS.UP : Fld := ⟨0x140008, 47, 36, .ro⟩
def FAB_STATUS.FAILED : Fld := ⟨0x140008, 35, 24, .ro⟩
def FAB_STATUS.DEGRADED : Fld := ⟨0x140008, 23, 18, .ro⟩
def FAB_STATUS.DOWNDIR : Fld := ⟨0x140008, 17, 12, .ro⟩
def FAB_STATUS.SELF_FENCED : Fld := ⟨0x140008, 0, 0, .ro⟩
def FAB_COUNT0.PRUNED : Fld := ⟨0x140010, 63, 48, .rc⟩
def FAB_COUNT0.ECRC : Fld := ⟨0x140010, 47, 32, .rc⟩
def FAB_COUNT0.HOPS : Fld := ⟨0x140010, 31, 16, .rc⟩
def FAB_COUNT0.MGROUP : Fld := ⟨0x140010, 15, 0, .rc⟩
def FAB_COUNT1.ABANDON : Fld := ⟨0x140018, 63, 48, .rc⟩
def FAB_COUNT1.NOPATH : Fld := ⟨0x140018, 47, 32, .rc⟩
def FAB_COUNT1.AGG_SENT : Fld := ⟨0x140018, 31, 0, .rc⟩
def FAB_FENCE_EPOCH.EPOCH : Fld := ⟨0x140020, 31, 0, .rw⟩
def FAB_MGSEL.WRITE : Fld := ⟨0x140028, 63, 63, .wo⟩
def FAB_MGSEL.READ : Fld := ⟨0x140028, 62, 62, .wo⟩
def FAB_MGSEL.INDEX : Fld := ⟨0x140028, 11, 0, .rw⟩
def FAB_MGDATA.DATA (n : Nat) : Fld := ⟨0x140030 + 0x8 * n, 63, 0, .rw⟩
def FAB_FENCE.FENCED (n : Nat) : Fld := ⟨0x144000 + 0x8 * n, 63, 0, .rw⟩
def PORT_CTL.EN (n : Nat) : Fld := ⟨0x180000 + 0x2000 * n, 0, 0, .rw⟩
def PORT_STATUS.LAST_CODE (n : Nat) : Fld := ⟨0x180008 + 0x2000 * n, 63, 48, .ro⟩
def PORT_STATUS.FEATURE (n : Nat) : Fld := ⟨0x180008 + 0x2000 * n, 47, 40, .ro⟩
def PORT_STATUS.LANES_OK (n : Nat) : Fld := ⟨0x180008 + 0x2000 * n, 39, 32, .ro⟩
def PORT_STATUS.LANE (n : Nat) : Fld := ⟨0x180008 + 0x2000 * n, 31, 29, .ro⟩
def PORT_STATUS.HBLOST (n : Nat) : Fld := ⟨0x180008 + 0x2000 * n, 7, 7, .w1c⟩
def PORT_STATUS.PEER_FENCED (n : Nat) : Fld := ⟨0x180008 + 0x2000 * n, 6, 6, .ro⟩
def PORT_STATUS.AUDIT (n : Nat) : Fld := ⟨0x180008 + 0x2000 * n, 5, 5, .ro⟩
def PORT_STATUS.STATE (n : Nat) : Fld := ⟨0x180008 + 0x2000 * n, 3, 0, .ro⟩
def PORT_PEER.CHIPID (n : Nat) : Fld := ⟨0x180010 + 0x2000 * n, 63, 50, .ro⟩
def PORT_PEER.PORT (n : Nat) : Fld := ⟨0x180010 + 0x2000 * n, 49, 46, .ro⟩
def PORT_PEER.FEATURE (n : Nat) : Fld := ⟨0x180010 + 0x2000 * n, 45, 38, .ro⟩
def PORT_PEER.FWVER (n : Nat) : Fld := ⟨0x180010 + 0x2000 * n, 31, 0, .ro⟩
def PORT_PEERCFG.EPOCH (n : Nat) : Fld := ⟨0x180018 + 0x2000 * n, 63, 32, .ro⟩
def PORT_PEERDIG.DIGEST (n : Nat) : Fld := ⟨0x180020 + 0x2000 * n, 63, 0, .ro⟩
def PORT_DELAY.DELAY (n : Nat) : Fld := ⟨0x180028 + 0x2000 * n, 31, 0, .ro⟩
def PORT_CRED.V3 (n : Nat) (h : Nat) : Fld := ⟨0x180040 + 0x2000 * n + 0x8 * h, 47, 36, .rw⟩
def PORT_CRED.V2 (n : Nat) (h : Nat) : Fld := ⟨0x180040 + 0x2000 * n + 0x8 * h, 35, 24, .rw⟩
def PORT_CRED.V1 (n : Nat) (h : Nat) : Fld := ⟨0x180040 + 0x2000 * n + 0x8 * h, 23, 12, .rw⟩
def PORT_CRED.V0 (n : Nat) (h : Nat) : Fld := ⟨0x180040 + 0x2000 * n + 0x8 * h, 11, 0, .rw⟩
def PORT_COUNT0.RETRY (n : Nat) : Fld := ⟨0x180050 + 0x2000 * n, 63, 48, .rc⟩
def PORT_COUNT0.CW_UNCORR (n : Nat) : Fld := ⟨0x180050 + 0x2000 * n, 47, 32, .rc⟩
def PORT_COUNT0.SYM_CORR (n : Nat) : Fld := ⟨0x180050 + 0x2000 * n, 31, 0, .rc⟩
def PORT_COUNT1.PKT_TX (n : Nat) : Fld := ⟨0x180058 + 0x2000 * n, 63, 32, .rc⟩
def PORT_COUNT1.PKT_RX (n : Nat) : Fld := ⟨0x180058 + 0x2000 * n, 31, 0, .rc⟩
def RMEM_CTL.TIMEOUT (c : Nat) : Fld := ⟨0x038000 + 0x8 * c, 63, 32, .rw⟩
def RMEM_CTL.DSIZE_M1 (c : Nat) : Fld := ⟨0x038000 + 0x8 * c, 7, 2, .rw⟩
def RMEM_CTL.EN (c : Nat) : Fld := ⟨0x038000 + 0x8 * c, 0, 0, .rw⟩
def RMEM_STATUS.LAST_CODE : Fld := ⟨0x038010, 63, 48, .ro⟩
def RMEM_STATUS.OUT_GEN : Fld := ⟨0x038010, 47, 32, .ro⟩
def RMEM_STATUS.OUT_RT : Fld := ⟨0x038010, 31, 16, .ro⟩
def RMEM_COUNT0.REQ_TX : Fld := ⟨0x038018, 63, 32, .rc⟩
def RMEM_COUNT0.ERR_RX : Fld := ⟨0x038018, 31, 16, .rc⟩
def RMEM_COUNT0.TIMEOUT : Fld := ⟨0x038018, 15, 0, .rc⟩
def RMEM_COUNT1.SERVED : Fld := ⟨0x038020, 63, 32, .rc⟩
def RMEM_COUNT1.STRAY : Fld := ⟨0x038020, 31, 16, .rc⟩
def RMEM_COUNT1.NOCTX : Fld := ⟨0x038020, 15, 0, .rc⟩
def RMEM_DMAP.VALID (c : Nat) (i : Nat) : Fld := ⟨0x038100 + 0x200 * c + 0x8 * i, 63, 63, .rw⟩
def RMEM_DMAP.CHIPID (c : Nat) (i : Nat) : Fld := ⟨0x038100 + 0x200 * c + 0x8 * i, 13, 0, .rw⟩
def RMEM_SEGB.VALID (c : Nat) (j : Nat) : Fld := ⟨0x038600 + 0x200 * c + 0x10 * j, 63, 63, .rw⟩
def RMEM_SEGB.R (c : Nat) (j : Nat) : Fld := ⟨0x038600 + 0x200 * c + 0x10 * j, 62, 62, .rw⟩
def RMEM_SEGB.W (c : Nat) (j : Nat) : Fld := ⟨0x038600 + 0x200 * c + 0x10 * j, 61, 61, .rw⟩
def RMEM_SEGB.A (c : Nat) (j : Nat) : Fld := ⟨0x038600 + 0x200 * c + 0x10 * j, 60, 60, .rw⟩
def RMEM_SEGB.N (c : Nat) (j : Nat) : Fld := ⟨0x038600 + 0x200 * c + 0x10 * j, 59, 59, .rw⟩
def RMEM_SEGB.BASE (c : Nat) (j : Nat) : Fld := ⟨0x038600 + 0x200 * c + 0x10 * j, 45, 12, .rw⟩
def RMEM_SEGL.LIMIT (c : Nat) (j : Nat) : Fld := ⟨0x038608 + 0x200 * c + 0x10 * j, 45, 12, .rw⟩
def REL_TRIG.POSTED1 (e : Nat) : Fld := ⟨0x160800 + 0x1000 * e, 63, 55, .ro⟩
def REL_TRIG.FIRED1 (e : Nat) : Fld := ⟨0x160800 + 0x1000 * e, 54, 46, .ro⟩
def REL_TRIG.POSTED0 (e : Nat) : Fld := ⟨0x160800 + 0x1000 * e, 45, 37, .ro⟩
def REL_TRIG.FIRED0 (e : Nat) : Fld := ⟨0x160800 + 0x1000 * e, 36, 28, .ro⟩
def REL_TRIG.RUNSTREAM (e : Nat) : Fld := ⟨0x160800 + 0x1000 * e, 4, 4, .ro⟩
def REL_TRIG.BUSY (e : Nat) : Fld := ⟨0x160800 + 0x1000 * e, 3, 3, .ro⟩
def REL_TRIG.OP (e : Nat) : Fld := ⟨0x160800 + 0x1000 * e, 2, 0, .ro⟩
def REL_COUNT.PKTS (e : Nat) : Fld := ⟨0x160808 + 0x1000 * e, 63, 32, .rc⟩
def REL_COUNT.OPS (e : Nat) : Fld := ⟨0x160808 + 0x1000 * e, 31, 16, .rc⟩
def REL_COUNT.FLOW_WAIT (e : Nat) : Fld := ⟨0x160808 + 0x1000 * e, 15, 0, .rc⟩
def COL_CTL.PGROUP (c : Nat) : Fld := ⟨0x168000 + 0x8 * c, 63, 52, .rw⟩
def COL_CTL.TAINTCC (c : Nat) : Fld := ⟨0x168000 + 0x8 * c, 51, 40, .rw⟩
def COL_CTL.REPLAY_MAX (c : Nat) : Fld := ⟨0x168000 + 0x8 * c, 39, 36, .rw⟩
def COL_STATUS.LAST_CODE : Fld := ⟨0x168010, 63, 48, .ro⟩
def COL_STATUS.REPLAYS_GEN : Fld := ⟨0x168010, 47, 44, .ro⟩
def COL_STATUS.REPLAYS_RT : Fld := ⟨0x168010, 43, 40, .ro⟩
def COL_STATUS.TAINT_RT : Fld := ⟨0x168010, 1, 1, .ro⟩
def COL_STATUS.TAINT_GEN : Fld := ⟨0x168010, 0, 0, .ro⟩
def COL_LASTID.GEN : Fld := ⟨0x168018, 63, 32, .ro⟩
def COL_LASTID.RT : Fld := ⟨0x168018, 31, 0, .ro⟩
def COL_FLAGS.RT : Fld := ⟨0x168020, 12, 8, .w1c⟩
def COL_FLAGS.GEN : Fld := ⟨0x168020, 4, 0, .w1c⟩
def COL_COUNT.STALE : Fld := ⟨0x168028, 63, 48, .rc⟩
def COL_COUNT.STRAY : Fld := ⟨0x168028, 47, 32, .rc⟩
def COL_COUNT.RESIDUE : Fld := ⟨0x168028, 31, 16, .rc⟩
def COL_COUNT.POISONED : Fld := ⟨0x168028, 15, 0, .rc⟩
def COL_SLOW.CHIP (c : Nat) : Fld := ⟨0x168030 + 0x8 * c, 63, 50, .ro⟩
def COL_SLOW.MIDX (c : Nat) : Fld := ⟨0x168030 + 0x8 * c, 49, 44, .ro⟩
def COL_SLOW.SPREAD (c : Nat) : Fld := ⟨0x168030 + 0x8 * c, 43, 24, .ro⟩
def COL_SLOW.COLID (c : Nat) : Fld := ⟨0x168030 + 0x8 * c, 23, 0, .ro⟩
def COL_SLOWCNT.LAST (c : Nat) (m : Nat) : Fld := ⟨0x168100 + 0x200 * c + 0x8 * m, 31, 0, .rc⟩
def COL_LZ.VALID (c : Nat) (n : Nat) : Fld := ⟨0x168500 + 0x200 * c + 0x8 * n, 63, 63, .rw⟩
def COL_LZ.BASE (c : Nat) (n : Nat) : Fld := ⟨0x168500 + 0x200 * c + 0x8 * n, 57, 29, .rw⟩
def COL_LZ.SIZE (c : Nat) (n : Nat) : Fld := ⟨0x168500 + 0x200 * c + 0x8 * n, 24, 0, .rw⟩
def RS_CFG.RT_ENTRIES : Fld := ⟨0x148000, 8, 0, .rw⟩
def RS_STATUS.FREE_GEN : Fld := ⟨0x148008, 63, 54, .ro⟩
def RS_STATUS.FREE_RT : Fld := ⟨0x148008, 53, 44, .ro⟩
def RS_STATUS.WAIT_GEN : Fld := ⟨0x148008, 43, 39, .ro⟩
def RS_STATUS.WAIT_RT : Fld := ⟨0x148008, 38, 34, .ro⟩
def RS_ENTSEL.INDEX : Fld := ⟨0x148010, 8, 0, .rw⟩
def RS_ENTDATA.COLID : Fld := ⟨0x148018, 63, 32, .ro⟩
def RS_ENTDATA.CHUNK : Fld := ⟨0x148018, 31, 16, .ro⟩
def RS_ENTDATA.EXPECT_M1 : Fld := ⟨0x148018, 15, 10, .ro⟩
def RS_ENTDATA.FOP : Fld := ⟨0x148018, 9, 6, .ro⟩
def RS_ENTDATA.CTX : Fld := ⟨0x148018, 5, 5, .ro⟩
def RS_ENTDATA.POISON : Fld := ⟨0x148018, 4, 4, .ro⟩
def RS_ENTDATA.STATE : Fld := ⟨0x148018, 1, 0, .ro⟩
def RS_ENTMAP.ARRIVED : Fld := ⟨0x148020, 63, 0, .ro⟩
def RS_COUNT.COMBINES : Fld := ⟨0x148028, 63, 32, .rc⟩
def RS_COUNT.ADMITS : Fld := ⟨0x148028, 31, 16, .rc⟩
def RS_COUNT.ADMIT_WAIT : Fld := ⟨0x148028, 15, 0, .rc⟩
def CTX_RSET.GATE : Fld := ⟨0x030000, 8, 6, .rw⟩
def CTX_RSET.CGROUP : Fld := ⟨0x030000, 5, 3, .rw⟩
def CTX_RSET.EN : Fld := ⟨0x030000, 0, 0, .rw⟩
def CTX_CMD.LAP (c : Nat) : Fld := ⟨0x030010 + 0x8 * c, 63, 20, .rw⟩
def CTX_CMD.CMD (c : Nat) : Fld := ⟨0x030010 + 0x8 * c, 3, 0, .wo⟩
def CTX_STATE.CODE (c : Nat) : Fld := ⟨0x030020 + 0x8 * c, 63, 48, .ro⟩
def CTX_STATE.EPOCH (c : Nat) : Fld := ⟨0x030020 + 0x8 * c, 35, 20, .ro⟩
def CTX_STATE.STATE (c : Nat) : Fld := ⟨0x030020 + 0x8 * c, 3, 0, .ro⟩
def CTX_JOB.JOB (c : Nat) : Fld := ⟨0x030030 + 0x8 * c, 63, 48, .rw⟩
def CTX_JOB.CLIENT (c : Nat) : Fld := ⟨0x030030 + 0x8 * c, 47, 32, .rw⟩
def CTX_JOB.SEPOCH (c : Nat) : Fld := ⟨0x030030 + 0x8 * c, 31, 0, .rw⟩
def CTX_JDIG.DIGEST (c : Nat) : Fld := ⟨0x030040 + 0x8 * c, 63, 0, .rw⟩
def CTX_PISTE.LCHIP (c : Nat) : Fld := ⟨0x030050 + 0x8 * c, 63, 50, .rw⟩
def CTX_PISTE.PMAP (c : Nat) : Fld := ⟨0x030050 + 0x8 * c, 28, 0, .rw⟩
def CTX_SAVE.BASE : Fld := ⟨0x030060, 39, 30, .rw⟩
def CTX_RWIN.VALID (c : Nat) (n : Nat) : Fld := ⟨0x030100 + 0x40 * c + 0x8 * n, 63, 63, .rw⟩
def CTX_RWIN.SIZE (c : Nat) (n : Nat) : Fld := ⟨0x030100 + 0x40 * c + 0x8 * n, 45, 29, .rw⟩
def CTX_RWIN.BASE (c : Nat) (n : Nat) : Fld := ⟨0x030100 + 0x40 * c + 0x8 * n, 28, 12, .rw⟩
def CTX_LWIN.VALID (c : Nat) (n : Nat) : Fld := ⟨0x030180 + 0x40 * c + 0x8 * n, 63, 63, .rw⟩
def CTX_LWIN.SIZE (c : Nat) (n : Nat) : Fld := ⟨0x030180 + 0x40 * c + 0x8 * n, 58, 40, .rw⟩
def CTX_LWIN.BASE (c : Nat) (n : Nat) : Fld := ⟨0x030180 + 0x40 * c + 0x8 * n, 39, 21, .rw⟩
def JOB_LEAD.MGROUP : Fld := ⟨0x030200, 63, 52, .rw⟩
def JOB_LEAD.ACKCC : Fld := ⟨0x030200, 51, 40, .rw⟩
def JOB_LEAD.PCC : Fld := ⟨0x030200, 39, 28, .rw⟩
def JOB_LEAD.MEMBERS : Fld := ⟨0x030200, 27, 13, .rw⟩
def JOB_LEAD.CTX : Fld := ⟨0x030200, 1, 1, .rw⟩
def JOB_LEAD.START : Fld := ⟨0x030200, 0, 0, .wo⟩
def JOB_LEADT.START_LAP : Fld := ⟨0x030208, 63, 20, .rw⟩
def JOB_LEADT.TIMEOUT : Fld := ⟨0x030208, 19, 0, .rw⟩
def JOB_LSTAT.LAST_CODE : Fld := ⟨0x030210, 63, 48, .ro⟩
def JOB_LSTAT.REAL : Fld := ⟨0x030210, 47, 33, .ro⟩
def JOB_LSTAT.PRUNED : Fld := ⟨0x030210, 32, 18, .ro⟩
def JOB_LSTAT.PHASE : Fld := ⟨0x030210, 2, 0, .ro⟩
def JOB_COUNT.REFUSED : Fld := ⟨0x030218, 63, 48, .rc⟩
def JOB_COUNT.STALE : Fld := ⟨0x030218, 47, 32, .rc⟩
def ACCT_ID.VALID (n : Nat) : Fld := ⟨0x031000 + 0x10 * n, 63, 63, .rw⟩
def ACCT_ID.CLIENT (n : Nat) : Fld := ⟨0x031000 + 0x10 * n, 15, 0, .rw⟩
def ACCT_CNT.WAIT_LAPS (n : Nat) : Fld := ⟨0x031008 + 0x10 * n, 63, 40, .rc⟩
def ACCT_CNT.SAVED_LAPS (n : Nat) : Fld := ⟨0x031008 + 0x10 * n, 39, 16, .rc⟩
def ACCT_CNT.PREEMPTS (n : Nat) : Fld := ⟨0x031008 + 0x10 * n, 15, 0, .rc⟩
def SNP_AREA.SIZE : Fld := ⟨0x200400, 49, 40, .rw⟩
def SNP_AREA.BASE : Fld := ⟨0x200400, 39, 30, .rw⟩
def SNP_CKPT.LAP (c : Nat) : Fld := ⟨0x200408 + 0x8 * c, 63, 20, .rw⟩
def SNP_CKPT.RELEASE (c : Nat) : Fld := ⟨0x200408 + 0x8 * c, 1, 1, .wo⟩
def SNP_CKPT.REQ (c : Nat) : Fld := ⟨0x200408 + 0x8 * c, 0, 0, .wo⟩
def SNP_STATUS.LAST_CODE : Fld := ⟨0x200418, 63, 48, .ro⟩
def SNP_STATUS.CKSTEP : Fld := ⟨0x200418, 47, 4, .ro⟩
def SNP_STATUS.DRT : Fld := ⟨0x200418, 3, 2, .ro⟩
def SNP_STATUS.DGEN : Fld := ⟨0x200418, 1, 0, .ro⟩
def SNP_PAGES.DIRTY (c : Nat) : Fld := ⟨0x200420 + 0x8 * c, 57, 32, .ro⟩
def SNP_PAGES.PENDING (c : Nat) : Fld := ⟨0x200420 + 0x8 * c, 25, 0, .ro⟩
def SNP_COUNT.PRESERVE : Fld := ⟨0x200430, 63, 40, .rc⟩
def SNP_COUNT.PRESERVE_CLK : Fld := ⟨0x200430, 39, 16, .rc⟩
def SNP_COUNT.ROLLBACKS : Fld := ⟨0x200430, 15, 0, .rc⟩
def SNP_CKSTEP_RT.CKSTEP : Fld := ⟨0x200438, 63, 20, .ro⟩
def SNP_RSTCTL.STEP : Fld := ⟨0x200440, 63, 20, .rw⟩
def SNP_RSTCTL.CTX : Fld := ⟨0x200440, 3, 3, .rw⟩
def SNP_RSTCTL.CMD : Fld := ⟨0x200440, 2, 0, .wo⟩
def SNP_RSTLIST.NMAN_M1 : Fld := ⟨0x200448, 63, 56, .rw⟩
def SNP_RSTLIST.NENT_M1 : Fld := ⟨0x200448, 55, 40, .rw⟩
def SNP_RSTLIST.ADDR : Fld := ⟨0x200448, 28, 0, .rw⟩
def SNP_RSTFEED0.LEN : Fld := ⟨0x200450, 48, 32, .rw⟩
def SNP_RSTFEED0.ADDR : Fld := ⟨0x200450, 28, 0, .rw⟩
def SNP_RSTFEED1.MIDX : Fld := ⟨0x200458, 15, 8, .wo⟩
def SNP_RSTFEED1.SIDX : Fld := ⟨0x200458, 7, 0, .wo⟩
def SNP_RSTSTAT.LAST_CODE : Fld := ⟨0x200460, 63, 48, .ro⟩
def SNP_RSTSTAT.CLOSED : Fld := ⟨0x200460, 47, 32, .ro⟩
def SNP_RSTSTAT.STATE : Fld := ⟨0x200460, 2, 0, .ro⟩
def SNP_REG.VALID (c : Nat) (n : Nat) : Fld := ⟨0x200500 + 0x80 * c + 0x8 * n, 63, 63, .rw⟩
def SNP_REG.SIZE (c : Nat) (n : Nat) : Fld := ⟨0x200500 + 0x80 * c + 0x8 * n, 58, 40, .rw⟩
def SNP_REG.BASE (c : Nat) (n : Nat) : Fld := ⟨0x200500 + 0x80 * c + 0x8 * n, 39, 21, .rw⟩
def SNP_REG.REGID (c : Nat) (n : Nat) : Fld := ⟨0x200500 + 0x80 * c + 0x8 * n, 20, 13, .rw⟩
def HP_CTL.VID (n : Nat) : Fld := ⟨0x210000 + 0x100 * n, 27, 16, .rw⟩
def HP_CTL.PTP (n : Nat) : Fld := ⟨0x210000 + 0x100 * n, 3, 3, .rw⟩
def HP_CTL.VLAN (n : Nat) : Fld := ⟨0x210000 + 0x100 * n, 2, 2, .rw⟩
def HP_CTL.AN (n : Nat) : Fld := ⟨0x210000 + 0x100 * n, 1, 1, .rw⟩
def HP_CTL.EN (n : Nat) : Fld := ⟨0x210000 + 0x100 * n, 0, 0, .rw⟩
def HP_STATUS.LAST_CODE (n : Nat) : Fld := ⟨0x210008 + 0x100 * n, 63, 48, .ro⟩
def HP_STATUS.STATE (n : Nat) : Fld := ⟨0x210008 + 0x100 * n, 2, 0, .ro⟩
def HP_MAC.MAC (n : Nat) : Fld := ⟨0x210010 + 0x100 * n, 47, 0, .rw⟩
def HP_NEXTHOP.MAC (n : Nat) : Fld := ⟨0x210018 + 0x100 * n, 47, 0, .rw⟩
def HP_IPV4.VALID (n : Nat) : Fld := ⟨0x210020 + 0x100 * n, 32, 32, .rw⟩
def HP_IPV4.ADDR (n : Nat) : Fld := ⟨0x210020 + 0x100 * n, 31, 0, .rw⟩
def HP_IPV6_HI.ADDR (n : Nat) : Fld := ⟨0x210028 + 0x100 * n, 63, 0, .rw⟩
def HP_IPV6_LO.ADDR (n : Nat) : Fld := ⟨0x210030 + 0x100 * n, 63, 0, .rw⟩
def HP_COUNT.FEC_CORR (n : Nat) : Fld := ⟨0x210038 + 0x100 * n, 63, 32, .rc⟩
def HP_COUNT.FEC_UNCORR (n : Nat) : Fld := ⟨0x210038 + 0x100 * n, 31, 16, .rc⟩
def HP_COUNT.DROP (n : Nat) : Fld := ⟨0x210038 + 0x100 * n, 15, 0, .rc⟩
def WCP_CFG.UDP_PORT : Fld := ⟨0x210400, 63, 48, .rw⟩
def WCP_CFG.RTO : Fld := ⟨0x210400, 47, 32, .rw⟩
def WCP_CFG.RETRY_MAX : Fld := ⟨0x210400, 31, 24, .rw⟩
def WCP_CFG.IDLE : Fld := ⟨0x210400, 23, 8, .rw⟩
def WCP_STATUS.LAST_CODE : Fld := ⟨0x210408, 63, 48, .ro⟩
def WCP_STATUS.OPEN : Fld := ⟨0x210408, 47, 32, .ro⟩
def WCP_STATUS.HELDLOST : Fld := ⟨0x210408, 31, 20, .ro⟩
def WCP_STATUS.EVLOST : Fld := ⟨0x210408, 19, 9, .rc⟩
def WCP_STATUS.EVQ : Fld := ⟨0x210408, 8, 0, .ro⟩
def WCP_COUNT.TAGFAIL : Fld := ⟨0x210410, 63, 48, .rc⟩
def WCP_COUNT.DUP : Fld := ⟨0x210410, 47, 32, .rc⟩
def WCP_COUNT.WINDOW : Fld := ⟨0x210410, 31, 16, .rc⟩
def WCP_COUNT.HOLDFULL : Fld := ⟨0x210410, 15, 8, .rc⟩
def WCP_COUNT.MALFORMED : Fld := ⟨0x210410, 7, 0, .rc⟩
def WCP_SESS.CRED (n : Nat) : Fld := ⟨0x210800 + 0x10 * n, 63, 48, .ro⟩
def WCP_SESS.RIGHTS (n : Nat) : Fld := ⟨0x210800 + 0x10 * n, 11, 8, .ro⟩
def WCP_SESS.KILL (n : Nat) : Fld := ⟨0x210800 + 0x10 * n, 7, 7, .wo⟩
def WCP_SESS.PORT (n : Nat) : Fld := ⟨0x210800 + 0x10 * n, 6, 6, .ro⟩
def WCP_SESS.STATE (n : Nat) : Fld := ⟨0x210800 + 0x10 * n, 1, 0, .ro⟩
def WCP_SSEQ.RXCUM (n : Nat) : Fld := ⟨0x210808 + 0x10 * n, 63, 32, .ro⟩
def WCP_SSEQ.TXNEXT (n : Nat) : Fld := ⟨0x210808 + 0x10 * n, 31, 0, .ro⟩
def SEC_BOOT.CODE : Fld := ⟨0x220000, 63, 48, .ro⟩
def SEC_BOOT.VERSION : Fld := ⟨0x220000, 47, 16, .ro⟩
def SEC_BOOT.SVN : Fld := ⟨0x220000, 15, 8, .ro⟩
def SEC_BOOT.SLOT : Fld := ⟨0x220000, 2, 2, .ro⟩
def SEC_BOOT.STATE : Fld := ⟨0x220000, 1, 0, .ro⟩
def SEC_STATE.IDENT : Fld := ⟨0x220008, 7, 7, .ro⟩
def SEC_STATE.DBG : Fld := ⟨0x220008, 6, 5, .ro⟩
def SEC_STATE.LC : Fld := ⟨0x220008, 2, 0, .ro⟩
def SEC_CMD.ARG : Fld := ⟨0x220010, 11, 4, .wo⟩
def SEC_CMD.CMD : Fld := ⟨0x220010, 3, 0, .wo⟩
def SEC_STATUS.LAST_CODE : Fld := ⟨0x220018, 63, 48, .ro⟩
def SEC_STATUS.BUSY : Fld := ⟨0x220018, 0, 0, .ro⟩
def SEC_NONCE.NONCE (n : Nat) : Fld := ⟨0x220020 + 0x8 * n, 63, 0, .ro⟩
def SEC_SERIAL.SERIAL : Fld := ⟨0x220040, 63, 0, .ro⟩
def CFG_EPOCH.EPOCH : Fld := ⟨0x220100, 31, 0, .rw⟩
def CFG_USER.VALUE : Fld := ⟨0x220108, 63, 0, .rw⟩
def CFG_DIGEST.VALUE : Fld := ⟨0x220110, 63, 0, .ro⟩
def CFG_CENSUS.CID : Fld := ⟨0x220118, 63, 48, .rw⟩
def CFG_CENSUS.GROUP : Fld := ⟨0x220118, 47, 36, .rw⟩
def CFG_CENSUS.TIMEOUT : Fld := ⟨0x220118, 35, 16, .rw⟩
def CFG_CENSUS.START : Fld := ⟨0x220118, 0, 0, .wo⟩
def CFG_CENLAP.LAP : Fld := ⟨0x220120, 63, 20, .rw⟩
def CFG_CENRES0.CID : Fld := ⟨0x220128, 63, 48, .ro⟩
def CFG_CENRES0.COUNT : Fld := ⟨0x220128, 47, 33, .ro⟩
def CFG_CENRES0.LATE : Fld := ⟨0x220128, 32, 18, .ro⟩
def CFG_CENRES0.STATE : Fld := ⟨0x220128, 1, 0, .ro⟩
def CFG_CENRES1.MAX : Fld := ⟨0x220130, 63, 32, .ro⟩
def CFG_CENRES1.MIN : Fld := ⟨0x220130, 31, 0, .ro⟩
def CFG_CENRES2.MAX : Fld := ⟨0x220138, 63, 32, .ro⟩
def CFG_CENRES2.MIN : Fld := ⟨0x220138, 31, 0, .ro⟩
def CFG_CENDMIN.DIGEST : Fld := ⟨0x220140, 63, 0, .ro⟩
def CFG_CENDMAX.DIGEST : Fld := ⟨0x220148, 63, 0, .ro⟩
def SS_CMD.OFFSET : Fld := ⟨0x250000, 49, 40, .wo⟩
def SS_CMD.SLOT : Fld := ⟨0x250000, 4, 4, .wo⟩
def SS_CMD.CMD : Fld := ⟨0x250000, 3, 0, .wo⟩
def SS_STATUS.LAST_CODE : Fld := ⟨0x250008, 63, 48, .ro⟩
def SS_STATUS.STORE_SEQ : Fld := ⟨0x250008, 47, 16, .ro⟩
def SS_STATUS.PREFERRED : Fld := ⟨0x250008, 4, 4, .ro⟩
def SS_STATUS.B_OK : Fld := ⟨0x250008, 3, 3, .ro⟩
def SS_STATUS.A_OK : Fld := ⟨0x250008, 2, 2, .ro⟩
def SS_STATUS.BUSY : Fld := ⟨0x250008, 0, 0, .ro⟩
def TEL_CTL.PHASE : Fld := ⟨0x240000, 39, 20, .rw⟩
def TEL_CTL.PEXP : Fld := ⟨0x240000, 12, 8, .rw⟩
def TEL_CTL.TRACE : Fld := ⟨0x240000, 1, 1, .rw⟩
def TEL_CTL.EN : Fld := ⟨0x240000, 0, 0, .rw⟩
def TEL_RING.BASE : Fld := ⟨0x240008, 60, 32, .rw⟩
def TEL_RING.SIZE : Fld := ⟨0x240008, 14, 0, .rw⟩
def TEL_EVMASK.KINDS : Fld := ⟨0x240010, 7, 1, .rw⟩
def TEL_STATUS.LOST : Fld := ⟨0x240018, 63, 48, .rc⟩
def TEL_STATUS.WRAPS : Fld := ⟨0x240018, 47, 32, .ro⟩
def TEL_STATUS.CFGERR : Fld := ⟨0x240018, 31, 31, .w1c⟩
def TEL_STATUS.WRPTR : Fld := ⟨0x240018, 28, 0, .ro⟩
def TEL_SEL.VALID (n : Nat) : Fld := ⟨0x240100 + 0x8 * n, 63, 63, .rw⟩
def TEL_SEL.OFFSET (n : Nat) : Fld := ⟨0x240100 + 0x8 * n, 23, 3, .rw⟩
def TRAIL_WIN.VALID (c : Nat) (n : Nat) : Fld := ⟨0x241000 + 0x400 * c + 0x40 * n, 63, 63, .rw⟩
def TRAIL_WIN.SPACE (c : Nat) (n : Nat) : Fld := ⟨0x241000 + 0x400 * c + 0x40 * n, 62, 60, .rw⟩
def TRAIL_WIN.CLUSTER (c : Nat) (n : Nat) : Fld := ⟨0x241000 + 0x400 * c + 0x40 * n, 59, 55, .rw⟩
def TRAIL_WIN.BASE (c : Nat) (n : Nat) : Fld := ⟨0x241000 + 0x400 * c + 0x40 * n, 39, 6, .rw⟩
def TRAIL_SIZE.BLOCKS (c : Nat) (n : Nat) : Fld := ⟨0x241008 + 0x400 * c + 0x40 * n, 33, 0, .rw⟩
def TRAIL_SUM.DIGEST (c : Nat) (n : Nat) : Fld := ⟨0x241010 + 0x400 * c + 0x40 * n, 63, 0, .ro⟩
def TRAIL_LAST.DIGEST (c : Nat) (n : Nat) : Fld := ⟨0x241020 + 0x400 * c + 0x40 * n, 63, 0, .ro⟩
def TRAIL_CNT.CANCELS (c : Nat) (n : Nat) : Fld := ⟨0x241018 + 0x400 * c + 0x40 * n, 63, 32, .rc⟩
def TRAIL_CNT.COUNT (c : Nat) (n : Nat) : Fld := ⟨0x241018 + 0x400 * c + 0x40 * n, 31, 0, .ro⟩
def TRAIL_LINFO.EPOCH (c : Nat) (n : Nat) : Fld := ⟨0x241028 + 0x400 * c + 0x40 * n, 63, 48, .ro⟩
def TRAIL_LINFO.PARTIAL (c : Nat) (n : Nat) : Fld := ⟨0x241028 + 0x400 * c + 0x40 * n, 47, 47, .ro⟩
def TRAIL_LINFO.COUNT (c : Nat) (n : Nat) : Fld := ⟨0x241028 + 0x400 * c + 0x40 * n, 31, 0, .ro⟩
def DBG_SSCT.TARGET : Fld := ⟨0x242000, 63, 0, .rw⟩
def DBG_SSCTL.NOW : Fld := ⟨0x242008, 2, 2, .wo⟩
def DBG_SSCTL.ONFAULT : Fld := ⟨0x242008, 1, 1, .rw⟩
def DBG_SSCTL.ARM : Fld := ⟨0x242008, 0, 0, .rw⟩
def DBG_SSBUF.BASE : Fld := ⟨0x242010, 60, 32, .rw⟩
def DBG_SSSTAT.COUNT : Fld := ⟨0x242018, 63, 32, .ro⟩
def DBG_SSSTAT.WRITING : Fld := ⟨0x242018, 1, 1, .ro⟩
def DBG_SSSTAT.DONE : Fld := ⟨0x242018, 0, 0, .w1c⟩
def DBG_REPEAT.EXTRA : Fld := ⟨0x242100, 63, 56, .ro⟩
def DBG_REPEAT.RETRY : Fld := ⟨0x242100, 55, 48, .ro⟩
def DBG_REPEAT.SAMPLE : Fld := ⟨0x242100, 47, 40, .ro⟩
def DBG_REPEAT.RWIN : Fld := ⟨0x242100, 39, 32, .ro⟩
def DBG_REPEAT.SS : Fld := ⟨0x242100, 31, 24, .ro⟩
def DBG_REPEAT.UNHELD : Fld := ⟨0x242100, 23, 16, .ro⟩
def DBG_REPEAT.LAPDIFF : Fld := ⟨0x242100, 15, 1, .ro⟩
def DBG_REPEAT.QUIET : Fld := ⟨0x242100, 0, 0, .ro⟩
def DBG_STREAM.NUM : Fld := ⟨0x242200, 9, 4, .rw⟩
def DBG_STREAM.CMD : Fld := ⟨0x242200, 1, 0, .wo⟩
def DBG_RWSEL.BASE : Fld := ⟨0x242300, 28, 0, .rw⟩
def TRB.C3 (n : Nat) : Fld := ⟨0x243000 + 0x8 * n, 63, 48, .rws⟩
def TRB.C2 (n : Nat) : Fld := ⟨0x243000 + 0x8 * n, 47, 32, .rws⟩
def TRB.C1 (n : Nat) : Fld := ⟨0x243000 + 0x8 * n, 31, 16, .rws⟩
def TRB.C0 (n : Nat) : Fld := ⟨0x243000 + 0x8 * n, 15, 0, .rws⟩
def PWR_CMD.CMD : Fld := ⟨0x230000, 3, 0, .wo⟩
def PWR_STATUS.LAST_CODE : Fld := ⟨0x230008, 63, 48, .ro⟩
def PWR_STATUS.CAUSE : Fld := ⟨0x230008, 42, 40, .rws⟩
def PWR_STATUS.READY : Fld := ⟨0x230008, 7, 7, .ro⟩
def PWR_STATUS.STATE : Fld := ⟨0x230008, 2, 0, .ro⟩
def PWR_DOM0.DOM : Fld := ⟨0x230010, 63, 0, .rw⟩
def PWR_DSTAT0.DOM : Fld := ⟨0x230020, 63, 0, .ro⟩
def PWR_DOM1.DOM : Fld := ⟨0x230018, 9, 0, .rw⟩
def PWR_DSTAT1.DOM : Fld := ⟨0x230028, 9, 0, .ro⟩
def PWR_THERM.HOT : Fld := ⟨0x230030, 37, 33, .ro⟩
def PWR_THERM.ALARM : Fld := ⟨0x230030, 32, 32, .w1c⟩
def PWR_THERM.TJ_MAX : Fld := ⟨0x230030, 31, 16, .rc⟩
def PWR_THERM.TJ_NOW : Fld := ⟨0x230030, 15, 0, .ro⟩
def PWR_AVS.VSET : Fld := ⟨0x230038, 63, 48, .ro⟩
def PWR_AVS.VOUT : Fld := ⟨0x230038, 47, 32, .ro⟩
def PWR_AVS.IOUT : Fld := ⟨0x230038, 31, 16, .ro⟩
def PWR_AVS.ERRORS : Fld := ⟨0x230038, 7, 0, .rc⟩
def PWR_METER.PEAK10MS : Fld := ⟨0x230040, 63, 48, .rc⟩
def PWR_METER.AVG1S : Fld := ⟨0x230040, 31, 16, .ro⟩
def PWR_SUP.ALARM (n : Nat) : Fld := ⟨0x230080 + 0x8 * n, 63, 63, .w1c⟩
def PWR_SUP.MIN (n : Nat) : Fld := ⟨0x230080 + 0x8 * n, 47, 32, .rc⟩
def PWR_SUP.MAX (n : Nat) : Fld := ⟨0x230080 + 0x8 * n, 31, 16, .rc⟩
def PWR_SUP.NOW (n : Nat) : Fld := ⟨0x230080 + 0x8 * n, 15, 0, .ro⟩
def CLK_STATUS.SWITCHES : Fld := ⟨0x230100, 47, 32, .rc⟩
def CLK_STATUS.SREF_S : Fld := ⟨0x230100, 4, 4, .ro⟩
def CLK_STATUS.SREF_N : Fld := ⟨0x230100, 3, 3, .ro⟩
def CLK_STATUS.REF1 : Fld := ⟨0x230100, 2, 2, .ro⟩
def CLK_STATUS.REF0 : Fld := ⟨0x230100, 1, 1, .ro⟩
def CLK_STATUS.ACTIVE : Fld := ⟨0x230100, 0, 0, .ro⟩
def CS_HOLE.COUNT : Fld := ⟨0x000108, 63, 48, .rc⟩
def CS_HOLE.PATH : Fld := ⟨0x000108, 26, 25, .ro⟩
def CS_HOLE.WRITE : Fld := ⟨0x000108, 24, 24, .ro⟩
def CS_HOLE.OFFSET : Fld := ⟨0x000108, 23, 0, .ro⟩

/-- Register rows, part 0 (R474). -/
def regRows0 : List RegRow := [
  ⟨"DEV_ID", 0x000000, [],
    [DEV_ID.PKG, DEV_ID.VENDOR, DEV_ID.STEP_MAJOR, DEV_ID.STEP_MINOR, DEV_ID.PART]⟩,
  ⟨"CSV_STATUS", 0x000100, [],
    [CSV_STATUS.FAULT, CSV_STATUS.PASSES, CSV_STATUS.MISMATCH, CSV_STATUS.LIMIT, CSV_STATUS.FRZSEEN, CSV_STATUS.D3SEEN, CSV_STATUS.CERT, CSV_STATUS.PROMISED]⟩,
  ⟨"LAP_CTRL", 0x010000, [],
    [LAP_CTRL.TREE_GROUP, LAP_CTRL.PARENT_PORT, LAP_CTRL.SRC_PRI, LAP_CTRL.SRC_BAK, LAP_CTRL.PTP_PORT, LAP_CTRL.MASTER, LAP_CTRL.RELOCK, LAP_CTRL.ENABLE]⟩,
  ⟨"LAP_CFG", 0x010008, [],
    [LAP_CFG.HOLD_MAX, LAP_CFG.PERIOD_US, LAP_CFG.LOCK_TOL, LAP_CFG.SLEW, LAP_CFG.MISS_MAX]⟩,
  ⟨"LAP_STATUS", 0x010010, [],
    [LAP_STATUS.LAST_CODE, LAP_STATUS.HOLD_LAPS, LAP_STATUS.LOCK_RUN, LAP_STATUS.CTX_SEEN, LAP_STATUS.SRC_ACTIVE, LAP_STATUS.STATE]⟩,
  ⟨"LAP_CT", 0x010018, [],
    [LAP_CT.LAP, LAP_CT.STRIDE]⟩,
  ⟨"LAP_LCC", 0x010020, [],
    [LAP_LCC.LAST_LAP_CLK, LAP_LCC.LCC]⟩,
  ⟨"LAP_LOOP", 0x010028, [],
    [LAP_LOOP.PHASE_INC]⟩,
  ⟨"LAP_PERR", 0x010030, [],
    [LAP_PERR.PERR]⟩,
  ⟨"LAP_PTP", 0x010038, [],
    [LAP_PTP.ORIGIN]⟩,
  ⟨"LAP_OVR", 0x010040, [(0x8, 2)],
    [LAP_OVR.GROUP 0, LAP_OVR.DEADLINE 0, LAP_OVR.ABORTS 0, LAP_OVR.STRETCHES 0, LAP_OVR.POLICY 0]⟩,
  ⟨"LAP_COUNT", 0x010050, [],
    [LAP_COUNT.MARKER_BAD, LAP_COUNT.LATE_WAIT, LAP_COUNT.GLITCH, LAP_COUNT.MISSED]⟩,
  ⟨"ENG_CTL", 0x080000, [(0x4000, 32)],
    [ENG_CTL.WAITLIM 0, ENG_CTL.REQID 0]⟩,
  ⟨"ENG_CTL", 0x100000, [(0x8000, 8)],
    [ENG_CTL.WAITLIM 0, ENG_CTL.REQID 0]⟩,
  ⟨"ENG_CTL", 0x160000, [(0x1000, 4), (0x100, 2)],
    [ENG_CTL.WAITLIM 0, ENG_CTL.REQID 0]⟩,
  ⟨"ENG_CTL", 0x200000, [(0x100, 2)],
    [ENG_CTL.WAITLIM 0, ENG_CTL.REQID 0]⟩,
  ⟨"ENG_STATUS", 0x080008, [(0x4000, 32)],
    [ENG_STATUS.OUTSTANDING 0, ENG_STATUS.TMPL 0, ENG_STATUS.QDEPTH 0, ENG_STATUS.STATE 0]⟩,
  ⟨"ENG_STATUS", 0x100008, [(0x8000, 8)],
    [ENG_STATUS.OUTSTANDING 0, ENG_STATUS.TMPL 0, ENG_STATUS.QDEPTH 0, ENG_STATUS.STATE 0]⟩,
  ⟨"ENG_STATUS", 0x160008, [(0x1000, 4), (0x100, 2)],
    [ENG_STATUS.OUTSTANDING 0, ENG_STATUS.TMPL 0, ENG_STATUS.QDEPTH 0, ENG_STATUS.STATE 0]⟩,
  ⟨"ENG_STATUS", 0x200008, [(0x100, 2)],
    [ENG_STATUS.OUTSTANDING 0, ENG_STATUS.TMPL 0, ENG_STATUS.QDEPTH 0, ENG_STATUS.STATE 0]⟩,
  ⟨"ENG_PC", 0x080010, [(0x4000, 32)],
    [ENG_PC.PC 0]⟩,
  ⟨"ENG_PC", 0x100010, [(0x8000, 8)],
    [ENG_PC.PC 0]⟩,
  ⟨"ENG_PC", 0x160010, [(0x1000, 4), (0x100, 2)],
    [ENG_PC.PC 0]⟩,
  ⟨"ENG_PC", 0x200010, [(0x100, 2)],
    [ENG_PC.PC 0]⟩,
  ⟨"ENG_WAIT", 0x080018, [(0x4000, 32)],
    [ENG_WAIT.TARGET 0, ENG_WAIT.KIND 0, ENG_WAIT.INDEX 0]⟩,
  ⟨"ENG_WAIT", 0x100018, [(0x8000, 8)],
    [ENG_WAIT.TARGET 0, ENG_WAIT.KIND 0, ENG_WAIT.INDEX 0]⟩,
  ⟨"ENG_WAIT", 0x160018, [(0x1000, 4), (0x100, 2)],
    [ENG_WAIT.TARGET 0, ENG_WAIT.KIND 0, ENG_WAIT.INDEX 0]⟩,
  ⟨"ENG_WAIT", 0x200018, [(0x100, 2)],
    [ENG_WAIT.TARGET 0, ENG_WAIT.KIND 0, ENG_WAIT.INDEX 0]⟩,
  ⟨"ENG_FAULT", 0x080020, [(0x4000, 32)],
    [ENG_FAULT.CODE 0, ENG_FAULT.PC 0, ENG_FAULT.INFO 0]⟩,
  ⟨"ENG_FAULT", 0x100020, [(0x8000, 8)],
    [ENG_FAULT.CODE 0, ENG_FAULT.PC 0, ENG_FAULT.INFO 0]⟩,
  ⟨"ENG_FAULT", 0x160020, [(0x1000, 4), (0x100, 2)],
    [ENG_FAULT.CODE 0, ENG_FAULT.PC 0, ENG_FAULT.INFO 0]⟩,
  ⟨"ENG_FAULT", 0x200020, [(0x100, 2)],
    [ENG_FAULT.CODE 0, ENG_FAULT.PC 0, ENG_FAULT.INFO 0]⟩,
  ⟨"ENG_COUNT", 0x080028, [(0x4000, 32)],
    [ENG_COUNT.RETIRED 0, ENG_COUNT.STALL_CLK 0]⟩,
  ⟨"ENG_COUNT", 0x100028, [(0x8000, 8)],
    [ENG_COUNT.RETIRED 0, ENG_COUNT.STALL_CLK 0]⟩,
  ⟨"ENG_COUNT", 0x160028, [(0x1000, 4), (0x100, 2)],
    [ENG_COUNT.RETIRED 0, ENG_COUNT.STALL_CLK 0]⟩,
  ⟨"ENG_COUNT", 0x200028, [(0x100, 2)],
    [ENG_COUNT.RETIRED 0, ENG_COUNT.STALL_CLK 0]⟩,
  ⟨"LS_TCTL", 0x024000, [],
    [LS_TCTL.PEND_RT, LS_TCTL.PEND_GEN, LS_TCTL.BANK_RT, LS_TCTL.BANK_GEN, LS_TCTL.COMMIT_RT, LS_TCTL.COMMIT_GEN]⟩,
  ⟨"LS_TSTATUS", 0x024008, [],
    [LS_TSTATUS.REL_GEN, LS_TSTATUS.END_GEN, LS_TSTATUS.REL_RT, LS_TSTATUS.END_RT]⟩,
  ⟨"LS_CNT", 0x024100, [(0x8, 64)],
    [LS_CNT.FINAL 0, LS_CNT.VALUE 0]⟩,
  ⟨"NUM_FLAGS", 0x080030, [(0x4000, 32)],
    [NUM_FLAGS.XOVF 0, NUM_FLAGS.LOSS 0, NUM_FLAGS.NX 0, NUM_FLAGS.UF 0, NUM_FLAGS.OF 0, NUM_FLAGS.DZ 0, NUM_FLAGS.NV 0]⟩]

/-- Register rows, part 1 (R474). -/
def regRows1 : List RegRow := [
  ⟨"NUM_FLAGS", 0x100030, [(0x8000, 8)],
    [NUM_FLAGS.XOVF 0, NUM_FLAGS.LOSS 0, NUM_FLAGS.NX 0, NUM_FLAGS.UF 0, NUM_FLAGS.OF 0, NUM_FLAGS.DZ 0, NUM_FLAGS.NV 0]⟩,
  ⟨"GMU_STATUS", 0x080040, [(0x4000, 32)],
    [GMU_STATUS.ENTRY 0, GMU_STATUS.REMAIN 0, GMU_STATUS.CC 0, GMU_STATUS.MODE 0, GMU_STATUS.QUEUED 0, GMU_STATUS.BUSY 0]⟩,
  ⟨"GMU_COUNT", 0x080048, [(0x4000, 32)],
    [GMU_COUNT.BUSY_CLK 0, GMU_COUNT.FLOOR_CLK 0, GMU_COUNT.ENTRIES 0]⟩,
  ⟨"GE_LEDGER", 0x100100, [(0x8000, 8)],
    [GE_LEDGER.BASE 0, GE_LEDGER.SIZE_M1 0]⟩,
  ⟨"GE_RET", 0x100108, [(0x8000, 8)],
    [GE_RET.RETREQ 0, GE_RET.RET_BYTES 0]⟩,
  ⟨"GE_INTAKE", 0x100110, [(0x8000, 8)],
    [GE_INTAKE.BASE 0, GE_INTAKE.NGROUPS_M1 0, GE_INTAKE.ENABLE 0]⟩,
  ⟨"GE_STATUS", 0x100118, [(0x8000, 8)],
    [GE_STATUS.LAYER 0, GE_STATUS.TOKEN 0, GE_STATUS.HELD 0, GE_STATUS.GROUPS_FINAL 0, GE_STATUS.QUEUED 0, GE_STATUS.INTAKE 0, GE_STATUS.DISP 0, GE_STATUS.SELECT 0, GE_STATUS.SCORE 0]⟩,
  ⟨"GE_COUNT0", 0x100120, [(0x8000, 8)],
    [GE_COUNT0.TOKENS 0, GE_COUNT0.SENT 0]⟩,
  ⟨"GE_COUNT1", 0x100128, [(0x8000, 8)],
    [GE_COUNT1.SPILLS 0, GE_COUNT1.DROP_CAP 0, GE_COUNT1.DROP_NAN 0, GE_COUNT1.RET_WAIT 0]⟩,
  ⟨"GE_COUNT2", 0x100130, [(0x8000, 8)],
    [GE_COUNT2.ACCEPTED 0, GE_COUNT2.TALLIES 0, GE_COUNT2.HELD_MAX 0]⟩,
  ⟨"COURSE_SRC", 0x020000, [],
    [COURSE_SRC.ADDR]⟩,
  ⟨"COURSE_ACT", 0x020008, [],
    [COURSE_ACT.ACT_LAP, COURSE_ACT.LOAD]⟩,
  ⟨"COURSE_CTL", 0x020010, [],
    [COURSE_CTL.CALDYN]⟩,
  ⟨"COURSE_STATUS", 0x020018, [],
    [COURSE_STATUS.LAST_CODE, COURSE_STATUS.ACTIVE_LAP, COURSE_STATUS.LOADING, COURSE_STATUS.PENDING, COURSE_STATUS.STAGED, COURSE_STATUS.BANK]⟩,
  ⟨"DSP_RETCC", 0x020020, [(0x8, 2)],
    [DSP_RETCC.CC3 0, DSP_RETCC.CC2 0, DSP_RETCC.CC1 0, DSP_RETCC.CC0 0]⟩,
  ⟨"DSP_COUNT", 0x020030, [],
    [DSP_COUNT.STALE, DSP_COUNT.STRAY, DSP_COUNT.INGRESS_DROP, DSP_COUNT.UNCLOSED]⟩,
  ⟨"SLOT_CNT", 0x020200, [(0x8, 12)],
    [SLOT_CNT.FILLED 0, SLOT_CNT.IDLE 0, SLOT_CNT.OPEN 0, SLOT_CNT.MISSED 0]⟩,
  ⟨"DSP_CXL", 0x020400, [(0x200, 2), (0x8, 64)],
    [DSP_CXL.VALID 0 0, DSP_CXL.EPOCH 0 0]⟩,
  ⟨"LKR_CTL", 0x040000, [],
    [LKR_CTL.ZERO, LKR_CTL.LOCK]⟩,
  ⟨"LKR_STATUS", 0x040008, [],
    [LKR_STATUS.LAST_CODE, LKR_STATUS.ZEROING]⟩,
  ⟨"LKR_COUNT", 0x040010, [],
    [LKR_COUNT.NOQUOTA, LKR_COUNT.TRY_FAIL, LKR_COUNT.WAIT_CLK]⟩,
  ⟨"LKR_POOL", 0x040040, [(0x8, 6)],
    [LKR_POOL.BASE 0, LKR_POOL.COUNT 0]⟩,
  ⟨"LKR_PSTAT", 0x040080, [(0x8, 6)],
    [LKR_PSTAT.WAITERS 0, LKR_PSTAT.FREE 0, LKR_PSTAT.ALLOCATED 0]⟩,
  ⟨"LKR_REQ", 0x040100, [(0x8, 64)],
    [LKR_REQ.FIXED 0, LKR_REQ.CTX 0, LKR_REQ.EN 0]⟩,
  ⟨"LKR_QUOTA", 0x041000, [(0x40, 64), (0x8, 6)],
    [LKR_QUOTA.RESV 0 0, LKR_QUOTA.LIMIT 0 0, LKR_QUOTA.ALLOC 0 0]⟩,
  ⟨"RINK_CFG", 0x050000, [],
    [RINK_CFG.FWRES, RINK_CFG.LOCK]⟩,
  ⟨"RINK_STATUS", 0x050008, [],
    [RINK_STATUS.LAST_CODE, RINK_STATUS.GROUPS_ON]⟩,
  ⟨"RINK_ECC", 0x050010, [],
    [RINK_ECC.CE, RINK_ECC.UE, RINK_ECC.PASSES]⟩,
  ⟨"RINK_ERRADDR", 0x050018, [],
    [RINK_ERRADDR.VALID, RINK_ERRADDR.UE, RINK_ERRADDR.ADDR]⟩,
  ⟨"RINK_PORT", 0x050040, [(0x8, 52)],
    [RINK_PORT.GRANTS 0, RINK_PORT.DENY_CLK 0]⟩,
  ⟨"LVL_OCC", 0x050200, [(0x8, 4)],
    [LVL_OCC.SAT_LAST 0, LVL_OCC.PEAK 0, LVL_OCC.QUEUED 0]⟩,
  ⟨"LVL_SAT", 0x050220, [],
    [LVL_SAT.VALID, LVL_SAT.LEVEL]⟩,
  ⟨"MEM_CTL", 0x1C0000, [(0x4000, 12)],
    [MEM_CTL.CE_LIMIT 0, MEM_CTL.PERIOD_MS 0, MEM_CTL.SCRUB_RATE 0, MEM_CTL.RFM_EN 0, MEM_CTL.TRAIN_EN 0, MEM_CTL.START 0]⟩,
  ⟨"MEM_STATUS", 0x1C0008, [(0x4000, 12)],
    [MEM_STATUS.LAST_CODE 0, MEM_STATUS.CH_FAILED 0, MEM_STATUS.RATE 0, MEM_STATUS.STATE 0]⟩,
  ⟨"MEM_TRAIN", 0x1C0010, [(0x4000, 12)],
    [MEM_TRAIN.STEPS_CAL 0, MEM_TRAIN.STEPS_DYN 0, MEM_TRAIN.PASSES 0, MEM_TRAIN.OLDEST 0]⟩,
  ⟨"MEM_REFCNT", 0x1C0018, [(0x4000, 12)],
    [MEM_REFCNT.BASE 0, MEM_REFCNT.EXTRA 0, MEM_REFCNT.RFM 0]⟩,
  ⟨"MEM_ECC", 0x1C0020, [(0x4000, 12)],
    [MEM_ECC.CE 0, MEM_ECC.UE 0, MEM_ECC.SCRUB_FIX 0]⟩,
  ⟨"MEM_ERRADDR", 0x1C0028, [(0x4000, 12)],
    [MEM_ERRADDR.VALID 0, MEM_ERRADDR.UE 0, MEM_ERRADDR.CH 0, MEM_ERRADDR.SYNDROME 0, MEM_ERRADDR.ADDR 0]⟩,
  ⟨"MEM_SCRUB", 0x1C0030, [(0x4000, 12)],
    [MEM_SCRUB.PASSES 0, MEM_SCRUB.POS 0]⟩,
  ⟨"MEM_QUEUE", 0x1C0038, [(0x4000, 12)],
    [MEM_QUEUE.REFUSED 0, MEM_QUEUE.DEPTH_MAX 0]⟩]

/-- Register rows, part 2 (R474). -/
def regRows2 : List RegRow := [
  ⟨"MEM_CH", 0x1C0100, [(0x4000, 12), (0x8, 16)],
    [MEM_CH.LAST_PASS 0 0, MEM_CH.CE_LAP 0 0, MEM_CH.RATE 0 0, MEM_CH.DRIFT 0 0, MEM_CH.FAILED 0 0]⟩,
  ⟨"FAB_CFG", 0x140000, [],
    [FAB_CFG.XS_M1, FAB_CFG.YS_M1, FAB_CFG.ZS_M1, FAB_CFG.CHIPID, FAB_CFG.HB_SLOTS, FAB_CFG.HB_MISS]⟩,
  ⟨"FAB_STATUS", 0x140008, [],
    [FAB_STATUS.LAST_CODE, FAB_STATUS.UP, FAB_STATUS.FAILED, FAB_STATUS.DEGRADED, FAB_STATUS.DOWNDIR, FAB_STATUS.SELF_FENCED]⟩,
  ⟨"FAB_COUNT0", 0x140010, [],
    [FAB_COUNT0.PRUNED, FAB_COUNT0.ECRC, FAB_COUNT0.HOPS, FAB_COUNT0.MGROUP]⟩,
  ⟨"FAB_COUNT1", 0x140018, [],
    [FAB_COUNT1.ABANDON, FAB_COUNT1.NOPATH, FAB_COUNT1.AGG_SENT]⟩,
  ⟨"FAB_FENCE_EPOCH", 0x140020, [],
    [FAB_FENCE_EPOCH.EPOCH]⟩,
  ⟨"FAB_MGSEL", 0x140028, [],
    [FAB_MGSEL.WRITE, FAB_MGSEL.READ, FAB_MGSEL.INDEX]⟩,
  ⟨"FAB_MGDATA", 0x140030, [(0x8, 4)],
    [FAB_MGDATA.DATA 0]⟩,
  ⟨"FAB_FENCE", 0x144000, [(0x8, 256)],
    [FAB_FENCE.FENCED 0]⟩,
  ⟨"PORT_CTL", 0x180000, [(0x2000, 12)],
    [PORT_CTL.EN 0]⟩,
  ⟨"PORT_STATUS", 0x180008, [(0x2000, 12)],
    [PORT_STATUS.LAST_CODE 0, PORT_STATUS.FEATURE 0, PORT_STATUS.LANES_OK 0, PORT_STATUS.LANE 0, PORT_STATUS.HBLOST 0, PORT_STATUS.PEER_FENCED 0, PORT_STATUS.AUDIT 0, PORT_STATUS.STATE 0]⟩,
  ⟨"PORT_PEER", 0x180010, [(0x2000, 12)],
    [PORT_PEER.CHIPID 0, PORT_PEER.PORT 0, PORT_PEER.FEATURE 0, PORT_PEER.FWVER 0]⟩,
  ⟨"PORT_PEERCFG", 0x180018, [(0x2000, 12)],
    [PORT_PEERCFG.EPOCH 0]⟩,
  ⟨"PORT_PEERDIG", 0x180020, [(0x2000, 12)],
    [PORT_PEERDIG.DIGEST 0]⟩,
  ⟨"PORT_DELAY", 0x180028, [(0x2000, 12)],
    [PORT_DELAY.DELAY 0]⟩,
  ⟨"PORT_CRED", 0x180040, [(0x2000, 12), (0x8, 2)],
    [PORT_CRED.V3 0 0, PORT_CRED.V2 0 0, PORT_CRED.V1 0 0, PORT_CRED.V0 0 0]⟩,
  ⟨"PORT_COUNT0", 0x180050, [(0x2000, 12)],
    [PORT_COUNT0.RETRY 0, PORT_COUNT0.CW_UNCORR 0, PORT_COUNT0.SYM_CORR 0]⟩,
  ⟨"PORT_COUNT1", 0x180058, [(0x2000, 12)],
    [PORT_COUNT1.PKT_TX 0, PORT_COUNT1.PKT_RX 0]⟩,
  ⟨"RMEM_CTL", 0x038000, [(0x8, 2)],
    [RMEM_CTL.TIMEOUT 0, RMEM_CTL.DSIZE_M1 0, RMEM_CTL.EN 0]⟩,
  ⟨"RMEM_STATUS", 0x038010, [],
    [RMEM_STATUS.LAST_CODE, RMEM_STATUS.OUT_GEN, RMEM_STATUS.OUT_RT]⟩,
  ⟨"RMEM_COUNT0", 0x038018, [],
    [RMEM_COUNT0.REQ_TX, RMEM_COUNT0.ERR_RX, RMEM_COUNT0.TIMEOUT]⟩,
  ⟨"RMEM_COUNT1", 0x038020, [],
    [RMEM_COUNT1.SERVED, RMEM_COUNT1.STRAY, RMEM_COUNT1.NOCTX]⟩,
  ⟨"RMEM_DMAP", 0x038100, [(0x200, 2), (0x8, 64)],
    [RMEM_DMAP.VALID 0 0, RMEM_DMAP.CHIPID 0 0]⟩,
  ⟨"RMEM_SEGB", 0x038600, [(0x200, 2), (0x10, 32)],
    [RMEM_SEGB.VALID 0 0, RMEM_SEGB.R 0 0, RMEM_SEGB.W 0 0, RMEM_SEGB.A 0 0, RMEM_SEGB.N 0 0, RMEM_SEGB.BASE 0 0]⟩,
  ⟨"RMEM_SEGL", 0x038608, [(0x200, 2), (0x10, 32)],
    [RMEM_SEGL.LIMIT 0 0]⟩,
  ⟨"REL_TRIG", 0x160800, [(0x1000, 4)],
    [REL_TRIG.POSTED1 0, REL_TRIG.FIRED1 0, REL_TRIG.POSTED0 0, REL_TRIG.FIRED0 0, REL_TRIG.RUNSTREAM 0, REL_TRIG.BUSY 0, REL_TRIG.OP 0]⟩,
  ⟨"REL_COUNT", 0x160808, [(0x1000, 4)],
    [REL_COUNT.PKTS 0, REL_COUNT.OPS 0, REL_COUNT.FLOW_WAIT 0]⟩,
  ⟨"COL_CTL", 0x168000, [(0x8, 2)],
    [COL_CTL.PGROUP 0, COL_CTL.TAINTCC 0, COL_CTL.REPLAY_MAX 0]⟩,
  ⟨"COL_STATUS", 0x168010, [],
    [COL_STATUS.LAST_CODE, COL_STATUS.REPLAYS_GEN, COL_STATUS.REPLAYS_RT, COL_STATUS.TAINT_RT, COL_STATUS.TAINT_GEN]⟩,
  ⟨"COL_LASTID", 0x168018, [],
    [COL_LASTID.GEN, COL_LASTID.RT]⟩,
  ⟨"COL_FLAGS", 0x168020, [],
    [COL_FLAGS.RT, COL_FLAGS.GEN]⟩,
  ⟨"COL_COUNT", 0x168028, [],
    [COL_COUNT.STALE, COL_COUNT.STRAY, COL_COUNT.RESIDUE, COL_COUNT.POISONED]⟩,
  ⟨"COL_SLOW", 0x168030, [(0x8, 2)],
    [COL_SLOW.CHIP 0, COL_SLOW.MIDX 0, COL_SLOW.SPREAD 0, COL_SLOW.COLID 0]⟩,
  ⟨"COL_SLOWCNT", 0x168100, [(0x200, 2), (0x8, 64)],
    [COL_SLOWCNT.LAST 0 0]⟩,
  ⟨"COL_LZ", 0x168500, [(0x200, 2), (0x8, 64)],
    [COL_LZ.VALID 0 0, COL_LZ.BASE 0 0, COL_LZ.SIZE 0 0]⟩,
  ⟨"RS_CFG", 0x148000, [],
    [RS_CFG.RT_ENTRIES]⟩,
  ⟨"RS_STATUS", 0x148008, [],
    [RS_STATUS.FREE_GEN, RS_STATUS.FREE_RT, RS_STATUS.WAIT_GEN, RS_STATUS.WAIT_RT]⟩,
  ⟨"RS_ENTSEL", 0x148010, [],
    [RS_ENTSEL.INDEX]⟩,
  ⟨"RS_ENTDATA", 0x148018, [],
    [RS_ENTDATA.COLID, RS_ENTDATA.CHUNK, RS_ENTDATA.EXPECT_M1, RS_ENTDATA.FOP, RS_ENTDATA.CTX, RS_ENTDATA.POISON, RS_ENTDATA.STATE]⟩,
  ⟨"RS_ENTMAP", 0x148020, [],
    [RS_ENTMAP.ARRIVED]⟩]

/-- Register rows, part 3 (R474). -/
def regRows3 : List RegRow := [
  ⟨"RS_COUNT", 0x148028, [],
    [RS_COUNT.COMBINES, RS_COUNT.ADMITS, RS_COUNT.ADMIT_WAIT]⟩,
  ⟨"CTX_RSET", 0x030000, [],
    [CTX_RSET.GATE, CTX_RSET.CGROUP, CTX_RSET.EN]⟩,
  ⟨"CTX_CMD", 0x030010, [(0x8, 2)],
    [CTX_CMD.LAP 0, CTX_CMD.CMD 0]⟩,
  ⟨"CTX_STATE", 0x030020, [(0x8, 2)],
    [CTX_STATE.CODE 0, CTX_STATE.EPOCH 0, CTX_STATE.STATE 0]⟩,
  ⟨"CTX_JOB", 0x030030, [(0x8, 2)],
    [CTX_JOB.JOB 0, CTX_JOB.CLIENT 0, CTX_JOB.SEPOCH 0]⟩,
  ⟨"CTX_JDIG", 0x030040, [(0x8, 2)],
    [CTX_JDIG.DIGEST 0]⟩,
  ⟨"CTX_PISTE", 0x030050, [(0x8, 2)],
    [CTX_PISTE.LCHIP 0, CTX_PISTE.PMAP 0]⟩,
  ⟨"CTX_SAVE", 0x030060, [],
    [CTX_SAVE.BASE]⟩,
  ⟨"CTX_RWIN", 0x030100, [(0x40, 2), (0x8, 8)],
    [CTX_RWIN.VALID 0 0, CTX_RWIN.SIZE 0 0, CTX_RWIN.BASE 0 0]⟩,
  ⟨"CTX_LWIN", 0x030180, [(0x40, 2), (0x8, 8)],
    [CTX_LWIN.VALID 0 0, CTX_LWIN.SIZE 0 0, CTX_LWIN.BASE 0 0]⟩,
  ⟨"JOB_LEAD", 0x030200, [],
    [JOB_LEAD.MGROUP, JOB_LEAD.ACKCC, JOB_LEAD.PCC, JOB_LEAD.MEMBERS, JOB_LEAD.CTX, JOB_LEAD.START]⟩,
  ⟨"JOB_LEADT", 0x030208, [],
    [JOB_LEADT.START_LAP, JOB_LEADT.TIMEOUT]⟩,
  ⟨"JOB_LSTAT", 0x030210, [],
    [JOB_LSTAT.LAST_CODE, JOB_LSTAT.REAL, JOB_LSTAT.PRUNED, JOB_LSTAT.PHASE]⟩,
  ⟨"JOB_COUNT", 0x030218, [],
    [JOB_COUNT.REFUSED, JOB_COUNT.STALE]⟩,
  ⟨"ACCT_ID", 0x031000, [(0x10, 64)],
    [ACCT_ID.VALID 0, ACCT_ID.CLIENT 0]⟩,
  ⟨"ACCT_CNT", 0x031008, [(0x10, 64)],
    [ACCT_CNT.WAIT_LAPS 0, ACCT_CNT.SAVED_LAPS 0, ACCT_CNT.PREEMPTS 0]⟩,
  ⟨"SNP_AREA", 0x200400, [],
    [SNP_AREA.SIZE, SNP_AREA.BASE]⟩,
  ⟨"SNP_CKPT", 0x200408, [(0x8, 2)],
    [SNP_CKPT.LAP 0, SNP_CKPT.RELEASE 0, SNP_CKPT.REQ 0]⟩,
  ⟨"SNP_STATUS", 0x200418, [],
    [SNP_STATUS.LAST_CODE, SNP_STATUS.CKSTEP, SNP_STATUS.DRT, SNP_STATUS.DGEN]⟩,
  ⟨"SNP_PAGES", 0x200420, [(0x8, 2)],
    [SNP_PAGES.DIRTY 0, SNP_PAGES.PENDING 0]⟩,
  ⟨"SNP_COUNT", 0x200430, [],
    [SNP_COUNT.PRESERVE, SNP_COUNT.PRESERVE_CLK, SNP_COUNT.ROLLBACKS]⟩,
  ⟨"SNP_CKSTEP_RT", 0x200438, [],
    [SNP_CKSTEP_RT.CKSTEP]⟩,
  ⟨"SNP_RSTCTL", 0x200440, [],
    [SNP_RSTCTL.STEP, SNP_RSTCTL.CTX, SNP_RSTCTL.CMD]⟩,
  ⟨"SNP_RSTLIST", 0x200448, [],
    [SNP_RSTLIST.NMAN_M1, SNP_RSTLIST.NENT_M1, SNP_RSTLIST.ADDR]⟩,
  ⟨"SNP_RSTFEED0", 0x200450, [],
    [SNP_RSTFEED0.LEN, SNP_RSTFEED0.ADDR]⟩,
  ⟨"SNP_RSTFEED1", 0x200458, [],
    [SNP_RSTFEED1.MIDX, SNP_RSTFEED1.SIDX]⟩,
  ⟨"SNP_RSTSTAT", 0x200460, [],
    [SNP_RSTSTAT.LAST_CODE, SNP_RSTSTAT.CLOSED, SNP_RSTSTAT.STATE]⟩,
  ⟨"SNP_REG", 0x200500, [(0x80, 2), (0x8, 16)],
    [SNP_REG.VALID 0 0, SNP_REG.SIZE 0 0, SNP_REG.BASE 0 0, SNP_REG.REGID 0 0]⟩,
  ⟨"HP_CTL", 0x210000, [(0x100, 2)],
    [HP_CTL.VID 0, HP_CTL.PTP 0, HP_CTL.VLAN 0, HP_CTL.AN 0, HP_CTL.EN 0]⟩,
  ⟨"HP_STATUS", 0x210008, [(0x100, 2)],
    [HP_STATUS.LAST_CODE 0, HP_STATUS.STATE 0]⟩,
  ⟨"HP_MAC", 0x210010, [(0x100, 2)],
    [HP_MAC.MAC 0]⟩,
  ⟨"HP_NEXTHOP", 0x210018, [(0x100, 2)],
    [HP_NEXTHOP.MAC 0]⟩,
  ⟨"HP_IPV4", 0x210020, [(0x100, 2)],
    [HP_IPV4.VALID 0, HP_IPV4.ADDR 0]⟩,
  ⟨"HP_IPV6_HI", 0x210028, [(0x100, 2)],
    [HP_IPV6_HI.ADDR 0]⟩,
  ⟨"HP_IPV6_LO", 0x210030, [(0x100, 2)],
    [HP_IPV6_LO.ADDR 0]⟩,
  ⟨"HP_COUNT", 0x210038, [(0x100, 2)],
    [HP_COUNT.FEC_CORR 0, HP_COUNT.FEC_UNCORR 0, HP_COUNT.DROP 0]⟩,
  ⟨"WCP_CFG", 0x210400, [],
    [WCP_CFG.UDP_PORT, WCP_CFG.RTO, WCP_CFG.RETRY_MAX, WCP_CFG.IDLE]⟩,
  ⟨"WCP_STATUS", 0x210408, [],
    [WCP_STATUS.LAST_CODE, WCP_STATUS.OPEN, WCP_STATUS.HELDLOST, WCP_STATUS.EVLOST, WCP_STATUS.EVQ]⟩,
  ⟨"WCP_COUNT", 0x210410, [],
    [WCP_COUNT.TAGFAIL, WCP_COUNT.DUP, WCP_COUNT.WINDOW, WCP_COUNT.HOLDFULL, WCP_COUNT.MALFORMED]⟩,
  ⟨"WCP_SESS", 0x210800, [(0x10, 16)],
    [WCP_SESS.CRED 0, WCP_SESS.RIGHTS 0, WCP_SESS.KILL 0, WCP_SESS.PORT 0, WCP_SESS.STATE 0]⟩]

/-- Register rows, part 4 (R474). -/
def regRows4 : List RegRow := [
  ⟨"WCP_SSEQ", 0x210808, [(0x10, 16)],
    [WCP_SSEQ.RXCUM 0, WCP_SSEQ.TXNEXT 0]⟩,
  ⟨"SEC_BOOT", 0x220000, [],
    [SEC_BOOT.CODE, SEC_BOOT.VERSION, SEC_BOOT.SVN, SEC_BOOT.SLOT, SEC_BOOT.STATE]⟩,
  ⟨"SEC_STATE", 0x220008, [],
    [SEC_STATE.IDENT, SEC_STATE.DBG, SEC_STATE.LC]⟩,
  ⟨"SEC_CMD", 0x220010, [],
    [SEC_CMD.ARG, SEC_CMD.CMD]⟩,
  ⟨"SEC_STATUS", 0x220018, [],
    [SEC_STATUS.LAST_CODE, SEC_STATUS.BUSY]⟩,
  ⟨"SEC_NONCE", 0x220020, [(0x8, 4)],
    [SEC_NONCE.NONCE 0]⟩,
  ⟨"SEC_SERIAL", 0x220040, [],
    [SEC_SERIAL.SERIAL]⟩,
  ⟨"CFG_EPOCH", 0x220100, [],
    [CFG_EPOCH.EPOCH]⟩,
  ⟨"CFG_USER", 0x220108, [],
    [CFG_USER.VALUE]⟩,
  ⟨"CFG_DIGEST", 0x220110, [],
    [CFG_DIGEST.VALUE]⟩,
  ⟨"CFG_CENSUS", 0x220118, [],
    [CFG_CENSUS.CID, CFG_CENSUS.GROUP, CFG_CENSUS.TIMEOUT, CFG_CENSUS.START]⟩,
  ⟨"CFG_CENLAP", 0x220120, [],
    [CFG_CENLAP.LAP]⟩,
  ⟨"CFG_CENRES0", 0x220128, [],
    [CFG_CENRES0.CID, CFG_CENRES0.COUNT, CFG_CENRES0.LATE, CFG_CENRES0.STATE]⟩,
  ⟨"CFG_CENRES1", 0x220130, [],
    [CFG_CENRES1.MAX, CFG_CENRES1.MIN]⟩,
  ⟨"CFG_CENRES2", 0x220138, [],
    [CFG_CENRES2.MAX, CFG_CENRES2.MIN]⟩,
  ⟨"CFG_CENDMIN", 0x220140, [],
    [CFG_CENDMIN.DIGEST]⟩,
  ⟨"CFG_CENDMAX", 0x220148, [],
    [CFG_CENDMAX.DIGEST]⟩,
  ⟨"SS_CMD", 0x250000, [],
    [SS_CMD.OFFSET, SS_CMD.SLOT, SS_CMD.CMD]⟩,
  ⟨"SS_STATUS", 0x250008, [],
    [SS_STATUS.LAST_CODE, SS_STATUS.STORE_SEQ, SS_STATUS.PREFERRED, SS_STATUS.B_OK, SS_STATUS.A_OK, SS_STATUS.BUSY]⟩,
  ⟨"TEL_CTL", 0x240000, [],
    [TEL_CTL.PHASE, TEL_CTL.PEXP, TEL_CTL.TRACE, TEL_CTL.EN]⟩,
  ⟨"TEL_RING", 0x240008, [],
    [TEL_RING.BASE, TEL_RING.SIZE]⟩,
  ⟨"TEL_EVMASK", 0x240010, [],
    [TEL_EVMASK.KINDS]⟩,
  ⟨"TEL_STATUS", 0x240018, [],
    [TEL_STATUS.LOST, TEL_STATUS.WRAPS, TEL_STATUS.CFGERR, TEL_STATUS.WRPTR]⟩,
  ⟨"TEL_SEL", 0x240100, [(0x8, 64)],
    [TEL_SEL.VALID 0, TEL_SEL.OFFSET 0]⟩,
  ⟨"TRAIL_WIN", 0x241000, [(0x400, 2), (0x40, 16)],
    [TRAIL_WIN.VALID 0 0, TRAIL_WIN.SPACE 0 0, TRAIL_WIN.CLUSTER 0 0, TRAIL_WIN.BASE 0 0]⟩,
  ⟨"TRAIL_SIZE", 0x241008, [(0x400, 2), (0x40, 16)],
    [TRAIL_SIZE.BLOCKS 0 0]⟩,
  ⟨"TRAIL_SUM", 0x241010, [(0x400, 2), (0x40, 16)],
    [TRAIL_SUM.DIGEST 0 0]⟩,
  ⟨"TRAIL_LAST", 0x241020, [(0x400, 2), (0x40, 16)],
    [TRAIL_LAST.DIGEST 0 0]⟩,
  ⟨"TRAIL_CNT", 0x241018, [(0x400, 2), (0x40, 16)],
    [TRAIL_CNT.CANCELS 0 0, TRAIL_CNT.COUNT 0 0]⟩,
  ⟨"TRAIL_LINFO", 0x241028, [(0x400, 2), (0x40, 16)],
    [TRAIL_LINFO.EPOCH 0 0, TRAIL_LINFO.PARTIAL 0 0, TRAIL_LINFO.COUNT 0 0]⟩,
  ⟨"DBG_SSCT", 0x242000, [],
    [DBG_SSCT.TARGET]⟩,
  ⟨"DBG_SSCTL", 0x242008, [],
    [DBG_SSCTL.NOW, DBG_SSCTL.ONFAULT, DBG_SSCTL.ARM]⟩,
  ⟨"DBG_SSBUF", 0x242010, [],
    [DBG_SSBUF.BASE]⟩,
  ⟨"DBG_SSSTAT", 0x242018, [],
    [DBG_SSSTAT.COUNT, DBG_SSSTAT.WRITING, DBG_SSSTAT.DONE]⟩,
  ⟨"DBG_REPEAT", 0x242100, [],
    [DBG_REPEAT.EXTRA, DBG_REPEAT.RETRY, DBG_REPEAT.SAMPLE, DBG_REPEAT.RWIN, DBG_REPEAT.SS, DBG_REPEAT.UNHELD, DBG_REPEAT.LAPDIFF, DBG_REPEAT.QUIET]⟩,
  ⟨"DBG_STREAM", 0x242200, [],
    [DBG_STREAM.NUM, DBG_STREAM.CMD]⟩,
  ⟨"DBG_RWSEL", 0x242300, [],
    [DBG_RWSEL.BASE]⟩,
  ⟨"TRB", 0x243000, [(0x8, 8)],
    [TRB.C3 0, TRB.C2 0, TRB.C1 0, TRB.C0 0]⟩,
  ⟨"PWR_CMD", 0x230000, [],
    [PWR_CMD.CMD]⟩,
  ⟨"PWR_STATUS", 0x230008, [],
    [PWR_STATUS.LAST_CODE, PWR_STATUS.CAUSE, PWR_STATUS.READY, PWR_STATUS.STATE]⟩]

/-- Register rows, part 5 (R474). -/
def regRows5 : List RegRow := [
  ⟨"PWR_DOM0", 0x230010, [],
    [PWR_DOM0.DOM]⟩,
  ⟨"PWR_DSTAT0", 0x230020, [],
    [PWR_DSTAT0.DOM]⟩,
  ⟨"PWR_DOM1", 0x230018, [],
    [PWR_DOM1.DOM]⟩,
  ⟨"PWR_DSTAT1", 0x230028, [],
    [PWR_DSTAT1.DOM]⟩,
  ⟨"PWR_THERM", 0x230030, [],
    [PWR_THERM.HOT, PWR_THERM.ALARM, PWR_THERM.TJ_MAX, PWR_THERM.TJ_NOW]⟩,
  ⟨"PWR_AVS", 0x230038, [],
    [PWR_AVS.VSET, PWR_AVS.VOUT, PWR_AVS.IOUT, PWR_AVS.ERRORS]⟩,
  ⟨"PWR_METER", 0x230040, [],
    [PWR_METER.PEAK10MS, PWR_METER.AVG1S]⟩,
  ⟨"PWR_SUP", 0x230080, [(0x8, 9)],
    [PWR_SUP.ALARM 0, PWR_SUP.MIN 0, PWR_SUP.MAX 0, PWR_SUP.NOW 0]⟩,
  ⟨"CLK_STATUS", 0x230100, [],
    [CLK_STATUS.SWITCHES, CLK_STATUS.SREF_S, CLK_STATUS.SREF_N, CLK_STATUS.REF1, CLK_STATUS.REF0, CLK_STATUS.ACTIVE]⟩,
  ⟨"CS_HOLE", 0x000108, [],
    [CS_HOLE.COUNT, CS_HOLE.PATH, CS_HOLE.WRITE, CS_HOLE.OFFSET]⟩]

/-- Every register of the control space (R474). -/
def regRows : List RegRow := regRows0 ++ regRows1 ++ regRows2 ++ regRows3 ++ regRows4 ++ regRows5

end Sys2Proof.Machine
end

