-- ==== Sys2Proof/Machine/Ops.lean ====
section
/-!
DEFINITION. The named operations over registers, memories, units, time and reports that every command uses.
-/

namespace Sys2Proof.Machine

/-- The three outcomes of a command. -/
abbrev Res := Host.Outcome State Fault Refusal

/-- Outside the always-on domain nothing happens while every clock there is stopped (R423, R440). -/
def State.live (s : State) (r : Res) : Res := if s.stopped then .next s else r

/-- Work that issue or a Rink grant carries: none while a freeze is in force either (R423). -/
def State.granting (s : State) (r : Res) : Res := if s.stopped ∨ s.frozen then .next s else r

/-- Loop `n` times with the index, from 0 upward. -/
def loopN {α : Type} (n : Nat) (f : Nat → α → α) (x : α) : α := (List.range n).foldl (fun y i => f i y) x

/-- Replace the first element that satisfies `q`. -/
def replaceFirst {α : Type} (q : α → Bool) (f : α → α) : List α → List α
  | [] => []
  | x :: l => if q x then f x :: l else x :: replaceFirst q f l

/-! Registers. -/

/-- The value of each register after cold reset (R475). -/
def resetWord (off : Nat) : Word :=
  if off = 0x000000 then 0x0000000159119416
  else if off = 0x010008 then 0x0BB84E2008140300
  else if off = 0x010040 ∨ off = 0x010048 then 0x000FFF0000000000
  else if off = 0x030000 then 0x00000000000001F8
  else if off = 0x030208 then 0x0000000000000800
  else if off = 0x0313F0 then 0x8000000000000000
  else if off = 0x038000 ∨ off = 0x038008 then 0x0001000000000000
  else if off = 0x040000 then 0x0000000000000002
  else if 0x0402D8 ≤ off ∧ off ≤ 0x0402F8 ∧ off % 8 = 0 then 0x0000000000000005
  else if off = 0x050000 then 0x0000000000000008
  else if off = 0x140000 then 0x0000000000400800
  else if off = 0x148008 then 0x8000000000000000
  else if off = 0x168000 ∨ off = 0x168008 then 0x0000002000000000
  else if 0x1C0000 ≤ off ∧ off < 0x1F0000 ∧ off % 0x4000 = 0 then 0x4000006401000006
  else if off = 0x210000 ∨ off = 0x210100 then 0x0000000000000002
  else if off = 0x210400 then 0xCA1200641003E800
  else if off = 0x220118 then 0x0000000040000000
  else if off = 0x230010 ∨ off = 0x230020 then 0xFFFFFFFFFFFFFFFF
  else if off = 0x230018 ∨ off = 0x230028 then 0x00000000000003FF
  else if off = 0x240000 then 0x0000000000000E00
  else 0

/-- The register at a control-space offset. -/
def State.reg (s : State) (off : Nat) : Word := tget resetWord s.regs off

/-- The state with the register at an offset replaced. -/
def State.setReg (s : State) (off : Nat) (w : Word) : State := { s with regs := tset resetWord s.regs off w }

/-- The value of a register field. -/
def State.rd (s : State) (f : Fld) : Nat := bitsOf (s.reg f.off).toNat f.hi f.lo

/-- The state with a register field replaced by the low bits of `v`. -/
def State.wr (s : State) (f : Fld) (v : Nat) : State :=
  s.setReg f.off (BitVec.ofNat 64 (withBits (s.reg f.off).toNat f.hi f.lo v))

/-- A one-bit field as a Bool. -/
def State.bit (s : State) (f : Fld) : Bool := s.rd f == 1

/-- Set or clear a one-bit field. -/
def State.setBit (s : State) (f : Fld) (b : Bool) : State := s.wr f (if b then 1 else 0)

/-- Width of a field. -/
def Fld.width (f : Fld) : Nat := f.hi - f.lo + 1

/-- Add to a saturating counter field. -/
def State.addSat (s : State) (f : Fld) (n : Nat) : State := s.wr f (satAdd f.width (s.rd f) n)

/-- Add to a counter field that wraps. -/
def State.addMod (s : State) (f : Fld) (n : Nat) : State := s.wr f (s.rd f + n)

/-- Field `f` of a value about to be written to its register. -/
def fieldOf (v : Word) (f : Fld) : Nat := bitsOf v.toNat f.hi f.lo

/-- Index i of a register row's array offset, if the offset names one. -/
def dimsHit : List (Nat × Nat) → Nat → Bool
  | [], r => r == 0
  | (st, n) :: d, r => decide (r / st < n) && dimsHit d (r % st)

/-- The row that holds a control-space offset. -/
def findRow (off : Nat) : Option RegRow :=
  regRows.find? (fun r => decide (r.base ≤ off) && dimsHit r.dims (off - r.base))

/-- The access codes' effect of a write on one field (R4): the field's new value. -/
def writeField (old v : Nat) (locked : Bool) : Acc → Nat
  | .rw => v
  | .ro => old
  | .w1c => old - (old &&& v)
  | .rc => old
  | .wo => old
  | .rws => v
  | .rwl => if locked then old else v

/-- A register word after a write under the access codes of its fields; reserved bits are ignored (R4, R7). -/
def writeWord (fs : List Fld) (locked : Bool) (old v : Word) : Word :=
  fs.foldl (fun w f => BitVec.ofNat 64
    (withBits w.toNat f.hi f.lo (writeField (bitsOf old.toNat f.hi f.lo) (bitsOf v.toNat f.hi f.lo) locked f.acc))) old

/-- A register word after a read: RC fields cleared (R4). -/
def readClear (fs : List Fld) (w : Word) : Word :=
  fs.foldl (fun x f => if f.acc = .rc then BitVec.ofNat 64 (withBits x.toNat f.hi f.lo 0) else x) w

/-! Memories. -/

/-- What a byte that nothing has written reads as: zero (R222, R477). -/
def zeroByte (_ : Nat) : Byte := 0

/-- What an unlisted word of a table of words reads as. -/
def zeroWord (_ : Nat) : Word := 0

/-- `n` bytes of the Rink. -/
def State.rinkBytes (s : State) (a n : Nat) : List Byte := tgetMany zeroByte s.rink a n

/-- The 16-byte words whose check bits a write of `n` bytes at `a` leaves wrong: those it does not touch, and those that it merges into
an uncorrectable word (R177). -/
def keepsRinkErr (a n : Nat) (e : Nat × Nat) : Bool :=
  decide (a + n ≤ 16 * e.1) || decide (16 * e.1 + 16 ≤ a) || (e.2 == 2 && (decide (16 * e.1 < a) || decide (a + n < 16 * e.1 + 16)))

/-- Write bytes to the Rink. -/
def State.setRink (s : State) (a : Nat) (l : List Byte) : State :=
  { s with rink := tsetMany zeroByte s.rink a l, rinkErr := s.rinkErr.filter (keepsRinkErr a l.length) }

/-- Clear a range of the Rink to zeros. -/
def State.clearRink (s : State) (lo hi : Nat) : State :=
  { s with rink := tclear lo hi s.rink, rinkErr := s.rinkErr.filter (keepsRinkErr lo (hi - lo)) }

/-- A 64-bit word of the Rink. -/
def State.rinkWord (s : State) (a : Nat) : Nat := leNat (s.rinkBytes a 8)

/-- `n` bytes of local LPDDR. -/
def State.memBytes (s : State) (a n : Nat) : List Byte := tgetMany zeroByte s.lpddr a n

/-- Device channel of a local address (R205). -/
def channelOf (a : Nat) : Nat :=
  let l := a / 64 / 31
  let r := l % 192
  let q := l / 192
  let h := bitsOf q 5 0 ^^^ bitsOf q 11 6 ^^^ bitsOf q 17 12 ^^^ bitsOf q 20 18
  (r % 64 ^^^ h) + 64 * ((r / 64 + q % 3) % 3)

/-- The channel of a local address has failed (R221). -/
def State.channelFailed (s : State) (a : Nat) : Bool :=
  (s.rd (MEM_STATUS.CH_FAILED (channelOf a / 16))).testBit (channelOf a % 16)

/-- Some channel has failed. -/
def State.anyFailed (s : State) : Bool := (List.range 12).any (fun m => s.rd (MEM_STATUS.CH_FAILED m) != 0)

/-- The bits that a write of `n` bytes at `a` leaves wrong in a block: all of them in a block that it does not touch or that cannot be
corrected before the rest of it is merged, and a bit of a granule that it does not rewrite (R208). -/
def keepsFlips (a n : Nat) (e : Nat × List Nat) : Bool :=
  let b := 64 * e.1
  decide (a + n ≤ b) || decide (b + 64 ≤ a) || ((decide (b < a) || decide (a + n < b + 64)) && (match e.2 with
    | [k] =>
      let g := b + (63 - (k - 16) / 8) / 16 * 16
      decide (16 ≤ k) && (decide (a + n ≤ g) || decide (g + 16 ≤ a))
    | _ => true))

/-- Write bytes to local LPDDR. A failed channel takes none of its own (R221). -/
def State.setMem (s : State) (a : Nat) (l : List Byte) : State :=
  { s with
    lpddr := if s.anyFailed then
        (l.zipIdx).foldl (fun m x => if s.channelFailed (a + x.2) then m else tset zeroByte m (a + x.2) x.1) s.lpddr
      else tsetMany zeroByte s.lpddr a l
    flips := s.flips.filter (fun e => keepsFlips a l.length e || s.anyFailed && s.channelFailed (64 * e.1)) }

/-- Offset of gate SRAM byte `a` of engine `g`. -/
def gateAt (g a : Nat) : Nat := g * 0x1000000 + a

/-- `n` bytes of gate SRAM of engine `g`. -/
def State.gateBytes (s : State) (g a n : Nat) : List Byte := tgetMany zeroByte s.gsram (gateAt g a) n

/-- Write bytes to gate SRAM. -/
def State.setGate (s : State) (g a : Nat) (l : List Byte) : State :=
  { s with gsram := tsetMany zeroByte s.gsram (gateAt g a) l }

/-- A 64-bit word of gate SRAM. -/
def State.gateWord (s : State) (g a : Nat) : Nat := leNat (s.gateBytes g a 8)

/-- `n` bytes of the cluster store of cluster `u`. -/
def State.storeBytes (s : State) (u a n : Nat) : List Byte := tgetMany zeroByte s.store (u * 0x400000 + a) n

/-- Write bytes to a cluster store. -/
def State.setStore (s : State) (u a : Nat) (l : List Byte) : State :=
  { s with store := tsetMany zeroByte s.store (u * 0x400000 + a) l }

/-- `n` bytes of a space as stream `k` names it (R59): 0x0 its cluster store, 0x1 Rink, 0x2 LPDDR, 0x4 its gate SRAM. -/
def State.spaceBytes (s : State) (k sp a n : Nat) : List Byte :=
  if sp = 0 then s.storeBytes k a n else if sp = 1 then s.rinkBytes a n
  else if sp = 2 then s.memBytes a n else s.gateBytes (k - 32) a n

/-- Write bytes to a space as stream `k` names it. -/
def State.setSpace (s : State) (k sp a : Nat) (l : List Byte) : State :=
  if sp = 0 then s.setStore k a l else if sp = 1 then s.setRink a l
  else if sp = 2 then s.setMem a l else s.setGate (k - 32) a l

/-! Units. -/

def State.stream (s : State) (k : Nat) : Stream := tget (fun _ => {}) s.streams k
def State.setStream (s : State) (k : Nat) (x : Stream) : State := { s with streams := tset (fun _ => {}) s.streams k x }
def State.updStream (s : State) (k : Nat) (f : Stream → Stream) : State := s.setStream k (f (s.stream k))
def State.ctx (s : State) (c : Nat) : Ctx := tget (fun _ => {}) s.ctxs c
def State.setCtx (s : State) (c : Nat) (x : Ctx) : State := { s with ctxs := tset (fun _ => {}) s.ctxs c x }
def State.updCtx (s : State) (c : Nat) (f : Ctx → Ctx) : State := s.setCtx c (f (s.ctx c))
def State.gate (s : State) (g : Nat) : Gate := tget (fun _ => {}) s.gates g
def State.setGateUnit (s : State) (g : Nat) (x : Gate) : State := { s with gates := tset (fun _ => {}) s.gates g x }
def State.updGate (s : State) (g : Nat) (f : Gate → Gate) : State := s.setGateUnit g (f (s.gate g))
def State.gmu (s : State) (u : Nat) : List GmmOp := tget (fun _ => []) s.gmus u
def State.setGmu (s : State) (u : Nat) (x : List GmmOp) : State := { s with gmus := tset (fun _ => []) s.gmus u x }
def State.course (s : State) (b : Nat) : Course := tget (fun _ => {}) s.courses b
def State.setCourse (s : State) (b : Nat) (x : Course) : State := { s with courses := tset (fun _ => {}) s.courses b x }
def State.updRouter (s : State) (f : Router → Router) : State := { s with router := f s.router }
def State.port (s : State) (n : Nat) : Port := tget (fun _ => {}) s.router.ports n
def State.setPort (s : State) (n : Nat) (x : Port) : State :=
  { s with router := { s.router with ports := tset (fun _ => {}) s.router.ports n x } }
def State.updPort (s : State) (n : Nat) (f : Port → Port) : State := s.setPort n (f (s.port n))
def State.updCol (s : State) (f : Col → Col) : State := { s with col := f s.col }
def State.relay (s : State) (i : Nat) : Relay := tget (fun _ => {}) s.col.relays i
def State.setRelay (s : State) (i : Nat) (x : Relay) : State :=
  { s with col := { s.col with relays := tset (fun _ => {}) s.col.relays i x } }
def State.rsEntry (s : State) (i : Nat) : RsEntry := tget (fun _ => {}) s.col.entries i
def State.setRsEntry (s : State) (i : Nat) (x : RsEntry) : State :=
  { s with col := { s.col with entries := tset (fun _ => {}) s.col.entries i x } }
def State.admits (s : State) (c : Nat) : List Admit := tget (fun _ => []) s.col.admits c
def State.setAdmits (s : State) (c : Nat) (x : List Admit) : State :=
  { s with col := { s.col with admits := tset (fun _ => []) s.col.admits c x } }
def State.updLap (s : State) (f : LapUnit → LapUnit) : State := { s with lap := f s.lap }
def State.updLocker (s : State) (f : Locker → Locker) : State := { s with locker := f s.locker }
def State.flowQueue (s : State) (f : Nat) : List QPkt := tget (fun _ => []) s.router.flows f
def State.setFlowQueue (s : State) (f : Nat) (q : List QPkt) : State :=
  { s with router := { s.router with flows := tset (fun _ => []) s.router.flows f q } }
def State.emit (s : State) (o : Out) : State := { s with out := o :: s.out }

/-- Take a fresh free value (a value the spec leaves open). -/
def State.free (s : State) : Nat × State := (Config.freeNat s.freeCtr, { s with freeCtr := s.freeCtr + 1 })

/-! Time (R42, R43). -/

/-- The current lap number. -/
def State.lapNo (s : State) : Nat := s.rd LAP_CT.LAP

/-- The stride: accumulator bits [63:44]. -/
def State.stride (s : State) : Nat := s.lap.acc.toNat >>> 44

/-- Course time as a 64-bit number of strides. -/
def State.ct (s : State) : Nat := s.lapNo * 2 ^ 20 + s.stride

/-- The Lap Cycle Count. -/
def State.lcc (s : State) : Nat := s.rd LAP_LCC.LCC

/-- Distance of requester `i` of `n` from the pointer of the LCC-rotated rule: 0 is the highest priority (R182). -/
def State.rank (s : State) (n i : Nat) : Nat := (i + n - s.lcc % n) % n

/-- Insert an element behind every element whose key is not larger. -/
def insertBy {α : Type} (key : α → Nat) (x : α) : List α → List α
  | [] => [x]
  | y :: l => if key x < key y then x :: y :: l else y :: insertBy key x l

/-- `x` enters the tail of a queue in this clk: what entered in the same clk stands in the order of R182 with `n` requesters. `who` gives
an element's clock of entry and its requester. -/
def State.enqueue {α : Type} (s : State) (n : Nat) (who : α → Nat × Nat) (x : α) (l : List α) : List α :=
  insertBy (fun y => if (who y).1 = s.clk then s.rank n (who y).2 + 1 else 0) x l

/-- Course time one clk ago; it stands while the Lap Unit is STOPPED. -/
def State.prevCt (s : State) : Nat :=
  if s.rd LAP_STATUS.STATE = 0 then s.ct
  else if s.lcc = 0 then s.lapNo * 2 ^ 20 - 1
  else s.lapNo * 2 ^ 20 + (s.lap.acc.toNat - s.rd LAP_LOOP.PHASE_INC) >>> 44

/-- An action armed for course time `t` in this clk: one whose target passed in an earlier clk counts LATE_WAIT (R48). -/
def State.armAt (s : State) (t : Nat) : State := if t ≤ s.prevCt then s.addSat LAP_COUNT.LATE_WAIT 1 else s

/-- Lap Unit states (LAP_STATUS.STATE). -/
def LapSt.stopped : Nat := 0
def LapSt.acquire : Nat := 1
def LapSt.locked : Nat := 2
def LapSt.holdover : Nat := 3
def LapSt.freerun : Nat := 4

/-- Stream states (ENG_STATUS.STATE). -/
def EngSt.idle : Nat := 0
def EngSt.run : Nat := 1
def EngSt.waitCc : Nat := 2
def EngSt.waitLap : Nat := 3
def EngSt.waitBuf : Nat := 4
def EngSt.fault : Nat := 5
def EngSt.saved : Nat := 6
def EngSt.brk : Nat := 7

/-- Context states (CTX_STATE.STATE). -/
def CtxSt.none : Nat := 0
def CtxSt.prepared : Nat := 1
def CtxSt.delivered : Nat := 2
def CtxSt.run : Nat := 3
def CtxSt.saving : Nat := 4
def CtxSt.saved : Nat := 5
def CtxSt.halted : Nat := 6
def CtxSt.torn : Nat := 7

/-- Port states (PORT_STATUS.STATE). -/
def PortSt.down : Nat := 0
def PortSt.train : Nat := 1
def PortSt.hello : Nat := 2
def PortSt.held : Nat := 3
def PortSt.up : Nat := 4
def PortSt.ctlonly : Nat := 5
def PortSt.failed : Nat := 6
def PortSt.discarded : Nat := 7

def State.ctxState (s : State) (c : Nat) : Nat := s.rd (CTX_STATE.STATE c)
def State.setCtxState (s : State) (c v : Nat) : State := s.wr (CTX_STATE.STATE c) v
def State.engState (s : State) (k : Nat) : Nat := s.rd (ENG_STATUS.STATE k)
def State.setEngState (s : State) (k v : Nat) : State := s.wr (ENG_STATUS.STATE k) v
def State.portState (s : State) (n : Nat) : Nat := s.rd (PORT_STATUS.STATE n)

/-- A context exists for packets (R326). -/
def State.ctxExists (s : State) (c : Nat) : Bool :=
  let st := s.ctxState c
  st == CtxSt.run || st == CtxSt.saving || st == CtxSt.saved || st == CtxSt.halted

/-- A context is RUN, SAVING or SAVED: its settings wait for a step boundary (R478). -/
def State.ctxBusy (s : State) (c : Nat) : Bool :=
  let st := s.ctxState c
  st == CtxSt.run || st == CtxSt.saving || st == CtxSt.saved

/-- The context that owns stream `k` (R56, R323). -/
def State.ctxOf (s : State) (k : Nat) : Nat :=
  if k < 32 then (if s.bit CTX_RSET.EN ∧ k / 4 = s.rd CTX_RSET.CGROUP then 1 else 0)
  else if k < 40 then (if s.bit CTX_RSET.EN ∧ k - 32 = s.rd CTX_RSET.GATE then 1 else 0)
  else k % 2

/-- The streams of a context. -/
def State.streamsOf (s : State) (c : Nat) : List Nat := (List.range 50).filter (fun k => s.ctxOf k == c)

/-- The Gate Engines of a context. -/
def State.gatesOf (s : State) (c : Nat) : List Nat := (List.range 8).filter (fun g => s.ctxOf (32 + g) == c)

/-- The context of a job on this chip, if one exists in the sense of R326. -/
def State.ctxOfJob (s : State) (job : Nat) : Option Nat :=
  if s.ctxExists 0 ∧ s.rd (CTX_JOB.JOB 0) = job then some 0
  else if s.ctxExists 1 ∧ s.rd (CTX_JOB.JOB 1) = job then some 1 else none

/-- This chip's ID. -/
def State.chipId (s : State) : Nat := s.rd FAB_CFG.CHIPID

/-! Reports. -/

/-- The trouble counter a code increments (R426). -/
def troubleOf (code : Nat) : Option Nat :=
  if code = F_LAP_OVERRUN then some 4
  else if code = F_LKR_RINKUE then some 6
  else if code = F_MEM_UE then some 8
  else if code = F_MEM_CEHIGH then some 9
  else if code = F_MEM_DRIFT ∨ code = F_MEM_TRAINLATE then some 10
  else if code = F_FAB_ECRC then some 14
  else if code = F_FAB_HBLOSS then some 15
  else if code = F_COL_RESIDUE then some 16
  else if code = F_DSP_INGRESS ∨ code = F_LKR_NOQUOTA then some 19
  else if code = F_WCP_TAG then some 20
  else if code = F_SEC_SS then some 21
  else none

/-- Field of trouble counter `i`. -/
def troubleFld (i : Nat) : Fld := ⟨0x243000 + 8 * (i / 4), 16 * (i % 4) + 15, 16 * (i % 4), .rws⟩

/-- What this clk has done so far. -/
def State.thisClk (s : State) : ClkLog := if s.clkLog.clk = s.clk then s.clkLog else { clk := s.clk }

/-- Increment trouble counter `i`, saturating (R426). -/
def State.trouble (s : State) (i : Nat) : State :=
  let x := s.thisClk
  { s.addSat (troubleFld i) 1 with clkLog := { x with troubles := tset (fun _ => 0) x.troubles i (tget (fun _ => 0) x.troubles i + 1) } }

/-- The status field that keeps a code of a subject without units, and FAB_STATUS for the codes that no port keeps (R54, R174, R199,
R268, R287, R314, R332, R359). -/
def lastCodeFld (code : Nat) : Option Fld :=
  let sub := code / 256
  if sub = 0x01 then some LAP_STATUS.LAST_CODE
  else if sub = 0x07 then (if 0x0707 ≤ code ∧ code ≠ F_FAB_HBLOSS then some FAB_STATUS.LAST_CODE else none)
  else if sub = 0x04 then some COURSE_STATUS.LAST_CODE
  else if sub = 0x05 then some LKR_STATUS.LAST_CODE
  else if sub = 0x08 then some RMEM_STATUS.LAST_CODE
  else if sub = 0x09 then some COL_STATUS.LAST_CODE
  else if code = F_JOB_STARTTMO ∨ code = F_JOB_STARTFAIL ∨ code = F_JOB_SHORT ∨ code = F_JOB_LEAD then some JOB_LSTAT.LAST_CODE
  else if sub = 0x0B then some SNP_STATUS.LAST_CODE
  else if F_WCP_AUTH ≤ code ∧ code ≤ F_WCP_DENIED then some WCP_STATUS.LAST_CODE
  else if sub = 0x0E then some PWR_STATUS.LAST_CODE
  else none

/-- A count marked "once per lap" is due in this lap (R426: counters 7, 11, 13 and 18). -/
def State.lapFlag (s : State) (i : Nat) : State := if i ∈ s.lapFlags then s else { s with lapFlags := i :: s.lapFlags }

/-! Host ports (R361). -/

/-- The local time in ns that timestamps are taken in: a clk lasts 50/47 ns (R9, R33). -/
def State.localNs (s : State) : Nat := s.clk * 50 / 47

/-- A frame that is discarded (R361, R362). -/
def State.hostDrop (s : State) (n : Nat) : State := s.addSat (HP_COUNT.DROP n) 1

/-- An Ethernet frame to the next hop, tagged under HP_CTL.VLAN and padded to the least length of IEEE 802.3. -/
def State.etherFrame (s : State) (n type : Nat) (body : List Byte) : List Byte :=
  let l := beBytes 6 (s.rd (HP_NEXTHOP.MAC n)) ++ beBytes 6 (s.rd (HP_MAC.MAC n)) ++
    (if s.bit (HP_CTL.VLAN n) then beBytes 2 0x8100 ++ beBytes 2 (s.rd (HP_CTL.VID n)) else []) ++ beBytes 2 type ++ body
  l ++ List.replicate (60 - l.length) 0

/-- A host port's own IPv6 address; 0 where IPv6 is unused. -/
def State.ipv6 (s : State) (n : Nat) : Nat := s.rd (HP_IPV6_HI.ADDR n) * 2 ^ 64 + s.rd (HP_IPV6_LO.ADDR n)

/-- A host port's own address of an IP version. -/
def State.ownIp (s : State) (n : Nat) (v6 : Bool) : Nat := if v6 then s.ipv6 n else s.rd (HP_IPV4.ADDR n)

/-- A datagram leaves on a host port. -/
def State.sendUdp (s : State) (n : Nat) (d : Dgram) : State :=
  s.emit (.frame n (s.etherFrame n (if d.v6 then 0x86DD else 0x0800) (ipPacket (s.ownIp n d.v6) d)))

/-- Type and payload of a received frame. It is addressed to this port or to a group, carries the port's tag exactly under
HP_CTL.VLAN, and has at most 9,216 bytes with its FCS. -/
def State.etherOf (s : State) (n : Nat) (f : Frame) : Option (Nat × List Byte) :=
  let l := f.bytes
  let tagged := s.bit (HP_CTL.VLAN n)
  let mine := beAt l 0 6 = s.rd (HP_MAC.MAC n) ∨ beAt l 0 1 % 2 = 1
  if 9212 < l.length ∨ ¬ mine then none
  else if tagged then
    if beAt l 12 2 = 0x8100 ∧ beAt l 14 2 % 4096 = s.rd (HP_CTL.VID n) then some (beAt l 16 2, l.drop 18) else none
  else some (beAt l 12 2, l.drop 14)

/-- The PTP multicast addresses (IEEE 1588: PRESUMED). -/
def ptpGroup (v6 : Bool) : Nat := if v6 then 0xFF0E0000000000000000000000000181 else 0xE0000181

/-- The port uses the address: its own of a version in use, or a PTP group's for PTP. -/
def State.takesIp (s : State) (n : Nat) (v6 : Bool) (dst port : Nat) : Bool :=
  (if v6 then s.ipv6 n != 0 && dst == s.ipv6 n else s.bit (HP_IPV4.VALID n) && dst == s.rd (HP_IPV4.ADDR n)) ||
    (dst == ptpGroup v6 && (port == 319 || port == 320))

/-- The datagram in a frame received on a host port; none where the frame is to be discarded. -/
def State.dgramOf (s : State) (n : Nat) (f : Frame) : Option Dgram :=
  match s.etherOf n f with
  | none => none
  | some e => match ipOf e.1 e.2 with
    | none => none
    | some i => match udpOf i.1 i.2.1 i.2.2.1 i.2.2.2 with
      | none => none
      | some d => if s.takesIp n i.1 i.2.2.1 d.near then some d else none

/-! WCP sessions (R363 to R372, R377). -/

/-- Session states (WCP_SESS.STATE). -/
def SessSt.free : Nat := 0
def SessSt.respSent : Nat := 1
def SessSt.opened : Nat := 2

def State.sess (s : State) (x : Nat) : Sess := tget (fun _ => {}) s.host.sessions x
def State.setSess (s : State) (x : Nat) (y : Sess) : State :=
  { s with host := { s.host with sessions := tset (fun _ => {}) s.host.sessions x y } }
def State.updSess (s : State) (x : Nat) (f : Sess → Sess) : State := s.setSess x (f (s.sess x))
def State.sessState (s : State) (x : Nat) : Nat := s.rd (WCP_SESS.STATE x)

/-- The nonce of a frame: IV XOR N, with N the number and bit 63 for ACK and CLOSE frames (R364). -/
def wcpNonce (iv : List Byte) (seq : Nat) (ack : Bool) : List Byte :=
  leBytes 12 (leNat iv ^^^ (seq % 2 ^ 32 + if ack then 2 ^ 63 else 0))

/-- Bytes 0 to 23 of a frame (R363). -/
def wcpHeader (type x dir seq cum sack clen : Nat) : List Byte :=
  leBytes 1 1 ++ leBytes 1 type ++ leBytes 1 x ++ leBytes 1 dir ++ leBytes 4 seq ++ leBytes 4 cum ++ leBytes 8 sack ++ leBytes 4 clen

/-- A sealed frame of the device (R364). -/
def Sess.seal (y : Sess) (type x seq cum sack : Nat) (plain : List Byte) : List Byte :=
  let h := wcpHeader type x 1 seq cum sack plain.length
  let r := Config.gcmSeal y.txKey (wcpNonce y.txIv seq (type != 0x10)) h plain
  h ++ r.1 ++ r.2

/-- The port a session's frames leave on: the one in use, or the other while that one is not UP (R366). -/
def State.sessPort (s : State) (x : Nat) : Nat :=
  let n := s.rd (WCP_SESS.PORT x)
  if s.rd (HP_STATUS.STATE n) = 3 then n else 1 - n

/-- A WCP frame of session `x` leaves for the host's address and port as the session last saw them (R366: DEDUCED). -/
def State.sendWcp (s : State) (x : Nat) (l : List Byte) : State :=
  let p := (s.sess x).peer
  s.sendUdp (s.sessPort x) ⟨p.1, p.2.1, p.2.2, s.rd WCP_CFG.UDP_PORT, l⟩

/-- The number at which the device closes a session (R365). -/
def seqLimit : Nat := 0xFFFF0000

/-- The window of 64 device capsules is full: the next number lies 64 or more above the oldest one not acknowledged (R370, R372). -/
def Sess.txFull (y : Sess) (next : Nat) : Bool :=
  match y.unacked with
  | [] => false
  | c :: _ => decide (c.seq + 64 ≤ next)

/-- Send a device capsule of session `x`, or queue it while the window of 64 is full (R372). -/
def State.sendCapsule (s : State) (x : Nat) (plain : List Byte) (drain : Option (Nat × Nat × Nat × Nat)) : State :=
  let y := s.sess x
  if s.sessState x ≠ SessSt.opened then s
  else if y.txFull (s.rd (WCP_SSEQ.TXNEXT x)) ∨ y.queue ≠ [] then s.setSess x { y with queue := y.queue ++ [(plain, drain)] }
  else
    let n := s.rd (WCP_SSEQ.TXNEXT x)
    let f := y.seal 0x10 x n 0 0 plain
    let s := s.setSess x { y with
      unacked := y.unacked ++ [⟨n, f, drain⟩]
      sentAt := if y.unacked = [] then s.clk else y.sentAt
      periods := if y.unacked = [] then 0 else y.periods }
    (s.wr (WCP_SSEQ.TXNEXT x) (n + 1)).sendWcp x f

/-- The inner header of a capsule (R373). -/
def innerHeader (kind ctx len addr tag job : Nat) : List Byte :=
  leBytes 8 (kind * 2 ^ 56 + ctx * 2 ^ 55 + job * 2 ^ 32 + len) ++ leBytes 8 addr ++ leBytes 8 0 ++ leBytes 8 tag

/-- Sessions that receive EVENT capsules. -/
def State.eventSessions (s : State) : List Nat :=
  (List.range 16).filter (fun x => s.sessState x == SessSt.opened && (s.rd (WCP_SESS.RIGHTS x)).testBit 3)

/-- The plaintext of an EVENT capsule: course time, context and job, and the information word (R377). -/
def eventPlain (e : Event) : List Byte :=
  innerHeader 0x20 0 24 e.code 0 0 ++ leBytes 8 e.ct ++ leBytes 8 (e.ctx * 2 ^ 32 + e.job) ++ leBytes 8 e.info

/-- Put an event in the ring of 256; a full ring drops its oldest and reports F_WCP_EVLOSS once per overflow (R377). -/
def State.ringEvent (s : State) (e : Event) : State :=
  let put (s : State) (e : Event) : State :=
    let l := (if s.host.events.length ≥ 256 then s.host.events.drop 1 else s.host.events) ++ [e]
    { s.wr WCP_STATUS.EVQ l.length with host := { s.host with events := l } }
  if s.host.events.length < 256 then put s e
  else
    let s1 := (put s e).addSat WCP_STATUS.EVLOST 1
    if s.host.evLossSeen then s1
    else put ({ s1 with host := { s1.host with evLossSeen := true } }.addSat WCP_STATUS.EVLOST 1 |>.wr WCP_STATUS.LAST_CODE F_WCP_EVLOSS)
      { e with code := F_WCP_EVLOSS, info := 0, ctx := 2, job := 0 }

/-- An event goes to every OPEN session that holds EVENT, or waits in the ring while there is none (R377). -/
def State.pushEvent (s : State) (e : Event) : State :=
  match s.eventSessions with
  | [] => s.ringEvent e
  | l => l.foldl (fun s x => s.sendCapsule x (eventPlain e) none) s

/-- The events of the ring go to a session that has just opened with EVENT. -/
def State.drainRing (s : State) (x : Nat) : State :=
  let l := s.host.events
  let s := { s.wr WCP_STATUS.EVQ 0 with host := { s.host with events := [], evLossSeen := false } }
  l.foldl (fun s e => s.sendCapsule x (eventPlain e) none) s

/-- A session goes to FREE: its keys and unacknowledged capsules are erased; capsules it has accepted stay (R366). -/
def State.freeSession (s : State) (x : Nat) : State :=
  let y := s.sess x
  let gone := (y.unacked.map (fun c => c.drain)) ++ (y.queue.map (fun c => c.2))
  let s := { s with host := { s.host with lost := s.host.lost ++ gone.filterMap id } }
  let s := s.setSess x { gen := y.gen, accepted := y.accepted, nextExec := y.nextExec, tagLap := y.tagLap }
  let s := s.setReg (WCP_SESS.STATE x).off 0
  let s := s.setReg (WCP_SSEQ.RXCUM x).off 0
  s.wr WCP_STATUS.OPEN (s.rd WCP_STATUS.OPEN - (s.rd WCP_STATUS.OPEN &&& 2 ^ x))

/-- A WCP code with no further effect (R378). -/
def State.wcpEvent (s : State) (code info : Nat) : State :=
  (s.wr WCP_STATUS.LAST_CODE code).pushEvent ⟨code, s.ct, 2, 0, info⟩

/-- A session whose capsule or ACK numbers have reached the limit is closed (R365). -/
def State.closeExhausted (s : State) : State :=
  (List.range 16).foldl (fun s x =>
    if s.sessState x = SessSt.opened ∧ (seqLimit ≤ s.rd (WCP_SSEQ.TXNEXT x) ∨ seqLimit ≤ (s.sess x).ackNext) then
      (s.freeSession x).wcpEvent F_WCP_SEQEXH x
    else s) s

/-- Report a code to the host and the fabric manager (R377): the subject's LAST_CODE, the trouble counter and an
event. `c` is the context, 2 where there is none. -/
def State.report (s : State) (code c info : Nat) : State :=
  let s := match lastCodeFld code with
    | some f => s.wr f code
    | none => s
  let s := if code = F_LKR_RINKUE then s.wr RINK_STATUS.LAST_CODE code else s
  let s := match troubleOf code with
    | some i => s.trouble i
    | none => s
  (s.pushEvent ⟨code, s.ct, c, if c < 2 then s.rd (CTX_JOB.JOB c) else 0, info⟩).closeExhausted

/-! Completion counters (R73). -/

/-- Counter `i` of context `c`. -/
def State.cc (s : State) (c i : Nat) : Nat := (tget (fun _ => (0 : BitVec 32)) (s.ctx c).cc i).toNat

/-- Set a counter. -/
def State.setCc (s : State) (c i v : Nat) : State :=
  s.updCtx c (fun x => { x with cc := tset (fun _ => (0 : BitVec 32)) x.cc i (BitVec.ofNat 32 v) })

/-- The counters of a context that this clk has changed (R73). -/
def State.ccNow (s : State) (c : Nat) : List (Nat × Nat × Option Nat) := if (s.ctx c).ccAt = s.clk then (s.ctx c).ccNow else []

/-- What this clk has done to a counter: the sum of its increments, and the rank of the write that stands. -/
def State.ccClk (s : State) (c i : Nat) : Nat × Option Nat :=
  match (s.ccNow c).find? (fun e => e.1 == i) with
  | some e => e.2
  | none => (0, none)

/-- A counter takes a value in this clk. -/
def State.putCc (s : State) (c i v : Nat) (now : Nat × Option Nat) : State :=
  let l := (i, now) :: (s.ccNow c).filter (fun e => e.1 != i)
  (s.setCc c i v).updCtx c (fun x => { x with ccNow := l, ccAt := s.clk })

/-- Increment a counter, modulo 2^32. -/
def State.addCc (s : State) (c i n : Nat) : State :=
  s.putCc c i (s.cc c i + n) ((s.ccClk c i).1 + n, (s.ccClk c i).2)

/-- Stream `k` writes a counter: of the writes of one clk that of the highest priority stands, and the clk's increments are added to
it (R73, R183). -/
def State.writeCc (s : State) (k c i v : Nat) : State :=
  let now := s.ccClk c i
  if now.2.any (fun r => decide (r < s.rank 50 k)) then s else s.putCc c i (v + now.1) (now.1, some (s.rank 50 k))

/-- A counter value reaches a target (R74). -/
def reaches (c t : Nat) : Bool := decide ((c + 2 ^ 32 - t % 2 ^ 32) % 2 ^ 32 < 2 ^ 31)

/-! Piste map (R319, R320). -/

/-- The physical chip of a logical chip: none where the entry is not VALID; LCHIP names this chip. -/
def State.physical (s : State) (c l : Nat) : Option Nat :=
  if l = s.rd (CTX_PISTE.LCHIP c) then some s.chipId
  else
    let e := (tget (fun _ => (0 : BitVec 16)) (s.ctx c).xlat l).toNat
    if e / 32768 = 1 then some (e % 16384) else none

/-- The batch epoch of a context's running step, if it has one. -/
def State.epoch (s : State) (c : Nat) : Option Nat := (s.ctx c).step.map (fun x => x.epoch)

/-- An epoch is in a context's cancel list (R171). -/
def State.cancelled (s : State) (c e : Nat) : Bool := (s.ctx c).cxl.any (fun x => x.1 == e)

/-- An epoch enters a context's cancel list: held once, newest first, at most 64 (R171). -/
def State.addCancel (s : State) (c e : Nat) : State :=
  s.updCtx c (fun x => if x.cxl.any (fun y => y.1 == e) then x else { x with cxl := ((e, s.lapNo) :: x.cxl).take 64 })

/-- Debug level 0 to 3 (SEC_STATE.DBG). -/
def State.dbg (s : State) : Nat := s.rd SEC_STATE.DBG

/-! Retiring an instruction (R57, R78, R422). -/

/-- Stream `k` retires its instruction and goes on at `pc`; a stream under DBG_STREAM step returns to BRK. -/
def State.retireTo (s : State) (k pc : Nat) : State :=
  let s := (s.wr (ENG_PC.PC k) pc).addMod (ENG_COUNT.RETIRED k) 1
  if (s.stream k).stepOne then (s.updStream k (fun x => { x with stepOne := false })).setEngState k EngSt.brk else s

/-- Stream `k` retires its instruction and goes on at the next word. -/
def State.retire (s : State) (k : Nat) : State := s.retireTo k (s.rd (ENG_PC.PC k) + 8)

/-- A memory operation whose instruction retires only when it completes (R77, R80); the others' rules let them retire at issue. -/
def MemKind.late : MemKind → Bool
  | .ld _ _ _ _ | .st _ | .vld _ _ _ | .vst _ | .xmov _ _ _ | .remote _ => true
  | _ => false

/-- The instructions of stream `k` that have issued and not retired, oldest first. -/
def State.unretired (s : State) (k : Nat) : List MemOp := (s.stream k).ops.filter (fun o => o.kind.late)

/-- What ENG_PC shows: the oldest instruction that has not retired (R89). The register itself holds the next one to issue. -/
def State.oldestPc (s : State) (k : Nat) : Nat :=
  match s.unretired k with
  | [] => s.rd (ENG_PC.PC k)
  | o :: _ => o.pc

/-- Stream `k` has issued its instruction as the latest memory operation and goes on at the next word; under DBG_STREAM step it waits
for that operation. -/
def State.sendOn (s : State) (k : Nat) : State :=
  let s := s.wr (ENG_PC.PC k) (s.rd (ENG_PC.PC k) + 8)
  if (s.stream k).stepOne then s.updStream k (fun x => { x with stepOne := false, stepOp := some (x.nextOp - 1) }) else s

/-- The instruction of a completed memory operation retires. -/
def State.retireOp (s : State) (k : Nat) (o : MemOp) : State :=
  let s := if o.kind.late then s.addMod (ENG_COUNT.RETIRED k) 1 else s
  if (s.stream k).stepOp = some o.id then (s.updStream k (fun x => { x with stepOp := none })).setEngState k EngSt.brk else s

/-! What a lap's repeatability record counts (R409, R417). -/

/-- Count an event of DBG_REPEAT: 0 EXTRA, 1 RETRY, 2 SAMPLE, 3 RWIN, 4 SS, 5 UNHELD. -/
def State.repeatEvent (s : State) (i n : Nat) : State :=
  { s with repeats := tset (fun _ => 0) s.repeats i (tget (fun _ => 0) s.repeats i + n) }

/-- A saturation event of level `n` in this clk: a clk counts once (R185). -/
def State.saturate (s : State) (n : Nat) : State :=
  let t := s.levels
  if tget (fun _ => 0) t (8 + n) = s.clk + 1 then s
  else { s with levels := tset (fun _ => 0) (tset (fun _ => 0) t n (tget (fun _ => 0) t n + 1)) (8 + n) (s.clk + 1) }

/-- Level `n` is saturated in this clk and the `k` - 1 that follow. -/
def State.saturateFor (s : State) (n k : Nat) : State :=
  let t := s.levels
  let more := if tget (fun _ => 0) t (8 + n) = s.clk + 1 then k - 1 else k
  { s with levels := tset (fun _ => 0) (tset (fun _ => 0) t n (tget (fun _ => 0) t n + more)) (8 + n) (s.clk + k) }

/-- The QUEUED count of level `n` is now `q`: the lap's largest is kept (R185). -/
def State.queued (s : State) (n q : Nat) : State :=
  { s with levels := tset (fun _ => 0) s.levels (4 + n) (max (tget (fun _ => 0) s.levels (4 + n)) q) }

/-- The stream of a record: 255, the chip, for one of the sampler. -/
def recordUnit (r : List Byte) : Byte := if (r.headD 0) = 2 then (r[2]?).getD 0 else 255

/-- A record's place in the queue: behind those of earlier clk, and of those of its own clk behind the ones of no higher stream. Its CT and
LCC tell its clk. -/
def insertRecord (r : List Byte) : List (List Byte) → List (List Byte)
  | [] => [r]
  | x :: l =>
    if (x.drop 8).take 12 = (r.drop 8).take 12 ∧ recordUnit r < recordUnit x then r :: x :: l else x :: insertRecord r l

/-- A record enters the telemetry queue of 64, in the order of its clk and its stream; a full queue drops it (R417). -/
def State.telPush (s : State) (r : List Byte) : State :=
  if s.telQueue.length < 64 then { s with telQueue := insertRecord r s.telQueue } else s.addSat TEL_STATUS.LOST 1

/-- A trace record of KIND `kind` for stream `k` (255 = the chip) and context `c` (R416). -/
def State.trace (s : State) (kind k c info : Nat) : State :=
  if s.bit TEL_CTL.TRACE ∧ 2 ≤ s.dbg ∧ bitsOf (s.rd TEL_EVMASK.KINDS) (kind - 1) (kind - 1) = 1 then
    s.telPush (leBytes 1 2 ++ leBytes 1 kind ++ leBytes 1 k ++ leBytes 1 c ++ leBytes 4 info ++ leBytes 8 s.ct ++
      leBytes 4 s.lcc ++ leBytes 12 0)
  else s

end Sys2Proof.Machine
end

