-- ==== Sys2Proof/Machine/Ecc.lean ====
section
/-!
DEFINITION. The arrays' check bits and what reads find: the Rink's banks and arbitration (R176, R177, R184), and the LPDDR channels:
addresses, inline ECC and the bursts of a request (R205 to R212).
-/

namespace Sys2Proof.Machine

/-! The Rink. -/

/-- Bank, row and byte of a Rink offset (R176). -/
def rinkBank (a : Nat) : Nat :=
  let l := a / 512
  bitsOf l 4 0 ^^^ bitsOf l 9 5 ^^^ bitsOf l 14 10 ^^^ bitsOf l 19 15
def rinkRow (a : Nat) : Nat := bitsOf a 28 14
def rinkByte (a : Nat) : Nat := bitsOf a 8 0

/-- Rink port of a stream (R181). -/
def rinkPort (k : Nat) : Nat := if k < 40 then k else if k < 48 then 40 + (k - 40) / 2 else 44

/-- Rink port of a fabric port's die: rail A is even (R181). -/
def fabricPort (n : Nat) : Nat := 47 + n % 2

/-- Accesses that a port may present in one clk (R181). -/
def portWidth (p : Nat) : Nat := if 45 ≤ p ∧ p ≤ 48 then 4 else 1

/-- A port presents its accesses to `n` bytes at `a`: one to each 512-byte line. -/
def State.present (s : State) (p a n : Nat) : State :=
  if n = 0 then s
  else
    let t := { s with rinkQ := s.rinkQ ++
      (List.range ((a + n - 1) / 512 - a / 512 + 1)).map (fun i => (p, rinkBank ((a / 512 + i) * 512), s.clk)) }
    t.queued 1 t.rinkQ.length

/-- A port's turn in one clk, oldest access first: what stays pending, the banks taken, and the port's grants. An older access that finds
its bank taken leaves none to a younger one. -/
def grantPort (width p : Nat) : List (Nat × Nat × Nat) → List Nat → Nat → List (Nat × Nat × Nat) × List Nat × Nat
  | [], used, n => ([], used, n)
  | x :: l, used, n =>
    if x.1 = p ∧ n < width ∧ ¬ used.contains x.2.1 then grantPort width p l (x.2.1 :: used) (n + 1)
    else
      let r := grantPort width p l used n
      (x :: r.1, r.2)

/-- The arbiter's clk with the given LCC and number (R184). What stays pending was refused in this clk: the ports count it, and a first refusal saturates level 1. -/
def State.rinkClk (s : State) (lcc clk : Nat) : State :=
  if s.rinkQ = [] then s
  else
    let order := if lcc % 65536 = 65535 then [] else (List.range 52).map (fun i => (lcc % 52 + i) % 52)
    let r := order.foldl (fun (x : List (Nat × Nat × Nat) × List Nat × List (Nat × Nat)) p =>
      let y := grantPort (portWidth p) p x.1 x.2.1 0
      (y.1, y.2.1, if y.2.2 = 0 then x.2.2 else (p, y.2.2) :: x.2.2)) (s.rinkQ, [], [])
    let s := r.2.2.foldl (fun s e => s.addMod (RINK_PORT.GRANTS e.1) e.2) { s with rinkQ := r.1 }
    let s := ((r.1.map (fun x => x.1)).eraseDups).foldl (fun s p => s.addSat (RINK_PORT.DENY_CLK p) 1) s
    if r.1.any (fun x => x.2.2 == clk) then s.saturate 1 else s

/-- The arbiter's next `n` clk, at most; it rests once nothing is pending. -/
def State.rinkRun (s : State) : Nat → Nat → State
  | 0, _ => s
  | n + 1, i => (s.rinkClk (s.lcc + i) (s.clk + i)).rinkRun n (i + 1)

/-- An error of the Rink is recorded: the latest one stands. -/
def State.rinkErrAt (s : State) (word ue : Nat) : State :=
  ((s.wr RINK_ERRADDR.VALID 1).wr RINK_ERRADDR.UE ue).wr RINK_ERRADDR.ADDR (16 * word)

/-- Words in error among `n` bytes of the Rink at `a`. -/
def State.rinkErrs (s : State) (a n : Nat) : List (Nat × Nat) := s.rinkErr.filter (fun e => decide (a < 16 * e.1 + 16) && decide (16 * e.1 < a + n))

/-- A read of `n` bytes of the Rink meets an uncorrectable word. -/
def State.rinkBad (s : State) (a n : Nat) : Bool := (s.rinkErrs a n).any (fun e => e.2 == 2)

/-- A read of the Rink checks its words (R177): corrected ones count, and so does each 512-byte access with an uncorrectable one.
`tell` where no stream reads, which is reported to the host only. -/
def State.rinkRead (s : State) (a n : Nat) (tell : Bool) : State :=
  let l := s.rinkErrs a n
  let s := (l.filter (fun e => e.2 == 1)).foldl (fun s e => ((s.addSat RINK_ECC.CE 1).lapFlag 7).rinkErrAt e.1 0) s
  let bad := (l.filter (fun e => e.2 == 2)).map (fun e => e.1)
  let first := bad.filter (fun w => ! bad.any (fun v => decide (v < w) && v / 32 == w / 32))
  first.foldl (fun s w =>
    let s := (s.addSat RINK_ECC.UE 1).rinkErrAt w 1
    if tell then s.report F_LKR_RINKUE 2 0 else s.wr RINK_STATUS.LAST_CODE F_LKR_RINKUE) s

/-- An upset of a word of the Rink. -/
def State.rinkUpset (s : State) (e : RinkError) : State :=
  let w := e.addr.toNat / 16
  let old := tget (fun _ => 0) s.rinkErr w
  { s with rinkErr := tset (fun _ => 0) s.rinkErr w (if e.uncorrectable then 2 else max old 1) }

/-! LPDDR addresses (R205, R206). -/

/-- ECC line of a local address, the line's index within its channel, and the block within the line. -/
def lineOf (a : Nat) : Nat := a / 64 / 31
def lineIdx (a : Nat) : Nat := lineOf a / 192
def blockIdx (a : Nat) : Nat := a / 64 % 31

/-- Row of a line, and its pair of banks, by the line's index within its channel. -/
def lineRow (q : Nat) : Nat := bitsOf q 20 3
def linePair (q : Nat) : Nat := bitsOf q 2 0 ^^^ bitsOf (lineRow q) 2 0

/-- Bank of page 0 or 1 of a line: 4 * bank group + bank. -/
def pageBank (q pg : Nat) : Nat := 4 * (2 * (linePair q % 2) + pg) + linePair q / 2

/-- Page of a block of a line, and its first byte in that page. -/
def blockPage (b : Nat) : Nat := b / 16
def blockByte (b : Nat) : Nat := 64 * (b % 16)

/-- Local address of block `b` of the line with channel-local index `q` on device channel `ch`. -/
def addrOf (ch q b : Nat) : Nat :=
  let h := bitsOf q 5 0 ^^^ bitsOf q 11 6 ^^^ bitsOf q 17 12 ^^^ bitsOf q 20 18
  let r := (ch % 64 ^^^ h) + 64 * ((ch / 64 + 3 - q % 3) % 3)
  ((q * 192 + r) * 31 + b) * 64

/-! Bursts (R208). -/

/-- The four data bursts of a block. -/
def dataBursts (kind q b : Nat) : List Burst :=
  (List.range 4).map (fun i => ⟨kind, pageBank q (blockPage b), lineRow q, blockByte b + 16 * i⟩)

/-- A burst for each check granule that the codes of `j` blocks from block `b` touch: block `b`'s code lies at bytes 960 + 2b of page 1. -/
def checkBursts (kind q b j : Nat) : List Burst :=
  if j = 0 then []
  else (List.range ((b + j - 1) / 8 - b / 8 + 1)).map (fun i => ⟨kind, pageBank q 1, lineRow q, 960 + 16 * (b / 8 + i)⟩)

/-- A read of `j` blocks of a line, from block `b`. -/
def readBursts (q b j : Nat) : List Burst := (List.range j).flatMap (fun i => dataBursts 0 q (b + i)) ++ checkBursts 0 q b j

/-- A write of `j` whole blocks of a line. -/
def writeBursts (q b j : Nat) : List Burst := (List.range j).flatMap (fun i => dataBursts 1 q (b + i)) ++ checkBursts 2 q b j

/-- A write of bytes [lo, hi) of a block: the block and its check granule are read, then the changed granules and the code written. -/
def partBursts (q b lo hi : Nat) : List Burst :=
  readBursts q b 1 ++ (dataBursts 1 q b).filter (fun x => decide (lo < x.byte % 64 + 16) && decide (x.byte % 64 < hi)) ++ checkBursts 2 q b 1

/-- The part of [a, a + n) that lies in line `l`: first block, number of blocks, and the bytes of the line's range. -/
def lineBlocks (a n l : Nat) : Nat × Nat × Nat × Nat :=
  let lo := max a (1984 * l)
  let hi := min (a + n) (1984 * l + 1984)
  (lo / 64 % 31, (hi - 1) / 64 - lo / 64 + 1, lo, hi)

/-- The bursts of a request to the part of [a, a + n) in one line. -/
def lineBursts (write : Bool) (a n l : Nat) : List Burst :=
  let q := l / 192
  let x := lineBlocks a n l
  if ¬ write then readBursts q x.1 x.2.1
  else
    let whole := (List.range x.2.1).filter (fun i => decide (x.2.2.1 ≤ 64 * (31 * l + x.1 + i)) && decide (64 * (31 * l + x.1 + i) + 64 ≤ x.2.2.2))
    let part := (List.range x.2.1).filter (fun i => ! whole.contains i)
    part.flatMap (fun i =>
      let base := 64 * (31 * l + x.1 + i)
      partBursts q (x.1 + i) (x.2.2.1 - base) (min 64 (x.2.2.2 - base))) ++
    (match whole with
     | [] => []
     | i :: _ => writeBursts q (x.1 + i) whole.length)

/-- The lines of a range. -/
def linesOf (a n : Nat) : List Nat := if n = 0 then [] else (List.range (lineOf (a + n - 1) - lineOf a + 1)).map (fun i => lineOf a + i)

/-! Inline ECC (R207, R209). -/

/-- The check value of block `n` with the given bytes. -/
def checkValue (n : Nat) (l : List Byte) : Nat := (crc16 (leBytes 8 n ++ l)).toNat

/-- A block with bits of its code word flipped: the data, and the check value. -/
def flipData (f : List Nat) (l : List Byte) : List Byte :=
  f.foldl (fun l k => if k < 16 then l
    else
      let i := 63 - (k - 16) / 8
      l.set i ((l[i]?).getD 0 ^^^ BitVec.ofNat 8 (2 ^ ((k - 16) % 8)))) l
def flipCheck (f : List Nat) (c : Nat) : Nat := f.foldl (fun c k => if k < 16 then c ^^^ 2 ^ k else c) c

/-- The bits of a block that are held wrong. -/
def State.flipsOf (s : State) (n : Nat) : List Nat := tget (fun _ => []) s.flips n

/-- The syndrome of a block whose array holds the bits `f` wrong: the check value of the stored bytes against the stored one. -/
def State.syndromeOf (s : State) (n : Nat) (f : List Nat) : Nat :=
  let l := s.memBytes (64 * n) 64
  checkValue n (flipData f l) ^^^ flipCheck f (checkValue n l)

/-- The place of the bit whose error gives a syndrome, among `fuel` places from place `k`, whose own syndrome is `r`. -/
def bitFrom : Nat → Nat → BitVec 16 → BitVec 16 → Option Nat
  | 0, _, _, _ => none
  | fuel + 1, k, r, syn => if r = syn then some k else bitFrom fuel (k + 1) (crc16Bit r) syn

/-- The single bit of a code word that a syndrome points to. -/
def singleBit (syn : Nat) : Option Nat := bitFrom 528 0 1#16 (BitVec.ofNat 16 syn)

/-- Bits of a block are upset. A pattern that the code does not see, or takes for another single bit, changes what reads return. -/
def State.memUpset (s : State) (u : Upset) : State :=
  let n := u.addr.toNat / 64
  let f := (u.bits.map (fun b => b.toNat)).foldl (fun f k => if 528 ≤ k then f else if f.contains k then f.erase k else k :: f) (s.flipsOf n)
  let l := flipData f (s.memBytes (64 * n) 64)
  let put (s : State) (f : List Nat) : State := { s with flips := tset (fun _ => []) s.flips n f }
  let syn := s.syndromeOf n f
  if syn = 0 then put { s with lpddr := tsetMany zeroByte s.lpddr (64 * n) l } []
  else match singleBit syn with
    | some k => put { s with lpddr := tsetMany zeroByte s.lpddr (64 * n) (flipData [k] l) } [k]
    | none => put s f

/-- The upsets of a command are in place for it and for every later read. -/
def State.upset (s : State) (u : Upsets) : State := u.mem.foldl (fun s x => s.memUpset x) (u.rink.foldl (fun s x => s.rinkUpset x) s)

/-! The memory controllers' counts (R209, R210). -/

/-- Usable bytes of a chip's LPDDR (R205). -/
def memBytesUsable : Nat := 744 * 2 ^ 30

def State.mem (s : State) (m : Nat) : MemCtl := tget (fun _ => {}) s.mems m
def State.setMemCtl (s : State) (m : Nat) (x : MemCtl) : State := { s with mems := tset (fun _ => {}) s.mems m x }
def State.updMem (s : State) (m : Nat) (f : MemCtl → MemCtl) : State := s.setMemCtl m (f (s.mem m))

/-- A code of the memory subject (R226). -/
def State.memReport (s : State) (m code : Nat) : State := (s.wr (MEM_STATUS.LAST_CODE m) code).report code 2 m

/-- MEM_ERRADDR takes a block. -/
def State.memErrAt (s : State) (n ue syn : Nat) : State :=
  let ch := channelOf (64 * n)
  let m := ch / 16
  ((((s.wr (MEM_ERRADDR.VALID m) 1).wr (MEM_ERRADDR.UE m) ue).wr (MEM_ERRADDR.CH m) (ch % 16)).wr (MEM_ERRADDR.SYNDROME m) syn).wr
    (MEM_ERRADDR.ADDR m) n

/-- A corrected error in block `n`. -/
def State.memCorrected (s : State) (n : Nat) : State :=
  let ch := channelOf (64 * n)
  let m := ch / 16
  let k := ch % 16
  let s := s.addSat (MEM_ECC.CE m) 1
  let ce := tget (fun _ => 0) (s.mem m).ce k + 1
  let s := s.updMem m (fun x => { x with ce := tset (fun _ => 0) x.ce k ce })
  let s := if s.bit (MEM_ERRADDR.VALID m) then s else s.memErrAt n 0 (s.syndromeOf n (s.flipsOf n))
  if ce = s.rd (MEM_CTL.CE_LIMIT m) + 1 then s.memReport m F_MEM_CEHIGH else s

/-- An uncorrectable error in block `n`; `tell` where its reader is no stream. -/
def State.memUncorrectable (s : State) (n : Nat) (tell : Bool) : State :=
  let m := channelOf (64 * n) / 16
  let s := (s.addSat (MEM_ECC.UE m) 1).memErrAt n 1 (s.syndromeOf n (s.flipsOf n))
  if tell then s.memReport m F_MEM_UE else s.wr (MEM_STATUS.LAST_CODE m) F_MEM_UE

/-- Blocks in error among `n` bytes of LPDDR at `a`. -/
def State.memErrs (s : State) (a n : Nat) : List (Nat × List Nat) :=
  s.flips.filter (fun e => decide (a < 64 * e.1 + 64) && decide (64 * e.1 < a + n))

/-- A read of `n` bytes of LPDDR meets an uncorrectable block. -/
def State.memBad (s : State) (a n : Nat) : Bool := (s.memErrs a n).any (fun e => e.2.length != 1)

/-- A read of LPDDR checks each block that it returns (R209). -/
def State.memRead (s : State) (a n : Nat) (tell : Bool) : State :=
  (s.memErrs a n).foldl (fun s e => if e.2.length = 1 then s.memCorrected e.1 else s.memUncorrectable e.1 tell) s

/-! A read of stream `k` or of a fixed-function block. -/

/-- The code that a read of `n` bytes at an offset of a space meets (R177, R209). -/
def State.badCode (s : State) (sp a n : Nat) : Option Nat :=
  if sp = 1 ∧ s.rinkBad a n then some F_LKR_RINKUE else if sp = 2 ∧ s.memBad a n then some F_MEM_UE else none

/-- A read through Rink port `p` checks what it reads; `tell` where no stream reads. An access to a cluster store is noted for its level. -/
def State.checkRead (s : State) (p sp a n : Nat) (tell : Bool) : State :=
  if sp = 0 then { s with levels := tset (fun _ => 0) s.levels 12 1 }
  else if sp = 1 then (s.present p a n).rinkRead a n tell else if sp = 2 then s.memRead a n tell else s

/-! What a channel serves (R213 to R218, R221, R223). -/

/-- Memory controller states (MEM_STATUS.STATE, R222). -/
def MemSt.off : Nat := 0
def MemSt.training : Nat := 1
def MemSt.zeroing : Nat := 2
def MemSt.held : Nat := 3
def MemSt.run : Nat := 4
def MemSt.discarded : Nat := 5
def MemSt.selfref : Nat := 6
def MemSt.failed : Nat := 7

def State.memState (s : State) (m : Nat) : Nat := s.rd (MEM_STATUS.STATE m)

/-- A channel is in service. -/
def State.channelOn (s : State) (m k : Nat) : Bool := s.memState m == MemSt.run && ! s.bit (MEM_CH.FAILED m k)

/-- The channel of a local address takes requests: its controller is in RUN and it has not failed (R221, R223). -/
def State.channelReady (s : State) (a : Nat) : Bool := s.channelOn (channelOf a / 16) (channelOf a % 16)

/-- Base refresh interval RS in strides. -/
def State.refreshRs (s : State) : Nat := 488 * 2 ^ 20 / (s.rd LAP_CFG.PERIOD_US * 1000)

/-- Strides since the stride of the channel's last base refresh. -/
def State.sinceRefresh (s : State) (k : Nat) : Nat :=
  let rs := s.refreshRs
  (s.stride + rs * 16 - k) % rs

/-- A base refresh of this stride is still to be issued on a channel. -/
def State.refreshDue (s : State) (m k : Nat) : Bool :=
  s.rd LAP_STATUS.STATE != LapSt.stopped && s.sinceRefresh k == 0 && tget (fun _ => 0) (s.mem m).refreshed k != s.ct + 1

/-- A scrub starts on channel `k` in this stride (R216). -/
def State.scrubHere (s : State) (m k : Nat) : Bool :=
  let r := s.rd (MEM_CTL.SCRUB_RATE m)
  s.rd LAP_STATUS.STATE != LapSt.stopped && (List.range r).any (fun i => s.stride == 2 ^ 20 * i / r + 4096 * k)

/-- It is still to start. -/
def State.scrubDue (s : State) (m k : Nat) : Bool := s.scrubHere m k && tget (fun _ => 0) (s.mem m).scrubbed k != s.ct + 1

/-- A retraining step holds a channel (R218). -/
def State.stepHolds (s : State) (m k : Nat) : Bool := decide (s.clk < (s.mem m).stepEnd) && (s.mem m).stepCh == k

/-- Refresh management is in use, with the activation count from which a bank needs it (R204, R214). -/
def State.rfmAt (s : State) (m : Nat) : Option Nat := if s.bit (MEM_CTL.RFM_EN m) then (s.mem m).rfm else none

/-- A bank is to receive an RFM command before its next activate (R214). -/
def State.rfmDue (s : State) (m k bank : Nat) : Bool :=
  (s.rfmAt m).any (fun t => decide (t ≤ tget (fun _ => 0) (s.mem m).acts (16 * k + bank)))

/-- A channel serves a demand request to a local address now: refresh, retraining and scrub come first (R217), and so does an RFM
command to a bank of the address's line. -/
def State.channelOpen (s : State) (a : Nat) : Bool :=
  let m := channelOf a / 16
  let k := channelOf a % 16
  s.channelReady a && ! s.refreshDue m k && ! s.stepHolds m k && ! s.scrubDue m k && ! s.rfmDue m k (pageBank (lineIdx a) 1) &&
    ! s.rfmDue m k (pageBank (lineIdx a) 0)

/-- So it is for every line of a range. -/
def State.rangeOpen (s : State) (a n : Nat) : Bool := (linesOf a n).all (fun l => s.channelOpen (1984 * l))

/-- Ranges (space, offset, bytes) that their channels serve now. -/
def State.servesAll (s : State) (l : List (Nat × Nat × Nat)) : Bool := l.all (fun x => x.1 != 2 || s.rangeOpen x.2.1 x.2.2)

/-- The code that a read of several ranges meets: the lowest (R79). -/
def State.badAll (s : State) (l : List (Nat × Nat × Nat)) : Option Nat :=
  let cs := l.filterMap (fun x => s.badCode x.1 x.2.1 x.2.2)
  if cs.contains F_LKR_RINKUE then some F_LKR_RINKUE else cs.head?

/-- A stream presents a write to a space. -/
def State.presentWrite (s : State) (k sp a n : Nat) : State :=
  if sp = 0 then { s with levels := tset (fun _ => 0) s.levels 12 1 } else if sp = 1 then s.present (rinkPort k) a n else s

end Sys2Proof.Machine
end

