-- ==== Sys2Proof/Machine/Flags.lean ====
section
/-!
DEFINITION. Number formats, rounding and the numeric flags (R92 to R97, R100, R102, R105, R107). A finite value is a
sign, a magnitude m and an exponent e, for m * 2^e; every operation forms the exact result and rounds it once.
-/

namespace Sys2Proof.Machine

/-! Flags of NUM_FLAGS (R107, R123). -/

def NF.nv : Nat := 1
def NF.dz : Nat := 2
def NF.of : Nat := 4
def NF.uf : Nat := 8
def NF.nx : Nat := 16
def NF.loss : Nat := 32
def NF.xovf : Nat := 64

/-- A floating-point format (R93): significand bits with the hidden one, exponent of the smallest normal, the largest
finite magnitude as mag * 2^exp, whether it has infinities, its NaN if it has one, and its width in bits. -/
structure Fmt where
  p : Nat
  emin : Int
  maxM : Nat
  maxE : Int
  hasInf : Bool
  nan : Option Nat
  width : Nat
  deriving DecidableEq, Repr

def fmtFp32 : Fmt := ⟨24, -126, 2 ^ 24 - 1, 104, true, some 0x7FC00000, 32⟩
def fmtBf16 : Fmt := ⟨8, -126, 255, 120, true, some 0x7FC0, 16⟩
def fmtE4m3 : Fmt := ⟨4, -6, 14, 5, false, some 0x7F, 8⟩
def fmtE5m2 : Fmt := ⟨3, -14, 7, 13, true, some 0x7E, 8⟩
def fmtE2m3 : Fmt := ⟨4, 0, 15, -1, false, none, 6⟩
def fmtE3m2 : Fmt := ⟨3, -2, 7, 2, false, none, 6⟩
def fmtE2m1 : Fmt := ⟨2, 0, 3, 1, false, none, 4⟩

/-- The floating-point layout of a format code, plain or MX (R92); none for INT8, MXINT8, XP64 and the reserved code. -/
def fmtOf (code : Nat) : Option Fmt :=
  if code = 0 then some fmtFp32
  else if code = 1 then some fmtBf16
  else if code = 2 ∨ code = 8 then some fmtE4m3
  else if code = 3 ∨ code = 9 then some fmtE5m2
  else if code = 4 ∨ code = 10 then some fmtE2m3
  else if code = 5 ∨ code = 11 then some fmtE3m2
  else if code = 6 ∨ code = 12 then some fmtE2m1
  else none

/-- A format with a block scale. -/
def isMx (code : Nat) : Bool := decide (8 ≤ code) && decide (code ≤ 13)

/-- Bits of an element (R92). -/
def elemBits (code : Nat) : Nat :=
  if code = 0 then 32 else if code = 1 then 16
  else if code = 4 ∨ code = 5 ∨ code = 10 ∨ code = 11 then 6
  else if code = 6 ∨ code = 12 then 4
  else if code = 14 then 64 else 8

/-- A value: NaN, an infinity with its sign, or a finite value. -/
inductive FVal where
  | nan
  | inf (neg : Bool)
  | fin (neg : Bool) (m : Nat) (e : Int)
  deriving DecidableEq, Repr

/-- Exponent of the least significant bit of a format. -/
def Fmt.qmin (f : Fmt) : Int := f.emin - (f.p - 1 : Nat)

/-- Bits of the magnitude of a format. -/
def Fmt.magBits (f : Fmt) : Nat := f.width - 1

/-- The value of an element's bits. -/
def Fmt.decode (f : Fmt) (b : Nat) : FVal :=
  let neg := b.testBit f.magBits
  let mag := b % 2 ^ f.magBits
  let ex := mag / 2 ^ (f.p - 1)
  let fr := mag % 2 ^ (f.p - 1)
  let top := 2 ^ (f.magBits - (f.p - 1)) - 1
  if f.hasInf ∧ ex = top then (if fr = 0 then .inf neg else .nan)
  else if ¬ f.hasInf ∧ f.nan = some mag then .nan
  else if ex = 0 then .fin neg fr f.qmin
  else .fin neg (fr + 2 ^ (f.p - 1)) (f.qmin + (ex - 1 : Nat))

/-- The NaN that the device writes; a format without one has none. -/
def Fmt.nanBits (f : Fmt) : Nat := f.nan.getD 0

def Fmt.sign (f : Fmt) (neg : Bool) : Nat := if neg then 2 ^ f.magBits else 0

/-- Bits of the infinity of a format. -/
def Fmt.infBits (f : Fmt) (neg : Bool) : Nat :=
  f.sign neg + (2 ^ (f.magBits - (f.p - 1)) - 1) * 2 ^ (f.p - 1)

/-- Bits of n * 2^q, for n below 2^p or a carry out of it. -/
def Fmt.encode (f : Fmt) (neg : Bool) (n : Nat) (q : Int) : Nat := f.sign neg + (q - f.qmin).toNat * 2 ^ (f.p - 1) + n

def Fmt.maxBits (f : Fmt) (neg : Bool) : Nat := f.encode neg f.maxM f.maxE

/-! Rounding (R97). -/

/-- Round a magnitude between m * 2^e and (m + 1) * 2^e (exactly m * 2^e unless `sticky`) to a multiple of 2^q: the
multiple, and whether it is inexact. RND 0 nearest even, 1 toward zero, 2 toward -inf, 3 toward +inf. -/
def roundAt (rnd : Nat) (neg : Bool) (m : Nat) (e : Int) (sticky : Bool) (q : Int) : Nat × Bool :=
  if q ≤ e then (m * 2 ^ (e - q).toNat + (if (rnd = 2 ∧ neg ∨ rnd = 3 ∧ ¬ neg) ∧ sticky then 1 else 0), sticky)
  else
    let d := (q - e).toNat
    let n := m / 2 ^ d
    let r := m % 2 ^ d
    let half := 2 ^ (d - 1)
    let inexact := r ≠ 0 ∨ sticky
    let up := if rnd = 0 then half < r ∨ (r = half ∧ (sticky ∨ n % 2 = 1))
      else if rnd = 2 then neg ∧ inexact else if rnd = 3 then ¬ neg ∧ inexact else False
    (if up then n + 1 else n, inexact)

/-- Compare m * 2^e with n * 2^f. -/
def magLt (m : Nat) (e : Int) (n : Nat) (f : Int) : Bool :=
  decide (m * 2 ^ (e - min e f).toNat < n * 2 ^ (f - min e f).toNat)

def flagIf (b : Bool) (f : Nat) : Nat := if b then f else 0

/-- The result of an overflow: its bits and flags (R97). -/
def Fmt.overflow (f : Fmt) (sat neg : Bool) : Nat × Nat :=
  if sat then (f.maxBits neg, NF.of + NF.nx)
  else if f.hasInf then (f.infBits neg, NF.of + NF.nx)
  else match f.nan with
    | some n => (n, NF.nv + NF.of + NF.nx)
    | none => (f.maxBits neg, NF.of + NF.nx)

/-- Round a non-zero exact magnitude to a format: bits and flags (R97, R107). -/
def Fmt.round (f : Fmt) (rnd : Nat) (sat neg : Bool) (m : Nat) (e : Int) (sticky : Bool) : Nat × Nat :=
  let q0 : Int := (Nat.log2 m : Int) + e - (f.p - 1 : Nat)
  let q := max q0 f.qmin
  let (n, nx) := roundAt rnd neg m e sticky q
  if magLt f.maxM f.maxE n q then f.overflow sat neg
  else
    let tiny := magLt (roundAt rnd neg m e sticky q0).1 q0 1 f.emin
    (f.encode neg n q, flagIf nx NF.nx + flagIf (nx && tiny) NF.uf)

/-- Convert a value to a floating-point format (R97). -/
def Fmt.ofVal (f : Fmt) (rnd : Nat) (sat : Bool) (v : FVal) : Nat × Nat :=
  match v with
  | .nan => match f.nan with
    | some n => (n, 0)
    | none => (f.maxBits false, NF.nv)
  | .inf neg =>
    if f.hasInf then (if sat then (f.maxBits neg, 0) else (f.infBits neg, 0))
    else match f.nan with
      | some n => if sat then (f.maxBits neg, NF.of) else (n, NF.nv + NF.of)
      | none => (f.maxBits neg, NF.of)
  | .fin neg m e => if m = 0 then (f.sign neg, 0) else f.round rnd sat neg m e false

/-- Convert a value to an 8-bit integer of unit 2^unit: INT8 (0) or an MXINT8 element (-6). -/
def intOfVal (unit : Int) (rnd : Nat) (v : FVal) : Nat × Nat :=
  let sat (neg : Bool) : Nat := if neg then 0x80 else 0x7F
  match v with
  | .nan => (0, NF.nv)
  | .inf neg => (sat neg, NF.of)
  | .fin neg m e =>
    if m = 0 then (0, 0)
    else
      let (n, nx) := roundAt rnd neg m e false unit
      if (if neg then 128 else 127) < n then (sat neg, NF.of + NF.nx)
      else
        let b := if neg then (256 - n) % 256 else n
        (b, flagIf nx NF.nx + flagIf (nx && magLt m e 1 unit) NF.uf)

/-- Convert to an element of a format code below XP64. -/
def elemOf (code rnd : Nat) (sat : Bool) (v : FVal) : Nat × Nat :=
  match fmtOf code with
  | some f => f.ofVal rnd sat v
  | none => intOfVal (if code = 7 then 0 else -6) rnd v

/-- Value of an element of a format code below XP64, before its block scale. -/
def elemVal (code b : Nat) : FVal :=
  match fmtOf code with
  | some f => f.decode b
  | none =>
    let n := signed 8 b
    .fin (decide (n < 0)) n.natAbs (if code = 7 then 0 else -6)

/-- A value times 2^k. -/
def FVal.scale (v : FVal) (k : Int) : FVal :=
  match v with
  | .fin neg m e => .fin neg m (e + k)
  | _ => v

/-! FP32 operations. -/

def f32 (b : Nat) : FVal := fmtFp32.decode b
def f32Nan : Nat := 0x7FC00000
def f32Of (rnd : Nat) (v : FVal) : Nat × Nat := fmtFp32.ofVal rnd false v

/-- The exact sum of two finite values; a zero sum of unlike signs is +0, or -0 toward -inf. -/
def exactAdd (rnd : Nat) (na : Bool) (ma : Nat) (ea : Int) (nb : Bool) (mb : Nat) (eb : Int) : FVal :=
  let e := min ea eb
  let x : Int := (ma * 2 ^ (ea - e).toNat : Nat)
  let y : Int := (mb * 2 ^ (eb - e).toNat : Nat)
  let t := (if na then -x else x) + (if nb then -y else y)
  if t = 0 then .fin (if na = nb then na else rnd == 2) 0 e else .fin (decide (t < 0)) t.natAbs e

/-- A signed multiple of 2^e as a value. -/
def intVal (t : Int) (e : Int) : FVal := .fin (decide (t < 0)) t.natAbs e

/-- The exact sum of two values, and the flags of forming it. -/
def valAdd (rnd : Nat) (a b : FVal) : FVal × Nat :=
  match a, b with
  | .nan, _ => (.nan, 0)
  | _, .nan => (.nan, 0)
  | .inf x, .inf y => if x = y then (.inf x, 0) else (.nan, NF.nv)
  | .inf x, _ => (.inf x, 0)
  | _, .inf y => (.inf y, 0)
  | .fin na ma ea, .fin nb mb eb => (exactAdd rnd na ma ea nb mb eb, 0)

/-- The exact product of two values, and the flags of forming it. -/
def valMul (a b : FVal) : FVal × Nat :=
  match a, b with
  | .nan, _ => (.nan, 0)
  | _, .nan => (.nan, 0)
  | .inf x, .inf y => (.inf (x != y), 0)
  | .inf x, .fin y m _ => if m = 0 then (.nan, NF.nv) else (.inf (x != y), 0)
  | .fin x m _, .inf y => if m = 0 then (.nan, NF.nv) else (.inf (x != y), 0)
  | .fin na ma ea, .fin nb mb eb => (.fin (na != nb) (ma * mb) (ea + eb), 0)

/-- Round a value to FP32, with the flags of forming it. -/
def f32Round (rnd : Nat) (v : FVal × Nat) : Nat × Nat :=
  let r := f32Of rnd v.1
  (r.1, r.2 ||| v.2)

def FVal.neg (v : FVal) : FVal :=
  match v with
  | .nan => .nan
  | .inf x => .inf (! x)
  | .fin x m e => .fin (! x) m e

def f32Add (rnd a b : Nat) : Nat × Nat := f32Round rnd (valAdd rnd (f32 a) (f32 b))
def f32Sub (rnd a b : Nat) : Nat × Nat := f32Round rnd (valAdd rnd (f32 a) (f32 b).neg)
def f32Mul (rnd a b : Nat) : Nat × Nat := f32Round rnd (valMul (f32 a) (f32 b))

/-- a * b + c with one rounding. A NaN addend makes the result NaN and no flag. -/
def f32Fma (rnd a b c : Nat) : Nat × Nat :=
  if f32 c = .nan then (f32Nan, 0)
  else
    let m := valMul (f32 a) (f32 b)
    let r := valAdd rnd m.1 (f32 c)
    f32Round rnd (r.1, r.2 ||| m.2)

/-- A total order's key on values that are not NaN: -0 below +0. -/
def f32Key (a : Nat) : Int := if a.testBit 31 then -((a % 2 ^ 31 : Nat) : Int) - 1 else (a : Int)

def f32Min (a b : Nat) : Nat × Nat :=
  if f32 a = .nan ∨ f32 b = .nan then (f32Nan, 0) else (if f32Key a ≤ f32Key b then a else b, 0)
def f32Max (a b : Nat) : Nat × Nat :=
  if f32 a = .nan ∨ f32 b = .nan then (f32Nan, 0) else (if f32Key a ≤ f32Key b then b else a, 0)
def f32Abs (a : Nat) : Nat := if f32 a = .nan then f32Nan else a % 2 ^ 31
def f32Neg (a : Nat) : Nat := if f32 a = .nan then f32Nan else a ^^^ 2 ^ 31

def f32Zero (a : Nat) : Bool := a % 2 ^ 31 == 0

/-- Neither is NaN. -/
def f32Ordered (a b : Nat) : Bool := f32 a != .nan && f32 b != .nan
def f32Eq (a b : Nat) : Bool := f32Ordered a b && (a == b || (f32Zero a && f32Zero b))
def f32Lt (a b : Nat) : Bool := f32Ordered a b && decide (f32Key a < f32Key b) && ! (f32Zero a && f32Zero b)
def f32Le (a b : Nat) : Bool := f32Lt a b || f32Eq a b

/-! Exact roots, powers and logarithms. A real result is approached from below in units of 2^-512, far closer than any
FP32 rounding boundary lies; where the result is irrational it is never exact nor a tie, so its floor with a sticky bit
rounds it. -/

/-- Newton's iteration for the integer square root, from above. -/
def isqrtFrom : Nat → Nat → Nat → Nat
  | 0, _, x => x
  | k + 1, n, x => if (x + n / x) / 2 < x then isqrtFrom k n ((x + n / x) / 2) else x

/-- Floor of the square root. -/
def isqrt (n : Nat) : Nat := if n = 0 then 0 else isqrtFrom (Nat.log2 n + 8) n (2 ^ (Nat.log2 n / 2 + 1))

/-- Working units: 2^-512. -/
def encP : Nat := 512

/-- 2^f in units of 2^-P, for f = k / 2^j: 2^(0.b x) = sqrt(2^b * 2^(0.x)), from the last bit. -/
def exp2Frac : Nat → Nat → Nat → Nat
  | 0, _, v => v
  | j + 1, k, v => exp2Frac j (k / 2) (isqrt (v * 2 ^ (encP + k % 2)))

/-- Round an irrational magnitude whose floor in units of 2^u is `m`. -/
def roundIrr (rnd : Nat) (neg : Bool) (m : Nat) (u : Int) : Nat × Nat := fmtFp32.round rnd false neg m u true

/-- 2^x rounded once. -/
def f32Exp2 (rnd a : Nat) : Nat × Nat :=
  match f32 a with
  | .nan => (f32Nan, 0)
  | .inf neg => (if neg then 0 else fmtFp32.infBits false, 0)
  | .fin neg m e =>
    if m = 0 then (0x3F800000, 0)
    else if magLt 200 0 m e then (if neg then fmtFp32.round rnd false false 1 (-400) true else fmtFp32.overflow false false)
    else if 0 ≤ e then fmtFp32.round rnd false false 1 (let n : Int := (m * 2 ^ e.toNat : Nat); if neg then -n else n) false
    else
      let j := (-e).toNat
      let n : Int := (if neg then -(m : Int) else (m : Int)) / (2 ^ j : Nat)
      let k := ((if neg then -(m : Int) else (m : Int)) % (2 ^ j : Nat)).toNat
      if k = 0 then fmtFp32.round rnd false false 1 n false
      else roundIrr rnd false (exp2Frac j k (2 ^ encP)) (n - encP)

/-- The first `q` bits of log2 of y, for y in [1, 2) in units of 2^-P, by repeated squaring. -/
def log2Bits : Nat → Nat → Nat → Nat
  | 0, _, acc => acc
  | q + 1, y, acc =>
    let z := y * y / 2 ^ encP
    if 2 ^ (encP + 1) ≤ z then log2Bits q (z / 2) (2 * acc + 1) else log2Bits q z (2 * acc)

/-- Fraction bits taken of a logarithm: its magnitude is at least 2^-24. -/
def logQ : Nat := 96

/-- log2 x rounded once. -/
def f32Log2 (rnd a : Nat) : Nat × Nat :=
  match f32 a with
  | .nan => (f32Nan, 0)
  | .inf neg => if neg then (f32Nan, NF.nv) else (a, 0)
  | .fin neg m e =>
    if m = 0 then (fmtFp32.infBits true, NF.dz)
    else if neg then (f32Nan, NF.nv)
    else
      let l := Nat.log2 m
      let n : Int := (l : Int) + e
      if m = 2 ^ l then (if n = 0 then (0, 0) else fmtFp32.round rnd false (decide (n < 0)) n.natAbs 0 false)
      else
        let fr := log2Bits logQ (m * 2 ^ (encP - l)) 0
        let t : Int := n * (2 ^ logQ : Nat) + fr
        if 0 ≤ t then roundIrr rnd false t.toNat (-(logQ : Int)) else roundIrr rnd true (-t - 1).toNat (-(logQ : Int))

/-- Round the quotient of two magnitudes. -/
def roundDiv (rnd : Nat) (neg : Bool) (a : Nat) (ea : Int) (b : Nat) (eb : Int) : Nat × Nat :=
  let s := 64 + Nat.log2 b
  fmtFp32.round rnd false neg (a * 2 ^ s / b) (ea - eb - s) (decide (a * 2 ^ s % b ≠ 0))

/-- 1/x rounded once. -/
def f32Rcp (rnd a : Nat) : Nat × Nat :=
  match f32 a with
  | .nan => (f32Nan, 0)
  | .inf neg => (fmtFp32.sign neg, 0)
  | .fin neg m e => if m = 0 then (fmtFp32.infBits neg, NF.dz) else roundDiv rnd neg 1 0 m e

/-- a/b rounded once (R134), with the special cases of R105's reciprocal. -/
def f32Div (rnd a b : Nat) : Nat × Nat :=
  match f32 a, f32 b with
  | .nan, _ => (f32Nan, 0)
  | _, .nan => (f32Nan, 0)
  | .inf _, .inf _ => (f32Nan, NF.nv)
  | .inf x, .fin y _ _ => (fmtFp32.infBits (x != y), 0)
  | .fin x _ _, .inf y => (fmtFp32.sign (x != y), 0)
  | .fin x m e, .fin y n f =>
    if n = 0 then (if m = 0 then (f32Nan, NF.nv) else (fmtFp32.infBits (x != y), NF.dz))
    else if m = 0 then (fmtFp32.sign (x != y), 0)
    else roundDiv rnd (x != y) m e n f

/-- A magnitude with an even exponent. -/
def evenExp (m : Nat) (e : Int) : Nat × Int := if e % 2 = 0 then (m, e) else (2 * m, e - 1)

/-- The square root of x rounded once. -/
def f32Sqrt (rnd a : Nat) : Nat × Nat :=
  match f32 a with
  | .nan => (f32Nan, 0)
  | .inf neg => if neg then (f32Nan, NF.nv) else (a, 0)
  | .fin neg m e =>
    if m = 0 then (a, 0)
    else if neg then (f32Nan, NF.nv)
    else
      let (m, e) := evenExp m e
      let n := m * 2 ^ 128
      let r := isqrt n
      fmtFp32.round rnd false false r (e / 2 - 64) (decide (r * r ≠ n))

/-- 1/sqrt(x) rounded once. -/
def f32Rsqrt (rnd a : Nat) : Nat × Nat :=
  match f32 a with
  | .nan => (f32Nan, 0)
  | .inf neg => if neg then (f32Nan, NF.nv) else (0, 0)
  | .fin neg m e =>
    if m = 0 then (fmtFp32.infBits neg, NF.dz)
    else if neg then (f32Nan, NF.nv)
    else
      let (m, e) := evenExp m e
      let r := isqrt (2 ^ 256 / m)
      fmtFp32.round rnd false false r (-(e / 2) - 128) (decide (r * r * m ≠ 2 ^ 256))

/-- e^y for 0 ≤ y below 2^-16 in units of 2^-P, by Taylor's series: the sum of `n` terms from term `i` with value `t`. -/
def expSeries : Nat → Nat → Nat → Nat → Nat → Nat
  | 0, _, _, _, acc => acc
  | n + 1, i, y, t, acc => expSeries n (i + 1) y (t * y / 2 ^ encP / (i + 1)) (acc + t)

/-- Square `n` times. -/
def squareN : Nat → Nat → Nat
  | 0, x => x
  | n + 1, x => squareN n (x * x / 2 ^ encP)

/-- e^x rounded once (R134): e^|x| from its 2^24th root, and its reciprocal for a negative x. -/
def f32Exp (rnd a : Nat) : Nat × Nat :=
  match f32 a with
  | .nan => (f32Nan, 0)
  | .inf neg => (if neg then 0 else fmtFp32.infBits false, 0)
  | .fin neg m e =>
    if m = 0 then (0x3F800000, 0)
    else if magLt 200 0 m e then (if neg then fmtFp32.round rnd false false 1 (-400) true else fmtFp32.overflow false false)
    else
      let y := if 0 ≤ e + encP - 24 then m * 2 ^ (e + encP - 24).toNat else m / 2 ^ (-(e + encP - 24)).toNat
      let r := squareN 24 (expSeries 40 0 y (2 ^ encP) 0)
      if neg then roundIrr rnd false (2 ^ (2 * encP) / r) (-(encP : Int)) else roundIrr rnd false r (-(encP : Int))

/-! Packed elements and block scales (R95, R96). -/

/-- Element `i` of packed bytes. -/
def elemAt (code : Nat) (n i : Nat) : Nat := n / 2 ^ (elemBits code * i) % 2 ^ elemBits code

/-- The unbiased exponent of a scale byte; none for the NaN scale. -/
def scaleExp (b : Nat) : Option Int := if b % 256 = 255 then none else some ((b % 256 : Nat) - 127)

/-- Largest exponent of an MX element format (R102). -/
def emaxOf (code : Nat) : Int :=
  if code = 8 then 8 else if code = 9 then 15 else if code = 10 then 2 else if code = 11 then 4 else if code = 12 then 2 else 0

/-- floor(log2) of the largest magnitude of finite values, if one is not zero. -/
def amaxLog : List FVal → Option Int
  | [] => none
  | v :: l =>
    let r := amaxLog l
    match v with
    | .fin _ m e => if m = 0 then r else match r with
      | none => some (Nat.log2 m + e)
      | some x => some (max x (Nat.log2 m + e))
    | _ => r

/-- Scale byte and exponent of a block that is packed (R102). -/
def packScale (code : Nat) (l : List FVal) : Nat × Int :=
  if l.any (fun v => match v with
    | .fin _ _ _ => false
    | _ => true) then (255, 0)
  else match amaxLog l with
    | none => (0, -127)
    | some x => let se := max (-127) (min 127 (x - emaxOf code)); ((se + 127).toNat, se)

/-- The number of elements read as little-endian fields. -/
def packElems (code : Nat) (l : List Nat) : Nat := l.foldr (fun x acc => acc * 2 ^ elemBits code + x) 0

end Sys2Proof.Machine
end

