-- ==== Sys2Proof/Machine/InUse.lean ====
section
/-!
DEFINITION. The bytes that GMM entries and Relay operations use, and what becomes of them when an instruction touches
them or their buffer is freed (R110, R112, R119, R194, R291).
-/

namespace Sys2Proof.Machine

/-! Addresses (R59) and open bytes. -/

/-- Space code and offset of an address. -/
def spaceOf (a : Nat) : Nat := a / 2 ^ 60 % 16
def offOf (a : Nat) : Nat := a % 2 ^ 60

/-- Free bytes: contents that the spec leaves open. -/
def State.freeBytes (s : State) (n : Nat) : List Byte × State :=
  ((List.range n).map (fun i => BitVec.ofNat 8 (Config.freeNat (s.freeCtr + i))), { s with freeCtr := s.freeCtr + n })

/-- Bytes in which those at the places that satisfy `q` are undefined: free bytes. -/
def State.spoil (s : State) (q : Nat → Bool) (l : List Byte) : List Byte × State :=
  if (List.range l.length).any q then
    let r := s.freeBytes l.length
    ((List.range l.length).map (fun i => if q i then (r.1[i]?).getD 0 else (l[i]?).getD 0), r.2)
  else (l, s)

/-- A full address lies in one of some ranges (first address, bytes). -/
def inRanges (l : List (Nat × Nat)) (a : Nat) : Bool := l.any (fun r => decide (r.1 ≤ a) && decide (a < r.1 + r.2))

/-- A range of `n` bytes at `a` meets one of some ranges. -/
def meetsRanges (l : List (Nat × Nat)) (a n : Nat) : Bool := l.any (fun r => decide (r.1 < a + n) && decide (a < r.1 + r.2))

/-! GDT entries (R110). -/

/-- A GDT entry's eight words. -/
structure Gdt where
  w : List Nat
  deriving DecidableEq, Repr

def Gdt.f (e : Gdt) (i hi lo : Nat) : Nat := bitsOf ((e.w[i]?).getD 0) hi lo
def Gdt.valid (e : Gdt) : Bool := e.f 0 63 63 == 1
def Gdt.exact (e : Gdt) : Bool := e.f 0 62 62 == 1
def Gdt.fa (e : Gdt) : Nat := e.f 0 61 58
def Gdt.fb (e : Gdt) : Nat := e.f 0 57 54
def Gdt.fc (e : Gdt) : Nat := e.f 0 53 50
def Gdt.rnd (e : Gdt) : Nat := e.f 0 49 48
def Gdt.sat (e : Gdt) : Bool := e.f 0 47 47 == 1
def Gdt.cadd (e : Gdt) : Bool := e.f 0 46 46 == 1
def Gdt.aList (e : Gdt) : Bool := e.f 0 45 45 == 1
def Gdt.cList (e : Gdt) : Bool := e.f 0 44 44 == 1
def Gdt.k (e : Gdt) : Nat := e.f 1 63 48
def Gdt.n (e : Gdt) : Nat := e.f 1 47 32
def Gdt.rows (e : Gdt) : Nat := e.f 1 28 16
def Gdt.xanchor (e : Gdt) : Int := signed 16 (e.f 1 15 0)
def Gdt.a (e : Gdt) : Nat := e.f 2 63 0
def Gdt.b (e : Gdt) : Nat := e.f 3 63 0
def Gdt.c (e : Gdt) : Nat := e.f 4 63 0
def Gdt.aScale (e : Gdt) : Nat := e.f 5 63 0
def Gdt.bScale (e : Gdt) : Nat := e.f 6 63 0
def Gdt.aStride (e : Gdt) : Nat := e.f 7 63 32
def Gdt.cStride (e : Gdt) : Nat := e.f 7 31 0

/-- 4-bit formats, and the formats of the second row of R108. -/
def fp4 (c : Nat) : Bool := c == 6 || c == 12
def fpNarrow (c : Nat) : Bool := (decide (2 ≤ c) && decide (c ≤ 6)) || (decide (8 ≤ c) && decide (c ≤ 12))

/-- Columns of a panel for a format pair (R108); none for a pair in no row. -/
def pairNt (a b : Nat) : Option Nat :=
  if fp4 a ∧ fp4 b then some 64
  else if fpNarrow a ∧ fpNarrow b then some 64
  else if a = 13 ∧ b = 13 then some 64
  else if a = 7 ∧ b = 7 then some 64
  else if a = 1 ∧ b = 1 then some 32
  else none

/-- Rows of a K chunk for a format pair. -/
def pairKt (a b : Nat) : Nat := if fp4 a ∧ fp4 b then 128 else if a = 1 then 32 else 64

/-- Bytes of an element of FMT_C. -/
def cBytes (fc : Nat) : Nat := if fc = 0 then 4 else if fc = 1 then 2 else if fc = 14 then 8 else 1

/-- Bytes of a row of A without scales. -/
def Gdt.aRow (e : Gdt) : Nat := e.k * elemBits e.fa / 8

/-! Operands (R112). -/

/-- Bytes at a full address as cluster `u` reads them. -/
def State.gmuBytes (s : State) (u a n : Nat) : List Byte := s.spaceBytes u (spaceOf a) (offOf a) n

/-- Entry `r` of a row list, as a full address in the list's space. -/
def State.listRow (s : State) (u a r : Nat) : Nat := spaceOf a * 2 ^ 60 + leNat (s.gmuBytes u (a + 4 * r) 4) * 16

/-- Address of row `r` of A and of its scales. -/
def State.aRowAt (s : State) (u : Nat) (e : Gdt) (r : Nat) : Nat × Nat :=
  if e.aList then (s.listRow u e.a r, s.listRow u e.a r + e.aRow) else (e.a + r * e.aStride, e.aScale + r * (e.k / 32))

/-- Address of row `r` of C. -/
def State.cRowAt (s : State) (u : Nat) (e : Gdt) (r : Nat) : Nat :=
  if e.cList then s.listRow u e.c r else e.c + r * e.cStride

/-- The ranges that an entry reads: row lists, A, B, the scales, and C under CADD. -/
def State.gdtReads (s : State) (u : Nat) (e : Gdt) : List (Nat × Nat) :=
  let nt := (pairNt e.fa e.fb).getD 64
  (if e.aList then [(e.a, 4 * e.rows)] else []) ++ (if e.cList then [(e.c, 4 * e.rows)] else []) ++
  (List.range e.rows).flatMap (fun r => (((s.aRowAt u e r).1, e.aRow) :: if isMx e.fa then [((s.aRowAt u e r).2, e.k / 32)] else []) ++
    (if e.cadd then [(s.cRowAt u e r, e.n * cBytes e.fc)] else [])) ++
  (e.b, (e.n + nt - 1) / nt * e.k * nt * elemBits e.fb / 8) :: (if isMx e.fb then [(e.bScale, e.n * (e.k / 32))] else [])

/-- The ranges that an entry writes. -/
def State.gdtWrites (s : State) (u : Nat) (e : Gdt) : List (Nat × Nat) :=
  (List.range e.rows).map (fun r => (s.cRowAt u e r, e.n * cBytes e.fc))

/-- The eight words of entry `i` of a GMM, as the GMU of cluster `u` reads them. -/
def State.readEntry (s : State) (u : Nat) (x : GmmOp) (i : Nat) : List Nat :=
  (List.range 8).map (fun w => leNat (s.gmuBytes u (x.addr + 64 * i + 8 * w) 8))

/-- The entries that a GMM has still to end and that write: the one in progress, and the later ones as they stand now. -/
def State.gmmLeft (s : State) (u : Nat) (x : GmmOp) : List (Nat × Gdt) :=
  ((List.range (x.count - x.entry)).map (fun i =>
    (x.entry + i, (⟨if i = 0 ∧ x.desc ≠ [] then x.desc else s.readEntry u x (x.entry + i)⟩ : Gdt)))).filter
    (fun e => e.2.valid && decide (0 < e.2.rows))

/-! Lanes of vectors (R98). -/

/-- Lane `i` of a vector. -/
def lane (v : Vec) (i : Nat) : Nat := v.toNat / 2 ^ (32 * i) % 2 ^ 32

/-- A vector from its lanes. -/
def vecOf (l : List Nat) : Vec := BitVec.ofNat 16384 (l.foldr (fun x acc => acc * 2 ^ 32 + x % 2 ^ 32) 0)

def laneList : List Nat := List.range 512

/-! Instructions beside the GMM that runs on their cluster (R119). -/

/-- What stream `k` reads at full address `a`: bytes that its running GMM writes are undefined. -/
def State.besideRead (s : State) (k a : Nat) (l : List Byte) : List Byte × State :=
  match s.gmu k with
  | [] => (l, s)
  | x :: _ =>
    let w := (s.gmmLeft k x).flatMap (fun e => s.gdtWrites k e.2)
    s.spoil (fun i => inRanges w (a + i)) l

/-- What stream `k` writes at full address `a` at the places `on`: bytes that its running GMM reads or writes are
undefined, and so are the outputs of the entries that use them. -/
def State.besideWrite (s : State) (k a : Nat) (on : Nat → Bool) (l : List Byte) : List Byte × State :=
  match s.gmu k with
  | [] => (l, s)
  | x :: rest =>
    let uses (e : Nat × Gdt) : List (Nat × Nat) := s.gdtReads k e.2 ++ s.gdtWrites k e.2
    let hit := (s.gmmLeft k x).filter (fun e => (List.range l.length).any (fun i => on i && inRanges (uses e) (a + i)))
    (s.setGmu k ({ x with loose := x.loose ++ hit.map (fun e => e.1) } :: rest)).spoil
      (fun i => on i && hit.any (fun e => inRanges (uses e) (a + i))) l

/-- A loaded value of `n` bytes, sign-extended if `sx` (R68). -/
def ldValue (n : Nat) (sx : Bool) (l : List Byte) : Word :=
  if sx then BitVec.ofInt 64 (signed (8 * n) (leNat l)) else BitVec.ofNat 64 (leNat l)

/-- A vector load of the lanes `on`: the other lanes keep the old value (R103). -/
def vldValue (on : Pred) (old : Vec) (l : List Byte) : Vec :=
  let new : Vec := BitVec.ofNat 16384 (leNat l)
  vecOf (laneList.map (fun i => if on.getLsbD i then lane new i else lane old i))

/-- The stored bytes of a write in flight beside a GMM that begins. -/
def State.besideStored (s : State) (u a n : Nat) (on : Nat → Bool) : State :=
  if 2 ≤ spaceOf a then s
  else
    let r := s.besideWrite u a on (s.gmuBytes u a n)
    r.2.setSpace u (spaceOf a) (offOf a) r.1

/-- A GMM begins on cluster `u` while operation `o` of its stream is in flight (R119). -/
def State.besideFlight (s : State) (u : Nat) (o : MemOp) : State :=
  let a := o.space * 2 ^ 60 + o.addr
  let put (s : State) (kind : MemKind) : State :=
    s.updStream u (fun x => { x with ops := x.ops.map (fun y => if y.id == o.id then { y with kind := kind } else y) })
  match o.kind with
  | .ld t v n sx => let r := s.besideRead u a (leBytes n v.toNat); put r.2 (.ld t (ldValue n sx r.1) n sx)
  | .vld t v on => let r := s.besideRead u a (leBytes 2048 v.toNat); put r.2 (.vld t (vldValue on v r.1) on)
  | .st n => s.besideStored u a n (fun _ => true)
  | .vst on => s.besideStored u a 2048 (fun i => on.getLsbD (i / 4))
  | .xmov _ dst n =>
    let s := s.besideStored u dst n (fun _ => true)
    let w := match s.gmu u with
      | [] => []
      | x :: _ => (s.gmmLeft u x).flatMap (fun e => s.gdtWrites u e.2)
    let r := s.spoil (fun i => inRanges w (a + i)) (s.gmuBytes u dst n)
    r.2.setSpace u (spaceOf dst) (offOf dst) r.1
  | _ => s

/-- The GMM at the head of cluster `u`'s GMU begins beside the operations in flight of its stream (R119). -/
def State.gmmBegins (s : State) (u : Nat) : State := (s.stream u).ops.foldl (fun s o => s.besideFlight u o) s

/-! A freed buffer that is in use (R194). -/

/-! Operation descriptors (R291). -/

def odF (d : List Word) (i hi lo : Nat) : Nat := bitsOf ((d[i]?).getD 0).toNat hi lo
def odOp (d : List Word) : Nat := odF d 0 63 60
def odRetc (d : List Word) : Bool := odF d 0 59 59 == 1
def odMode (d : List Word) : Nat := odF d 0 58 57
def odRs (d : List Word) : Bool := odF d 0 56 56 == 1
def odFree (d : List Word) : Bool := odF d 0 55 55 == 1
def odAck (d : List Word) : Bool := odF d 0 54 54 == 1
def odFmt (d : List Word) : Nat := odF d 0 53 50
def odRnd (d : List Word) : Nat := odF d 0 49 48
def odSat (d : List Word) : Bool := odF d 0 47 47 == 1
def odTcc (d : List Word) : Nat := odF d 0 46 35
def odDcc (d : List Word) : Nat := odF d 0 34 23
def odRcc (d : List Word) : Nat := odF d 0 22 11
def odThresh (d : List Word) : Nat := odF d 1 63 32
def odLen (d : List Word) : Nat := odF d 1 31 0
def odSrc (d : List Word) : Nat := odF d 2 63 0
def odChip (d : List Word) : Nat := odF d 3 63 50
def odGroup (d : List Word) : Nat := odF d 3 49 38
def odFlow (d : List Word) : Nat := odF d 3 37 25
def odLz (d : List Word) : Nat := odF d 3 24 19
def odDoff (d : List Word) : Nat := odF d 4 63 0
def odList (d : List Word) : Nat := odF d 5 63 0
def odCount (d : List Word) : Nat := odF d 6 63 48
def odStride (d : List Word) : Nat := odF d 6 31 0
def odAckcc (d : List Word) : Nat := odF d 7 63 52
def odPcc (d : List Word) : Nat := odF d 7 51 40

/-- The pieces of a GATHER list: full address and length. -/
def State.pieces (s : State) (d : List Word) : List (Nat × Nat) :=
  (List.range (odCount d)).map (fun i => (s.rinkWord (offOf (odList d) + 16 * i), s.rinkWord (offOf (odList d) + 16 * i + 8)))

/-- The ranges that a Relay operation of context `c` uses: its list and its source, and its landing zone on this chip. -/
def State.relayRanges (s : State) (c : Nat) (d : List Word) : List (Nat × Nat) :=
  (if odOp d = 3 then (odList d, 16 * odCount d) :: s.pieces d
   else if odOp d = 4 then (odList d, 16 * odCount d) :: (List.range (odCount d)).map (fun i => (odSrc d + i * odStride d, odLen d))
   else if odRs d then [] else [(odSrc d, odLen d)]) ++
  [(2 ^ 60 + s.rd (COL_LZ.BASE c (odLz d)), 16 * s.rd (COL_LZ.SIZE c (odLz d)))]

/-- A freed range of the Rink at `a`: the copies, GMM entries and Relay operations that still use it have undefined results. -/
def State.looseUsers (s : State) (a n : Nat) : State :=
  let a := 2 ^ 60 + a
  let copy (o : MemOp) : Bool := match o.kind with
    | .xmov _ dst m => meetsRanges [(o.space * 2 ^ 60 + o.addr, m), (dst, m)] a n
    | _ => false
  let s := ((s.streams.filter (fun e => e.2.ops.any copy)).map (fun e => e.1)).foldl (fun s k => s.updStream k (fun x =>
    { x with ops := x.ops.map (fun o => { o with loose := o.loose || copy o }) })) s
  let s := (s.gmus.map (fun e => e.1)).foldl (fun s u => match s.gmu u with
    | [] => s
    | x :: rest =>
      let hit := (s.gmmLeft u x).filter (fun e => meetsRanges (s.gdtReads u e.2 ++ s.gdtWrites u e.2) a n)
      s.setGmu u ({ x with loose := x.loose ++ hit.map (fun e => e.1) } :: rest)) s
  (s.col.relays.map (fun e => e.1)).foldl (fun s i => match (s.relay i).run with
    | none => s
    | some o => if meetsRanges (s.relayRanges (i % 2) o.desc) a n then s.setRelay i { s.relay i with run := some { o with loose := true } } else s) s

/-- A copy ends: where a buffer that it uses was freed, the bytes that it wrote are undefined. -/
def State.copyEnds (s : State) (k dst n : Nat) (loose : Bool) : State :=
  if loose then
    let r := s.freeBytes n
    r.2.setSpace k (spaceOf dst) (offOf dst) r.1
  else s

end Sys2Proof.Machine
end

