-- ==== Sys2Proof/Machine/Bufs.lean ====
section
/-!
DEFINITION. The Locker's operations: pools, handles, allocation, references, freeing and the wait queues
(R186 to R197).
-/

namespace Sys2Proof.Machine

/-- Buffer size of pool `p` (R186). -/
def poolSize (p : Nat) : Nat := 512 * 4 ^ p

/-- Key of a buffer in the Locker's table. The device's own references have the generation above it. -/
def bufKey (pool idx : Nat) : Nat := pool * 2 ^ 21 + idx
def bufRef (pool idx gen : Nat) : Nat := gen * 2 ^ 24 + bufKey pool idx

def keyPool (k : Nat) : Nat := k / 2 ^ 21 % 8
def keyIdx (k : Nat) : Nat := k % 2 ^ 21
def keyGen (k : Nat) : Nat := k / 2 ^ 24

def State.buf (s : State) (k : Nat) : Buf := tget (fun _ => {}) s.locker.bufs (k % 2 ^ 24)
def State.setBuf (s : State) (k : Nat) (b : Buf) : State :=
  s.updLocker (fun l => { l with bufs := tset (fun _ => {}) l.bufs (k % 2 ^ 24) b })
def State.freeQ (s : State) (p : Nat) : List Nat := tget (fun _ => []) s.locker.free p
def State.setFreeQ (s : State) (p : Nat) (q : List Nat) : State :=
  s.updLocker (fun l => { l with free := tset (fun _ => []) l.free p q })
def State.waitQ (s : State) (p : Nat) : List WaitReq := tget (fun _ => []) s.locker.wait p
def State.setWaitQ (s : State) (p : Nat) (q : List WaitReq) : State :=
  s.updLocker (fun l => { l with wait := tset (fun _ => []) l.wait p q })

/-- Buffers in pool `p`. -/
def State.poolCount (s : State) (p : Nat) : Nat := s.rd (LKR_POOL.COUNT p)

/-- Rink offset of a buffer (R186). -/
def State.bufBase (s : State) (k : Nat) : Nat :=
  s.rd (LKR_POOL.BASE (keyPool k)) + keyIdx k * poolSize (keyPool k)

/-- The handle of a buffer in its present generation (R10, R188). -/
def State.handleOf (s : State) (k : Nat) : Nat := keyPool k * 2 ^ 29 + keyIdx k * 2 ^ 8 + (s.buf k).gen

/-- The buffer a handle names, with the handle's generation. -/
def keyOfHandle (h : Nat) : Nat := bufRef (h / 2 ^ 29 % 8) (h / 2 ^ 8 % 2 ^ 21) (h % 2 ^ 8)

/-- The pool of a request: the smallest with COUNT > 0 that holds it (R191). -/
def State.poolFor (s : State) (bytes : Nat) : Option Nat :=
  (List.range 6).find? (fun p => decide (0 < s.poolCount p) && decide (bytes ≤ poolSize p))

/-- Buffers of pool `p` that unused reserves hold back (R191). -/
def State.heldBack (s : State) (p : Nat) : Nat :=
  ((List.range 64).map (fun r => s.rd (LKR_QUOTA.RESV r p) - s.rd (LKR_QUOTA.ALLOC r p))).sum

/-- Whether requester `r` may take a buffer of pool `p` (R191). -/
def State.mayTake (s : State) (r p : Nat) : Bool :=
  let a := s.rd (LKR_QUOTA.ALLOC r p)
  let n := (s.freeQ p).length
  decide (a < s.rd (LKR_QUOTA.LIMIT r p)) && decide (0 < n) &&
    (decide (a < s.rd (LKR_QUOTA.RESV r p)) || decide (s.heldBack p < n))

/-- The generation after `g`, skipping 0 (R188). -/
def nextGen (g : Nat) : Nat := if g ≥ 255 then 1 else g + 1

/-- OWNER of a buffer charged to requester `r` (R188). -/
def State.reqOwner (s : State) (r : Nat) : Nat := if 59 ≤ r then 2 else s.rd (LKR_REQ.CTX r)

/-- Contents of a buffer allocated without zeroing: undefined, so each byte is a free value (R195). -/
def State.undefBuffer (s : State) (k : Nat) : State :=
  let n := poolSize (keyPool k)
  let s1 := s.setRink (s.bufBase k) ((List.range n).map (fun i => BitVec.ofNat 8 (Config.freeNat (s.freeCtr + i))))
  { s1 with freeCtr := s1.freeCtr + n }

/-- Grant the head of pool `p`'s free queue to requester `r` (R191): a reference to the buffer, if the queue holds one. -/
def State.takeBuf (s : State) (r p : Nat) : Option (Nat × State) :=
  match s.freeQ p with
  | [] => none
  | i :: q =>
    let k := bufKey p i
    let b := s.buf k
    let s := (s.setFreeQ p q).setBuf k
      { b with alloc := true, gen := nextGen b.gen, refs := 1, owner := s.reqOwner r, req := r, zeroing := false, intake := none }
    let s := s.addMod (LKR_QUOTA.ALLOC r p) 1
    some (bufRef p i (nextGen b.gen), if s.bit LKR_CTL.ZERO then s else s.undefBuffer k)

/-- A fixed-function ingress allocation (R192 step 2): a buffer from the requester's reserve, or none. -/
def State.ingressTake (s : State) (r bytes : Nat) : Option (Nat × State) :=
  if ¬ s.bit LKR_CTL.LOCK then none
  else match s.poolFor bytes with
    | none => none
    | some p => if s.rd (LKR_QUOTA.ALLOC r p) < s.rd (LKR_QUOTA.RESV r p) then s.takeBuf r p else none

/-- Ingress that found no buffer (R192 step 2). -/
def State.noQuota (s : State) : State := (s.addSat LKR_COUNT.NOQUOTA 1).report F_LKR_NOQUOTA 2 0

/-- Drop the charge of a buffer and put it at the tail of its pool's free queue (R195). -/
def State.joinFree (s : State) (k : Nat) : State :=
  let b := s.buf k
  let s := (s.setBuf k { b with zeroing := false }).setFreeQ (keyPool k) (s.freeQ (keyPool k) ++ [keyIdx k])
  let f := LKR_QUOTA.ALLOC b.req (keyPool k)
  s.wr f (s.rd f - 1)

/-- A buffer becomes FREE, in use or not: zeroed first under ZERO, else ready at the end of this clk (R192, R194, R195). -/
def State.freeBuf (s : State) (k : Nat) : State :=
  let b := s.buf k
  let s := s.looseUsers (s.bufBase k) (poolSize (keyPool k))
  let s := s.setBuf k { b with alloc := false, refs := 0, intake := none, zeroing := s.bit LKR_CTL.ZERO }
  if s.bit LKR_CTL.ZERO then
    let s := s.updLocker (fun l => { l with zero := l.zero ++ [k] })
    s.wr LKR_STATUS.ZEROING s.locker.zero.length
  else s.updLocker (fun l => { l with fresh := insertBy (fun x => x) k l.fresh })

/-- A reference change of this clk: the clk's changes to a buffer are applied together at its end (R194). -/
def State.changeRef (s : State) (c : RefChange) : State := s.updLocker (fun l => { l with changes := l.changes ++ [c] })

/-- A release by the device itself drops one reference (R194). -/
def State.devRelease (s : State) (k : Nat) : State := s.changeRef ⟨k, none, false⟩

/-- A release of an optional buffer. -/
def State.devReleaseOpt (s : State) : Option Nat → State
  | none => s
  | some k => s.devRelease k

/-- The check of a handle by an instruction of a stream of context `c` (R189): its buffer, or the first code. -/
def State.checkHandle (s : State) (c : Nat) (h : Word) : Nat ⊕ Nat :=
  let n := h.toNat
  let pool := n / 2 ^ 29 % 8
  let idx := n / 2 ^ 8 % 2 ^ 21
  let g := n % 2 ^ 8
  let b := s.buf (bufKey pool idx)
  if n ≥ 2 ^ 32 ∨ pool ≥ 6 ∨ idx ≥ s.poolCount pool ∨ g = 0 then .inr F_LKR_HANDLE
  else if g ≠ b.gen then .inr F_LKR_STALE
  else if ¬ b.alloc then .inr F_LKR_DFREE
  else if b.owner ≠ c then .inr F_LKR_OWN
  else .inl (bufRef pool idx g)

/-- The requester check of a waiting-class request of context `c` (R197). -/
def State.reqOk (s : State) (c r : Nat) : Bool :=
  decide (r < 59) && s.bit (LKR_REQ.EN r) && (s.rd (LKR_REQ.CTX r) == c)

/-- Give a granted handle to the unit that waited: a stream writes its register, leaves the wait and retires the
instruction; a dispatch stage keeps the buffer for its choice (R76, R137). -/
def State.deliverGrant (s : State) (w : WaitReq) (k : Nat) : State :=
  if w.unit < 64 then
    let h := BitVec.ofNat 64 (s.handleOf k)
    let s := s.updStream w.unit (fun x => if w.dst = 0 then x else { x with s := tset zeroWord x.s w.dst h })
    ((s.setEngState w.unit EngSt.run).setReg (engBase w.unit + 0x18) 0).retire w.unit
  else s.updGate (w.unit - 64) (fun g => { g with granted := g.granted ++ [k], waiting := false })

/-- The first entry of a pool's wait queue that may take a buffer now. -/
def State.grantable (s : State) (p : Nat) : Option WaitReq := (s.waitQ p).find? (fun w => s.mayTake w.req p)

/-- Grant one waiting request of pool `p`, if one may take a buffer (R192 step 4). -/
def State.grantPool (s : State) (p : Nat) : Option State :=
  match s.grantable p with
  | none => none
  | some w =>
    match (s.setWaitQ p ((s.waitQ p).erase w)).takeBuf w.req p with
    | none => none
    | some (k, s) => some (s.deliverGrant w k)

/-- The pools in R182 order with N = 6. -/
def State.poolOrder (s : State) : List Nat := (List.range 6).map (fun i => (s.lcc + i) % 6)

/-- Grants that this clk has made. -/
def State.grantsMade (s : State) : Nat := if s.locker.grantAt = s.clk then s.locker.grants else 0

/-- Grant one waiting request, the pools taken in R182 order; four in a clk (R192 step 4). -/
def State.grantOne (s : State) : Option State :=
  if 4 ≤ s.grantsMade then none
  else (s.poolOrder.findSome? (fun p => s.grantPool p)).map (fun t =>
    t.updLocker (fun l => { l with grants := s.grantsMade + 1, grantAt := s.clk }))

/-- A waiting request's place among those of its clk: the streams in R182 order with N = 50, the dispatch stage of a Gate Engine right
after its stream (R192 step 3). -/
def State.waitRank (s : State) (unit : Nat) : Nat :=
  if unit < 64 then 2 * s.rank 50 unit else 2 * s.rank 50 (unit - 32) + 1

/-- A request joins the tail of a pool's wait queue. -/
def State.joinWait (s : State) (p : Nat) (w : WaitReq) : State :=
  s.setWaitQ p (insertBy (fun x => if x.since = s.clk then s.waitRank x.unit + 1 else 0) w (s.waitQ p))

/-- Up to `n` grants. -/
def State.grantUpTo (s : State) : Nat → State
  | 0 => s
  | n + 1 => match s.grantOne with
    | none => s
    | some t => t.grantUpTo n

/-- Remove a unit's waiting requests (R77, R196). -/
def State.dropWaits (s : State) (drop : Nat → Bool) : State :=
  (List.range 6).foldl (fun s p => s.setWaitQ p ((s.waitQ p).filter (fun w => ! drop w.unit))) s

/-- Free every buffer of a context, whatever its REFS, in ascending order (R195, R196); this clk's changes to them are void. -/
def State.freeOwned (s : State) (c : Nat) : State :=
  let t := s.updLocker (fun l => { l with changes := l.changes.filter (fun x => (s.buf x.buf).owner != c || ! (s.buf x.buf).alloc) })
  (s.locker.bufs.filter (fun e => e.2.alloc && e.2.owner == c)).foldl (fun s e => s.freeBuf e.1) t

end Sys2Proof.Machine
end

