-- ==== Sys2Proof/Machine/Packets.lean ====
section
/-!
DEFINITION. Fabric packets: header fields (R242), the end-to-end check (R244), sizes and the status words of remote
operations.
-/

namespace Sys2Proof.Machine

def Cls.req : Nat := 0
def Cls.rsp : Nat := 1
def Cls.dsp : Nat := 2
def Cls.ret : Nat := 3
def Cls.col : Nat := 4
def Cls.ctl : Nat := 5

def pkW0 (p : Packet) (hi lo : Nat) : Nat := bitsOf p.w0.toNat hi lo
def pkW1 (p : Packet) (hi lo : Nat) : Nat := bitsOf p.w1.toNat hi lo
def pkW2 (p : Packet) (hi lo : Nat) : Nat := bitsOf p.w2.toNat hi lo
def pkW3 (p : Packet) (hi lo : Nat) : Nat := bitsOf p.w3.toNat hi lo

def pkClass (p : Packet) : Nat := pkW0 p 63 61
def pkDl (p : Packet) : Nat := pkW0 p 60 60
def pkMode (p : Packet) : Nat := pkW0 p 59 58
def pkSched (p : Packet) : Bool := pkW0 p 57 57 == 1
def pkPoison (p : Packet) : Bool := pkW0 p 56 56 == 1
def pkErr (p : Packet) : Bool := pkW0 p 55 55 == 1
def pkDest (p : Packet) : Nat := pkW0 p 54 41
def pkSrc (p : Packet) : Nat := pkW0 p 40 27
def pkJob (p : Packet) : Nat := pkW0 p 26 11
def pkLen (p : Packet) : Nat := pkW0 p 10 0
def pkSeq (p : Packet) : Nat := pkW1 p 63 40
def pkCc (p : Packet) : Nat := pkW1 p 39 28
def pkFlow (p : Packet) : Nat := pkW1 p 27 15
def pkMgroup (p : Packet) : Nat := pkW1 p 14 3
def pkLmap (p : Packet) : Nat := pkW2 p 63 32
def pkLdim (p : Packet) : Nat := pkW2 p 31 31
def pkLdir (p : Packet) : Nat := pkW2 p 30 30
def pkHops (p : Packet) : Nat := pkW2 p 29 24
def pkOpc (p : Packet) : Nat := pkW2 p 23 16
def pkEpoch (p : Packet) : Nat := pkW2 p 15 0
def pkAckcc (p : Packet) : Nat := pkW3 p 63 52
def pkPcc (p : Packet) : Nat := pkW3 p 51 40
def pkAckreq (p : Packet) : Bool := pkW3 p 39 39 == 1
def pkEcrc (p : Packet) : Nat := pkW3 p 31 0

def putW0 (p : Packet) (hi lo v : Nat) : Packet := { p with w0 := BitVec.ofNat 64 (withBits p.w0.toNat hi lo v) }
def putW1 (p : Packet) (hi lo v : Nat) : Packet := { p with w1 := BitVec.ofNat 64 (withBits p.w1.toNat hi lo v) }
def putW2 (p : Packet) (hi lo v : Nat) : Packet := { p with w2 := BitVec.ofNat 64 (withBits p.w2.toNat hi lo v) }
def putW3 (p : Packet) (hi lo v : Nat) : Packet := { p with w3 := BitVec.ofNat 64 (withBits p.w3.toNat hi lo v) }

/-- The bytes of a header. -/
def headerBytes (p : Packet) : List Byte := wordBytes [p.w0, p.w1, p.w2, p.w3]

/-- ECRC over the header, with the fields that routers may change taken as 0, and the payload (R244). -/
def ecrcOf (p : Packet) : Nat :=
  (crc32 (headerBytes (putW3 (putW2 (putW2 (putW0 (putW0 p 60 60 0) 56 56 0) 29 24 0) 63 32 0) 31 0 0) ++ p.payload)).toNat

/-- A packet with its ECRC filled in by the origin. -/
def sealed (p : Packet) : Packet := putW3 p 31 0 (ecrcOf p)

/-- The final destination's check. -/
def ecrcGood (p : Packet) : Bool := pkEcrc p == ecrcOf p

/-- A packet's flits: header and payload, padded (R242). -/
def flitsOf (p : Packet) : Nat := (32 + 16 * pkLen p + 63) / 64

/-- Bytes of the whole packet as it lands. -/
def packetBytes (p : Packet) : Nat := 32 + 16 * pkLen p

/-- A packet with the given header fields; every other field is 0 and the payload sets LEN. -/
structure PacketInfo where
  cls : Nat
  mode : Nat := 0
  sched : Bool := false
  poison : Bool := false
  err : Bool := false
  dest : Nat := 0
  src : Nat
  job : Nat
  seq : Nat := 0
  cc : Nat := 0
  flow : Nat := 0
  mgroup : Nat := 0
  lmap : Nat := 0
  ldim : Nat := 0
  ldir : Nat := 0
  opc : Nat := 0
  epoch : Nat := 0
  ackcc : Nat := 0
  pcc : Nat := 0
  ackreq : Bool := false
  deriving DecidableEq, Repr

def b01 (b : Bool) : Nat := if b then 1 else 0

/-- Pad a byte string with zeros to a multiple of `n`. -/
def padTo (n : Nat) (l : List Byte) : List Byte := l ++ List.replicate ((n - l.length % n) % n) 0

/-- Build a packet; its payload is padded to whole 16-byte units. -/
def mkPacket (i : PacketInfo) (payload : List Byte) : Packet :=
  let pl := padTo 16 payload
  sealed {
    w0 := BitVec.ofNat 64 (i.cls * 2 ^ 61 + i.mode % 4 * 2 ^ 58 + b01 i.sched * 2 ^ 57 + b01 i.poison * 2 ^ 56 +
      b01 i.err * 2 ^ 55 + i.dest % 2 ^ 14 * 2 ^ 41 + i.src % 2 ^ 14 * 2 ^ 27 + i.job % 2 ^ 16 * 2 ^ 11 + pl.length / 16 % 2 ^ 11)
    w1 := BitVec.ofNat 64 (i.seq % 2 ^ 24 * 2 ^ 40 + i.cc % 2 ^ 12 * 2 ^ 28 + i.flow % 2 ^ 13 * 2 ^ 15 + i.mgroup % 2 ^ 12 * 2 ^ 3)
    w2 := BitVec.ofNat 64 (i.lmap % 2 ^ 32 * 2 ^ 32 + i.ldim % 2 * 2 ^ 31 + i.ldir % 2 * 2 ^ 30 + i.opc % 2 ^ 8 * 2 ^ 16 +
      i.epoch % 2 ^ 16)
    w3 := BitVec.ofNat 64 (i.ackcc % 2 ^ 12 * 2 ^ 52 + i.pcc % 2 ^ 12 * 2 ^ 40 + b01 i.ackreq * 2 ^ 39)
    payload := pl }

/-! Statuses of a remote operation (R284). -/

def RspSt.ok : Nat := 0
def RspSt.fenced : Nat := 1
def RspSt.ue : Nat := 2
def RspSt.range : Nat := 3
def RspSt.noctx : Nat := 4
def RspSt.notready : Nat := 5

/-- The code a status raises at the requester (R284). -/
def rspCode (st : Nat) : Nat :=
  if st = RspSt.fenced then F_RMEM_DEAD else if st = RspSt.ue then F_RMEM_UE else F_RMEM_TARGET

/-- The RSP of a REQ (R278): SEQ, JOB and OPC of the REQ, value and status. -/
def rspFor (self : Nat) (q : Packet) (val st : Nat) : Packet :=
  mkPacket { cls := Cls.rsp, err := st != 0, dest := pkSrc q, src := self, job := pkJob q, seq := pkSeq q, opc := pkOpc q }
    (leBytes 8 val ++ leBytes 2 st ++ leBytes 6 0)

def Port.getN (t : List (Nat × Nat)) (k : Nat) : Nat := tget (fun _ => 0) t k
def Port.putN (t : List (Nat × Nat)) (k v : Nat) : List (Nat × Nat) := tset (fun _ => 0) t k v

/-- A credited VC. -/
def credited (vc : Nat) : Bool := vc < 4 || 8 ≤ vc

/-- Credits of a packet's flits go back to the far end, as a cumulative total (R236, R247). Flits that were buffered beyond the credits
advertised when the link trained anew give none (R23). -/
def State.returnCredits (s : State) (n vc flits : Nat) : State :=
  if n < 12 ∧ credited vc then s.updPort n (fun x =>
    let paid := min flits (Port.getN x.debt vc)
    { x with
      credTx := Port.putN x.credTx vc ((Port.getN x.credTx vc + (flits - paid)) % 2 ^ 16)
      debt := Port.putN x.debt vc (Port.getN x.debt vc - paid)
      buffered := Port.putN x.buffered vc (Port.getN x.buffered vc - flits) })
  else s

end Sys2Proof.Machine
end

