-- ==== Sys2Proof/Machine/Pages.lean ====
section
/-!
DEFINITION. Writes made on behalf of a context: the page checkpoint of the snapshot (R344 to R350) that every write
to LPDDR passes, and the trail digests (R411, R412).
-/

namespace Sys2Proof.Machine

/-- Page states (R346). -/
def PageSt.clean : Nat := 0
def PageSt.pending : Nat := 1
def PageSt.dirty : Nat := 2

/-- Drain image states (SNP_STATUS.DGEN, DRT; R352). -/
def DrainSt.idle : Nat := 0
def DrainSt.copying : Nat := 1
def DrainSt.sealed : Nat := 2
def DrainSt.signed : Nat := 3

def State.snap (s : State) (c : Nat) : SnapCtx := tget (fun _ => {}) s.snaps c
def State.setSnap (s : State) (c : Nat) (x : SnapCtx) : State := { s with snaps := tset (fun _ => {}) s.snaps c x }
def State.updSnap (s : State) (c : Nat) (f : SnapCtx → SnapCtx) : State := s.setSnap c (f (s.snap c))

/-- The drain-state field of context `c`. -/
def drainFld (c : Nat) : Fld := if c = 0 then SNP_STATUS.DGEN else SNP_STATUS.DRT

/-- Base address of protected region `n` (R344). -/
def State.regionBase (s : State) (c n : Nat) : Nat := s.rd (SNP_REG.BASE c n) * 2 ^ 21

/-- Size in bytes of protected region `n`; 0 if it is not VALID. -/
def State.regionSize (s : State) (c n : Nat) : Nat :=
  if s.bit (SNP_REG.VALID c n) then s.rd (SNP_REG.SIZE c n) * 2 ^ 21 else 0

/-- The regions of a context, in ascending index. -/
def regionList : List Nat := List.range 16

/-- Bytes of protected regions of a context. -/
def State.protectedBytes (s : State) (c : Nat) : Nat := (regionList.map (fun n => s.regionSize c n)).sum

/-- A context protects the page. -/
def State.isProtected (s : State) (c page : Nat) : Bool :=
  s.ctxState c != CtxSt.none &&
  regionList.any (fun n => decide (s.regionBase c n ≤ page * 4096) && decide (page * 4096 < s.regionBase c n + s.regionSize c n))

/-- State of a page in context `c`. -/
def State.page (s : State) (c page : Nat) : Nat := tget (fun _ => (s.snap c).pageDef) (s.snap c).pages page

def State.setPage (s : State) (c page v : Nat) : State :=
  s.updSnap c (fun x => { x with pages := tset (fun _ => x.pageDef) x.pages page v })

/-- The region that holds a page, and the page's byte offset within an image (R345). -/
def State.imageOffset (s : State) (c page : Nat) : Option Nat :=
  regionList.findSome? (fun n =>
    let b := s.regionBase c n
    if b ≤ page * 4096 ∧ page * 4096 < b + s.regionSize c n then
      some (((List.range n).map (fun m => s.regionSize c m)).sum + (page * 4096 - b))
    else none)

/-- Base of an image in the snapshot area: general rolling, general drain, real-time rolling, real-time drain (R345). -/
def State.imageBase (s : State) (c : Nat) (drain : Bool) : Nat :=
  s.rd SNP_AREA.BASE * 2 ^ 30 + (if c = 0 then 0 else 2 * s.protectedBytes 0) + (if drain then s.protectedBytes c else 0)

/-- Copy `n` bytes of LPDDR from `a` to `b`. -/
def State.copyMem (s : State) (a b n : Nat) : State := s.setMem b (s.memBytes a n)

/-- A page of the drain image still has to be copied before it is written (R352). -/
def State.drainWants (s : State) (c page : Nat) : Bool :=
  s.rd (drainFld c) == DrainSt.copying && ! (s.snap c).copied.contains page

/-- First page of a context, in ascending region index and address, that satisfies `q`. -/
def State.firstPage (s : State) (c : Nat) (q : Nat → Bool) : Option Nat :=
  regionList.findSome? (fun n =>
    let b := s.regionBase c n / 4096
    ((List.range (s.regionSize c n / 4096)).find? (fun i => q (b + i))).map (fun i => b + i))

/-- The next page that the drain copy takes. -/
def State.nextDrain (s : State) (c : Nat) : Option Nat := s.firstPage c (fun p => ! (s.snap c).copied.contains p)

/-- A write to the page has to wait (R348, R350, R352). -/
def State.pageBlocks (s : State) (page : Nat) : Bool :=
  (List.range 2).any (fun c => s.isProtected c page &&
    (s.page c page == PageSt.pending || s.drainWants c page || (s.snap c).copyBack))

/-- The pages of a range of LPDDR. -/
def pagesOf (a n : Nat) : List Nat :=
  if n = 0 then [] else (List.range ((a + n - 1) / 4096 - a / 4096 + 1)).map (fun i => a / 4096 + i)

/-- A write makes the pages it touches DIRTY (R347). -/
def State.dirtyPages (s : State) (a n : Nat) : State :=
  (pagesOf a n).foldl (fun s p => (List.range 2).foldl (fun s c =>
    if s.isProtected c p then s.setPage c p PageSt.dirty else s) s) s

/-- Bytes a write contributes to a 64-byte block: the block's bytes, with those not written taken as 0 (R412). -/
def blockData (a : Nat) (l : List Byte) (blk : Nat) : List Byte :=
  (List.range 64).map (fun i => if a ≤ blk + i ∧ blk + i < a + l.length then (l[blk + i - a]?).getD 0 else 0)

/-- A 64-byte block's contribution to trail window `n` of context `c`, by the bytes written in it, the others taken as 0;
`full` when all of it is written (R411, R412). -/
def State.trailBlock (s : State) (c unit sp n blk : Nat) (full : Bool) (d : List Byte) : State :=
  let base := s.rd (TRAIL_WIN.BASE c n) * 64
  let fin := base + s.rd (TRAIL_SIZE.BLOCKS c n) * 64
  if ¬ s.bit (TRAIL_WIN.VALID c n) ∨ s.rd (TRAIL_WIN.SPACE c n) ≠ sp ∨ (sp = 0 ∧ s.rd (TRAIL_WIN.CLUSTER c n) ≠ unit) ∨
      blk < base ∨ fin ≤ blk then s
  else
    let s := s.addMod (TRAIL_SUM.DIGEST c n) (crc64 (d ++ leBytes 8 ((blk - base) / 64))).toNat
    let s := s.addMod (TRAIL_CNT.COUNT c n) 1
    if full then s
    else { s with partials := if s.partials.contains (c * 16 + n) then s.partials else (c * 16 + n) :: s.partials }

/-- A write's contribution to trail window `n` of context `c`. -/
def State.trailOne (s : State) (c unit sp a : Nat) (l : List Byte) (n : Nat) : State :=
  if l = [] then s
  else (List.range ((a + l.length - 1) / 64 - a / 64 + 1)).foldl (fun s i =>
    let blk := (a / 64 + i) * 64
    s.trailBlock c unit sp n blk (decide (a ≤ blk) && decide (blk + 64 ≤ a + l.length)) (blockData a l blk)) s

/-- A write's contributions to every trail window of its context; spaces 0x0, 0x1 and 0x2 (R411). -/
def State.trail (s : State) (c unit sp a : Nat) (l : List Byte) : State :=
  if c < 2 ∧ sp < 3 then (List.range 16).foldl (fun s n => s.trailOne c unit sp a l n) s else s

/-- A write to LPDDR that passes the page checkpoint now. -/
def State.memWriteNow (s : State) (c a : Nat) (l : List Byte) : State :=
  ((s.dirtyPages a l.length).setMem a l).trail c 0 2 a l

/-- A write to LPDDR for context `c`: held on a page that blocks it, which saturates level 2, else made (R348). -/
def State.memWrite (s : State) (c : Nat) (op : Option (Nat × Nat)) (a : Nat) (l : List Byte) : State :=
  if (pagesOf a l.length).any (fun p => s.pageBlocks p) then
    let s := s.saturate 2
    s.updSnap 0 (fun x => { x with held := x.held ++ [⟨c, op, a, l⟩] })
  else s.memWriteNow c a l

/-- The drain image has a page; the last one seals it (R352). -/
def State.drained (s : State) (c page : Nat) : State :=
  let s := s.updSnap c (fun x => { x with copied := page :: x.copied })
  if (s.nextDrain c).isNone then s.wr (drainFld c) DrainSt.sealed else s

/-- Write-ahead preservation of a page: its copy goes to the rolling image if it is PENDING and to the drain image if
that is still to copy it, in one read (R348, R352). The page may then be written. -/
def State.preservePage (s : State) (page : Nat) : State :=
  (List.range 2).foldl (fun s c =>
    if ¬ s.isProtected c page then s
    else match s.imageOffset c page with
      | none => s
      | some o =>
        let pend := s.page c page == PageSt.pending
        let drain := s.drainWants c page
        let s := if pend ∨ drain then s.addSat SNP_COUNT.PRESERVE 1 else s
        let s := if pend then (s.copyMem (page * 4096) (s.imageBase c false + o) 4096).setPage c page PageSt.dirty else s
        if drain then (s.copyMem (page * 4096) (s.imageBase c true + o) 4096).drained c page else s) s

/-- A stream operation's write is still held. -/
def State.writeHeld (s : State) (k op : Nat) : Bool := (s.snap 0).held.any (fun h => h.op == some (k, op))

/-- A write of a stream `k` of context `c` to one of its spaces, for operation `op` (R68, R348, R411). -/
def State.streamWrite (s : State) (c k op sp a : Nat) (l : List Byte) : State :=
  if sp = 2 then s.memWrite c (some (k, op)) a l
  else ((s.presentWrite k sp a l.length).setSpace k sp a l).trail c k sp a l

/-- A write to the Rink on behalf of a context, by a port that may not reach the firmware region: bytes that fall into it are not
written (R179). -/
def State.rinkWrite (s : State) (c a : Nat) (l : List Byte) : State :=
  let k := s.rd RINK_CFG.FWRES * 2 ^ 20 - a
  (s.setRink (a + k) (l.drop k)).trail c 0 1 (a + k) (l.drop k)

/-- Write the bytes of a PUT. -/
def State.putWrite (s : State) (x sp a : Nat) (l : List Byte) : State :=
  if sp = 1 then s.rinkWrite x a l else s.memWriteNow x a l

/-- A page of the range blocks a write to LPDDR; no page blocks one to the Rink. -/
def State.rangeBlocked (s : State) (sp a n : Nat) : Bool := sp == 2 && (pagesOf a n).any (fun g => s.pageBlocks g)

/-- The held PUTs of a context that its step boundary has released are applied, in order, up to one whose page is still to be copied
(R348, R376); at most `n` of them. -/
def State.applyPuts (s : State) (c : Nat) : Nat → State
  | 0 => s
  | n + 1 => match (s.ctx c).held with
    | [] => s
    | h :: rest =>
      if (s.ctx c).putsDue = 0 then s
      else if s.rangeBlocked h.space h.addr h.data.length then s.saturate 2
      else
        let s := s.updCtx c (fun x => { x with held := rest, putsDue := x.putsDue - 1 })
        State.applyPuts (((s.putWrite c h.space h.addr h.data).addCc c h.cc h.ccadd).devReleaseOpt h.buf) c n

/-- Held writes that no page blocks any more are made, oldest first, and the PUTs of a step boundary go on. -/
def State.retryHeld (s : State) : State :=
  let hs := (s.snap 0).held
  let s := hs.foldl (fun s h =>
    if s.rangeBlocked 2 h.addr h.data.length then s
    else (s.updSnap 0 (fun x => { x with held := x.held.erase h })).memWriteNow h.ctx h.addr h.data) s
  (s.applyPuts 0 (s.ctx 0).putsDue).applyPuts 1 (s.ctx 1).putsDue

end Sys2Proof.Machine
end

