-- ==== Sys2Proof/Machine/Queues.lean ====
section
/-!
DEFINITION. The channels' queues: which requests have a place, which are refused or held, and what a channel carries (R208, R211, R212).
-/

namespace Sys2Proof.Machine

/-- The local address of a REQ (R278). -/
def reqAddr (q : Packet) : Nat := leNat (q.payload.take 5)

/-- The write of a REQ that stores is held for its page's copy (R348). -/
def State.reqHeld (s : State) (p : Packet) : Bool :=
  pkOpc p % 16 ≠ 0 && (pagesOf (reqAddr p) (2 ^ (pkOpc p / 16 % 4))).any (fun g => s.pageBlocks g)

/-- Bytes of a local operation that is one request of its channel. -/
def MemKind.requestBytes : MemKind → Nat
  | .ld _ _ n _ | .st n => n
  | _ => 0

/-- A request that a channel has to serve: its clock of entry, the Rink port that it came by, its address, and the operation of a stream
or the REQ that makes it. -/
structure Entrant where
  since : Nat
  port : Nat
  addr : Nat
  what : (Nat × Nat) ⊕ Request
  deriving DecidableEq, Repr

/-- The requests with a place in their channels' queues, or those without one that are not held on a page. -/
def State.entrants (s : State) (placed : Bool) : List Entrant :=
  s.streams.flatMap (fun e => (e.2.ops.filter (fun o =>
      o.space == 2 && o.kind.requestBytes != 0 && o.queued == placed && (placed || ! s.writeHeld e.1 o.id))).map (fun o =>
    ⟨o.since, rinkPort e.1, o.addr, .inl (e.1, o.id)⟩)) ++
  (s.requests.filter (fun r => r.queued == placed && (placed || ! s.reqHeld r.pkt))).map (fun r =>
    ⟨r.since, match r.fromPort with
      | some n => fabricPort n.1
      | none => (((s.remotes.find? (fun x => x.seq == pkSeq r.pkt)).map (fun x => rinkPort x.stream)).getD 44), reqAddr r.pkt, .inr r⟩)

/-- The queue of a channel, in no order. -/
def State.chQueue (s : State) (ch : Nat) : List Entrant := (s.entrants true).filter (fun e => channelOf e.addr == ch)

/-- Requests in a channel's queue. -/
def State.chDepth (s : State) (ch : Nat) : Nat := (s.chQueue ch).length

/-- Requests in all the channels' queues. -/
def State.memQueued (s : State) : Nat := (s.entrants true).length

/-- A request gets or loses its place. -/
def State.setPlace (s : State) (e : Entrant) (b : Bool) : State :=
  match e.what with
  | .inl x => s.updStream x.1 (fun y => { y with ops := y.ops.map (fun o => if o.id = x.2 then { o with queued := b } else o) })
  | .inr r => { s with requests := replaceFirst (fun x => x == r) (fun x => { x with queued := b }) s.requests }

/-- A store held on a page has no place: the arbiter does not present it (R348). -/
def State.unplace (s : State) (k id : Nat) : State := s.setPlace ⟨0, 0, 0, .inl (k, id)⟩ false

/-- A request has entered a channel's queue: the depths are kept (R185, R227). -/
def State.chEntered (s : State) (ch : Nat) : State :=
  let d := s.chDepth ch
  let s := s.updMem (ch / 16) (fun x => { x with depth := max x.depth d })
  s.queued 2 s.memQueued

/-- A controller refuses a request for a full queue (R211). -/
def State.chRefuse (s : State) (ch : Nat) : State := (s.addSat (MEM_QUEUE.REFUSED (ch / 16)) 1).saturate 2

/-- Of a full channel's entrants of this clk, the last in the order of R182 over their Rink ports is refused (R211). -/
def State.overflow (s : State) (ch : Nat) : State :=
  if s.chDepth ch ≤ 32 then s
  else
    let worst := ((s.chQueue ch).filter (fun e => e.since == s.clk)).foldl (fun (m : Option Entrant) e => match m with
      | none => some e
      | some x => if s.rank 52 x.port ≤ s.rank 52 e.port then some e else some x) none
    match worst with
    | none => s
    | some e => (s.setPlace e false).chRefuse ch

/-- Requests that have no place try again, oldest first and those of one clk by R182. -/
def State.promote (s : State) : State :=
  let l := (s.entrants false).foldl (fun l e => insertBy (fun x => 52 * x.since + s.rank 52 x.port) e l) []
  l.foldl (fun s e => if 32 ≤ s.chDepth (channelOf e.addr) then s.chRefuse (channelOf e.addr)
    else (s.setPlace e true).chEntered (channelOf e.addr)) s

/-- A REQ to a block of a range waits: a later request to that block comes behind it (R212). -/
def State.reqAhead (s : State) (a n : Nat) : Bool :=
  s.requests.any (fun r => decide (a / 64 ≤ reqAddr r.pkt / 64) && decide (reqAddr r.pkt / 64 * 64 < a + n))

/-- The row that the next request of a channel for a bank names, if one waits. -/
def State.nextRow (s : State) (ch bank : Nat) : Option Nat :=
  let l := ((s.chQueue ch).filter (fun x =>
    let q := lineIdx x.addr
    pageBank q 1 == bank || (decide (blockIdx x.addr < 16) && pageBank q 0 == bank))).mergeSort (fun x y => x.since ≤ y.since)
  l.head?.map (fun x => lineRow (lineIdx x.addr))

/-- A channel carries the bursts of a request: each row that they name is activated unless it is open, and stays open only for the next
request of its bank (R208, R212, R214). -/
def State.carry (s : State) (ch : Nat) (l : List Burst) : State :=
  let m := ch / 16
  let banks := ((l.map (fun x => (x.bank, x.row))).eraseDups)
  let s := banks.foldl (fun s x =>
    let key := 16 * (ch % 16) + x.1
    let s := if tget (fun _ => 0) (s.mem m).openRow key = x.2 + 1 then s
      else s.updMem m (fun y => { y with acts := tset (fun _ => 0) y.acts key (tget (fun _ => 0) y.acts key + 1) })
    let stay := if s.nextRow ch x.1 = some x.2 then x.2 + 1 else 0
    s.updMem m (fun y => { y with openRow := tset (fun _ => 0) y.openRow key stay })) s
  s.emit (.bursts ch l)

/-- The channels carry the requests of an access to `n` bytes of LPDDR at `a`. -/
def State.demand (s : State) (write : Bool) (a n : Nat) : State :=
  (linesOf a n).foldl (fun s l => s.carry (channelOf (1984 * l)) (lineBursts write a n l)) s

/-- A block reads several ranges through Rink port `p`, and checks them. -/
def State.readRanges (s : State) (p : Nat) (l : List (Nat × Nat × Nat)) (tell : Bool) : State :=
  l.foldl (fun s x =>
    let t := s.checkRead p x.1 x.2.1 x.2.2 tell
    if x.1 = 2 then t.demand false x.2.1 x.2.2 else t) s

end Sys2Proof.Machine
end

