-- ==== Sys2Proof/Machine/ReadReg.lean ====
section
/-!
DEFINITION. Registers as a read returns them: the fields that show the state of a unit are computed here, all others
come from the register table (R471).
-/

namespace Sys2Proof.Machine

/-- `n` in a field that saturates (R4). -/
def capped (w n : Nat) : Nat := min n (2 ^ w - 1)

/-- Conservation is promised (R24, R27). -/
def State.promised (s : State) : Bool :=
  s.bit CSV_STATUS.CERT && ! s.bit CSV_STATUS.LIMIT && ! s.bit CSV_STATUS.FRZSEEN && ! s.bit CSV_STATUS.D3SEEN

/-- ENG_STATUS of stream `k` (R89). -/
def State.engStatusView (s : State) (k w : Nat) : Nat :=
  withBits (withBits w 36 32 (s.stream k).ops.length) 11 8 (s.stream k).queue.length

/-- GMU_STATUS of cluster `u` (R111). -/
def State.gmuStatusView (s : State) (u : Nat) : Nat :=
  match s.gmu u with
  | [] => 0
  | q@(o :: _) =>
    let busy := o.desc ≠ []
    (if busy then o.entry * 2 ^ 48 + (o.desc.headD 0 / 2 ^ 62 % 2) * 8 + 1 else 0) +
      (o.count - o.entry - (if busy then 1 else 0)) * 2 ^ 32 + o.cc * 2 ^ 20 + q.length * 2

/-- DSP_CXL of context `c`, entry `n`, newest first (R171). -/
def State.cancelView (s : State) (c n : Nat) : Nat :=
  match (s.ctx c).cxl[n]? with
  | some e => 2 ^ 16 + e.1
  | none => 0

/-- LKR_PSTAT of pool `p`. -/
def State.poolView (s : State) (p : Nat) : Nat :=
  let used := (s.locker.bufs.filter (fun e => keyPool e.1 == p && e.2.alloc)).length
  (s.waitQ p).length * 2 ^ 57 + (if s.bit LKR_CTL.LOCK then s.poolCount p - used else 0) * 2 ^ 32 + used

/-- LVL_OCC.QUEUED of level `n` (R185). A cluster store access is over with the command that makes it. -/
def State.levelQueued (s : State) (n : Nat) : Nat :=
  if n = 1 then s.rinkQ.length else if n = 2 then s.memQueued else if n = 3 then s.remotes.length else 0

/-- Outstanding space-0x3 operations of a context. -/
def State.outstanding (s : State) (c : Nat) : Nat := (s.remotes.filter (fun r => s.ctxOf r.stream == c)).length

/-- REL_TRIG of Relay engine `e` (R315). -/
def State.relTrigView (s : State) (e : Nat) : Nat :=
  let posted (c : Nat) := ((s.relay (2 * e + c)).posted.filter (fun o => ! o.fired)).length
  let fired (c : Nat) := ((s.relay (2 * e + c)).posted.filter (fun o => o.fired)).length
  let run := (List.range 2).find? (fun c => (s.relay (2 * e + c)).run.isSome)
  posted 1 % 512 * 2 ^ 55 + fired 1 % 512 * 2 ^ 46 + posted 0 % 512 * 2 ^ 37 + fired 0 % 512 * 2 ^ 28 +
    match run with
    | some c => c * 16 + 8 + (match (s.relay (2 * e + c)).run with
      | some o => (o.desc.headD 0).toNat / 2 ^ 60 % 8
      | none => 0)
    | none => 0

/-- Entries of a context's partition: the general context's first, then the real-time context's. -/
def State.partition (s : State) (c : Nat) : List Nat :=
  let n := s.rd RS_CFG.RT_ENTRIES
  if c = 0 then List.range (512 - n) else (List.range n).map (fun i => 512 - n + i)

/-- FREE entries of a partition. -/
def State.freeEntries (s : State) (c : Nat) : List Nat := (s.partition c).filter (fun i => (s.rsEntry i).st == 0)

/-- RS_STATUS (R317). -/
def State.rsStatusView (s : State) : Nat :=
  (s.freeEntries 0).length * 2 ^ 54 + (s.freeEntries 1).length * 2 ^ 44 + (s.admits 0).length * 2 ^ 39 + (s.admits 1).length * 2 ^ 34

/-- RS_ENTDATA of entry `i`. -/
def State.entDataView (s : State) (i : Nat) : Nat :=
  let e := s.rsEntry i
  if e.st = 0 then 0
  else e.colid * 2 ^ 32 + e.chunk * 2 ^ 16 + e.expectM1 * 2 ^ 10 + e.fop * 2 ^ 6 + e.ctx * 2 ^ 5 +
    (if e.poison then 16 else 0) + e.st

/-- COL_STATUS: its LAST_CODE, the replay counts and the taints (R310, R311). -/
def State.colStatusView (s : State) (w : Nat) : Nat :=
  let t (c : Nat) := match (s.ctx c).step with
    | some x => if x.tainted then 1 else 0
    | none => 0
  withBits w 47 40 ((s.ctx 0).replays * 16 + (s.ctx 1).replays) + 2 * t 1 + t 0

/-- Pages of context `c` in state `v`: those listed, and the protected ones that have no entry. -/
def State.pageCount (s : State) (c v : Nat) : Nat :=
  let x := s.snap c
  (x.pages.filter (fun e => e.2 == v && s.isProtected c e.1)).length +
    if x.pageDef = v then s.protectedBytes c / 4096 - (x.pages.filter (fun e => s.isProtected c e.1)).length else 0

/-- RMEM_STATUS (R287). -/
def State.rmemStatusView (s : State) (w : Nat) : Nat :=
  withBits (withBits w 47 32 (s.outstanding 0)) 31 16 (s.outstanding 1)

/-- The domain of a block's unit (R438): 74 for a block that is not switched. -/
def domainOf (off : Nat) : Nat :=
  if 0x080000 ≤ off ∧ off < 0x100000 then (off - 0x080000) / 0x4000
  else if 0x100000 ≤ off ∧ off < 0x140000 then 32 + (off - 0x100000) / 0x8000
  else if 0x180000 ≤ off ∧ off < 0x198000 then 60 + (off - 0x180000) / 0x2000
  else if 0x1C0000 ≤ off ∧ off < 0x1F0000 then 48 + (off - 0x1C0000) / 0x4000
  else if 0x210000 ≤ off ∧ off < 0x210200 then 72 + (off - 0x210000) / 0x100
  else 74

/-- Domain `d` is on (R438). -/
def State.domainOn (s : State) (d : Nat) : Bool :=
  if d < 64 then (s.reg PWR_DSTAT0.DOM.off).getLsbD d else if d < 74 then (s.reg PWR_DSTAT1.DOM.off).getLsbD (d - 64) else true

/-- A domain is on and its switch-on has settled (R440). -/
def State.domainUsable (s : State) (d : Nat) : Bool :=
  s.domainOn d && ! s.power.usable.any (fun e => e.1 == d && decide (s.clk < e.2))

/-- The stream whose register at `rel` has offset `off`. -/
def engAt (rel off : Nat) : Option Nat := (List.range 50).find? (fun k => engBase k + rel == off)

/-- The word a register shows, with every field computed that shows a unit's state. -/
def State.regView (s : State) (off : Nat) : Word :=
  let w := (s.reg off).toNat
  BitVec.ofNat 64 (
    if off = 0x000100 then withBits w 0 0 (if s.promised then 1 else 0)
    else if off = 0x010018 then withBits w 19 0 s.stride
    else if off = 0x038010 then s.rmemStatusView w
    else if 0x040080 ≤ off ∧ off < 0x0400B0 then s.poolView ((off - 0x040080) / 8)
    else if off = 0x050008 then withBits w 39 32 ((s.reg PWR_DSTAT0.DOM.off).toNat / 2 ^ 40)
    else if 0x050200 ≤ off ∧ off < 0x050220 then withBits w 15 0 (capped 16 (s.levelQueued ((off - 0x050200) / 8)))
    else if 0x020400 ≤ off ∧ off < 0x020800 then s.cancelView ((off - 0x020400) / 0x200) ((off - 0x020400) % 0x200 / 8)
    else if 0x080000 ≤ off ∧ off < 0x100000 ∧ off % 0x4000 = 0x40 then s.gmuStatusView ((off - 0x080000) / 0x4000)
    else if 0x160000 ≤ off ∧ off < 0x164000 ∧ off % 0x1000 = 0x800 then s.relTrigView ((off - 0x160000) / 0x1000)
    else if off = 0x148008 then s.rsStatusView
    else if off = 0x148018 then s.entDataView (s.rd RS_ENTSEL.INDEX)
    else if off = 0x148020 then (if (s.rsEntry (s.rd RS_ENTSEL.INDEX)).st = 0 then 0 else (s.rsEntry (s.rd RS_ENTSEL.INDEX)).arrived.toNat)
    else if off = 0x168010 then s.colStatusView w
    else if off = 0x200420 then s.pageCount 0 PageSt.dirty * 2 ^ 32 + s.pageCount 0 PageSt.pending
    else if off = 0x200428 then s.pageCount 1 PageSt.dirty * 2 ^ 32 + s.pageCount 1 PageSt.pending
    else match engAt 8 off with
      | some k => s.engStatusView k w
      | none => match engAt 0x10 off with
        | some k => s.oldestPc k
        | none => w)

/-- A register of a block whose domain is off reads as 0 (R472). -/
def State.readQuiet (s : State) (off : Nat) : Word := if s.domainOn (domainOf off) then s.regView off else 0

end Sys2Proof.Machine
end

