-- ==== Sys2Proof/Machine/Standstill.lean ====
section
/-!
DEFINITION. The standstill capture (R420, R421).
-/

namespace Sys2Proof.Machine

/-- A 32-byte record: its fields as (first byte, bytes, value); unlisted bytes are zero (R421). -/
def ssRecord (l : List (Nat × Nat × Nat)) : List Byte :=
  leBytes 32 ((l.map (fun f => f.2.2 % 256 ^ f.2.1 * 256 ^ f.1)).sum)

/-- Stream `k`. -/
def State.ssStream (s : State) (k : Nat) : List Byte :=
  let w := s.rd (ENG_WAIT.INDEX k)
  ssRecord [(0, 1, 0x11), (1, 1, k), (2, 1, s.engState k), (4, 4, s.oldestPc k), (8, 8, (s.reg (engBase k + 0x18)).toNat),
    (16, 4, if s.rd (ENG_WAIT.KIND k) = 1 then s.cc (s.ctxOf k) w else 0), (20, 1, (s.stream k).queue.length),
    (21, 1, (s.stream k).ops.length), (22, 2, s.rd (ENG_STATUS.TMPL k))]

/-- Credits freed on a VC and not yet reported to the peer in an LCF (R236). -/
def Port.owed (x : Port) (vc : Nat) : Nat :=
  let told := match x.lcfTotals with
    | e :: _ => (e.2[vc]?).getD 0
    | [] => Port.getN x.advertised vc
  (Port.getN x.credTx vc + 2 ^ 16 - told % 2 ^ 16) % 2 ^ 16

/-- VC `vc` of port `n`. -/
def State.ssVc (s : State) (n vc : Nat) : List Byte :=
  let x := s.port n
  let q := tget (fun _ => []) x.vcq vc
  ssRecord ([(0, 1, 0x12), (1, 1, n), (2, 1, vc), (4, 2, Port.getN x.credits vc), (6, 2, x.owed vc),
    (8, 4, Port.getN x.buffered vc), (12, 4, q.length)] ++
    match q with
    | h :: _ => [(16, 8, h.pkt.w0.toNat), (24, 4, pkSeq h.pkt)]
    | [] => [])

/-- Port `n`. -/
def State.ssPort (s : State) (n : Nat) : List Byte :=
  let x := s.port n
  ssRecord [(0, 1, 0x13), (1, 1, n), (2, 1, s.portState n), (4, 2, x.retry.length), (6, 1, if x.replay.isSome then 1 else 0)]

/-- The waiters of pool `p`. -/
def State.ssWaiters (s : State) (p : Nat) : List Byte :=
  (s.waitQ p).zipIdx.flatMap (fun e => ssRecord [(0, 1, 0x14), (1, 1, p), (2, 1, e.2), (3, 1, e.1.req), (4, 1, e.1.unit),
    (8, 4, e.1.bytes), (12, 4, s.clk - e.1.since)])

/-- The posted and fired operations of a Relay engine's stream: key 2e + c. -/
def State.ssRelay (s : State) (i : Nat) : List Byte :=
  let x := s.relay i
  (x.run.toList ++ x.posted).zipIdx.flatMap (fun e =>
    let w := (e.1.desc.headD 0).toNat
    let cc := bitsOf w 46 35
    ssRecord [(0, 1, 0x15), (1, 1, i / 2), (2, 1, i % 2), (3, 1, e.2), (4, 1, w / 2 ^ 60), (5, 1, if e.1.fired then 1 else 0),
      (6, 2, cc), (8, 4, ((e.1.desc[1]?).getD 0).toNat / 2 ^ 32), (12, 4, s.cc (i % 2) cc)])

/-- A Reduction Store entry that is not FREE. -/
def State.ssEntry (s : State) (i : Nat) : List Byte :=
  let e := s.rsEntry i
  if e.st = 0 then []
  else ssRecord [(0, 1, 0x16), (1, 2, i), (3, 1, e.st), (4, 4, e.colid), (8, 2, e.chunk), (10, 1, e.expectM1),
    (11, 1, if e.poison then 1 else 0), (16, 8, e.arrived.toNat), (24, 4, e.first)]

/-- Kind of a request of R208: 1 read, 2 write, 3 atomic. -/
def Request.kind (r : Request) : Nat :=
  let o := pkOpc r.pkt % 16
  if o = 0 then 1 else if o = 1 ∨ o = 9 then 2 else 3

/-- Kind of a request in a channel's queue. -/
def State.entrantKind (s : State) (e : Entrant) : Nat :=
  match e.what with
  | .inr r => r.kind
  | .inl x => match (s.stream x.1).ops.find? (fun o => o.id == x.2) with
    | some o => (match o.kind with | .st _ => 2 | _ => 1)
    | none => 1

/-- Kind and clk of entry of the requests in the queue of device channel `i`, oldest first. -/
def State.channelQueue (s : State) (i : Nat) : List (Nat × Nat) :=
  ((s.chQueue i).map (fun e => (s.entrantKind e, e.since))).mergeSort (fun a b => a.2 ≤ b.2)

/-- Device channel `i`. -/
def State.ssChannel (s : State) (i : Nat) : List Byte :=
  let q := s.channelQueue i
  ssRecord ([(0, 1, 0x17), (1, 1, i / 16), (2, 1, i % 16), (3, 1, q.length)] ++
    match q with
    | h :: _ => [(4, 1, h.1), (8, 4, s.clk - h.2)]
    | [] => [])

/-- Group `n` of a Gate Engine as the current step knows it: as it was read, or, before its first record, its valid entry
in gate SRAM. -/
def State.ssGroup (s : State) (g n : Nat) : Option Group :=
  match (s.gate g).groups.find? (fun e => e.1 == n) with
  | some e => some e.2
  | none =>
    let w := s.gateWord g (s.rd (GE_INTAKE.BASE g) + 64 * n)
    if w / 2 ^ 63 = 1 then some { entry := [BitVec.ofNat 64 w] } else none

/-- The intake groups of an engine with tallies missing or records held. -/
def State.ssGroups (s : State) (g : Nat) : List Byte :=
  if (s.ctx (s.ctxOf (32 + g))).step.isNone ∨ ¬ s.bit (GE_INTAKE.ENABLE g) then []
  else (List.range (s.rd (GE_INTAKE.NGROUPS_M1 g) + 1)).flatMap (fun n => match s.ssGroup g n with
    | none => []
    | some x =>
      let ns := bitsOf (x.entry.headD 0).toNat 56 45 + 1
      if ns ≤ x.tallies.length ∧ x.held = [] then []
      else ssRecord [(0, 1, 0x18), (1, 1, g), (2, 2, n), (4, 2, x.tallies.length), (6, 2, ns), (8, 4, x.held.length),
        (12, 4, x.accepted)])

/-- The records of a capture after its header, in the order of R421. -/
def State.ssBody (s : State) : List Byte :=
  (List.range 50).flatMap s.ssStream ++
  (List.range 12).flatMap (fun n => (List.range 12).flatMap (fun vc => s.ssVc n vc)) ++
  (List.range 12).flatMap s.ssPort ++ (List.range 6).flatMap s.ssWaiters ++ (List.range 8).flatMap s.ssRelay ++
  (List.range 512).flatMap s.ssEntry ++ (List.range 192).flatMap s.ssChannel ++ (List.range 8).flatMap s.ssGroups ++
  (List.range 4).flatMap (fun n => ssRecord [(0, 1, 0x19), (1, 1, n), (4, 4, s.levelQueued n)])

/-- A whole capture: trigger 0 CT, 1 fault, 2 NOW. -/
def State.ssCapture (s : State) (trigger : Nat) : List Byte :=
  let body := s.ssBody
  ssRecord [(0, 1, 0x10), (1, 1, trigger), (2, 2, s.chipId), (4, 4, body.length / 32 + 1), (8, 8, s.ct), (16, 4, s.lcc)] ++ body

/-- Bytes of the firmware region (R179). -/
def State.firmwareBytes (s : State) : Nat := s.rd RINK_CFG.FWRES * 2 ^ 20

/-- The standstill buffer lies within the firmware region (R420). -/
def State.ssBufferOk (s : State) : Bool :=
  let b := s.rd DBG_SSBUF.BASE
  b % 4096 == 0 && decide (b + 524288 ≤ s.firmwareBytes)

/-- Take a standstill capture (R420): ignored while one is being written; the state is sampled at once, and its writing
begins. -/
def State.standstill (s : State) (trigger : Nat) : State :=
  if s.bit DBG_SSSTAT.WRITING then s
  else if ¬ s.ssBufferOk then s.setBit TEL_STATUS.CFGERR true
  else
    let l := s.ssCapture trigger
    let s := ((s.setBit DBG_SSCTL.ARM false).setBit DBG_SSSTAT.WRITING true).wr DBG_SSSTAT.COUNT (l.length / 32)
    { s with capture := l }

end Sys2Proof.Machine
end

