-- ==== Sys2Proof/Machine/Store.lean ====
section
/-!
DEFINITION. The Setting Store's settings record (R395, R396).
-/

namespace Sys2Proof.Machine

/-- `n` bytes of the Setting Store. -/
def State.mramBytes (s : State) (a n : Nat) : List Byte := tgetMany zeroByte s.sec.mram a n

/-- A read of `n` bytes of the Setting Store meets a block that cannot be read. -/
def State.mramBad (s : State) (a n : Nat) : Bool := s.sec.badBlocks.any (fun b => decide (a < 64 * b + 64) && decide (64 * b < a + n))

/-- Blocks written whole in [lo, hi) can be read again. -/
def State.mramMend (s : State) (lo hi : Nat) : State :=
  { s with sec := { s.sec with badBlocks := s.sec.badBlocks.filter (fun b => decide (64 * b < lo) || decide (hi < 64 * b + 64)) } }

/-- Write bytes to the Setting Store. -/
def State.setMram (s : State) (a : Nat) (l : List Byte) : State :=
  ({ s with sec := { s.sec with mram := tsetMany zeroByte s.sec.mram a l } } : State).mramMend a (a + l.length)

/-- Erase a range of the Setting Store. -/
def State.eraseMram (s : State) (lo hi : Nat) : State :=
  ({ s with sec := { s.sec with mram := tclear lo hi s.sec.mram } } : State).mramMend lo hi

/-- The registers of a settings record, in the order R396 names them. -/
def settingsRegs : List Nat :=
  ([0, 1].flatMap (fun n => [0x00, 0x10, 0x18, 0x20, 0x28, 0x30].map (fun o => 0x210000 + 0x100 * n + o))) ++
  [FAB_CFG.XS_M1.off, LAP_CTRL.ENABLE.off, LAP_CFG.HOLD_MAX.off, LAP_PTP.ORIGIN.off, WCP_CFG.RTO.off] ++
  (List.range 8).map (fun n => 0x243000 + 8 * n)

/-- The bytes of a settings record: sequence number, register values, and the SHA3-256 of them. -/
def State.settingsRecord (s : State) (seq : Nat) : List Byte :=
  let l := leBytes 8 seq ++ wordBytes (settingsRegs.map (fun o => s.reg o))
  l ++ Config.sha3_256 l

/-- Bytes of a record before its hash. -/
def settingsLen : Nat := 8 + 8 * settingsRegs.length

/-- Offset of a settings record copy. -/
def settingsCopy (i : Nat) : Nat := 0x3100000 + 0x10000 * i

/-- STORE: a record with the next sequence number goes to the next of the eight copies. -/
def State.storeSettings (s : State) : State :=
  let n := s.rd SS_STATUS.STORE_SEQ + 1
  (s.setMram (settingsCopy (n % 8)) (s.settingsRecord n)).wr SS_STATUS.STORE_SEQ n

/-- A copy is valid when it can be read and its SHA3-256 matches: its sequence number, if it is. -/
def State.validCopy (s : State) (i : Nat) : Option Nat :=
  let l := s.mramBytes (settingsCopy i) settingsLen
  let h := Config.sha3_256 l
  if ¬ s.mramBad (settingsCopy i) (settingsLen + h.length) ∧ s.mramBytes (settingsCopy i + settingsLen) h.length = h then some (leNat (l.take 8)) else none

/-- The valid copy with the highest sequence number. -/
def State.newestCopy (s : State) : Option Nat :=
  ((List.range 8).foldl (fun (m : Option (Nat × Nat)) i => match s.validCopy i with
    | none => m
    | some n => match m with
      | none => some (n, i)
      | some x => if x.1 < n then some (n, i) else m) none).map (fun x => x.2)

/-- Value of a settings register in a copy. -/
def State.copyValue (s : State) (i off : Nat) : Option Word :=
  (settingsRegs.findIdx? (fun o => o == off)).map (fun j =>
    BitVec.ofNat 64 (leNat (s.mramBytes (settingsCopy i + 8 + 8 * j) 8)))

end Sys2Proof.Machine
end

