-- ==== Sys2Proof/Machine/Teardown.lean ====
section
/-!
DEFINITION. Faults of a context and what they do: the dispatch ledger's closing (R169), a step's cancellation (R88,
R304), teardown (R338), stream faults (R80), device faults (R25, R221) and held settings (R478).
-/

namespace Sys2Proof.Machine

/-! The dispatch ledger (R139, R169). -/

/-- Gate SRAM offset of record `i` of engine `g`. -/
def State.recAt (s : State) (g i : Nat) : Nat := s.rd (GE_LEDGER.BASE g) + 32 * i

/-- Word `w` of a dispatch record. -/
def State.recWord (s : State) (g i w : Nat) : Nat := s.gateWord g (s.recAt g i + 8 * w)

def State.setRecWord (s : State) (g i w v : Nat) : State := s.setGate g (s.recAt g i + 8 * w) (leBytes 8 v)

/-- STATE of a dispatch record: 0 FREE, 1 OPEN, 2 RETURNED, 3 DROPPED, 4 CANCELLED. -/
def State.recState (s : State) (g i : Nat) : Nat := s.recWord g i 0 / 2 ^ 61

/-- Indexes of the engine's records that are not all zero, ascending. -/
def State.usedRecords (s : State) (g : Nat) : List Nat :=
  let lo := gateAt g (s.rd (GE_LEDGER.BASE g))
  let hi := lo + 32 * (s.rd (GE_LEDGER.SIZE_M1 g) + 1)
  (s.gsram.filterMap (fun e => if lo ≤ e.1 ∧ e.1 < hi then some ((e.1 - lo) / 32) else none)).eraseDups

/-- Records of an engine in a state. -/
def State.recordsIn (s : State) (g st : Nat) : List Nat := (s.usedRecords g).filter (fun i => s.recState g i == st)

/-- Close an OPEN record CANCELLED (R169). -/
def State.cancelRecord (s : State) (g i : Nat) : State :=
  let s := s.setRecWord g i 0 (withBits (s.recWord g i 0) 63 61 4)
  s.setRecWord g i 3 (withBits (s.recWord g i 3) 19 0 s.stride)

/-- Drop the device's reference to a record's return buffer, if it has one. -/
def State.dropReturn (s : State) (g i : Nat) : State :=
  let h := s.recWord g i 2 / 2 ^ 32
  if h = 0 then s else s.devRelease (keyOfHandle h)

/-- Close every OPEN record of a context's engines CANCELLED; `drop` also drops the return buffers. -/
def State.cancelRecords (s : State) (c : Nat) (drop : Bool) : State :=
  (s.gatesOf c).foldl (fun s g => (s.recordsIn g 1).foldl (fun s i =>
    let s := s.cancelRecord g i
    if drop then s.dropReturn g i else s) s) s

/-- Records closed in an earlier step become FREE (R169). -/
def State.freeRecords (s : State) (c : Nat) : State :=
  (s.gatesOf c).foldl (fun s g => ((s.usedRecords g).filter (fun i => decide (2 ≤ s.recState g i))).foldl
    (fun s i => s.setGate g (s.recAt g i) (leBytes 32 0)) s) s

/-! Stopping a context's work (R77, R88, R120, R145, R304). -/

/-- Apply a stream's held counter writes whose stores are complete (R70). -/
def State.flushCc (s : State) (c k : Nat) : State :=
  let x := s.stream k
  let live := x.ops.map (fun o => o.id)
  let rec go (s : State) : List HeldCc → List HeldCc → State × List HeldCc
    | [], rest => (s, rest.reverse)
    | h :: hs, rest =>
      if h.after.any (fun i => live.contains i) then go s hs (h :: rest)
      else go (if h.set then s.writeCc k c h.cc h.val else s.addCc c h.cc h.val) hs rest
  let (s1, rest) := go s x.heldCc []
  s1.updStream k (fun y => { y with heldCc := rest })

/-- A stream's issued local operations complete as it stops (R77): copies count, held counter writes take effect. -/
def State.drainStream (s : State) (c k : Nat) : State :=
  let x := s.stream k
  let s := x.ops.foldl (fun s o => match o.kind with
    | .xmov cc dst n => ((s.copyEnds k dst n o.loose).addCc c cc 1).retireOp k o
    | .remote _ => s
    | _ => s.retireOp k o) s
  (s.updStream k (fun y => { y with ops := y.ops.filter (fun o => match o.kind with
    | .remote _ => true
    | _ => false) })).flushCc c k

/-- Stop a stream and discard its state and queue; it returns to IDLE unless it shows FAULT (R88, R338). Its remote operations, and the
counter writes behind them, stay until they complete (R77, R281): no instance starts before that. -/
def State.stopStream (s : State) (c k : Nat) : State :=
  let s := s.drainStream c k
  let s := s.updStream k (fun x => { x with
    pendS := [], pendV := [], fenceWait := none, queue := [], cur := none, stepOne := false, stepOp := none })
  let s := s.setReg (engBase k + 0x18) 0
  if s.engState k = EngSt.fault then s else s.setEngState k EngSt.idle

/-- Free the ingress buffers of an engine's accepted, held and waiting records; records held for a later epoch only on
request (R144, R168). -/
def State.clearIntake (s : State) (g : Nat) (laterToo : Bool) : State :=
  let x := s.gate g
  let held := x.groups.flatMap (fun e => e.2.held) ++ x.inbox ++ (if laterToo then x.later.map (fun e => e.2) else [])
  let s := x.kept.foldl (fun s k => s.devRelease k) s
  let s := held.foldl (fun s h => s.devReleaseOpt h.buf) s
  let s := s.updGate g (fun y => { y with groups := [], kept := [], inbox := [], later := if laterToo then [] else y.later })
  ((s.wr (GE_STATUS.GROUPS_FINAL g) 0).wr (GE_STATUS.INTAKE g) 0).wr (GE_STATUS.HELD g) (min (s.gate g).later.length 65535)

/-- Gate SRAM offsets of the replicas that an engine knows of: those that the active Course gives a SHARE, and those it has counted in. -/
def State.replicas (s : State) (g : Nat) : List Nat :=
  (((s.course (s.rd COURSE_STATUS.BANK)).shares.filter (fun w => bitsOf w.toNat 63 61 == g)).map (fun w => bitsOf w.toNat 60 37)) ++
    (s.gate g).used

/-- USED of every replica returns to 0 (R136). -/
def State.clearUsed (s : State) (g : Nat) : State :=
  let s := (s.replicas g).foldl (fun s a => s.setGate g (a + 8) (leBytes 8 (withBits (s.gateWord g (a + 8)) 47 32 0))) s
  s.updGate g (fun y => { y with used := [] })

/-- LS_CNT registers of a context (R57). -/
def cntRange (c : Nat) : List Nat := if c = 0 then List.range 48 else (List.range 16).map (fun i => 48 + i)

/-- FINAL and VALUE of a context's LS_CNT registers are cleared (R85). -/
def State.clearCnt (s : State) (c : Nat) : State := (cntRange c).foldl (fun s n => s.setReg (0x024100 + 8 * n) 0) s

/-- A contribution's buffer and credits go back (R297). -/
def State.endContribution (s : State) (x : Contribution) : State :=
  let s := s.devReleaseOpt x.buf
  match x.fromPort with
  | some (n, vc) => s.returnCredits n vc ((48 + x.data.length + 63) / 64)
  | none => s

/-- A context's entries of the Reduction Store are freed, the contributions queued to them leave, and its requests are
removed (R304). -/
def State.freeEntriesOf (s : State) (c : Nat) : State :=
  let s := (s.col.combine.filter (fun x => x.ctx == c)).foldl (fun s x => s.endContribution x) s
  let s := s.updCol (fun x => { x with
    entries := x.entries.filter (fun e => e.2.st == 0 || e.2.ctx != c)
    combine := x.combine.filter (fun y => y.ctx != c)
    asked := x.asked.filter (fun a => s.ctxOf a.stream != c) })
  s.setAdmits c []

/-- A context's Reduction Store entries are freed, its requests removed and its trigger tables cleared (R304). -/
def State.clearCol (s : State) (c : Nat) : State :=
  (List.range 4).foldl (fun s e => s.setRelay (2 * e + c) {}) (s.freeEntriesOf c)

/-- The work of a context's step stops and is discarded (R88 steps 1 to 3, R120, R145, R304). DESIGN CHOICE: a GMM entry in progress has
written none of its outputs, which it writes at GMM_ENTRY_DONE. -/
def State.stopWork (s : State) (c : Nat) : State :=
  let s := s.updCtx c (fun x => { x with armed := [] })
  let s := (s.streamsOf c).foldl (fun s k => s.stopStream c k) s
  let s := s.dropWaits (fun u => s.ctxOf (if u < 64 then u else u - 32) == c)
  let s := ((List.range 32).filter (fun u => s.ctxOf u == c)).foldl (fun s u => s.setGmu u []) s
  let s := (s.gatesOf c).foldl (fun s g =>
    let lined := (s.gate g).line.flatMap (fun l => l.members.filterMap (fun m => m.2.2))
    let s := ((s.gate g).granted ++ lined).foldl (fun s k => s.devRelease k) s
    let s := s.updGate g (fun y => { y with
        ops := [], closed := [], line := [], granted := [], waiting := false, opened := 0, closedRecs := 0 })
    ((((s.wr (GE_STATUS.QUEUED g) 0).setBit (GE_STATUS.SCORE g) false).setBit (GE_STATUS.SELECT g) false).setBit (GE_STATUS.DISP g) false).clearUsed g) s
  (s.clearCol c).clearCnt c

/-- Clear SUM, COUNT and PARTIAL of a context's trail windows without copying, counting a cancel (R413). -/
def State.cancelTrails (s : State) (c : Nat) : State :=
  let s := (List.range 16).foldl (fun s n =>
    if s.bit (TRAIL_WIN.VALID c n) then
      ((s.wr (TRAIL_SUM.DIGEST c n) 0).wr (TRAIL_CNT.COUNT c n) 0).addMod (TRAIL_CNT.CANCELS c n) 1
    else s) s
  { s with partials := s.partials.filter (fun p => decide (p / 16 ≠ c)) }

/-- DIRTY pages of the context are to be copied back before the next template is released; the writes that the step left held, and those
of its space-0x3 operations to this chip, do not survive it (R350). -/
def State.startCopyBack (s : State) (c : Nat) : State :=
  let s := s.updSnap 0 (fun x => { x with held := x.held.filter (fun h => h.ctx != c) })
  let mine (p : Packet) : Bool := s.remotes.any (fun x => x.seq == pkSeq p && s.ctxOf x.stream == c)
  let s := { s with requests := s.requests.map (fun (r : Request) => if r.own ∧ mine r.pkt then ({ r with dead := some c } : Request) else r) }
  let s := s.updSnap c (fun x => { x with copyBack := true })
  (s.updCtx c (fun x => { x with rollback := true })).addSat SNP_COUNT.ROLLBACKS 1

/-- Cancel the running step of a context (R88): its work stops, its records close CANCELLED, its epoch enters the
cancel list, its intake is cleared and its pages are copied back. -/
def State.cancelStep (s : State) (c : Nat) : State :=
  match (s.ctx c).step with
  | none => s
  | some st =>
    let s := s.stopWork c
    let s := s.cancelRecords c true
    let s := (s.gatesOf c).foldl (fun s g => s.clearIntake g false) s
    let s := (((s.addCancel c st.epoch).cancelTrails c).startCopyBack c).trace 5 255 c st.epoch
    s.updCtx c (fun x => { x with step := none })

/-! Held settings (R478). -/

/-- Zero a ledger that takes effect; the next record is record 0 and the dispatch stage waits (R139). -/
def State.resetLedger (s : State) (g : Nat) : State :=
  let lo := gateAt g (s.rd (GE_LEDGER.BASE g))
  let s := { s with gsram := tclear lo (lo + 32 * (s.rd (GE_LEDGER.SIZE_M1 g) + 1)) s.gsram }
  s.updGate g (fun y => { y with nextRec := 0, zeroing := true })

/-- The Gate Engine whose GE_LEDGER lies at an offset, if any. -/
def ledgerEngine (off : Nat) : Option Nat :=
  (List.range 8).find? (fun g => decide (off = 0x100100 + 0x8000 * g))

/-- A quota register takes effect: a requester whose LIMIT comes to lie below what it holds is marked (R190). -/
def State.markLowered (s : State) (off : Nat) : State :=
  if 0x041000 ≤ off ∧ off < 0x042000 then
    let r := (off - 0x041000) / 0x40
    let p := off % 0x40 / 8
    let i := 8 * r + p
    let rest := s.locker.lowered.filter (fun x => x != i)
    s.updLocker (fun l => { l with lowered := if s.rd (LKR_QUOTA.LIMIT r p) < s.rd (LKR_QUOTA.ALLOC r p) then i :: rest else rest })
  else s

/-- A setting takes effect: its register takes the written fields; a ledger is zeroed. -/
def State.applySetting (s : State) (off : Nat) (v : Word) : State :=
  let fs := match findRow off with
    | some r => r.fields
    | none => []
  let s := (s.setReg off (writeWord fs false (s.reg off) v)).markLowered off
  match ledgerEngine off with
  | some g => s.resetLedger g
  | none => s

/-- The bits `m` of a setting take effect. -/
def State.applyBits (s : State) (off : Nat) (v m : Word) : State := s.applySetting off ((s.reg off &&& ~~~m) ||| (v &&& m))

/-- The pending-commit and bank fields of a context's template partition (R90). -/
def pendFld (c : Nat) : Fld := if c = 0 then LS_TCTL.PEND_GEN else LS_TCTL.PEND_RT
def bankFld (c : Nat) : Fld := if c = 0 then LS_TCTL.BANK_GEN else LS_TCTL.BANK_RT

/-- Every setting that waits for a context takes effect, oldest first, and a pending template commit swaps the banks. -/
def State.applySettings (s : State) (c : Nat) : State :=
  let ds := (s.ctx c).deferred
  let s := s.updCtx c (fun x => { x with deferred := [] })
  let s := ds.foldl (fun s d => s.applyBits d.1 d.2.1 d.2.2) s
  if s.bit (pendFld c) then (s.setBit (pendFld c) false).wr (bankFld c) (1 - s.rd (bankFld c)) else s

/-- Write the bits `m` of a setting of context `c`: at once, or at its next step boundary (R478). -/
def State.writeBits (s : State) (c off : Nat) (v m : Word) : State :=
  if s.ctxBusy c then s.updCtx c (fun x => { x with deferred := x.deferred ++ [(off, v, m)] }) else s.applyBits off v m

/-- Write a setting of context `c`. -/
def State.writeSetting (s : State) (c off : Nat) (v : Word) : State := s.writeBits c off v (BitVec.allOnes 64)

/-! Teardown (R338). -/

/-- Held PUTs of a context are discarded and their buffers freed; HELDLOST takes their number (R376). -/
def State.dropHeldPuts (s : State) (c : Nat) : State :=
  let hs := (s.ctx c).held
  let s := hs.foldl (fun s h => s.devReleaseOpt h.buf) s
  (s.updCtx c (fun x => { x with held := [], putsDue := 0 })).wr WCP_STATUS.HELDLOST hs.length

/-- The drain image of a context is discarded (R352). -/
def State.dropDrain (s : State) (c : Nat) : State :=
  (s.wr (drainFld c) DrainSt.idle).updSnap c (fun x => { x with copied := [], digests := [], feeding := [] })

/-- Restore states (SNP_RSTSTAT.STATE, R357). -/
def RstSt.idle : Nat := 0
def RstSt.checking : Nat := 1
def RstSt.feeding : Nat := 2
def RstSt.committing : Nat := 3
def RstSt.done : Nat := 4
def RstSt.rejected : Nat := 5

/-- The restore's lists and staging area are discarded; its context and step stay known. -/
def State.clearRestore (s : State) : State := { s with restore := { ctx := s.restore.ctx, step := s.restore.step } }

/-- A restore of context `c` that is not DONE is discarded (R358). -/
def State.dropRestore (s : State) (c : Nat) : State :=
  if s.restore.ctx = c ∧ s.rd SNP_RSTSTAT.STATE ≠ RstSt.done then s.clearRestore.wr SNP_RSTSTAT.STATE RstSt.idle else s

/-- A queued packet forgets the buffers of context `c`, which are freed with it (R196). -/
def State.unlinkPkt (s : State) (c : Nat) (q : QPkt) : QPkt :=
  { q with
    buf := match q.buf with
      | some k => if (s.buf k).owner = c then none else some k
      | none => none
    more := q.more.filter (fun k => (s.buf k).owner != c) }

/-- The packets that a context has handed to injection leave their queues: its slots stay idle (R338). Packets of it on
their way out of a port keep going without their buffers. -/
def State.dropInjected (s : State) (c : Nat) : State :=
  let own (q : QPkt) : Bool :=
    q.fromPort.isNone && bitsOf q.pkt.w0.toNat 26 11 == s.rd (CTX_JOB.JOB c) && bitsOf q.pkt.w0.toNat 40 27 == s.chipId
  s.updRouter (fun r => { r with
    flows := r.flows.foldl (fun t e => tset (fun _ => []) t e.1 (e.2.filter (fun q => ! own q))) r.flows
    ports := r.ports.map (fun e => (e.1, { e.2 with sending := e.2.sending.map (fun q => s.unlinkPkt c q) })) })

/-- Steps 1 to 5 of R338. -/
def State.release (s : State) (c : Nat) : State :=
  let s := s.stopWork c
  let s := s.cancelRecords c false
  let s := ((s.dropInjected c).freeOwned c).dropWaits (fun u => s.ctxOf (if u < 64 then u else u - 32) == c)
  let s := { s with remotes := s.remotes.filter (fun r => s.ctxOf r.stream != c) }
  let s := (s.streamsOf c).foldl (fun s k => s.updStream k (fun x => { x with ops := [], heldCc := [] })) s
  let s := (s.gatesOf c).foldl (fun s g => s.clearIntake g true) s
  let s := ((s.dropHeldPuts c).dropDrain c).dropRestore c
  let s := s.updSnap c (fun x => { x with copyBack := false, ckptReq := none })
  let s := s.updCtx c (fun x => { x with
    step := none, startLap := none, haltLap := none, resumeLap := none, image := none, readBack := false, faults := [],
    retained := none, rollback := false, needRetain := false })
  s

/-- Tear a context down with a code (R338): release everything, record and report the code, enter TORN; held
settings take effect at this transition (R478), and ONFAULT takes a capture (R420). -/
def State.teardown (s : State) (c code info : Nat) : State :=
  let st := s.ctxState c
  if st = CtxSt.none ∨ st = CtxSt.torn then s
  else
    let s := s.release c
    let s := (s.wr (CTX_STATE.CODE c) code).report code c info
    let s := ((s.setCtxState c CtxSt.torn).trouble 5).applySettings c
    if s.bit DBG_SSCTL.ONFAULT ∧ 2 ≤ s.dbg then s.standstill 1 else s

/-- A fault of stream `k` at `pc` (R80): the stream shows FAULT with the code, the pc and the information field. Its context is torn
down at the end of the clk, when every fault of the clk is known. -/
def State.streamFault (s : State) (k code info pc : Nat) : State :=
  let s := s.setEngState k EngSt.fault
  let s := ((s.wr (ENG_FAULT.CODE k) code).wr (ENG_FAULT.PC k) pc).wr (ENG_FAULT.INFO k) info
  (s.trace 3 k (s.ctxOf k) code).updCtx (s.ctxOf k) (fun x => { x with faults := x.faults ++ [(k, code, info)] })

/-- Of a clk's faults of one context, that of the stream with the highest priority (R80, R183). -/
def State.firstOf (s : State) : List (Nat × Nat × Nat) → Option (Nat × Nat × Nat)
  | [] => none
  | f :: l => match s.firstOf l with
    | none => some f
    | some g => if s.rank 50 g.1 < s.rank 50 f.1 then some g else some f

/-- The contexts whose streams have faulted in this clk are torn down. Of what reaches a context in one clk this comes first (R339). -/
def State.settleFaults (s : State) : State :=
  [0, 1].foldl (fun s c => match s.firstOf (s.ctx c).faults with
    | none => s
    | some f => (s.updCtx c (fun x => { x with faults := [] })).teardown c f.2.1 f.2.2) s

/-- A fault of context `c` that no stream made. -/
def State.contextFault (s : State) (c code : Nat) : State := s.teardown c code 0

/-! Device faults. -/

/-- A device fault: every context stops, the code is reported and persisted, and heartbeats end (R25, R221). -/
def State.deviceFault (s : State) (code : Nat) : State :=
  let s := (s.teardown 0 code 0).teardown 1 code 0
  let s := (s.report code 2 0).trouble 1
  { s with silenced := true, faultLog := (code :: s.faultLog).take 16384 }.storeSettings

/-- An auditor finds a mismatch: auditor 0 Credit, 1 Buffer, 2 Slot, 3 Ledger, 4 Completion (R24 to R26). -/
def State.auditBreach (s : State) (a : Nat) : State :=
  if s.promised then
    let s := if s.rd CSV_STATUS.FAULT = 0 then s.wr CSV_STATUS.FAULT (F_CSV_CREDIT + a) else s
    s.deviceFault (F_CSV_CREDIT + a)
  else (s.wr CSV_STATUS.MISMATCH (s.rd CSV_STATUS.MISMATCH ||| 2 ^ a)).trouble 0

end Sys2Proof.Machine
end

