-- ==== Sys2Proof/Machine/Operands.lean ====
section
/-!
DEFINITION. The instruction word's fields, the checks made at issue, the register files and the addresses of Velim
(R57 to R63, R66, R78, R80, R81, R329).
-/

namespace Sys2Proof.Machine

/-- The 64-bit instruction word of MAJ, MIN and bits [51:0] (R60). -/
def velimWord (maj min : Nat) (b : BitVec 52) : Nat := maj * 2 ^ 58 + min * 2 ^ 52 + b.toNat

/-! Fields of the common formats (R61). -/

def fd (w : Nat) : Nat := bitsOf w 47 43
def fa (w : Nat) : Nat := bitsOf w 42 38
def fb (w : Nat) : Nat := bitsOf w 37 33
def fcc (w : Nat) : Nat := bitsOf w 47 36
def fsr (w : Nat) : Nat := bitsOf w 31 27

/-- A field sign-extended. -/
def sfield (w hi lo : Nat) : Int := signed (hi - lo + 1) (bitsOf w hi lo)

/-- A field sign-extended to a 64-bit word. -/
def simm (w hi lo : Nat) : Word := BitVec.ofInt 64 (sfield w hi lo)

/-! Illegal fields: each check gives the lowest bit of the field at fault, if there is one (R63, R81). -/

def badZero (w hi lo : Nat) : List Nat := if bitsOf w hi lo = 0 then [] else [lo]
def badA (w lo : Nat) : List Nat := if bitsOf w (lo + 4) (lo + 4) = 0 then [] else [lo]
def badP (w lo : Nat) : List Nat := if bitsOf w (lo + 4) (lo + 3) = 0 then [] else [lo]
def badGuard (w : Nat) : List Nat := if bitsOf w 51 48 = 1 then [48] else []

/-! Kinds of streams (R56). -/

def isCluster (k : Nat) : Bool := decide (k < 32)
def isGate (k : Nat) : Bool := decide (32 ≤ k) && decide (k < 40)
def isRelay (k : Nat) : Bool := decide (40 ≤ k) && decide (k < 48)
def isSnap (k : Nat) : Bool := decide (48 ≤ k)

/-- Engine code of a stream (R82). -/
def engCode (k : Nat) : Nat := if k < 40 then k else if k < 48 then 40 + (k - 40) / 2 else 44

/-- A gate instruction is inside a block of 64 tokens (R145). -/
def GateOp.inBlock (x : GateOp) : Bool := x.tok % 64 != 0 || x.j != 0 || x.sel != [] || x.fate.isSome

/-! Register files. s0 reads 0 and p0 all ones; writes to them are discarded (R58). -/

def zeroPred (_ : Nat) : Pred := 0
def zeroVec (_ : Nat) : Vec := 0

def State.sreg (s : State) (k r : Nat) : Word := if r = 0 then 0 else tget zeroWord (s.stream k).s r
def State.setS (s : State) (k r : Nat) (v : Word) : State :=
  if r = 0 then s else s.updStream k (fun x => { x with s := tset zeroWord x.s r v })
def State.areg (s : State) (k r : Nat) : Word := tget zeroWord (s.stream k).a r
def State.setA (s : State) (k r : Nat) (v : Word) : State :=
  s.updStream k (fun x => { x with a := tset zeroWord x.a r v })
def State.preg (s : State) (k r : Nat) : Pred := if r = 0 then BitVec.allOnes 512 else tget zeroPred (s.stream k).p r
def State.setP (s : State) (k r : Nat) (v : Pred) : State :=
  if r = 0 then s else s.updStream k (fun x => { x with p := tset zeroPred x.p r v })
def State.vreg (s : State) (k r : Nat) : Vec := tget zeroVec (s.stream k).v r
def State.setV (s : State) (k r : Nat) (v : Vec) : State :=
  s.updStream k (fun x => { x with v := tset zeroVec x.v r v })

/-- A predicate with its scalar value in all 512 bits (R58). -/
def predOf (b : Bool) : Pred := if b then BitVec.allOnes 512 else 0

/-- The guard value of an instruction (R60). -/
def State.guardOf (s : State) (k w : Nat) : Bool := (s.preg k (bitsOf w 51 49)).getLsbD 0 != decide (bitsOf w 48 48 = 1)

/-! Windows (R329). -/

/-- Whether intervals [lo, hi) cover [a, e): each round jumps to the end of one that holds `a`. -/
def covered (ivs : List (Nat × Nat)) : Nat → Nat → Nat → Bool
  | 0, a, e => decide (e ≤ a)
  | n + 1, a, e =>
    if e ≤ a then true
    else match ivs.find? (fun iv => decide (iv.1 ≤ a) && decide (a < iv.2)) with
      | none => false
      | some iv => covered ivs n iv.2 e

/-- The VALID Rink windows of a context, as byte ranges. -/
def State.rinkWindows (s : State) (c : Nat) : List (Nat × Nat) :=
  ((List.range 8).filter (fun n => s.bit (CTX_RWIN.VALID c n))).map (fun n =>
    (s.rd (CTX_RWIN.BASE c n) * 4096, (s.rd (CTX_RWIN.BASE c n) + s.rd (CTX_RWIN.SIZE c n)) * 4096))

/-- The VALID LPDDR windows of a context. -/
def State.memWindows (s : State) (c : Nat) : List (Nat × Nat) :=
  ((List.range 8).filter (fun n => s.bit (CTX_LWIN.VALID c n))).map (fun n =>
    (s.rd (CTX_LWIN.BASE c n) * 2 ^ 21, (s.rd (CTX_LWIN.BASE c n) + s.rd (CTX_LWIN.SIZE c n)) * 2 ^ 21))

/-- The buffers a context may touch: those it owns, and device-owned ones whose record its intake accepted. -/
def State.bufRanges (s : State) (c : Nat) : List (Nat × Nat) :=
  (s.locker.bufs.filter (fun e => e.2.alloc && (e.2.owner == c || (e.2.owner == 2 && e.2.intake == some c)))).map (fun e =>
    (s.bufBase e.1, s.bufBase e.1 + poolSize (keyPool e.1)))

/-- Whether a context owns `n` bytes of the Rink at `a`. -/
def State.rinkOwned (s : State) (c a n : Nat) : Bool :=
  let ivs := s.rinkWindows c ++ s.bufRanges c
  covered ivs (ivs.length + 1) a (a + n)

/-- Whether every byte lies in a Rink window of the context (fetch and template ENTRY). -/
def State.inRinkWindow (s : State) (c a n : Nat) : Bool :=
  covered (s.rinkWindows c) 9 a (a + n)

def State.memOwned (s : State) (c a n : Nat) : Bool :=
  covered (s.memWindows c) 9 a (a + n)

/-! Addresses (R59, R66). -/

/-- Bytes of an address space. -/
def spaceSize (sp : Nat) : Nat :=
  if sp = 0 then 0x400000 else if sp = 1 then 0x18000000 else if sp = 2 then 744 * 2 ^ 30 else 0x1000000

/-- A stream may use a space (R59). -/
def spaceAllowed (k sp : Nat) : Bool :=
  (sp == 0 && isCluster k) || sp == 1 || sp == 2 || sp == 3 || (sp == 4 && isGate k)

/-- The effective offset of an address register and a signed offset, or none where it overflows (R66). -/
def effOff (a : Word) (d : Int) : Option Nat :=
  let n : Int := (offOf a.toNat : Nat) + d
  if 0 ≤ n ∧ n < 2 ^ 60 then some n.toNat else none

/-- The code that an access of `n` bytes at an offset of a local space meets first (R59, R68, R329). -/
def State.accessFault (s : State) (k c sp off n align : Nat) (allowed : Bool) : Option Nat :=
  if ¬ allowed ∨ ¬ spaceAllowed k sp then some F_ISA_SPACE
  else if spaceSize sp ≤ off ∨ spaceSize sp < off + n then some F_ISA_RANGE
  else if sp = 1 ∧ ¬ s.rinkOwned c off n then some F_ISA_OWN
  else if sp = 2 ∧ ¬ s.memOwned c off n then some F_ISA_OWN
  else if off % align ≠ 0 then some F_ISA_ALIGN
  else none

/-- An optional code as a list of faults with its field's lowest bit. -/
def faultAt (code : Option Nat) (info : Nat) : List (Nat × Nat) :=
  match code with
  | some x => [(x, info)]
  | none => []

/-- The fault reported of several: the lowest code, and of one code the lowest field (R81). -/
def firstFault (l : List (Nat × Nat)) : Option (Nat × Nat) :=
  l.foldl (fun m f => match m with
    | none => some f
    | some g => if f.1 < g.1 ∨ (f.1 = g.1 ∧ f.2 < g.2) then some f else some g) none

/-! Issue (R60, R78, R80). -/

/-- What the issue stage needs to know of an instruction: the lowest bits of its illegal fields, whether the engine
accepts its major opcode, the scalar and vector registers it reads or writes, whether it is SEL, whether it needs a
place among the 16 memory operations, and whether that operation goes to space 0x3. -/
structure Form where
  bad : List Nat := []
  engine : Bool := true
  s : List Nat := []
  v : List Nat := []
  sel : Bool := false
  mem : Bool := false
  remote : Bool := false
  deriving DecidableEq, Repr

/-- A clk with issue blocked by the scoreboard or a full unit (ENG_COUNT.STALL_CLK). -/
def State.stall (s : State) (k : Nat) : State := s.addSat (ENG_COUNT.STALL_CLK k) 1

/-- A fault found at issue: precise, at the stream's pc (R80). -/
def State.issueFault (s : State) (k : Nat) (f : Nat × Nat) : State := s.streamFault k f.1 f.2 (s.rd (ENG_PC.PC k))

/-- Faults that do not depend on operands: fetch, encoding and engine (R63, R71). -/
def State.formFaults (s : State) (k w : Nat) (f : Form) : List (Nat × Nat) :=
  (if s.inRinkWindow (s.ctxOf k) (s.rd (ENG_PC.PC k)) 8 then [] else [(F_ISA_FETCH, 0)]) ++
  (badGuard w ++ f.bad).map (fun b => (F_ISA_ENC, b)) ++ (if f.engine then [] else [(F_ISA_ENGINE, 58)])

/-- The scoreboard holds the instruction back (R78), or a stepped instruction is in flight (R422). -/
def State.blocked (s : State) (k : Nat) (f : Form) : Bool :=
  let x := s.stream k
  f.s.any (fun r => x.pendS.contains r) || f.v.any (fun r => x.pendV.contains r) || (f.mem && decide (16 ≤ x.ops.length)) || x.stepOp.isSome ||
    s.col.asked.any (fun a => a.stream == k)

/-- A fault found at issue is precise: it waits until every earlier instruction has retired (R80). -/
def State.preciseFault (s : State) (k : Nat) (f : Nat × Nat) : State := if s.unretired k = [] then s.issueFault k f else s.stall k

/-- Issue an instruction on a stream: in RUN it faults, is suppressed by its guard, is held by the scoreboard or
acts; in a wait (whose clk `State.unitClk` counts), in any other state, and in a freeze (R423), nothing issues. `fails` are the faults that
its operands raise. -/
def State.issue (s : State) (k w : Nat) (f : Form) (fails : List (Nat × Nat)) (act : State → State) : State :=
  let st := s.engState k
  if s.stopped ∨ s.frozen ∨ st ≠ EngSt.run ∨ (s.stream k).fenceWait ≠ none then s
  else match firstFault (s.formFaults k w f) with
    | some x => s.preciseFault k x
    | none =>
      if ¬ s.guardOf k w ∧ ¬ f.sel then s.retire k
      else if s.blocked k f then
        (if f.remote ∧ 16 ≤ (s.stream k).ops.length then s.saturate 3 else s).stall k
      else match firstFault fails with
        | some x => s.preciseFault k x
        | none => act s

/-! Memory operations in flight (R70, R78). -/

/-- Begin a memory operation of stream `k`; `err` is the code of an error that its read has met. -/
def State.beginOp (s : State) (k : Nat) (kind : MemKind) (sp addr : Nat) (err : Option Nat := none) : State :=
  s.updStream k (fun x => { x with nextOp := x.nextOp + 1, ops := x.ops ++ [{ id := x.nextOp, pc := s.rd (ENG_PC.PC k), kind := kind, space := sp, addr := addr, since := s.clk, err := err }] })

/-- The operation with number `op`, if it is in flight. -/
def State.findOp (s : State) (k op : Nat) : Option MemOp := (s.stream k).ops.find? (fun o => o.id == op)

/-- A template instance starts on its stream with its initial state and arguments (R87). -/
def State.startInstance (s : State) (k : Nat) (i : Inst) : State :=
  let s := s.updStream k (fun x => { x with
    s := tsetMany zeroWord [] 24 i.args, a := [], p := [], scratch := 0, cur := some i, fenceWait := none })
  let s := (s.wr (ENG_PC.PC k) i.entry).wr (ENG_STATUS.TMPL k) i.tmpl
  (s.setReg (engBase k + 0x18) 0).setEngState k EngSt.run

/-- A context's part of its step is complete: every armed entry has been released and every released instance has executed
END (R88). The first such course time is kept, for R50. -/
def State.checkDone (s : State) (c : Nat) : State :=
  match (s.ctx c).step with
  | none => s
  | some x =>
    if x.doneCt = none ∧ (s.ctx c).armed = [] ∧ (s.streamsOf c).all (fun k => (s.stream k).queue == [] && (s.stream k).cur == none) then
      s.updCtx c (fun y => { y with step := some { x with doneCt := some s.ct } })
    else s

/-- The running instance of a stream executes END. -/
def State.endInstance (s : State) (k : Nat) : State :=
  let c := s.ctxOf k
  let t := match (s.stream k).cur with
    | some i => i.tmpl
    | none => 0
  let s := (s.retire k).addMod (if c = 0 then LS_TSTATUS.END_GEN else LS_TSTATUS.END_RT) 1
  let s := (s.updStream k (fun x => { x with cur := none, fenceWait := none })).trace 2 k c t
  (s.setEngState k EngSt.idle).checkDone c

/-- A FENCE or END whose memory operations are all complete goes on. -/
def State.fenceDone (s : State) (k : Nat) : State :=
  let x := s.stream k
  if x.ops = [] then match x.fenceWait with
    | some .fence => (s.updStream k (fun y => { y with fenceWait := none })).retire k
    | some .endInst => s.endInstance k
    | none => s
  else s

/-- A memory operation completes and its instruction retires: held counter writes whose stores are done take effect, and a FENCE or END
may go on (R70). -/
def State.endOp (s : State) (k op : Nat) : State :=
  let s := match s.findOp k op with
    | some o => s.retireOp k o
    | none => s
  let s := s.updStream k (fun x => { x with ops := x.ops.filter (fun o => o.id != op) })
  (s.flushCc (s.ctxOf k) k).fenceDone k

end Sys2Proof.Machine
end

