-- ==== Sys2Proof/Machine/Fabric.lean ====
section
/-!
DEFINITION. The router: coordinates and routes, the queues and credits of the ports, slots, fences, pruning, mask
trees and aggregated completions (R228 to R230, R245 to R266).
-/

namespace Sys2Proof.Machine

/-! Coordinates (R10, R228 to R230, R251). -/

/-- Coordinate of a chip ID: dimension 0 X, 1 Y, 2 Z. -/
def coordOf (chip dim : Nat) : Nat :=
  if dim = 0 then bitsOf chip 13 10 else if dim = 1 then bitsOf chip 9 5 else bitsOf chip 4 0

/-- A chip ID with one coordinate replaced. -/
def withCoord (chip dim v : Nat) : Nat :=
  if dim = 0 then withBits chip 13 10 v else if dim = 1 then withBits chip 9 5 v else withBits chip 4 0 v

/-- Ring size of a dimension. -/
def State.ring (s : State) (dim : Nat) : Nat :=
  (if dim = 0 then s.rd FAB_CFG.XS_M1 else if dim = 1 then s.rd FAB_CFG.YS_M1 else s.rd FAB_CFG.ZS_M1) + 1

/-- The neighbour in direction `dir` (0 +X, 1 -X, 2 +Y, 3 -Y, 4 +Z, 5 -Z). -/
def State.neighbour (s : State) (dir : Nat) : Nat :=
  let n := s.ring (dir / 2)
  let a := coordOf s.chipId (dir / 2)
  withCoord s.chipId (dir / 2) (if dir % 2 = 0 then (a + 1) % n else (a + n - 1) % n)

/-- Direction of a unicast packet's next hop; none at its destination (R251). -/
def State.routeDir (s : State) (dest : Nat) : Option Nat :=
  match (List.range 3).find? (fun d => coordOf s.chipId d != coordOf dest d) with
  | none => none
  | some d =>
    let n := s.ring d
    let f := (coordOf dest d + n - coordOf s.chipId d % n) % n
    some (2 * d + if f ≤ n - f then 0 else 1)

/-- A chip ID lies within the torus. -/
def State.inTorus (s : State) (chip : Nat) : Bool :=
  (List.range 3).all (fun d => decide (coordOf chip d < s.ring d))

/-- A chip is fenced for the decisions of this clk: a change of the table counts from the next clk on (R262). -/
def State.fenced (s : State) (chip : Nat) : Bool :=
  let off := (FAB_FENCE.FENCED (chip / 64)).off
  let w := match s.router.fenceOld.find? (fun e => e.1 == off) with
    | some e => e.2
    | none => s.reg off
  w.getLsbD (chip % 64)

/-- This chip's own ID is fenced. -/
def State.selfFenced (s : State) : Bool := s.fenced s.chipId

/-! Ports (R238, R246, R247, R265). -/

/-- A port carries packets of a class: it is UP, or CTLONLY and the class is CTL (R240). -/
def State.carries (s : State) (n cls : Nat) : Bool :=
  s.portState n == PortSt.up || (s.portState n == PortSt.ctlonly && cls == Cls.ctl)

/-- The port that carries a class in a direction: the rail's own, else its partner (R252, R265). -/
def State.portFor (s : State) (dir rail cls : Nat) : Option Nat :=
  if s.carries (dir + 6 * rail) cls then some (dir + 6 * rail)
  else if s.carries (dir + 6 * (1 - rail)) cls then some (dir + 6 * (1 - rail)) else none

/-- The VC of a packet on a link (R246). -/
def vcOf (p : Packet) : Nat := 2 * pkClass p + pkDl p


/-- A copy of a packet ends its hold on its buffer; with the last copy the link's credits are returned (R247). -/
def State.leave (s : State) (q : QPkt) : State :=
  let last := match q.buf with
    | some k => decide ((s.buf k).refs ≤ 1)
    | none => true
  let s := (q.more).foldl (fun s k => s.devRelease k) (s.devReleaseOpt q.buf)
  match q.fromPort with
  | some (n, vc) => if last then s.returnCredits n vc (flitsOf q.pkt) else s
  | none => s

/-- A port is in service. -/
def State.inService (s : State) (n : Nat) : Bool := s.portState n == PortSt.up || s.portState n == PortSt.ctlonly

/-- No port of a direction is in service (R266). -/
def State.dirGone (s : State) (d : Nat) : Bool := ! s.inService d && ! s.inService (d + 6)

/-! Slots (R151, R156, R266). Slot `i` of a lap is slot i + 16,384 x lap number of course time. -/

/-- A slot table entry of the active Course, as a port's own table gives it. -/
def State.slotWord (s : State) (n i : Nat) : Nat :=
  (tget zeroWord (s.course (s.rd COURSE_STATUS.BANK)).slots (n * 16384 + i)).toNat

def slotValid (w : Nat) : Bool := bitsOf w 63 63 == 1
def slotCal (w : Nat) : Bool := bitsOf w 62 62 == 1
def slotClass (w : Nat) : Nat := bitsOf w 60 58
def slotFlow (w : Nat) : Nat := bitsOf w 41 26

/-- The rail partner of a port. -/
def partner (n : Nat) : Nat := if n < 6 then n + 6 else n - 6

/-- A port's slots are its rail partner's to serve: it has left service, and since its repair no new Course has been loaded (R266). -/
def State.isShared (s : State) (n : Nat) : Bool := s.router.shared.contains n

/-- The entry a port serves in slot `i`: its own, or, while it serves its partner's slots too, the one R266 chooses. -/
def State.servedSlot (s : State) (n i : Nat) : Nat :=
  let own := s.slotWord n i
  let other := s.slotWord (partner n) i
  if s.isShared (partner n) ∧ slotValid other then
    if slotValid own then (if (i % 2 = 0) = (n < 6) then own else other) else other
  else own

/-- The slot in force, as a number of course time and as an index of its lap (R42). -/
def State.slotNo (s : State) : Nat := s.ct / 64
def State.slotIdx (s : State) : Nat := s.slotNo % 16384

/-- Clk that a packet's flits and the LCFs among them take on a link (R231, R233): 200 GB/s, 31 flits in 32. -/
def sendClk (flits : Nat) : Nat := (flits * 60160 * 32 + 6199999) / 6200000

/-- A packet started now has left before stride `e` of this lap. -/
def State.leavesBefore (s : State) (flits e : Nat) : Bool :=
  decide (s.lap.acc.toNat + sendClk flits * s.rd LAP_LOOP.PHASE_INC < e * 2 ^ 44)

/-- Key of a flow queue toward a direction (R157, R161). -/
def flowKey (f dir : Nat) : Nat := f * 8 + dir

/-- A VC of a port holds enough credits for a packet. -/
def State.hasCredits (s : State) (n vc flits : Nat) : Bool :=
  ! credited vc || decide (flits ≤ Port.getN (s.port n).credits vc)

/-- GSEQ of the last group received in order. -/
def Port.ack (x : Port) : Nat := (x.gseqRx + 4095) % 4096

/-- A heartbeat's payload, its counts as they are just before its first flit (R250). -/
def State.heartbeatPayload (s : State) (n : Nat) : List Byte :=
  let x := s.port n
  leBytes 4 (s.rd CFG_EPOCH.EPOCH) ++ leBytes 8 (s.rd CFG_DIGEST.VALUE) ++ leBytes 2 x.ack ++ leBytes 2 0 ++
    (List.range 12).flatMap (fun vc => leBytes 4 (Port.getN x.flitsTx vc) ++ leBytes 4 (Port.getN x.credRx vc))

/-- A lap marker's payload: the lap number, then the departure time, in CT and a further 8-bit fraction of a stride. PRESUMED: 8 bytes
for each of the first two, 1 for the fraction, zeros up to 32 bytes; the spec gives the fields without their places. -/
def markerPayload (lap ct frac : Nat) : List Byte := leBytes 8 lap ++ leBytes 8 ct ++ leBytes 1 frac ++ List.replicate 15 0

/-- What a packet carries of the moment at which its first flit leaves: the counts of a heartbeat and the departure time of a lap marker
that this chip sends. -/
def State.stampControl (s : State) (n : Nat) (p : Packet) : Packet :=
  if pkClass p ≠ Cls.ctl ∨ pkSrc p ≠ s.chipId then p
  else if pkOpc p = 1 then sealed { p with payload := s.heartbeatPayload n }
  else if pkOpc p = 2 then
    sealed { p with payload := markerPayload (leNat (p.payload.take 8)) s.ct ((s.lap.acc.toNat >>> 36) % 256) }
  else p

/-- Start sending a packet on a port (R247). -/
def State.startSend (s : State) (n : Nat) (q : QPkt) : State :=
  let vc := vcOf q.pkt
  let fl := flitsOf q.pkt
  let p := s.stampControl n q.pkt
  let s := s.updPort n (fun x => { x with
    sending := some { q with pkt := p }
    credits := if credited vc then Port.putN x.credits vc (Port.getN x.credits vc - fl) else x.credits
    flitsTx := Port.putN x.flitsTx vc ((Port.getN x.flitsTx vc + fl) % 2 ^ 32) })
  (s.addMod (PORT_COUNT1.PKT_TX n) 1).emit (.packet n p)

/-- The port may start a new packet now: it is in service, toward a chip that is not fenced, and no replay is in progress (R235, R264). -/
def State.portFree (s : State) (n : Nat) : Bool :=
  s.inService n && (s.port n).sending.isNone && ! s.fenced (s.neighbour (n % 6)) && (s.port n).replay.isNone

/-- The groups that a packet's flits fill fit in the retry buffer of 512 (R235). -/
def Port.fits (x : Port) (flits : Nat) : Bool := decide (x.retry.length + (x.forming.length + 64 * flits + 1983) / 1984 ≤ 512)

/-- The VC served next in an open slot (R249): N = 12 over the VC numbers. -/
def State.openVc (s : State) (n : Nat) : Option (Nat × QPkt) :=
  let cands := [0, 1, 2, 3, 8, 9, 10, 11].filterMap (fun vc =>
    match tget (fun _ => []) (s.port n).vcq vc with
    | [] => none
    | q :: _ => if s.carries n (vc / 2) ∧ s.hasCredits n vc (flitsOf q.pkt) ∧ (s.port n).fits (flitsOf q.pkt) then some (vc, q)
      else none)
  cands.foldl (fun m x => match m with
    | none => some x
    | some y => if s.rank 12 x.1 < s.rank 12 y.1 then some x else some y) none

/-- What the slot in force is on a port (R156): 1 FILLED, 2 IDLE, 3 OPEN. A VALID slot yet to be decided carries nothing; while the Lap
Unit is STOPPED no slot is in force and all traffic is open. -/
def State.slotNow (s : State) (n : Nat) : Nat :=
  let undecided := if slotValid (s.servedSlot n s.slotIdx) then 2 else 3
  if s.rd LAP_STATUS.STATE = LapSt.stopped then 3
  else match (s.port n).slot with
    | none => undecided
    | some r => if r.index = s.slotNo then r.kind else undecided

/-- The packet at the head of a flow's queue may leave in the slot that began at clock `since`: a transit packet that arrived after that
waits for the flow's next slot (R158), and the last flit leaves before the slot's end (R156). -/
def State.mayLeave (s : State) (n since : Nat) (q : QPkt) : Bool :=
  ! (q.fromPort.isSome && decide (since < q.since)) && s.leavesBefore (flitsOf q.pkt) (64 * (s.slotIdx + 1)) &&
    s.hasCredits n (vcOf q.pkt) (flitsOf q.pkt) && (s.port n).fits (flitsOf q.pkt)

/-- Take the next packet of a FILLED slot. -/
def State.chooseFlow (s : State) (n : Nat) : State :=
  let key := flowKey (slotFlow (s.servedSlot n s.slotIdx)) (n % 6)
  match s.flowQueue key, (s.port n).slot with
  | q :: rest, some r => if s.mayLeave n r.since q then (s.setFlowQueue key rest).startSend n q else s
  | _, _ => s

/-- Take the next packet of an OPEN slot (R249). -/
def State.chooseOpen (s : State) (n : Nat) : State :=
  match s.openVc n with
  | none => s
  | some (vc, q) =>
    (s.updPort n (fun x => { x with vcq := tset (fun _ => []) x.vcq vc ((tget (fun _ => []) x.vcq vc).drop 1) })).startSend n q

/-- The port chooses its next packet at a packet boundary (R156, R249). -/
def State.chooseNext (s : State) (n : Nat) : State :=
  if ¬ s.portFree n then s
  else if s.slotNow n = 3 then s.chooseOpen n
  else if s.slotNow n = 1 then s.chooseFlow n
  else s

/-! Entering queues (R253, R254, R264). -/

/-- The direction opposite to a direction, and the port opposite to a port. -/
def opposite (d : Nat) : Nat := if d % 2 = 0 then d + 1 else d - 1

/-- DL of a packet sent in a direction: 1 on the dateline link, and after it on every link of the same direction; a change of direction
is a turn (R253, R259). -/
def State.dlFor (s : State) (p : Packet) (arrived : Option Nat) (dir : Nat) : Nat :=
  let a := coordOf s.chipId (dir / 2)
  let n := s.ring (dir / 2)
  let date := if dir % 2 = 0 then a + 1 == n else a == 0
  let same := match arrived with
    | some port => port % 6 == opposite dir
    | none => false
  if date || (same && pkDl p == 1) then 1 else 0

/-- The copy of a packet sent in a direction. -/
def State.outgoing (s : State) (p : Packet) (arrived : Option Nat) (dir : Nat) : Packet :=
  putW2 (putW0 p 60 60 (s.dlFor p arrived dir)) 29 24 (pkHops p + 1)

/-- Clock of entry of a queued packet, and the port that it came in on; 12 for local injection (R249). -/
def QPkt.who (q : QPkt) : Nat × Nat := (q.since, match q.fromPort with
  | some e => e.1
  | none => 12)

/-- A packet enters a queue; those of one clk stand in the order of R182 with N = 13 (R249). -/
def State.joinQueue (s : State) (q : QPkt) (l : List QPkt) : List QPkt := s.enqueue 13 QPkt.who { q with since := s.clk } l

/-- Queue a packet on a VC of a port. -/
def State.queuePort (s : State) (n : Nat) (q : QPkt) : State :=
  let vc := vcOf q.pkt
  (s.updPort n (fun x => { x with vcq := tset (fun _ => []) x.vcq vc (s.joinQueue q (tget (fun _ => []) x.vcq vc)) })).chooseNext n

/-- Queue a packet on a flow toward a direction; ports that serve a FILLED slot of the flow may take it, rail A's first (R156). -/
def State.queueFlow (s : State) (f dir : Nat) (q : QPkt) : State :=
  let s := s.setFlowQueue (flowKey f dir) (s.joinQueue q (s.flowQueue (flowKey f dir)))
  (s.chooseNext dir).chooseNext (dir + 6)

/-! Answers to requests at the requester (R279, R281, R284). -/

/-- Context `c` receives poison that carries epoch `e`: its running step is TAINTED, or the step has committed, or neither;
the second component says whether the receipt counts. -/
def State.poison (s : State) (c e : Nat) : State :=
  if s.epoch c = some e then
    let s := s.updCtx c (fun x => { x with step := x.step.map (fun t => { t with tainted := true }) })
    s.addCc c (s.rd (COL_CTL.TAINTCC c)) 1
  else if (s.ctx c).committed.any (fun x => x.1 == e) then s.contextFault c F_COL_LATEPOISON
  else s

/-- A packet with POISON = 1 that context `c` has accepted. -/
def State.acceptPoison (s : State) (c : Nat) (p : Packet) : State :=
  if pkPoison p then (s.addSat COL_COUNT.POISONED 1).poison c (pkEpoch p) else s

/-- A poisoned packet of context `x` (none: no context of its job) that is discarded for its epoch: the epoch of a step
that has committed is a fault (R310). -/
def State.latePoison (s : State) (x : Option Nat) (p : Packet) : State :=
  match x with
  | none => s
  | some c =>
    if pkPoison p ∧ s.ctxExists c ∧ ¬ s.cancelled c (pkEpoch p) ∧ s.epoch c ≠ some (pkEpoch p) ∧
        (s.ctx c).committed.any (fun x => x.1 == pkEpoch p) then s.contextFault c F_COL_LATEPOISON
    else s

/-- An RSP at its destination: it completes the matching operation, faults on a bad status, or is stray. The value of an operation whose
stream has been stopped meanwhile goes nowhere (R77, R88). -/
def State.rspAccept (s : State) (p : Packet) : State :=
  let s := if pkErr p then s.addSat RMEM_COUNT0.ERR_RX 1 else s
  match s.remotes.find? (fun r => r.seq == pkSeq p) with
  | none => ((s.addSat RMEM_COUNT1.STRAY 1).lapFlag 18).report F_RMEM_STRAY 2 0
  | some r =>
    let st := leNat ((p.payload.drop 8).take 2)
    let s := { s with remotes := s.remotes.erase r }.acceptPoison (s.ctxOf r.stream) p
    if st ≠ RspSt.ok then s.streamFault r.stream (rspCode st) (if st = RspSt.fenced then r.chip else 0) r.pc
    else
      let bytes := 2 ^ (r.opc / 16 % 4)
      let v := leNat ((p.payload.take 8).take bytes)
      let v : Word := if r.sx then BitVec.ofInt 64 (signed (8 * bytes) v) else BitVec.ofNat 64 v
      let writes := r.opc % 16 ≠ 1 ∧ r.opc % 16 ≠ 9 ∧ (s.stream r.stream).pendS.contains r.dst
      let s := if writes then
          (s.setS r.stream r.dst v).updStream r.stream (fun x => { x with pendS := x.pendS.erase r.dst })
        else s
      s.endOp r.stream r.op

/-! Mask group entries and aggregated completions (R257, R260, R261). -/

/-- Word `w` of mask group entry `g`. -/
def State.mgWord (s : State) (g w : Nat) : Nat := (tget zeroWord s.router.mgroups (4 * g + w)).toNat

def State.mgValid (s : State) (g job : Nat) : Bool := bitsOf (s.mgWord g 0) 63 63 == 1 && bitsOf (s.mgWord g 0) 49 34 == job
def State.mgLocal (s : State) (g : Nat) : Bool := bitsOf (s.mgWord g 0) 62 62 == 1
def State.mgMembers (s : State) (g : Nat) : Nat := bitsOf (s.mgWord g 0) 33 19
def State.mgRoot (s : State) (g : Nat) : Bool := bitsOf (s.mgWord g 0) 18 18 == 1
def State.mgPorts (s : State) (g : Nat) : List Nat := (List.range 12).filter (fun p => (s.mgWord g 0).testBit (50 + p))

/-- SUB of a port. -/
def State.mgSub (s : State) (g p : Nat) : Nat := bitsOf (s.mgWord g (1 + p / 4)) (16 * (p % 4) + 14) (16 * (p % 4))

def State.aggState (s : State) (g : Nat) : Option Agg := tget (fun _ => none) s.router.agg g
def State.setAgg (s : State) (g : Nat) (a : Option Agg) : State :=
  s.updRouter (fun r => { r with agg := tset (fun _ => none) r.agg g a })

/-- The port that carries the records of port `n`: its rail partner while only that is in service (R265). -/
def State.aggPort (s : State) (n : Nat) : Nat := if ¬ s.inService n ∧ s.inService (partner n) then partner n else n

/-- A record is queued on the port that the group's packet arrived on: at most one per mask group is pending (R260). -/
def State.queueAgg (s : State) (n g real pruned : Nat) : State :=
  s.updPort (s.aggPort n) (fun x => { x with agg := x.agg.filter (fun r => r.1 != g) ++ [(g, real, pruned)] })

/-- The root counts a closed aggregation for the packet's context (R261). -/
def State.aggRoot (s : State) (c ackcc pcc real pruned : Nat) : State :=
  if c < 2 then (s.addCc c ackcc (real + pruned)).addCc c pcc pruned else s

/-- An aggregation that expects nothing more closes: the root counts, any other router reports toward it (R261). -/
def State.closeAgg (s : State) (g : Nat) : State :=
  match s.aggState g with
  | none => s
  | some a =>
    if a.expect ≠ 0 then s
    else
      let s := s.setAgg g none
      match a.arrival with
      | some n => s.queueAgg n g a.real a.pruned
      | none =>
        let s := if a.real + a.pruned ≠ s.mgMembers g then s.auditBreach 4 else s
        s.aggRoot a.ctx a.ackcc a.pcc a.real a.pruned

/-- This chip's own copy is accepted (real) or discarded, refused or malformed (pruned) (R261). -/
def State.aggLocal (s : State) (p : Packet) (accepted : Bool) : State :=
  if pkMode p = 1 ∧ pkAckreq p then
    match s.aggState (pkMgroup p) with
    | none => s
    | some a =>
      (s.setAgg (pkMgroup p) (some { a with
        expect := a.expect - 1
        real := a.real + if accepted then 1 else 0
        pruned := a.pruned + if accepted then 0 else 1 })).closeAgg (pkMgroup p)
  else s

/-! Where a unicast packet goes next (R251, R252, R254, R263, R266). -/

inductive Hop where
  | here
  | port (n : Nat)
  | flow (dir : Nat)
  | fenced
  | noPath (dir : Nat)
  | hops
  deriving DecidableEq, Repr

/-- Parity of the set bits of a number below 2^34. -/
def parity (n : Nat) : Nat := ((List.range 34).filter (fun i => n.testBit i)).length % 2

/-- The rail of a REQ, or of the RSP to it (R252). -/
def remoteRail (addr src dest : Nat) : Nat := parity (bitsOf addr 39 6 ^^^ src ^^^ dest)

/-- The rail of a unicast packet at this chip: a REQ's by its address, a transit packet's that of its arrival. -/
def railOf (p : Packet) (arrived : Option Nat) : Nat :=
  if pkClass p = Cls.req then remoteRail (reqAddr p) (pkSrc p) (pkDest p)
  else match arrived with
    | some n => if pkClass p = Cls.ctl then 0 else n / 6
    | none => 0

/-- The next hop of a unicast packet on a given rail. -/
def State.nextHop (s : State) (p : Packet) (rail : Nat) : Hop :=
  match s.routeDir (pkDest p) with
  | none => .here
  | some d =>
    if s.fenced (pkDest p) ∨ s.fenced (s.neighbour d) then .fenced
    else if 63 < pkHops p + 1 then .hops
    else if pkSched p then (if s.dirGone d then .noPath d else .flow d)
    else match s.portFor d rail (pkClass p) with
      | some n => .port n
      | none => .noPath d

/-- A fabric code of the router, to the host and the fabric manager (R268). -/
def State.fabReport (s : State) (code c : Nat) : State := s.report code c 0

/-- Members or destinations lost to a fence (R263). -/
def State.countPruned (s : State) (n : Nat) : State := s.addSat FAB_COUNT0.PRUNED n

/-- A packet needs a down direction (R266): reported once per direction. -/
def State.countNoPath (s : State) (d : Nat) : State :=
  let s := s.addSat FAB_COUNT1.NOPATH 1
  if s.router.nopathSeen.contains d then s
  else (s.updRouter (fun r => { r with nopathSeen := d :: r.nopathSeen })).fabReport F_FAB_NOPATH 2

/-- A packet beyond the hop limit (R254). -/
def State.dropHops (s : State) (q : QPkt) : State := ((s.leave q).addSat FAB_COUNT0.HOPS 1).fabReport F_FAB_HOPS 2

/-- Send a packet that causes no packet when it is pruned. -/
def State.forwardOnly (s : State) (q : QPkt) (arrived : Option Nat) (rail : Nat) : State :=
  match s.nextHop q.pkt rail with
  | .here => s.leave q
  | .port n => s.queuePort n { q with pkt := s.outgoing q.pkt arrived (n % 6) }
  | .flow d => s.queueFlow (pkFlow q.pkt) d { q with pkt := s.outgoing q.pkt arrived d }
  | .fenced => (s.leave q).countPruned 1
  | .noPath d => ((s.leave q).countPruned 1).countNoPath d
  | .hops => s.dropHops q

/-- The OPC values defined for a class (R245). -/
def opcDefined (cls opc : Nat) : Bool :=
  if cls = Cls.req ∨ cls = Cls.rsp then opc % 16 ≤ 9 && opc / 64 % 2 == 0
  else if cls = Cls.dsp ∨ cls = Cls.ret then opc == 0
  else if cls = Cls.col then opc == 1 || opc == 2
  else (1 ≤ opc && opc ≤ 5) || (0x10 ≤ opc && opc ≤ 0x1F)

/-- The origin's check of a packet (R245). -/
def State.wellFormedPacket (s : State) (p : Packet) : Bool :=
  decide (pkClass p ≤ 5) && decide (pkMode p ≤ 2) && (if pkMode p = 0 then s.inTorus (pkDest p) else pkDest p == 0) &&
    opcDefined (pkClass p) (pkOpc p) && decide (pkLen p ≤ 1088) && p.payload.length == 16 * pkLen p && pkW1 p 2 0 == 0 && pkW3 p 38 32 == 0

/-- Send an RSP from this chip in the buffer of its REQ; one to this chip itself is taken at once, and a malformed one is discarded
(R245). -/
def State.sendRsp (s : State) (q : QPkt) (req : Packet) : State :=
  if pkDest q.pkt = s.chipId then (s.leave q).rspAccept q.pkt
  else if ¬ s.wellFormedPacket q.pkt then (s.leave q).fabReport F_FAB_DEST 2
  else s.forwardOnly q none (remoteRail (reqAddr req) (pkDest q.pkt) (pkSrc q.pkt))

/-- Number of set bits of a 32-bit map. -/
def bitCount (m : Nat) : Nat := ((List.range 32).filter (fun i => m.testBit i)).length

/-- Members or destinations lost with a packet that is pruned at this chip (R263). -/
def State.lostBy (s : State) (p : Packet) : Nat :=
  if pkMode p = 1 then bitsOf (s.mgWord (pkMgroup p) 0) 33 19 else if pkMode p = 2 then bitCount (pkLmap p) else 1

/-- A pruned packet (R263): a REQ is answered FENCED in its own buffer, any other is dropped; a mask-tree packet counts its members as
pruned in the aggregation, toward the port that it came in on (R261). -/
def State.prunePacket (s : State) (q : QPkt) : State :=
  let lost := s.lostBy q.pkt
  let s := s.countPruned lost
  if pkClass q.pkt = Cls.req then s.sendRsp { q with pkt := rspFor s.chipId q.pkt 0 RspSt.fenced } q.pkt
  else
    let s := s.leave q
    if pkMode q.pkt = 1 ∧ pkAckreq q.pkt ∧ s.mgValid (pkMgroup q.pkt) (pkJob q.pkt) then
      match q.fromPort with
      | some e => s.queueAgg e.1 (pkMgroup q.pkt) 0 lost
      | none => s
    else s

/-- Route a unicast packet that is not for this chip. -/
def State.forward (s : State) (q : QPkt) (arrived : Option Nat) : State :=
  match s.nextHop q.pkt (railOf q.pkt arrived) with
  | .fenced => s.prunePacket q
  | .noPath d => (s.prunePacket q).countNoPath d
  | _ => s.forwardOnly q arrived (railOf q.pkt arrived)

/-! Origination (R245, R256). -/

/-- The next SEQ of a class. -/
def State.nextSeq (s : State) (cls : Nat) : Nat × State :=
  let n := tget (fun _ => 0) s.router.seq cls
  (n, s.updRouter (fun r => { r with seq := tset (fun _ => 0) r.seq cls ((n + 1) % 2 ^ 24) }))

/-- Inject a unicast packet of context `c` (2: a fixed-function block): a malformed one faults the context (R245). -/
def State.inject (s : State) (c : Nat) (p : Packet) : State :=
  if s.selfFenced ∧ ¬ (pkClass p = Cls.ctl ∧ pkOpc p = 1) then s.prunePacket { pkt := p }
  else if s.wellFormedPacket p then s.forward { pkt := p } none
  else if c < 2 then s.contextFault c F_FAB_DEST else s.fabReport F_FAB_DEST 2

/-! Mask trees (R257 to R261). -/

/-- What happens to the copy toward a port: none if it is sent. -/
def State.copyLost (s : State) (p : Packet) (n : Nat) : Option Hop :=
  if s.fenced (s.neighbour (n % 6)) then some .fenced
  else if 63 < pkHops p + 1 then some .hops
  else if (if pkSched p then s.dirGone (n % 6) else (s.portFor (n % 6) (n / 6) (pkClass p)).isNone) then some (.noPath (n % 6))
  else none

/-- Send one copy of a mask-tree packet toward a port of its entry. -/
def State.sendCopy (s : State) (q : QPkt) (arrived : Option Nat) (n : Nat) : State :=
  let q := { q with pkt := s.outgoing q.pkt arrived (n % 6) }
  if pkSched q.pkt then s.queueFlow (pkFlow q.pkt) (n % 6) q
  else match s.portFor (n % 6) (n / 6) (pkClass q.pkt) with
    | some m => s.queuePort m q
    | none => s

/-- Count the copies that are not made. -/
def State.countLost (s : State) (g : Nat) (n : Nat) (h : Hop) : State :=
  match h with
  | .hops => (s.addSat FAB_COUNT0.HOPS 1).fabReport F_FAB_HOPS 2
  | .noPath d => (s.countPruned (s.mgSub g n)).countNoPath d
  | _ => s.countPruned (s.mgSub g n)

/-- Replicate a mask-tree packet by its entry (R258, R261): the state with every copy queued. `q` holds the ingress
buffer, whose references become one per copy and one for the local copy; `c` is the origin's context at the root. -/
def State.replicate (s : State) (q : QPkt) (arrived : Option Nat) (c : Nat) : State :=
  let g := pkMgroup q.pkt
  let ports := s.mgPorts g
  let sent := ports.filter (fun n => (s.copyLost q.pkt n).isNone)
  let lost := ports.filterMap (fun n => (s.copyLost q.pkt n).map (fun h => (n, h)))
  let loc := b01 (s.mgLocal g)
  let s1 := match q.buf with
    | some k => s.setBuf k { s.buf k with refs := sent.length + loc }
    | none => s
  let s2 := if pkAckreq q.pkt then
      s1.setAgg g (some ⟨arrived, c, pkAckcc q.pkt, pkPcc q.pkt, sent.length + loc, 0, (lost.map (fun x => s.mgSub g x.1)).sum⟩)
    else s1
  let s3 := lost.foldl (fun t x => t.countLost g x.1 x.2) s2
  let s4 := sent.foldl (fun t n => t.sendCopy q arrived n) s3
  s4.closeAgg g

/-- Originate a mask-tree packet of context `c` (R258, R261): refused at a chip that is not the root, faulted while an
aggregation is pending. The local copy reaches this chip as a command of its own. -/
def State.originateTree (s : State) (c : Nat) (p : Packet) : State :=
  let g := pkMgroup p
  if s.selfFenced then
    let s := s.countPruned (s.mgMembers g)
    if pkAckreq p then s.aggRoot c (pkAckcc p) (pkPcc p) 0 (s.mgMembers g) else s
  else if ¬ s.mgValid g (pkJob p) ∨ ¬ s.mgRoot g then (s.addSat FAB_COUNT0.MGROUP 1).fabReport F_FAB_MGROUP 2
  else if ¬ s.wellFormedPacket p then (if c < 2 then s.contextFault c F_FAB_DEST else s.fabReport F_FAB_DEST 2)
  else if pkAckreq p ∧ (s.aggState g).isSome then
    if c < 2 then s.contextFault c F_FAB_ACKBUSY else s.fabReport F_FAB_ACKBUSY 2
  else s.replicate { pkt := p } none c

/-! Arrival (R243, R244, R254, R258, R263). -/

/-- Count a packet's arrival on a port. -/
def State.countRx (s : State) (n : Nat) (p : Packet) : State :=
  let vc := vcOf p
  let fl := flitsOf p
  (s.updPort n (fun x => { x with
    flitsRx := Port.putN x.flitsRx vc ((Port.getN x.flitsRx vc + fl) % 2 ^ 32)
    buffered := if credited vc then Port.putN x.buffered vc (Port.getN x.buffered vc + fl) else x.buffered })).addMod
      (PORT_COUNT1.PKT_RX n) 1

/-- The Locker requester of a class's ingress (R248). -/
def ingressReq (cls : Nat) : Nat :=
  if cls = Cls.col then 61 else if cls = Cls.ctl then 62 else if cls = Cls.dsp ∨ cls = Cls.ret then 63 else 60

/-- A failed end-to-end check (R244). -/
def State.ecrcFail (s : State) (q : QPkt) : State :=
  (((s.leave q).addSat FAB_COUNT0.ECRC 1).fabReport F_FAB_ECRC 2).aggLocal q.pkt false

/-- Hand a packet, or this chip's copy of it, to its consumer, after the end-to-end check. -/
def State.deliverLocal (s : State) (q : QPkt) (consume : State → QPkt → State) : State :=
  if ecrcGood q.pkt then consume s q else s.ecrcFail q

/-- Draw an ingress buffer for a credited packet, or discard it with its credits returned (R192 step 2). -/
def State.drawIngress (s : State) (q : QPkt) (req : Nat) (k : State → QPkt → State) : State :=
  match s.ingressTake req (packetBytes q.pkt) with
  | none => (s.leave q).noQuota
  | some (b, s) => k s { q with buf := some b }

/-- A port passes a packet on: it carries the class, and no group is missing on its link (R235). -/
def State.passes (s : State) (n cls : Nat) : Bool := s.carries n cls && ! (s.port n).nakSent

/-- A mask-tree packet that arrives is replicated, not discarded or pruned (R258, R261, R263). -/
def State.treeTaken (s : State) (n : Nat) (p : Packet) : Bool :=
  s.passes n (pkClass p) && (! s.selfFenced || (pkClass p == Cls.ctl && (pkOpc p == 1 || pkOpc p == 3))) && pkMode p == 1 &&
    s.mgValid (pkMgroup p) (pkJob p) && ! (pkAckreq p && (s.aggState (pkMgroup p)).isSome) &&
    (s.ingressTake (ingressReq (pkClass p)) (packetBytes p)).isSome

/-- A credited packet arrives on a port (12 = this chip's own copy of a tree it roots): it is pruned, discarded,
routed on, replicated, or given to `consume` here. -/
def State.receive (s : State) (n : Nat) (p : Packet) (draw : Bool) (consume : State → QPkt → State) : State :=
  if n = 12 then s.deliverLocal { pkt := p } consume
  else if ¬ s.passes n (pkClass p) then s
  else
    let s := s.countRx n p
    let q : QPkt := { pkt := p, fromPort := some (n, vcOf p) }
    let req := ingressReq (pkClass p)
    if s.selfFenced ∧ ¬ (pkClass p = Cls.ctl ∧ (pkOpc p = 1 ∨ pkOpc p = 3)) then s.prunePacket q
    else if pkMode p = 0 then
      if 40 < pkHops p then s.dropHops q
      else if pkDest p = s.chipId then
        if draw then s.drawIngress q req (fun s q => s.deliverLocal q consume) else s.deliverLocal q consume
      else s.drawIngress q req (fun s q => s.forward q (some n))
    else if pkMode p = 1 then
      let g := pkMgroup p
      if ¬ s.mgValid g (pkJob p) then ((s.leave q).addSat FAB_COUNT0.MGROUP 1).fabReport F_FAB_MGROUP 2
      else if pkAckreq p ∧ (s.aggState g).isSome then (s.leave q).fabReport F_FAB_ACKBUSY 2
      else s.drawIngress q req (fun s q =>
        if (s.mgPorts g = [] ∧ ¬ s.mgLocal g) then s.leave q
        else
          let t := s.replicate q (some n) 2
          if s.mgLocal g then t.deliverLocal q consume
          else match q.buf with
            | some b => if (t.buf b).refs = 0 then (t.setBuf b { t.buf b with refs := 1 }).leave q else t
            | none => t)
    else s.leave q

/-! Poison (R310). -/

/-- A packet consumed at once, with no effect beyond its header. -/
def State.consumed (s : State) (q : QPkt) : State := s.leave q

end Sys2Proof.Machine
end

