-- ==== Sys2Proof/Machine/Intake.lean ====
section
/-!
DEFINITION. Intake of a Gate Engine: TOKEN and TALLY records, groups, row lists and GDT entries (R138, R141 to R144).
-/

namespace Sys2Proof.Machine

/-! Records (R138). -/

/-- `n` bytes of a record from offset `o`. -/
def State.recBytes (s : State) (r : HeldRec) (o n : Nat) : List Byte :=
  if r.data = [] then s.rinkBytes (r.addr + o) n else (r.data.drop o).take n

/-- Bits [hi:lo] of word `i` of a record. -/
def State.recF (s : State) (r : HeldRec) (i hi lo : Nat) : Nat := bitsOf (leNat (s.recBytes r (8 * i) 8)) hi lo

def State.rType (s : State) (r : HeldRec) : Nat := s.recF r 0 63 60
def State.rEpoch (s : State) (r : HeldRec) : Nat := s.recF r 0 59 44
def State.rLedger (s : State) (r : HeldRec) : Nat := s.recF r 0 15 0
def State.rSrc (s : State) (r : HeldRec) : Nat := s.recF r 1 63 50
def State.rSgate (s : State) (r : HeldRec) : Nat := s.recF r 1 49 47
def State.rRgate (s : State) (r : HeldRec) : Nat := s.recF r 1 46 44
def State.rGroup (s : State) (r : HeldRec) : Nat := s.recF r 1 43 34
def State.rSlot (s : State) (r : HeldRec) : Nat := s.recF r 1 33 28
def State.rSidx (s : State) (r : HeldRec) : Nat := s.recF r 1 27 16
def State.rOrd (s : State) (r : HeldRec) : Nat := s.recF r 1 15 0
def State.rRet (s : State) (r : HeldRec) : Nat := s.recF r 2 63 32

/-- The 64 counts of a TALLY record. -/
def State.rCounts (s : State) (r : HeldRec) : List Nat :=
  (List.range 64).map (fun i => leNat (s.recBytes r (32 + 2 * i) 2))

/-! Groups (R141). -/

/-- Bytes of gate SRAM. -/
def sramSize : Nat := 0x1000000

def Group.f (x : Group) (i hi lo : Nat) : Nat := bitsOf ((x.entry[i]?).getD 0).toNat hi lo
def Group.slots (x : Group) : Nat := x.f 0 62 57 + 1
def Group.senders (x : Group) : Nat := x.f 0 56 45 + 1
def Group.gdt (x : Group) : Nat := x.f 1 63 0
def Group.rl (x : Group) : Nat := x.f 2 63 0
def Group.ret (x : Group) : Nat := x.f 3 63 0

/-- RLBASE and CAP of a slot. -/
def State.rowCap (s : State) (g : Nat) (x : Group) (sl : Nat) : Nat × Nat :=
  let w := leNat (s.gateBytes g (x.f 4 39 16 + 4 * sl) 4)
  (w / 65536, w % 65536)

/-- A range is a space-0x1 address that lies wholly in the Rink. -/
def inRink (a n : Nat) : Bool := spaceOf a == 1 && decide (offOf a + n ≤ 0x18000000)

/-- Reserved bits of an intake entry. -/
def Group.reservedClear (x : Group) : Bool :=
  x.f 0 7 0 == 0 && x.f 4 15 0 == 0 && x.f 5 39 0 == 0 && x.f 6 63 0 == 0 && x.f 7 63 0 == 0

/-- The code that reading a group's entry raises. -/
def State.groupFault (s : State) (c g n : Nat) (x : Group) : Option Nat :=
  let eg := x.slots
  let top := ((List.range eg).map (fun sl => (s.rowCap g x sl).1 + (s.rowCap g x sl).2)).foldl max 0
  let ok := decide (s.rd (GE_INTAKE.BASE g) + 64 * n + 64 ≤ sramSize) && x.f 0 63 63 == 1 && x.reservedClear &&
    decide (x.f 4 63 40 + 64 * eg ≤ sramSize) && decide (x.f 4 39 16 + 4 * eg ≤ sramSize) &&
    decide (x.f 5 63 40 + 128 * x.senders ≤ sramSize) &&
    inRink x.gdt (64 * eg) && inRink x.rl (4 * top) && inRink x.ret (16 * top)
  if ¬ ok then some F_GATE_INTAKE
  else if x.f 0 20 20 = 1 ∧ (x.f 0 19 14 = x.f 0 13 8 ∨ x.f 0 19 14 ∉ cntRange c ∨ x.f 0 13 8 ∉ cntRange c) then
    some F_GATE_CNTDUP
  else none

def State.groupOf (s : State) (g n : Nat) : Option Group :=
  ((s.gate g).groups.find? (fun e => e.1 == n)).map (fun e => e.2)

/-- Set group `n` of an engine. -/
def State.setGroup (s : State) (g n : Nat) (x : Group) : State :=
  s.updGate g (fun y => { y with groups := (n, x) :: y.groups.filter (fun e => e.1 != n) })

def State.updGroup (s : State) (g n : Nat) (f : Group → Group) : State :=
  match s.groupOf g n with
  | none => s
  | some x => s.setGroup g n (f x)

/-- A group's entry as it is in gate SRAM now. -/
def State.readGroup (s : State) (g n : Nat) : Group :=
  { entry := (List.range 8).map (fun i => BitVec.ofNat 64 (s.gateWord g (s.rd (GE_INTAKE.BASE g) + 64 * n + 8 * i))) }

/-! Held records (R142, R144). -/

/-- GE_STATUS.HELD, INTAKE, GROUPS_FINAL and GE_COUNT2.HELD_MAX follow the engine's records. -/
def State.intakeStat (s : State) (g : Nat) : State :=
  let x := s.gate g
  let n := min ((x.groups.map (fun e => e.2.held.length)).sum + x.later.length) 65535
  let s := (s.wr (GE_STATUS.HELD g) n).wr (GE_STATUS.INTAKE g) (b01 (x.inbox != []))
  let s := s.wr (GE_STATUS.GROUPS_FINAL g) (min ((x.groups.filter (fun e => e.2.final)).length) 1023)
  s.wr (GE_COUNT2.HELD_MAX g) (max n (s.rd (GE_COUNT2.HELD_MAX g)))

/-- Link a record at the end of a list: word 3 of the last names it, and its own is 0 (R142). -/
def State.linkRec (s : State) (c : Nat) (last : Option HeldRec) (r : HeldRec) : State :=
  let s := match last with
    | some q => s.rinkWrite c (q.addr + 24) (leBytes 8 r.addr)
    | none => s
  s.rinkWrite c (r.addr + 24) (leBytes 8 0)

/-- Hold a record for a later epoch. -/
def State.holdLater (s : State) (c g e : Nat) (r : HeldRec) : State :=
  let n := s.rGroup r
  let last := ((s.gate g).later.filter (fun x => x.1 == e && s.rGroup x.2 == n)).getLast?
  ((s.linkRec c (last.map (fun x => x.2)) r).updGate g (fun y => { y with later := y.later ++ [(e, r)] })).intakeStat g

/-- Intake ends in a fault of the receiving context: the record's buffer is freed first. -/
def State.intakeFault (s : State) (c code : Nat) (r : HeldRec) : State := (s.devReleaseOpt r.buf).contextFault c code

/-- A record that the checks of R165 pass to intake (R138, R144): faulted, queued for the current step, or held for a
later one. -/
def State.toIntake (s : State) (c cur : Nat) (r : HeldRec) : State :=
  let g := s.rRgate r
  let e := s.rEpoch r
  if s.ctxOf (32 + g) ≠ c ∨ ¬ s.bit (GE_INTAKE.ENABLE g) ∨ ¬ (s.rType r = 1 ∨ s.rType r = 2) ∨
      s.rd (GE_INTAKE.NGROUPS_M1 g) < s.rGroup r then s.intakeFault c F_GATE_INTAKE r
  else if e = cur then (s.updGate g (fun y => { y with inbox := y.inbox ++ [r] })).intakeStat g
  else s.holdLater c g e r

/-! Placing tokens (R142). -/

/-- Count of sender `i` for slot `sl`. -/
def Group.count (x : Group) (i sl : Nat) : Nat :=
  match x.tallies.find? (fun t => t.1 == i) with
  | some t => (t.2[sl]?).getD 0
  | none => 0

/-- Rows of a slot. -/
def Group.rows (x : Group) (sl : Nat) : Nat := (x.tallies.map (fun t => (t.2[sl]?).getD 0)).sum

/-- Row at which sender `i`'s tokens of a slot begin. -/
def State.rowBase (s : State) (g : Nat) (x : Group) (i sl : Nat) : Nat :=
  (s.rowCap g x sl).1 + ((x.tallies.filter (fun t => decide (t.1 < i))).map (fun t => (t.2[sl]?).getD 0)).sum

/-- Write the row list and return list entries of a token and count it; `none` when its ordinal is beyond its tally. -/
def State.placeToken (s : State) (c g : Nat) (x : Group) (r : HeldRec) : Option State :=
  let i := s.rSidx r
  let sl := s.rSlot r
  let o := s.rOrd r
  if x.count i sl ≤ o then none
  else
    let row := s.rowBase g x i sl + o
    let ent := leBytes 8 (s.rRet r * 2 ^ 32 + s.rLedger r * 2 ^ 16 + s.rEpoch r) ++
      leBytes 8 (s.rSrc r * 2 ^ 50 + s.rSgate r * 2 ^ 47)
    let s := (s.rinkWrite c (offOf x.rl + 4 * row) (leBytes 4 ((r.addr + 32) / 16))).rinkWrite c (offOf x.ret + 16 * row) ent
    let s := match r.buf with
      | some k => (s.setBuf k { s.buf k with intake := some c }).updGate g (fun y => { y with kept := y.kept ++ [k] })
      | none => s
    some ((s.addCc c (x.f 0 44 33) 1).addMod (GE_COUNT2.ACCEPTED g) 1)

/-- Accept the records held until the last tally, stopping at a fault. -/
def State.placeHeld (s : State) (c g n : Nat) (x : Group) : List HeldRec → State
  | [] => s
  | r :: l => match s.placeToken c g x r with
    | none => s.contextFault c F_GATE_TALLY
    | some t => (t.updGroup g n (fun y => { y with held := y.held.erase r })).placeHeld c g n x l

/-! GDT entries and counts (R143). -/

/-- The GDT entry of a slot: its template with VALID, ROWS, A_LIST and A_ADDR replaced. -/
def State.slotEntry (s : State) (g : Nat) (x : Group) (sl : Nat) : List Byte :=
  let a := x.f 4 63 40 + 64 * sl
  leBytes 8 (withBits (withBits (s.gateWord g a) 63 63 1) 45 45 1) ++ leBytes 8 (withBits (s.gateWord g (a + 8)) 28 16 (x.rows sl)) ++
    leBytes 8 (x.rl + 4 * (s.rowCap g x sl).1) ++ s.gateBytes g (a + 24) 40

/-- Write an LS_CNT value, unless it is FINAL already. -/
def State.writeCnt (s : State) (i v : Nat) : Option State :=
  if s.bit (LS_CNT.FINAL i) then none else some ((s.wr (LS_CNT.VALUE i) v).wr (LS_CNT.FINAL i) 1)

/-- The last tally of a group: its GDT entries, its LS_CNT values, and the tokens held for it. -/
def State.finishGroup (s : State) (c g n : Nat) : State :=
  match s.groupOf g n with
  | none => s
  | some x =>
    let slots := List.range x.slots
    if slots.any (fun sl => decide ((s.rowCap g x sl).2 < x.rows sl)) then s.contextFault c F_GATE_TALLY
    else
      let used := slots.filter (fun sl => decide (0 < x.rows sl))
      let s1 := (used.zipIdx).foldl (fun s e => s.rinkWrite c (offOf x.gdt + 64 * e.2) (s.slotEntry g x e.1)) s
      let total := (slots.map (fun sl => x.rows sl)).sum
      let s2 := if x.f 0 20 20 = 1 then
          match s1.writeCnt (x.f 0 19 14) used.length with
          | none => none
          | some t => t.writeCnt (x.f 0 13 8) total
        else some s1
      match s2 with
      | none => s1.contextFault c F_GATE_CNTDUP
      | some t => (t.updGroup g n (fun y => { y with final := true })).placeHeld c g n x x.held

/-! The two record commands. -/

/-- The group of a record, its entry read if this is its first use in the step, or the code that this raises. -/
def State.useGroup (s : State) (c g n : Nat) : Nat ⊕ State :=
  match s.groupOf g n with
  | some _ => .inr s
  | none =>
    let x := s.readGroup g n
    match s.groupFault c g n x with
    | some f => .inl f
    | none => .inr (s.setGroup g n x)

/-- A TALLY record enters R142. -/
def State.takeTally (s : State) (c g n : Nat) (r : HeldRec) : State :=
  match s.groupOf g n with
  | none => s
  | some x =>
    let i := s.rSidx r
    let cs := s.rCounts r
    if x.senders ≤ i ∨ x.tallies.any (fun t => t.1 == i) then s.intakeFault c F_GATE_TALLY r
    else
      let s := s.setGate g (x.f 5 63 40 + 128 * i) (s.recBytes r 32 128)
      let s := ((s.addCc c (x.f 0 32 21) 1).addSat (GE_COUNT2.TALLIES g) 1).devReleaseOpt r.buf
      let s := s.setGroup g n { x with tallies := x.tallies ++ [(i, cs)] }
      if x.tallies.length + 1 = x.senders then s.finishGroup c g n else s

/-- A TOKEN record enters R142. -/
def State.takeToken (s : State) (c g n : Nat) (r : HeldRec) : State :=
  match s.groupOf g n with
  | none => s
  | some x =>
    if x.senders ≤ s.rSidx r ∨ x.slots ≤ s.rSlot r then s.intakeFault c F_GATE_EHT r
    else if x.final then
      match s.placeToken c g x r with
      | none => s.intakeFault c F_GATE_TALLY r
      | some t => t
    else (s.linkRec c x.held.getLast? r).updGroup g n (fun y => { y with held := y.held ++ [r] })

/-- Intake takes no record of group `n` on an engine: it is disabled, or has no such group (R144). -/
def State.intakeShut (s : State) (g n : Nat) : Bool := ! s.bit (GE_INTAKE.ENABLE g) || decide (s.rd (GE_INTAKE.NGROUPS_M1 g) < n)

/-- The next record of a type in an engine's inbox enters the procedure of R142. One that the Rink returns with an uncorrectable error is
discarded (R177). -/
def State.takeNext (s : State) (g ty : Nat) (take : State → Nat → Nat → HeldRec → State) : State :=
  let c := s.ctxOf (32 + g)
  if ¬ s.ctxExists c ∨ (s.ctx c).step = none then s
  else match (s.gate g).inbox.find? (fun r => s.rType r == ty) with
    | none => s
    | some r =>
      let s := s.updGate g (fun y => { y with inbox := y.inbox.erase r })
      let n := s.rGroup r
      let m := if r.buf.isSome then (if ty = 1 then 32 else 160) else 0
      let bad := s.rinkBad r.addr m
      let s := s.checkRead (rinkPort (32 + g)) 1 r.addr m true
      if bad then (s.devReleaseOpt r.buf).intakeStat g
      else if s.intakeShut g n then s.intakeFault c F_GATE_INTAKE r
      else match s.useGroup c g n with
        | .inl f => s.intakeFault c f r
        | .inr t => (take t c n r).intakeStat g

/-- INTAKE_TOKEN_RX. -/
def execIntakeTokenRx (g : Fin 8) (s : State) : Res := s.granting <| .next (s.takeNext g 1 (fun t c n r => t.takeToken c g n r))

/-- INTAKE_TALLY_RX. -/
def execIntakeTallyRx (g : Fin 8) (s : State) : Res := s.granting <| .next (s.takeNext g 2 (fun t c n r => t.takeTally c g n r))

end Sys2Proof.Machine
end

