-- ==== Sys2Proof/Machine/Course.lean ====
section
/-!
DEFINITION. The Course: its image and load, slots, flow queues, the arrival checks of DSP and RET packets, line packets,
transit and the cancel list (R149 to R171).
-/

namespace Sys2Proof.Machine

/-! The image (R149 to R153). -/

/-- Offsets of the parts of an image. -/
def courseFlows : Nat := 0x180040
def courseRet : Nat := 0x190040
def courseShares : Nat := 0x198040

/-- Word `i` of a Course image at `a`. -/
def State.imgWord (s : State) (a i : Nat) : Nat := s.rinkWord (a + 8 * i)

/-- INGRESS of port `p` in an image. -/
def State.imgIngress (s : State) (a p : Nat) : Nat :=
  bitsOf (s.imgWord a (1 + p / 4)) (16 * (p % 4) + 15) (16 * (p % 4))

/-- INBUF of pool `p` in an image. -/
def State.imgInbuf (s : State) (a p : Nat) : Nat := bitsOf (s.imgWord a (4 + p / 2)) (32 * (p % 2) + 31) (32 * (p % 2))

def State.imgShares (s : State) (a : Nat) : Nat := bitsOf (s.imgWord a 0) 31 0
def State.imgFlow (s : State) (a f : Nat) : Nat := s.rinkWord (a + courseFlows + 8 * f)
def State.imgSlot (s : State) (a p i : Nat) : Nat := s.rinkWord (a + 0x40 + 0x20000 * p + 8 * i)
def State.imgHas (s : State) (a p : Nat) : Bool := (s.imgWord a 0).testBit (36 + p)

/-! Fields of Flow Table entries (R152). -/
def flowValid (w : Nat) : Bool := bitsOf w 63 63 == 1
def flowClass (w : Nat) : Nat := bitsOf w 62 60
def flowLine (w : Nat) : Bool := bitsOf w 59 59 == 1
def flowDest (w : Nat) : Nat := bitsOf w 58 45
def flowDim (w : Nat) : Nat := bitsOf w 44 44
def flowDir (w : Nat) : Nat := bitsOf w 43 43
def flowJob (w : Nat) : Nat := bitsOf w 42 27

/-- A slot table entry of port `p` that keeps R153, with the image's Flow Table. -/
def State.slotOk (s : State) (a p w : Nat) : Bool :=
  let cls := slotClass w
  let job := bitsOf w 57 42
  let f := slotFlow w
  bitsOf w 25 0 == 0 && bitsOf w 61 61 == p / 6 &&
    (if slotCal w then slotValid w && cls == 0 && job == 0 && f == 0
     else if slotValid w then
       decide (2 ≤ cls) && decide (cls ≤ 5) && job != 0 && decide (f ≤ 8191) && flowValid (s.imgFlow a f) &&
         flowClass (s.imgFlow a f) == cls && flowJob (s.imgFlow a f) == job
     else cls == 0 && job == 0 && f == 0)

/-- The form of an image (R153): F_DSP_COURSE unless it holds. -/
def State.courseOk (s : State) (a : Nat) : Bool :=
  a % 64 == 0 && decide (a + courseShares ≤ 0x18000000) && decide (a + courseShares + 8 * s.imgShares a ≤ 0x18000000) &&
  bitsOf (s.imgWord a 0) 63 48 == 1 && bitsOf (s.imgWord a 0) 35 32 == 0 && s.imgWord a 6 == 0 && s.imgWord a 7 == 0 &&
  (List.range 12).all (fun p => decide (s.imgIngress a p ≤ 16384)) &&
  (List.range 8192).all (fun f => bitsOf (s.imgFlow a f) 26 0 == 0 && (! flowLine (s.imgFlow a f) || flowClass (s.imgFlow a f) == 2)) &&
  (List.range 12).all (fun p => ! s.imgHas a p || (List.range 16384).all (fun i => s.slotOk a p (s.imgSlot a p i))) &&
  (List.range (s.imgShares a)).all (fun i =>
    let w := s.rinkWord (a + courseShares + 8 * i)
    bitsOf w 36 16 == 0 && bitsOf w 60 37 % 16 == 0 && decide (bitsOf w 60 37 + 16 ≤ sramSize))

/-- The quotas of an image (R16, R153, R154): F_DSP_DEPTH unless it holds. Before the lock every quota and COUNT is 0. -/
def State.depthOk (s : State) (a : Nat) : Bool :=
  let on := s.bit LKR_CTL.LOCK
  let resv (p : Nat) : Nat := if on then s.rd (LKR_QUOTA.RESV 63 p) else 0
  let count (p : Nat) : Nat := if on then s.poolCount p else 0
  let quota := ((List.range 6).map (fun p => resv p * poolSize p)).sum
  let slots := ((List.range 12).map (fun p => s.imgIngress a p)).sum
  decide (slots * 200000 * s.rd LAP_CFG.PERIOD_US ≤ quota * 16384) &&
    (List.range 4).all (fun p => decide (s.imgInbuf a p ≤ resv p) && (s.imgInbuf a p == 0 || count p != 0)) &&
    decide (((List.range 4).map (fun p => s.imgInbuf a p * poolSize p)).sum ≤ 335544320)

def noFlow (_ : Nat) : Nat := 0xFFFF

/-- A table built from the values of a range of keys. -/
def tableOf {α : Type} [DecidableEq α] (d : Nat → α) (n : Nat) (f : Nat → α) : List (Nat × α) :=
  (List.range n).foldl (fun t i => tset d t i (f i)) []

/-- The Course that an image describes. -/
def State.parseCourse (s : State) (a : Nat) : Course :=
  { slots := (List.range 12).flatMap (fun p => if s.imgHas a p then
      (List.range 16384).filterMap (fun i => if s.imgSlot a p i = 0 then none else some (p * 16384 + i, BitVec.ofNat 64 (s.imgSlot a p i)))
      else if p < 6 then [] else (List.range 16384).map (fun i => (p * 16384 + i, BitVec.ofNat 64 (2 ^ 61))))
    flows := tableOf zeroWord 8192 (fun f => BitVec.ofNat 64 (s.imgFlow a f))
    retmap := tableOf noFlow 16384 (fun c => leNat (s.rinkBytes (a + courseRet + 2 * c) 2))
    shares := (List.range (s.imgShares a)).map (fun i => BitVec.ofNat 64 (s.rinkWord (a + courseShares + 8 * i)))
    ingress := (List.range 12).map (fun p => s.imgIngress a p)
    hash := Config.sha3_256 (s.rinkBytes a (courseShares + 8 * s.imgShares a)) }

/-- The active Course. -/
def State.activeCourse (s : State) : Course := s.course (s.rd COURSE_STATUS.BANK)

/-- A Flow Table entry of the active Course. -/
def State.flowEntry (s : State) (f : Nat) : Nat := if f < 8192 then (tget zeroWord s.activeCourse.flows f).toNat else 0

/-- The flow that the Return Map gives for a logical chip (0xFFFF: none). -/
def State.retFlow (s : State) (c : Nat) : Nat := tget noFlow s.activeCourse.retmap c

/-- COURSE_LOAD: a write of COURSE_ACT with LOAD = 1. -/
def execCourseLoad (v : Word) (s : State) : Res := s.live <|
  let s := s.wr COURSE_ACT.ACT_LAP (fieldOf v COURSE_ACT.ACT_LAP)
  .next (if s.bit COURSE_STATUS.LOADING then s.report F_DSP_COURSE 2 0
    else
      let s := ((s.setBit COURSE_STATUS.STAGED false).setBit COURSE_STATUS.PENDING false).setCourse (1 - s.rd COURSE_STATUS.BANK) {}
      { s.setBit COURSE_STATUS.LOADING true with loading := some (s.rd COURSE_SRC.ADDR) })

/-- COURSE_LOAD_DONE. An image of which a word cannot be read is discarded, and the host is told (R177). -/
def execCourseLoadDone (s : State) : Res := s.granting <|
  .next (match s.loading with
    | none => s
    | some a =>
      let s := { s.setBit COURSE_STATUS.LOADING false with loading := none }
      let n := courseShares + 8 * s.imgShares a
      let s := s.checkRead 49 1 a n true
      if s.rinkBad a n then s
      else if ¬ s.courseOk a then s.report F_DSP_COURSE 2 0
      else if ¬ s.depthOk a then s.report F_DSP_DEPTH 2 0
      else
        let s := (s.setCourse (1 - s.rd COURSE_STATUS.BANK) (s.parseCourse a)).setBit COURSE_STATUS.STAGED true
        s.setBit COURSE_STATUS.PENDING (decide (s.rd COURSE_ACT.ACT_LAP ≤ s.lapNo)))

/-- Activation at a lap edge (R155): the banks swap, every SHARE is written, and the repaired ports serve their own slots again (R266). -/
def State.activateCourse (s : State) : State :=
  let b := 1 - s.rd COURSE_STATUS.BANK
  let s := s.setCourse b { s.course b with caldyn := s.bit COURSE_CTL.CALDYN }
  let s := ((s.wr COURSE_STATUS.BANK b).setBit COURSE_STATUS.STAGED false).setBit COURSE_STATUS.PENDING false
  let s := s.wr COURSE_STATUS.ACTIVE_LAP s.lapNo
  let s := s.updRouter (fun r => { r with shared := r.shared.filter (fun n => ! s.inService n) })
  let s := s.activeCourse.shares.foldl (fun s w =>
    let g := bitsOf w.toNat 63 61
    let a := bitsOf w.toNat 60 37 + 8
    s.setGate g a (leBytes 8 (withBits (s.gateWord g a) 63 48 (bitsOf w.toNat 15 0)))) s
  s.trace 7 255 2 (s.lapNo % 2 ^ 32)

/-! Slots (R156, R160). -/

/-- A slot is over: MISSED counts a packet of its flow that was there at its start and still waits. What the slot was stays in force until
the next is decided. -/
def State.endSlot (s : State) (n : Nat) : State :=
  match (s.port n).slot with
  | none => s
  | some r =>
    if r.ended then s
    else
      let w := s.servedSlot n (r.index % 16384)
      let s := s.updPort n (fun x => { x with slot := some { r with ended := true } })
      if slotValid w ∧ ¬ slotCal w ∧ (s.flowQueue (flowKey (slotFlow w) (n % 6))).any (fun q => r.waiting.contains q.pkt) then
        s.addSat (SLOT_CNT.MISSED n) 1
      else s

/-- What a slot becomes (R156): 1 FILLED, 2 IDLE, 3 OPEN. -/
def State.slotKind (s : State) (n w : Nat) : Nat :=
  if ¬ slotValid w then 3
  else if slotCal w ∨ s.isShared n ∨ ¬ s.carries n (slotClass w) ∨ s.flowQueue (flowKey (slotFlow w) (n % 6)) = [] then 2 else 1

/-- The rail partner serves the port's slot `i` (R266). -/
def State.partnerServes (s : State) (n i : Nat) : Bool :=
  s.isShared n && decide (s.servedSlot (partner n) i = s.slotWord n i) && s.carries (partner n) (slotClass (s.slotWord n i))

/-- The packets of a slot's flow that wait at its start: MISSED counts one that still waits at its end (R160). -/
def State.slotWaiting (s : State) (n i : Nat) : List Packet :=
  let w := s.servedSlot n i
  if slotValid w ∧ ¬ slotCal w ∧ ¬ s.partnerServes n i then
    (s.flowQueue (flowKey (slotFlow w) (n % 6))).map (fun q => q.pkt)
  else []

/-- The port decides the slot in force, unless it has, and may start a packet. -/
def State.decideSlot (s : State) (n : Nat) : State :=
  if (s.port n).slot.any (fun r => r.index == s.slotNo) then s
  else
    let s := s.endSlot n
    let i := s.slotIdx
    let k := s.slotKind n (s.servedSlot n i)
    let r : SlotRun := { index := s.slotNo, kind := k, since := s.clk, waiting := s.slotWaiting n i }
    (s.updPort n (fun x => { x with
      slot := some r
      doubled := x.doubled || (k == 1 && x.seen.contains i)
      seen := i :: x.seen
      filled := x.filled + b01 (k == 1)
      idle := x.idle + b01 (k == 2)
      opened := x.opened + b01 (k == 3) })).chooseNext n

/-- SLOT_START. Where slots of one flow start on both rails of a direction, rail A's port decides first (R156). -/
def execSlotStart (n : Fin 12) (s : State) : Res := s.live <|
  let a := partner n
  let wn := s.servedSlot n s.slotIdx
  let wa := s.servedSlot a s.slotIdx
  let both : Bool := decide (6 ≤ n.val) && slotValid wn && slotValid wa && ! slotCal wn && ! slotCal wa && slotFlow wn == slotFlow wa
  .next (if s.rd LAP_STATUS.STATE = LapSt.stopped then s
    else if both then (s.decideSlot a).decideSlot n
    else s.decideSlot n)

/-- SLOT_END: the last stride of the slot in force, or a slot decided earlier. -/
def execSlotEnd (n : Fin 12) (s : State) : Res := s.live <|
  .next (match (s.port n).slot with
    | none => s
    | some r => if r.index ≠ s.slotNo ∨ s.stride % 64 = 63 then (s.endSlot n).chooseNext n else s)

/-! Arrival checks (R164, R165, R171). -/

/-- The far end's slot in which a packet that arrives now left, as a number of course time: the one that holds its arrival stamp, a
stride, less the link delay. The delay is in 1/256 clk, and a clk lasts PHASE_INC / 2^44 strides (R164, R270). -/
def State.farSlot (s : State) (n : Nat) : Nat := (s.ct * 2 ^ 52 - s.rd (PORT_DELAY.DELAY n) * s.rd LAP_LOOP.PHASE_INC) / 2 ^ 58

/-- Count the slot of an arriving DSP or RET packet, or discard the packet beyond the port's INGRESS (R164). -/
def State.countIngress (s : State) (n : Nat) (ok : State → State) : State :=
  let x := s.port n
  let sl := s.farSlot n
  if x.ingressSlot = some sl then ok s
  else if (s.activeCourse.ingress[n]?).getD 0 ≤ x.ingress then (s.addSat DSP_COUNT.INGRESS_DROP 1).report F_DSP_INGRESS 2 0
  else ok (s.updPort n (fun x => { x with ingress := x.ingress + 1, ingressSlot := some sl }))

/-- A stray discard (R165): counted and reported. -/
def State.dspStray (s : State) (c : Nat) : State := ((s.addSat DSP_COUNT.STRAY 1).lapFlag 18).report F_DSP_STRAY c 0

/-- A stale discard (R172). -/
def State.dspStale (s : State) : State := (s.addSat DSP_COUNT.STALE 1).lapFlag 18

/-- The epoch check of R165 for context `x` (none: the job has no context here): pass, with the running step's epoch,
or the state after the discard. -/
def State.epochCheck (s : State) (x : Option Nat) (e : Nat) (ahead : Nat) : Nat ⊕ State :=
  match x with
  | none => .inr (s.dspStray 2)
  | some c =>
    if ¬ s.ctxExists c then .inr (s.dspStray 2)
    else if s.cancelled c e then .inr s.dspStale
    else match s.epoch c with
      | none => .inr (s.dspStray c)
      | some cur => if (e + 2 ^ 16 - cur % 2 ^ 16) % 2 ^ 16 ≤ ahead then .inl cur else .inr (s.dspStray c)

/-- A TOKEN or TALLY for context `x`, in a buffer already drawn or about to be: `put` places the record when it passes. -/
def State.dspCheck (s : State) (x : Option Nat) (e : Nat) (put : State → Nat → Nat → State) (drop : State → State) : State :=
  match s.epochCheck x e 2 with
  | .inr t => drop t
  | .inl cur => put s (x.getD 0) cur

/-- Counter of DSP_RETCC for engine `g` (R167). -/
def State.retCc (s : State) (g : Nat) : Nat :=
  s.rd (match g % 4 with
    | 0 => DSP_RETCC.CC0 (g / 4)
    | 1 => DSP_RETCC.CC1 (g / 4)
    | 2 => DSP_RETCC.CC2 (g / 4)
    | _ => DSP_RETCC.CC3 (g / 4))

/-- A return through a Rink port for context `x` with its epoch and payload, the 16-byte return list entry first (R165, R295); `also`
follows where it is accepted. -/
def State.acceptReturn (s : State) (port : Nat) (x : Option Nat) (e : Nat) (payload : List Byte) (also : State → State) : State :=
  match s.epochCheck x e 0 with
  | .inr t => t
  | .inl _ =>
    let c := x.getD 0
    let w0 := leNat (payload.take 8)
    let w1 := leNat ((payload.drop 8).take 8)
    let g := bitsOf w1 49 47
    let i := bitsOf w0 31 16
    let ret := bitsOf w0 63 32
    if s.ctxOf (32 + g) ≠ c ∨ s.rd (GE_LEDGER.SIZE_M1 g) < i then s.contextFault c F_DSP_RETBAD
    else if s.recState g i ≠ 1 ∨ bitsOf (s.recWord g i 0) 56 41 ≠ e ∨ bitsOf (s.recWord g i 2) 63 32 ≠ ret then
      s.contextFault c F_DSP_RETBAD
    else if ret ≠ 0 ∧ poolSize (keyPool (keyOfHandle ret)) < payload.length then s.report F_COL_RETLEN c 0
    else
      let a := s.bufBase (keyOfHandle ret)
      let s := if ret = 0 then s else (s.present port a payload.length).rinkWrite c a payload
      let s := s.setRecWord g i 0 (withBits (s.recWord g i 0) 63 61 2)
      let s := s.setRecWord g i 3 (withBits (s.recWord g i 3) 19 0 s.stride)
      also ((s.updGate g (fun y => { y with closedRecs := y.closedRecs + 1 })).addCc c (s.retCc g) 1)

/-! Arrival (R154, R163, R165). -/

/-- The record that a DSP packet brings lands in a buffer, as the whole packet does (R154), and enters intake. -/
def State.landRecord (s : State) (p : Packet) (rec : List Byte) : State :=
  s.dspCheck (s.ctxOfJob (pkJob p)) (pkEpoch p) (fun s c cur =>
    match s.ingressTake 63 (32 + rec.length) with
    | none => s.noQuota
    | some (k, t) =>
      let t := t.setRink (t.bufBase k) (headerBytes p ++ rec)
      (t.toIntake c cur ⟨t.bufBase k + 32, some k, []⟩).acceptPoison c p) (fun t => t.latePoison (s.ctxOfJob (pkJob p)) p)

/-- A packet fails its check at its destination. -/
def State.ecrcDrop (s : State) : State := (s.addSat FAB_COUNT0.ECRC 1).fabReport F_FAB_ECRC 2

/-- The router's part of an arriving packet: a port that passes it on, the fence of this chip, the hop limit of a unicast packet, and for
a DSP or RET packet the INGRESS count. -/
def State.arrive (s : State) (n : Nat) (p : Packet) (go : State → State) : State :=
  if ¬ s.passes n (pkClass p) then s
  else
    let s := s.countRx n p
    let q : QPkt := { pkt := p, fromPort := some (n, vcOf p) }
    if s.selfFenced then s.prunePacket q
    else if pkMode p = 0 ∧ 40 < pkHops p then s.dropHops q
    else if pkClass p = Cls.dsp ∨ pkClass p = Cls.ret then s.countIngress n go
    else go s

/-! Line packets (R162). -/

/-- The bitmap in a line packet's payload, and its member count. -/
def lineMap (p : Packet) : Nat := leNat ((p.payload.drop 4).take 4)
def lineN (p : Packet) : Nat := leNat (p.payload.take 1)

/-- The packet is well formed: n members, and a LEN that fits n and the records' TYPE. -/
def lineOk (p : Packet) : Bool :=
  let n := lineN p
  let shared := p.payload.drop (16 + 32 * n)
  n == bitCount (lineMap p) && decide (16 + 32 * n ≤ p.payload.length) && pkLen p * 16 == p.payload.length &&
    (List.range n).all (fun i => leNat ((p.payload.drop (16 + 32 * i)).take 8) / 2 ^ 60 != 2 || shared.length == 128)

/-- The record of the member at coordinate `a`. -/
def lineRecord (p : Packet) (a : Nat) : List Byte :=
  let k := bitCount (lineMap p % 2 ^ a)
  (p.payload.drop (16 + 32 * k)).take 32 ++ p.payload.drop (16 + 32 * lineN p)

/-- The packet goes on along its line while members are left. -/
def State.lineOn (s : State) (n : Nat) (p : Packet) (left : Nat) : State :=
  let d := 2 * pkLdim p + pkLdir p
  if left = 0 then s
  else if s.fenced (s.neighbour d) then s.countPruned (bitCount left)
  else if s.dirGone d then (s.countPruned (bitCount left)).countNoPath d
  else if 63 < pkHops p + 1 then (s.addSat FAB_COUNT0.HOPS 1).fabReport F_FAB_HOPS 2
  else match s.ingressTake 63 (packetBytes p) with
    | none => s.noQuota
    | some (k, t) => t.queueFlow (pkFlow p) d { pkt := t.outgoing (putW2 p 63 32 left) (some n) d, buf := some k, fromPort := some (n, vcOf p) }

/-- A line packet arrives at this chip: its member's record is delivered, and the rest goes on. -/
def State.receiveLine (s : State) (n : Nat) (p : Packet) : State :=
  let a := coordOf s.chipId (pkLdim p)
  if (pkLmap p).testBit a then
    if ¬ ecrcGood p ∨ ¬ lineOk p then s.ecrcDrop
    else (s.landRecord p (lineRecord p a)).lineOn n p (withBits (pkLmap p) a a 0)
  else s.lineOn n p (pkLmap p)

/-- A unicast packet, or a packet of a tree this chip is no member of, that has arrived for other chips. -/
def State.transit (s : State) (n : Nat) (p : Packet) : State :=
  s.drawIngress { pkt := p, fromPort := some (n, vcOf p) } (ingressReq (pkClass p)) (fun s q => s.forward q (some n))

/-- DSP_PACKET_RX: a TOKEN or TALLY packet, or a line packet, at this chip. -/
def execDspPacketRx (n : Fin 12) (p : Packet) (s : State) : Res := s.granting <|
  .next (if pkClass p ≠ Cls.dsp then s
    else if pkMode p = 2 then s.arrive n p (fun s => s.receiveLine n p)
    else if pkMode p = 0 ∧ pkDest p = s.chipId then
      s.arrive n p (fun s =>
        if ¬ ecrcGood p then s.ecrcDrop
        else s.landRecord p p.payload)
    else s)

/-- RET_PACKET_RX: the packet holds an ingress buffer until its return buffer is written (R154). -/
def execRetPacketRx (n : Fin 12) (p : Packet) (s : State) : Res := s.granting <|
  .next (if pkClass p ≠ Cls.ret ∨ pkMode p ≠ 0 ∨ pkDest p ≠ s.chipId then s
    else s.arrive n p (fun s =>
      if ¬ ecrcGood p then s.ecrcDrop
      else match s.epochCheck (s.ctxOfJob (pkJob p)) (pkEpoch p) 0 with
        | .inr t => t.latePoison (s.ctxOfJob (pkJob p)) p
        | .inl _ => match s.ingressTake 63 (packetBytes p) with
          | none => s.noQuota
          | some (k, t) =>
            (t.devRelease k).acceptReturn (fabricPort n) (s.ctxOfJob (pkJob p)) (pkEpoch p) p.payload
              (fun t => t.acceptPoison ((s.ctxOfJob (pkJob p)).getD 2) p)))

/-- PACKET_TRANSIT: a packet for other chips. One that this chip is a destination of arrives by its class's command. -/
def execPacketTransit (n : Fin 12) (p : Packet) (s : State) : Res := s.granting <|
  let away := if pkMode p = 0 then decide (pkDest p ≠ s.chipId)
    else if pkMode p = 1 then ! s.mgLocal (pkMgroup p)
    else pkMode p == 2 && ! (pkLmap p).testBit (coordOf s.chipId (pkLdim p))
  .next (if ¬ away then s
    else if pkMode p = 2 then s.arrive n p (fun s => s.lineOn n p (pkLmap p))
    else if pkMode p = 1 then s.receive n p true (fun s q => s.leave q)
    else s.arrive n p (fun s => s.transit n p))

/-- CANCEL_LIST_EXPIRY: entries whose 1,024 laps have passed leave (R171). -/
def execCancelListExpiry (c : Fin 2) (s : State) : Res := s.live <|
  .next (s.updCtx c (fun x => { x with cxl := x.cxl.filter (fun e => decide (s.lapNo < e.2 + 1024)) }))

/-! Injection (R161, R162). -/

/-- A record in buffer `k` becomes one unicast packet of its flow. -/
def State.injectRecord (s : State) (c f dest : Nat) (rec : List Byte) (k : Option Nat) : State :=
  let (q, s) := s.nextSeq Cls.dsp
  let i : PacketInfo := { cls := Cls.dsp, sched := true, dest := dest, src := s.chipId, job := s.rd (CTX_JOB.JOB c) }
  let p := mkPacket { i with seq := q, flow := f, epoch := (s.epoch c).getD 0 } rec
  if s.selfFenced then s.prunePacket { pkt := p, buf := k }
  else if s.wellFormedPacket p then s.forward { pkt := p, buf := k } none
  else (s.devReleaseOpt k).contextFault c F_FAB_DEST

/-- A line packet of combined records enters its flow's queue. -/
def State.injectLine (s : State) (c : Nat) (l : LinePkt) : State :=
  let e := s.flowEntry l.flow
  let d := 2 * flowDim e + flowDir e
  let ms := (List.range 32).filterMap (fun i => l.members.find? (fun m => m.1 == i))
  let lmap := (ms.map (fun m => 2 ^ m.1)).sum
  let bufs := ms.filterMap (fun m => m.2.2)
  let payload := leBytes 4 ms.length ++ leBytes 4 lmap ++ leBytes 8 0 ++ ms.flatMap (fun m => m.2.1) ++ l.shared
  let (q, s) := s.nextSeq Cls.dsp
  let i : PacketInfo := { cls := Cls.dsp, mode := 2, sched := true, src := s.chipId, job := s.rd (CTX_JOB.JOB c), seq := q }
  let p := mkPacket { i with flow := l.flow, lmap := lmap, ldim := flowDim e, ldir := flowDir e, epoch := (s.epoch c).getD 0 } payload
  let free (s : State) : State := bufs.foldl (fun s k => s.devRelease k) s
  if s.selfFenced ∨ s.fenced (s.neighbour d) then (free s).countPruned ms.length
  else if s.dirGone d then ((free s).countPruned ms.length).countNoPath d
  else if ¬ s.wellFormedPacket p then (free s).contextFault c F_FAB_DEST
  else s.queueFlow l.flow d { pkt := s.outgoing p none d, buf := bufs.head?, more := bufs.drop 1 }

end Sys2Proof.Machine
end

