-- ==== Sys2Proof/Machine/Domains.lean ====
section
/-!
DEFINITION. Power domains, power status and its interrupts (R435, R438, R440, R443).
-/

namespace Sys2Proof.Machine

def State.updPower (s : State) (f : Power → Power) : State := { s with power := f s.power }

/-- Power states (PWR_STATUS.STATE). -/
def PwrSt.start : Nat := 0
def PwrSt.p0 : Nat := 1
def PwrSt.p1 : Nat := 2
def PwrSt.p2prep : Nat := 3
def PwrSt.p2 : Nat := 4
def PwrSt.hold : Nat := 5

def State.pwrState (s : State) : Nat := s.rd PWR_STATUS.STATE

/-- An in-band interrupt, whose payload byte holds STATE (R435). -/
def State.interrupt (s : State) : State := s.emit (.ibi s.pwrState)

/-- A new power state, told to the BMC. -/
def State.setPwrState (s : State) (st : Nat) : State := (s.wr PWR_STATUS.STATE st).interrupt

/-- A code of the power subject (R454): reported, and told to the BMC. -/
def State.pwrReport (s : State) (code info : Nat) : State := (s.report code 2 info).interrupt

/-- CSV_STATUS.LIMIT becomes 1 (R24, R426). -/
def State.setLimit (s : State) : State :=
  if s.bit CSV_STATUS.LIMIT then s else (s.setBit CSV_STATUS.LIMIT true).trouble 23

/-- READY and P0 once every controller is in RUN after a start (R451 step 8). -/
def State.checkReady (s : State) : State :=
  if s.power.starting ∧ (List.range 12).all (fun m => s.rd (MEM_STATUS.STATE m) == 4) then
    ((s.updPower (fun p => { p with starting := false })).setBit PWR_STATUS.READY true).setPwrState PwrSt.p0
  else s

/-- Domains take their turns in ascending number; a newer switch of a domain replaces an older one (R440). -/
def State.queueSwitches (s : State) (l : List (Nat × Bool)) : State :=
  s.updPower (fun p => { p with
    switches := ((p.switches.filter (fun e => ! l.any (fun x => x.1 == e.1))) ++ l).mergeSort (fun a b => a.1 ≤ b.1) })

/-- The state a domain is in once every queued switch has been made. -/
def State.domainGoal (s : State) (d : Nat) : Bool :=
  match s.power.switches.find? (fun e => e.1 == d) with
  | some e => e.2
  | none => s.domainOn d

/-- PWR_DOM0 and PWR_DOM1 select the domain. -/
def State.selected (s : State) (d : Nat) : Bool :=
  if d < 64 then (s.reg PWR_DOM0.DOM.off).getLsbD d else (s.reg PWR_DOM1.DOM.off).getLsbD (d - 64)

/-- Queue the switches that bring the domains of a list to a goal. -/
def State.bringDomains (s : State) (ds : List Nat) (goal : Nat → Bool) : State :=
  s.queueSwitches (ds.filterMap (fun d => if s.domainGoal d = goal d then none else some (d, goal d)))

/-- The return from P1 to P0: domains 0 to 39 go back to the PWR_DOM0 selection (R442, R443). -/
def State.wake (s : State) : State :=
  if s.pwrState = PwrSt.p1 then (s.bringDomains (List.range 40) s.selected).setPwrState PwrSt.p0 else s

end Sys2Proof.Machine
end

