-- ==== Sys2Proof/Machine/Groups.lean ====
section
/-!
DEFINITION. The groups of a link: flits and LCFs, the retry buffer, replay, the failover exchange and bring-up HELLOs (R233 to R239,
R260, R265). While a port sends no packet it closes a group of idle flits only when its LCF has something new to tell.
-/

namespace Sys2Proof.Machine

/-! Flits and LCFs (R233, R234). -/

/-- Bytes of a group's 31 flits. -/
def groupBytes : Nat := 1984

/-- An idle flit: its first 8 bytes are all ones. DESIGN CHOICE: the rest are zeros. -/
def idleFlit : List Byte := List.replicate 8 0xFF ++ List.replicate 56 0

/-- Flits of a group filled up with idle flits. -/
def fillFlits (l : List Byte) : List Byte := l ++ (List.replicate ((groupBytes - l.length) / 64) idleFlit).flatten

/-- The 32-byte blocks of a byte string. -/
def blocksOf (l : List Byte) : List (List Byte) := (List.range (l.length / 32)).map (fun i => (l.drop (32 * i)).take 32)

/-- The blocks of a group: the spare bit is 0 in its flits and 1 in its LCF. -/
def groupBlocks (flits : List Byte) (lcf : List Word) : List (Bool × List Byte) :=
  (blocksOf flits).map (fun b => (false, b)) ++ (blocksOf (wordBytes lcf)).map (fun b => (true, b))

/-- CRC-32 over a group's flits and words 0 to 6 of its LCF. -/
def groupCrc (flits : List Byte) (ws : List Word) : Nat := (crc32 (flits ++ wordBytes (ws.take 7))).toNat

/-- The cumulative credit totals per VC; 0 for the VCs without credits. -/
def Port.totals (x : Port) : List Nat := (List.range 12).map (fun vc => if credited vc then Port.getN x.credTx vc else 0)

/-- Words 1 to 3: the credit totals. -/
def Port.credWords (x : Port) : List Word :=
  (List.range 3).map (fun w => BitVec.ofNat 64 (((List.range 4).map (fun i => (x.totals[4 * w + i]?).getD 0 * 2 ^ (16 * i))).sum))

/-- The LCF that closes a group of given flits: TYPE and words 4 to 6 are given. -/
def Port.lcf (x : Port) (kind : Nat) (tail : List Word) (flits : List Byte) : List Word :=
  let ws := BitVec.ofNat 64 (kind * 2 ^ 60 + x.gseqTx * 2 ^ 48 + x.ack * 2 ^ 36) :: x.credWords ++ tail
  ws ++ [BitVec.ofNat 64 (groupCrc flits ws)]

/-- A group leaves: its totals are kept for the credit auditor (R250), and the next has the next GSEQ. -/
def State.sendGroup (s : State) (n : Nat) (flits : List Byte) (lcf : List Word) : State :=
  (s.updPort n (fun x => { x with
    gseqTx := (x.gseqTx + 1) % 4096
    lcfTotals := ((x.gseqTx, x.totals) :: x.lcfTotals).take 1024
    ackTold := x.ack
    closedAt := s.clk })).emit (.group n (groupBlocks flits lcf))

/-! HELLO LCFs (R239, R265). -/

/-- Words 4 and 5 of a HELLO of port `n`; `fo` is 0, or 64 + FPORT in the hellos of a port failover. -/
def State.helloWords (s : State) (n fo : Nat) : List Word :=
  [BitVec.ofNat 64 (s.chipId * 2 ^ 50 + n * 2 ^ 46 + s.sec.running.feature % 2 ^ 8 * 2 ^ 38 + b01 (s.sec.verdict == 1) * 2 ^ 37 +
      s.rd FAB_CFG.XS_M1 * 2 ^ 33 + s.rd FAB_CFG.YS_M1 * 2 ^ 28 + s.rd FAB_CFG.ZS_M1 * 2 ^ 23 + fo / 64 * 2 ^ 22 + fo % 64 * 2 ^ 18),
    BitVec.ofNat 64 (s.rd CFG_EPOCH.EPOCH * 2 ^ 32 + s.rd SEC_BOOT.VERSION)]

/-- This chip's time in 1/256 clk, as HELLOs carry it. -/
def State.helloTime (s : State) : Nat := s.clk * 256 % 2 ^ 32

/-- A port in HELLO or HELD sends a HELLO with its departure time and the arrival time of the peer's latest (R238, R239). -/
def State.sendHello (s : State) (n : Nat) : State :=
  if s.portState n ≠ PortSt.hello ∧ s.portState n ≠ PortSt.held then s
  else
    let x := s.port n
    let t := s.helloTime
    let flits := fillFlits []
    let lcf := x.lcf 2 (s.helloWords n 0 ++ [BitVec.ofNat 64 (t * 2 ^ 32 + x.helloAt)]) flits
    (s.updPort n (fun x => { x with helloSent := x.helloSent ++ [t] })).sendGroup n flits lcf

/-! Closing groups (R233 to R235, R260, R265). -/

/-- An aggregation record (R260). -/
def aggWord (r : Nat × Nat × Nat) : Word := BitVec.ofNat 64 (2 ^ 63 + r.1 * 2 ^ 51 + r.2.1 * 2 ^ 36 + r.2.2 * 2 ^ 21)

/-- The pending records that the next GROUP or NAK LCF carries: at most two, oldest first; none while the retry buffer is full. -/
def Port.records (x : Port) : List (Nat × Nat × Nat) := if x.retry.length < 512 then x.agg.take 2 else []

/-- Part 1 of a census report, which follows part 0 at once (R400). -/
def secondPart (e : Nat × List Word) : Bool := e.1 == 4 && ((e.2[0]?).getD 0).getLsbD 47

/-- TYPE and words 4 to 6 of the LCF of the next group, and the port with what that LCF takes gone. A NAK comes first; a failover HELLO
takes the place of every other LCF; a CENSUS LCF waits for the aggregation records. -/
def State.nextLcf (s : State) (n : Nat) : Nat × List Word × Port :=
  let x := s.port n
  let recs := x.records
  let tail := (recs.map aggWord ++ [0, 0]).take 2 ++ [0]
  let told := { x with agg := x.agg.drop recs.length }
  let other : Nat × List Word × Port := match x.tell with
    | t :: l => (2, s.helloWords n (64 + t.failed) ++ [BitVec.ofNat 64 (t.delivered * 2 ^ 52)],
        { x with tell := { t with first := some (t.first.getD x.gseqTx) } :: l })
    | [] => match x.due with
      | e :: l => if recs = [] then (e.1, e.2, { x with due := l }) else (1, tail, told)
      | [] => (1, tail, told)
  match x.due with
  | e :: l =>
    if e.1 = 3 then (3, tail, { told with due := l })
    else if secondPart e then (e.1, e.2, { x with due := l })
    else other
  | [] => other

/-- The first 31 flits being formed close as a group, which enters the retry buffer (R235). -/
def State.closeGroup (s : State) (n : Nat) : State :=
  let (kind, tail, y) := s.nextLcf n
  let flits := y.forming.take groupBytes
  let lcf := y.lcf kind tail flits
  let sent := if kind = 1 ∨ kind = 3 then (s.port n).agg.length - y.agg.length else 0
  let s := s.setPort n { y with
    retry := y.retry ++ [⟨y.gseqTx, flits, lcf, (y.formed.filter (fun e => decide (e.1 ≤ groupBytes))).map (fun e => e.2)⟩]
    ackAt := if y.retry = [] then s.clk else y.ackAt
    forming := y.forming.drop groupBytes
    formed := (y.formed.filter (fun e => decide (groupBytes < e.1))).map (fun e => (e.1 - groupBytes, e.2)) }
  (s.sendGroup n flits lcf).addMod FAB_COUNT1.AGG_SENT sent

/-- The group being formed is filled with idle flits and closed. -/
def State.closeIdle (s : State) (n : Nat) : State := (s.updPort n (fun x => { x with forming := fillFlits x.forming })).closeGroup n

/-- An LCF of a TYPE other than GROUP is due at the next closing: a NAK before every other, but not between the parts of a census
report. -/
def State.lcfDue (s : State) (n kind : Nat) (tail : List Word) : State :=
  s.updPort n (fun x => { x with due := match x.due with
    | e :: l => if kind = 3 then (if secondPart e then e :: (kind, tail) :: l else (kind, tail) :: e :: l) else x.due ++ [(kind, tail)]
    | [] => [(kind, tail)] })

/-- The port's next LCF has something new to tell: records, an LCF that is due, credits, or an acknowledgement. -/
def Port.news (x : Port) : Bool :=
  x.due != [] || x.tell != [] || (x.agg != [] && decide (x.retry.length < 512)) || x.ackTold != x.ack ||
    x.totals != ((x.lcfTotals.head?).map (fun e => e.2)).getD (List.replicate 12 0)

/-- A port in service that sends no packet and no replay closes a group when one is begun or has something to tell. A group lasts
10.24 ns, and no more than 4,095 are outstanding. -/
def State.idleLink (s : State) (n : Nat) : State :=
  let x := s.port n
  if s.inService n ∧ x.sending.isNone ∧ x.replay.isNone ∧ (x.forming ≠ [] ∨ x.news) ∧ x.closedAt + 10 ≤ s.clk ∧ x.retry.length < 4095 then
    s.closeIdle n
  else s

/-- A replay that has ended lets the port choose its next packet. -/
def State.endReplay (s : State) (n : Nat) : State :=
  match (s.port n).replay with
  | some e => if e ≤ s.clk then (s.updPort n (fun x => { x with replay := none })).chooseNext n else s
  | none => s

/-- What a clk brings to the link of a port. -/
def State.linkClk (s : State) (n : Nat) : State := (s.endReplay n).idleLink n

/-- A packet's flits join the group being formed; the groups that they fill close. -/
def State.formPacket (s : State) (n : Nat) (p : Packet) : State :=
  let s := s.updPort n (fun x =>
    let l := x.forming ++ padTo 64 (headerBytes p ++ p.payload)
    { x with forming := l, formed := x.formed ++ [(l.length, p)] })
  loopN ((s.port n).forming.length / groupBytes) (fun _ s => s.closeGroup n) s

/-- PACKET_LAST_FLIT_SENT (R161, R247): the packet's flits have joined their groups, its buffer is freed and its credits return, and the
port chooses its next packet. -/
def execPacketLastFlitSent (n : Fin 12) (s : State) : Res := s.live <|
  .next (match (s.port n).sending with
    | none => s
    | some q => (((s.updPort n (fun x => { x with sending := none })).leave q).formPacket n q.pkt).chooseNext n)

/-! Acknowledgement and replay (R235, R236). -/

/-- Groups up to and including ACKSEQ leave the retry buffer. -/
def ackGroups (ack : Nat) (l : List SentGroup) : List SentGroup :=
  if l.any (fun e => e.seq == ack) then (l.dropWhile (fun e => e.seq != ack)).drop 1 else l

/-- An ACKSEQ is taken: the groups that it covers leave, and a failover HELLO whose first group it covers is not repeated (R265). -/
def State.takeAck (s : State) (n ack : Nat) : State :=
  s.updPort n (fun x =>
    let l := ackGroups ack x.retry
    { x with
      retry := l
      ackAt := if l.length < x.retry.length then s.clk else x.ackAt
      tell := x.tell.filter (fun t => match t.first with
        | some g => l.any (fun e => e.seq == g)
        | none => true) })

/-- The CRED fields of words 1 to 3. -/
def credFields (l : Lcf) : List Nat :=
  [l.w1, l.w2, l.w3].flatMap (fun w => (List.range 4).map (fun i => bitsOf w.toNat (16 * i + 15) (16 * i)))

/-- Credit totals of an accepted LCF: the credits held grow by what is new (R236). -/
def State.takeCredits (s : State) (n : Nat) (l : Lcf) : State :=
  s.updPort n (fun x => ((credFields l).zipIdx).foldl (fun x e =>
    if credited e.2 then { x with
      credits := Port.putN x.credits e.2 (Port.getN x.credits e.2 + (e.1 + 2 ^ 16 - Port.getN x.credRx e.2) % 2 ^ 16)
      credRx := Port.putN x.credRx e.2 e.1 }
    else x) x)

/-- The unacknowledged groups are sent again, LCFs included, before anything else (R235); none toward a fenced chip (R264). -/
def State.replayGroups (s : State) (n : Nat) : State :=
  let l := (s.port n).retry
  if s.fenced (s.neighbour (n % 6)) ∨ l = [] then s
  else
    let s := s.updPort n (fun x => { x with replay := some (s.clk + sendClk (31 * l.length)), ackAt := s.clk })
    let s := ((s.addSat (PORT_COUNT0.RETRY n) 1).repeatEvent 1 1).lapFlag 13
    l.foldl (fun s g => s.emit (.group n (groupBlocks g.flits g.lcf))) s

/-- A group with its packet flits made idle: it keeps its GSEQ, and carries nothing (R264). -/
def SentGroup.blank (g : SentGroup) : SentGroup :=
  let f := fillFlits []
  { g with flits := f, packets := [], lcf := g.lcf.take 7 ++ [BitVec.ofNat 64 (groupCrc f g.lcf)] }

/-! Reception (R234, R235). -/

def lcfWords (l : Lcf) : List Word := [l.w0, l.w1, l.w2, l.w3, l.w4, l.w5, l.w6, l.w7]
def lcfType (l : Lcf) : Nat := bitsOf l.w0.toNat 63 60
def lcfGseq (l : Lcf) : Nat := bitsOf l.w0.toNat 59 48
def lcfAck (l : Lcf) : Nat := bitsOf l.w0.toNat 47 36

/-- A group arrived whole: every codeword was clean or corrected, and its CRC is good. -/
def groupGood (g : LcfGroup) : Bool :=
  g.flits.length == groupBytes && g.uncorrectable == 0 && bitsOf g.lcf.w7.toNat 31 0 == groupCrc g.flits (lcfWords g.lcf)

/-- The FEC counts of a group (R270). -/
def State.countFec (s : State) (n : Nat) (g : LcfGroup) : State :=
  (s.addSat (PORT_COUNT0.SYM_CORR n) g.corrected).addSat (PORT_COUNT0.CW_UNCORR n) g.uncorrectable

/-- The receiver of R235. A good group in order is acknowledged, its ACKSEQ and credits are used, and `use` takes its LCF; any other is
discarded, and a NAK closes the next group, unless the group that the last NAK names has yet to come. -/
def State.takeGroup (s : State) (n : Nat) (g : LcfGroup) (use : State → State) : State :=
  if ¬ s.inService n then s
  else
    let x := s.port n
    let s := s.countFec n g
    if groupGood g ∧ lcfGseq g.lcf = x.gseqRx then
      let s := s.updPort n (fun y => { y with gseqRx := (y.gseqRx + 1) % 4096, nakSent := false })
      (use ((s.takeAck n (lcfAck g.lcf)).takeCredits n g.lcf)).chooseNext n
    else if x.nakSent ∧ lcfGseq g.lcf ≠ x.gseqRx then s
    else (s.updPort n (fun y => { y with nakSent := true })).lcfDue n 3 []

/-- An aggregation record from a port (R261). -/
def State.aggRecord (s : State) (n : Nat) (w : Nat) : State :=
  let g := bitsOf w 62 51
  if bitsOf w 63 63 = 0 ∨ s.fenced (s.neighbour (n % 6)) ∨ ¬ (s.mgPorts g).any (fun p => p % 6 == n % 6) then s
  else match s.aggState g with
    | none => s
    | some a =>
      (s.setAgg g (some { a with
        expect := a.expect - 1, real := a.real + bitsOf w 50 36, pruned := a.pruned + bitsOf w 35 21 })).closeAgg g

/-- The records of a GROUP or NAK LCF. -/
def State.takeRecords (s : State) (n : Nat) (l : Lcf) : State := (s.aggRecord n l.w4.toNat).aggRecord n l.w5.toNat

end Sys2Proof.Machine
end

