-- ==== Sys2Proof/Machine/Links.lean ====
section
/-!
DEFINITION. Link commands: bring-up, groups and retry, failure and failover, heartbeats, fences and mask group entries
(R234 to R241, R250, R257, R262 to R266, R269).
-/

namespace Sys2Proof.Machine

/-! Port states (R238, R265, R266). -/

/-- Ports of a direction. -/
def dirPorts (d : Nat) : List Nat := [d, d + 6]

/-- A bitmap of the indexes below `n` that satisfy `q`. -/
def bitmap (n : Nat) (q : Nat → Bool) : Nat := ((List.range n).map (fun i => if q i then 2 ^ i else 0)).sum

/-- A direction is down (R266): no port of it is in service, after one has failed or the direction was in service. -/
def State.dirDown (s : State) (d : Nat) : Bool :=
  s.dirGone d && (s.portState d == PortSt.failed || s.portState (d + 6) == PortSt.failed ||
    (s.rd FAB_STATUS.UP).testBit d || (s.rd FAB_STATUS.UP).testBit (d + 6) || (s.rd FAB_STATUS.DOWNDIR).testBit d)

/-- FAB_STATUS follows the port states; a direction that goes down is reported once, and one that returns is forgotten. -/
def State.refreshFab (s : State) : State :=
  let down := (List.range 6).filter s.dirDown
  let s := s.wr FAB_STATUS.DOWNDIR (bitmap 6 down.contains)
  let s := s.wr FAB_STATUS.UP (bitmap 12 s.inService)
  let s := s.wr FAB_STATUS.FAILED (bitmap 12 (fun n => s.portState n == PortSt.failed))
  let s := s.wr FAB_STATUS.DEGRADED (bitmap 6 (fun d => s.inService d != s.inService (d + 6)))
  let s := s.updRouter (fun r => { r with nopathSeen := r.nopathSeen.filter (fun d => ! (s.inService d || s.inService (d + 6))) })
  down.foldl (fun s d =>
    if s.router.nopathSeen.contains d then s
    else (s.updRouter (fun r => { r with nopathSeen := d :: r.nopathSeen })).fabReport F_FAB_NOPATH 2) s

/-- Set a port's state; the credit auditor checks only a port in service. -/
def State.setPortState (s : State) (n st : Nat) : State :=
  let s := s.wr (PORT_STATUS.STATE n) st
  (if s.inService n then s else s.setBit (PORT_STATUS.AUDIT n) false).refreshFab

/-- A port code (R268). -/
def State.portReport (s : State) (n code : Nat) : State := (s.wr (PORT_STATUS.LAST_CODE n) code).report code 2 n

/-- Put packets back on the queues of a port, in their order, ahead of what waits there. -/
def State.requeue (s : State) (n : Nat) (qs : List QPkt) : State :=
  qs.reverse.foldl (fun s q =>
    let p := q.pkt
    if pkSched p then
      let key := flowKey (pkFlow p) (n % 6)
      s.setFlowQueue key (q :: s.flowQueue key)
    else s.updPort n (fun x => { x with vcq := tset (fun _ => []) x.vcq (vcOf p) (q :: tget (fun _ => []) x.vcq (vcOf p)) })) s

/-- Credits advertised for VC `vc`, as PORT_CRED gives them. -/
def State.credCfg (s : State) (n vc : Nat) : Nat :=
  let h := if vc < 4 then 0 else 1
  let i := vc % 4
  if ¬ credited vc then 0
  else if i = 0 then s.rd (PORT_CRED.V0 n h) else if i = 1 then s.rd (PORT_CRED.V1 n h)
  else if i = 2 then s.rd (PORT_CRED.V2 n h) else s.rd (PORT_CRED.V3 n h)

/-! Service and its loss (R265, R266). -/

/-- The packets of an old link that the peer has not delivered: those of the groups after the last that it has, then those of the group
that was being formed. -/
def OldLink.undelivered (o : OldLink) (delivered : Nat) : List QPkt :=
  ((ackGroups delivered o.groups).flatMap (fun g => g.packets) ++ o.last).map (fun p => { pkt := p })

/-- Port `n` sends again the packets of port `m`'s old link that the peer has not delivered, in their original order, and then, when it is
another port, those that port `m` has queued (R265). -/
def State.resend (s : State) (n m delivered : Nat) : State :=
  match (s.port m).old with
  | none => s
  | some o =>
    let waiting := (s.port m).vcq
    let s := s.updPort m (fun x => { x with old := none, heard := none })
    let s := if n = m then s
      else waiting.foldl (fun s e => s.updPort n (fun x =>
        { x with vcq := tset (fun _ => []) x.vcq e.1 (tget (fun _ => []) x.vcq e.1 ++ e.2) }))
          (s.updPort m (fun x => { x with vcq := [] }))
    (s.requeue n (o.undelivered delivered)).chooseNext n

/-- Port `n`, in service, tells the peer what this end delivered from each link of its direction that has left service, and sends again
what the peer has already told it did not deliver. -/
def State.startTells (s : State) (n : Nat) : State :=
  (dirPorts (n % 6)).foldl (fun s m => match (s.port m).old with
    | none => s
    | some o =>
      let s := if (s.port n).tell.any (fun t => t.failed == m) then s
        else s.updPort n (fun x => { x with tell := x.tell ++ [⟨m, o.delivered, none⟩] })
      match (s.port m).heard with
      | some d => s.resend n m d
      | none => s) s

/-- The aggregation records pending on a port out of service go to its rail partner (R265). -/
def State.moveAgg (s : State) (n : Nat) : State :=
  let recs := (s.port n).agg
  if ¬ s.inService n ∧ s.inService (partner n) then
    recs.foldl (fun s r => s.queueAgg n r.1 r.2.1 r.2.2) (s.updPort n (fun x => { x with agg := [] }))
  else s

/-- The packet whose flits were leaving goes back to the head of its queue: it is to be sent again as a whole. -/
def State.stopSending (s : State) (n : Nat) : State :=
  match (s.port n).sending with
  | none => s
  | some q => (s.updPort n (fun x => { x with sending := none })).requeue n [q]

/-- A port in service leaves it: what its link has not delivered is kept, and its partner is to serve its slots (R265, R266). What went
toward a fenced chip counts as delivered (R264). -/
def State.quitLink (s : State) (n : Nat) : State :=
  if ¬ s.inService n then s
  else
    let s := s.stopSending n
    let lost := s.fenced (s.neighbour (n % 6))
    s.updPort n (fun x =>
      let last := x.formed.map (fun e => e.2)
      let o : OldLink := match x.old with
        | none => ⟨x.retry, last, x.ack⟩
        | some o => ⟨o.groups, o.last ++ x.retry.flatMap (fun g => g.packets) ++ last, o.delivered⟩
      { x with
        old := some (if lost then ⟨o.groups.map SentGroup.blank, [], o.delivered⟩ else o)
        retry := [], forming := [], formed := [], due := [], replay := none, nakSent := false, tell := [] })

/-- After port `n` has left service: the partner, if in service, serves its slots, takes its records and begins the exchange. -/
def State.partnerTakes (s : State) (n : Nat) : State :=
  let others := s.router.shared.filter (fun m => m != n && ! (m == partner n && s.inService (partner n)))
  let s := s.updRouter (fun r => { r with shared := n :: others })
  let s := s.moveAgg n
  if s.inService (partner n) then s.startTells (partner n) else s

/-- Port `n` has come into service: while its partner is out of service it serves the partner's slots and takes its records. -/
def State.joinService (s : State) (n : Nat) : State :=
  let s := if s.inService (partner n) ∨ ¬ s.isShared n then s
    else s.updRouter (fun r => { r with shared := partner n :: r.shared.filter (fun m => m != n && m != partner n) })
  ((s.moveAgg (partner n)).startTells n).chooseNext n

/-- A port enters TRAIN: a fresh link. Its credit totals start at the configured credits less the flits that packets of the former link
still hold here, whose credits it gives as they leave (R23, R247); what the former link has not delivered is kept (R266). -/
def State.enterTrain (s : State) (n : Nat) : State :=
  let x := s.port n
  let held (vc : Nat) : Nat := Port.getN x.buffered vc
  let table (f : Nat → Nat) : List (Nat × Nat) := (List.range 12).foldl (fun t vc => Port.putN t vc (f vc)) []
  let s := s.setPort n { ({} : Port) with
    vcq := x.vcq, agg := x.agg, old := x.old, heard := x.heard, slot := x.slot, filled := x.filled, idle := x.idle, opened := x.opened
    seen := x.seen, doubled := x.doubled, ingress := x.ingress, ingressSlot := x.ingressSlot, buffered := x.buffered
    advertised := table (s.credCfg n), credTx := table (fun vc => s.credCfg n vc - held vc), debt := table (fun vc => held vc - s.credCfg n vc) }
  (s.wr (PORT_STATUS.LANES_OK n) 0).setPortState n PortSt.train

/-- PORT_ENABLE: DOWN to TRAIN; a port in a ring of size 1 cannot be enabled. -/
def execPortEnable (n : Fin 12) (v : Word) (s : State) : Res := s.live <|
  .next (if s.ring (n % 6 / 2) = 1 then s.fabReport F_FAB_CFG 2
    else
      let s := s.setReg (PORT_CTL.EN n).off (v &&& 1#64 ||| 1#64)
      if s.portState n = PortSt.down then s.enterTrain n else s)

/-- EN is cleared: any state but DISCARDED goes to DOWN. DEDUCED: a link that was in service is handed over as one that fails, since its
peer sees it fail (R241, R252). -/
def State.portDown (s : State) (n : Nat) : State :=
  let s := s.setBit (PORT_CTL.EN n) false
  if s.portState n = PortSt.down ∨ s.portState n = PortSt.discarded then s
  else
    let served := s.inService n
    let s := ((s.quitLink n).wr (PORT_STATUS.LANES_OK n) 0).setPortState n PortSt.down
    if served then s.partnerTakes n else s

/-- PORT_DISABLE: the written word clears EN. -/
def execPortDisable (n : Fin 12) (_v : Word) (s : State) : Res := s.live <| .next (s.portDown n)

/-- PORT_TRAINING_DONE: every lane is locked, the port enters HELLO and sends its first HELLO. -/
def execPortTrainingDone (n : Fin 12) (s : State) : Res := s.live <|
  .next (if s.portState n = PortSt.train then ((s.wr (PORT_STATUS.LANES_OK n) 0xFF).setPortState n PortSt.hello).sendHello n else s)

/-- A failed port: its partner serves its slots, tells the peer what it delivered, and carries the direction from then on (R265, R266). -/
def State.portFail (s : State) (n code : Nat) : State :=
  (((s.quitLink n).setPortState n PortSt.failed).portReport n code).partnerTakes n

/-- PORT_TRAIN_TIMEOUT. -/
def execPortTrainTimeout (n : Fin 12) (lane : BitVec 3) (s : State) : Res := s.live <|
  .next (if s.portState n = PortSt.train then
      (s.wr (PORT_STATUS.LANES_OK n) (s.rd (PORT_STATUS.LANES_OK n) &&& (255 - 2 ^ lane.toNat))).portFail n F_FAB_TRAIN
    else s)

/-- The hello check (R239): the peer is the neighbour R230 gives, at the opposite port of the same rail, with the same
torus sizes. -/
def State.helloCheck (s : State) (n : Nat) (w4 : Nat) : Bool :=
  bitsOf w4 63 50 == s.neighbour (n % 6) && bitsOf w4 49 46 == (if n % 2 = 0 then n + 1 else n - 1) &&
    bitsOf w4 36 33 == s.rd FAB_CFG.XS_M1 && bitsOf w4 32 28 == s.rd FAB_CFG.YS_M1 && bitsOf w4 27 23 == s.rd FAB_CFG.ZS_M1

/-- Median of a list of numbers: the middle element of the sorted list. -/
def median (l : List Nat) : Nat :=
  let s := l.mergeSort (fun a b => decide (a ≤ b))
  (s[s.length / 2]?).getD 0

/-- The delay has been measured 64 times (R239). -/
def Port.measured (x : Port) : Bool := decide (64 ≤ x.delays.length)

/-- 1.6 µs in 1/256 clk (R232). -/
def maxDelay : Nat := 385024

/-- A measurement (R239): half of (t4 - t1) - (t3 - t2), the whole taken modulo 2^32. -/
def delaySample (t1 t2 t3 t4 : Nat) : Nat := (t4 + 2 ^ 33 - t1 - t3 + t2) % 2 ^ 32 / 2

/-- A port whose hello check passes goes on: to HELD, or under RELEASE and a RELEASED peer to UP or CTLONLY (R238,
R240, R402); a failed check keeps it in HELLO with F_FAB_PEER. -/
def State.helloAdvance (s : State) (n : Nat) : State :=
  let st := s.portState n
  if st ≠ PortSt.hello ∧ st ≠ PortSt.held then s
  else match (s.port n).helloPeer with
    | none => s
    | some (w4, w5) =>
      if ¬ s.helloCheck n w4.toNat then (if st = PortSt.hello then s.portReport n F_FAB_PEER else s)
      else if ¬ (s.port n).measured then s
      else
        let d := median (s.port n).delays
        if maxDelay < d then s.portFail n F_FAB_TRAIN
        else
          let s := s.wr (PORT_DELAY.DELAY n) d
          let s := s.wr (PORT_STATUS.FEATURE n) (min s.sec.running.feature (bitsOf w4.toNat 45 38))
          if s.sec.verdict = 1 ∧ bitsOf w4.toNat 37 37 = 1 then
            let mine := bitsOf (s.rd SEC_BOOT.VERSION) 15 8
            let theirs := bitsOf w5.toNat 15 8
            let s := s.updPort n (fun x => { x with credits := x.credRx, hbSeen := s.ct })
            let s := s.setBit (PORT_STATUS.AUDIT n) (! s.fenced (s.neighbour (n % 6)))
            if mine ≤ theirs + 1 ∧ theirs ≤ mine + 1 then (s.setPortState n PortSt.up).joinService n
            else ((s.setPortState n PortSt.ctlonly).portReport n F_FAB_COMPAT).joinService n
          else s.setPortState n PortSt.held

/-- The peer answers the oldest HELLO that it has yet to answer: one measurement, of the 64. An arrival time of 0 answers none. -/
def Port.measure (x : Port) (w6 t4 : Nat) : Port :=
  match x.helloSent with
  | t1 :: l =>
    if bitsOf w6 31 0 = 0 then x
    else { x with
      helloSent := l
      delays := if x.measured then x.delays else x.delays ++ [delaySample t1 (bitsOf w6 31 0) (bitsOf w6 63 32) t4] }
  | [] => x

/-- HELLO_RX: a HELLO that left its synchroniser `frac`/256 clk before this clk. The peer's fields are recorded, the delay is measured,
the HELLO is answered, and the checks are made. GSEQ goes on from the peer's HELLOs: no group is replayed before UP (DESIGN CHOICE). -/
def execHelloRx (n : Fin 12) (h : HelloArrival) (s : State) : Res := s.live <|
  let g := h.group
  let w4 := g.lcf.w4.toNat
  .next (if (s.portState n = PortSt.hello ∨ s.portState n = PortSt.held) ∧ groupGood g ∧ lcfType g.lcf = 2 ∧ bitsOf w4 22 22 = 0 then
      let t4 := (s.clk * 256 + 2 ^ 32 - h.frac.toNat) % 2 ^ 32
      let s := s.countFec n g
      let s := ((s.wr (PORT_PEER.CHIPID n) (bitsOf w4 63 50)).wr (PORT_PEER.PORT n) (bitsOf w4 49 46)).wr
        (PORT_PEER.FEATURE n) (bitsOf w4 45 38)
      let s := s.wr (PORT_PEER.FWVER n) (bitsOf g.lcf.w5.toNat 31 0)
      let s := s.updPort n (fun x => { x.measure g.lcf.w6.toNat t4 with
        helloPeer := some (g.lcf.w4, g.lcf.w5)
        helloAt := t4
        gseqRx := (lcfGseq g.lcf + 1) % 4096
        credRx := ((credFields g.lcf).zipIdx).foldl (fun t e => Port.putN t e.2 e.1) [] })
      (s.sendHello n).helloAdvance n
    else s)

/-- HELLO_RECHECK. -/
def execHelloRecheck (n : Fin 12) (s : State) : Res := s.live <|
  .next (if s.portState n = PortSt.hello then (s.sendHello n).helloAdvance n else s)

/-! Groups (R235, R236, R260, R261). -/

/-- LCF_GROUP_RX: a GROUP, or a group that is not to be accepted. A HELLO, a NAK or a CENSUS LCF that is accepted is its own command's. -/
def execLcfGroupRx (n : Fin 12) (g : LcfGroup) (s : State) : Res := s.live <|
  .next (if groupGood g ∧ lcfGseq g.lcf = (s.port n).gseqRx ∧ lcfType g.lcf ∈ [2, 3, 4] then s
    else s.takeGroup n g (fun s => if lcfType g.lcf = 1 then s.takeRecords n g.lcf else s))

/-- A NAK names group `g` as the last good one: the groups after it are sent again, and the eighth NAK in a row for one group fails the
port (R235, R237). -/
def State.takeNak (s : State) (n g : Nat) : State :=
  let x := s.port n
  let run := if x.nakRun ≠ 0 ∧ x.nakSeq = g then x.nakRun + 1 else 1
  let s := s.updPort n (fun y => { y with nakRun := run, nakSeq := g })
  if run ≥ 8 then s.portFail n F_FAB_RETRY else s.replayGroups n

/-- NAK_RX. -/
def execNakRx (n : Fin 12) (g : LcfGroup) (s : State) : Res := s.live <|
  .next (if lcfType g.lcf ≠ 3 then s else s.takeGroup n g (fun s => (s.takeRecords n g.lcf).takeNak n (lcfAck g.lcf)))

/-- RETRY_TIMEOUT: no ACKSEQ has advanced for 10 µs, 9,400 clk, while groups are outstanding. -/
def execRetryTimeout (n : Fin 12) (s : State) : Res := s.live <|
  .next (if s.inService n ∧ (s.port n).retry ≠ [] ∧ (s.port n).ackAt + 9400 ≤ s.clk then s.replayGroups n else s)

/-- A lane failure of a port that has trained (R237). -/
def State.laneFail (s : State) (n lane : Nat) : State :=
  let st := s.portState n
  if st = PortSt.hello ∨ st = PortSt.held ∨ st = PortSt.up ∨ st = PortSt.ctlonly then
    (s.wr (PORT_STATUS.LANE n) lane).portFail n F_FAB_LANE
  else s

/-- LANE_LOCK_LOSS. -/
def execLaneLockLoss (n : Fin 12) (lane : BitVec 3) (s : State) : Res := s.live <|
  .next ((s.wr (PORT_STATUS.LANES_OK n) (s.rd (PORT_STATUS.LANES_OK n) &&& (255 - 2 ^ lane.toNat))).laneFail n lane.toNat)

/-- LANE_CODEWORD_LIMIT: 16 of 1,024 codewords of the lane were uncorrectable; the groups that they touched have counted them. -/
def execLaneCodewordLimit (n : Fin 12) (lane : BitVec 3) (s : State) : Res := s.live <| .next (s.laneFail n lane.toNat)

/-- The peer tells what it delivered from the link of port `m` (R265): what it did not is sent again here, at once or, if this end has
yet to see that link fail, when it does. -/
def State.takeDelivered (s : State) (n m delivered : Nat) : State :=
  if (s.port m).old.isSome then s.resend n m delivered
  else if s.inService m ∧ n ≠ m then s.updPort m (fun x => { x with heard := some delivered })
  else s

/-- FAILOVER_HELLO_RX: FPORT is the peer's number for the failed port, that of the opposite direction. -/
def execFailoverHelloRx (n : Fin 12) (g : LcfGroup) (s : State) : Res := s.live <|
  let w4 := g.lcf.w4.toNat
  let fp := bitsOf w4 21 18
  .next (if lcfType g.lcf ≠ 2 ∨ bitsOf w4 22 22 = 0 then s
    else s.takeGroup n g (fun s =>
      if fp < 12 ∧ fp % 6 = opposite (n % 6) then s.takeDelivered n (n % 6 + 6 * (fp / 6)) (bitsOf g.lcf.w6.toNat 63 52) else s))

/-! Heartbeats (R250). -/

/-- HEARTBEAT_SEND: a port in service sends one heartbeat in each slot whose index is a multiple of HB_SLOTS. It is a control packet, so it
draws no SEQ (DEDUCED from R256), and its payload is formed when its first flit leaves. -/
def execHeartbeatSend (n : Fin 12) (s : State) : Res := s.live <|
  let now := s.slotNo
  .next (if ¬ s.inService n ∨ s.silenced ∨ s.fenced (s.neighbour (n % 6)) ∨ s.rd LAP_STATUS.STATE = LapSt.stopped ∨
      s.slotIdx % s.rd FAB_CFG.HB_SLOTS ≠ 0 ∨ (s.port n).hbSent = some now then s
    else
      let p := mkPacket { cls := Cls.ctl, dest := s.neighbour (n % 6), src := s.chipId, job := 0, opc := 1 } (List.replicate 112 0)
      (s.updPort n (fun x => { x with hbSent := some now })).queuePort n { pkt := s.outgoing p none (n % 6) })

/-- The credit auditor's own sum (R24): the credits granted on a VC and not used by a flit received, with the flits buffered, equal the
configured credits. -/
def State.creditsBalance (s : State) (n vc : Nat) : Bool :=
  let x := s.port n
  (Port.getN x.credTx vc + Port.getN x.buffered vc) % 2 ^ 16 ==
    (Port.getN x.advertised vc + Port.getN x.debt vc + Port.getN x.flitsRx vc) % 2 ^ 16

/-- The credit auditor's checks of a heartbeat (R24, R250): flits received before it, and the totals of the named LCF. -/
def State.heartbeatGood (s : State) (n : Nat) (p : Packet) : Bool :=
  let x := s.port n
  let g := leNat ((p.payload.drop 12).take 2)
  (List.range 12).all (fun vc => ! credited vc ||
    (s.creditsBalance n vc && let tx := leNat ((p.payload.drop (16 + 8 * vc)).take 4)
     let cr := leNat ((p.payload.drop (20 + 8 * vc)).take 2)
     let rx := (Port.getN x.flitsRx vc + 2 ^ 32 - (if vc = vcOf p then flitsOf p else 0)) % 2 ^ 32
     decide (tx = rx) && (match x.lcfTotals.find? (fun e => e.1 == g) with
       | some (_, t) => decide ((t[vc]?).getD 0 = cr)
       | none => true)))

/-- HEARTBEAT_RX. -/
def execHeartbeatRx (n : Fin 12) (p : Packet) (s : State) : Res := s.live <|
  .next (s.receive n p true (fun s q =>
    let s := if s.bit (PORT_STATUS.AUDIT n) ∧ ¬ s.heartbeatGood n p then s.auditBreach 0 else s
    let e := leNat (p.payload.take 4)
    let d := leNat ((p.payload.drop 4).take 8)
    let s := (s.wr (PORT_PEERCFG.EPOCH n) e).wr (PORT_PEERDIG.DIGEST n) d
    let same := e = s.rd CFG_EPOCH.EPOCH ∧ d = s.rd CFG_DIGEST.VALUE
    let seen := (s.port n).diffSeen
    let s := s.updPort n (fun x => { x with hbSeen := s.ct, diffSeen := if same then none else some (e, d) })
    let s := if same ∨ seen = some (e, d) then s else s.portReport n F_FAB_CFGDIFF
    s.leave q))

/-- HEARTBEAT_LOSS: no heartbeat for HB_MISS periods, reported once. -/
def execHeartbeatLoss (n : Fin 12) (s : State) : Res := s.live <|
  .next (if s.inService n ∧ ¬ s.bit (PORT_STATUS.HBLOST n) ∧
      (s.port n).hbSeen + s.rd FAB_CFG.HB_MISS * s.rd FAB_CFG.HB_SLOTS * 64 ≤ s.ct then
    (s.setBit (PORT_STATUS.HBLOST n) true).portReport n F_FAB_HBLOSS else s)

/-! Control data (R243). -/

/-- A CTL DATA packet that is a poison notice (R309). -/
def isPoisonNotice (p : Packet) : Bool := pkClass p == Cls.ctl && pkOpc p == 4 && leNat (p.payload.take 8) / 2 ^ 48 == 1

/-- CTL_DATA_RX. -/
def execCtlDataRx (n : Fin 13) (p : Packet) (s : State) : Res := s.live <|
  .next (if pkClass p ≠ Cls.ctl ∨ pkOpc p ≠ 4 ∨ isPoisonNotice p then s else s.receive n p true (fun s q =>
    match s.ctxOfJob (pkJob p) with
    | some c => (((s.leave q).addCc c (pkCc p) 1).aggLocal p true).acceptPoison c p
    | none => ((((s.leave q).addSat COL_COUNT.STRAY 1).lapFlag 18).report F_COL_STRAY 2 0).aggLocal p false))

/-! Fences (R262 to R264). -/

/-- A packet not yet begun toward a fenced neighbour in direction `d` is pruned: a mask-tree copy's members count in
its aggregation (R261, R263, R264). -/
def State.pruneQueued (s : State) (d : Nat) (q : QPkt) : State :=
  if pkMode q.pkt = 1 then
    let g := pkMgroup q.pkt
    let lost := (((s.mgPorts g).filter (fun p => p % 6 == d)).map (s.mgSub g)).sum
    let s := (s.leave q).countPruned lost
    match (if pkAckreq q.pkt then s.aggState g else none) with
    | none => s
    | some a => (s.setAgg g (some { a with expect := a.expect - 1, pruned := a.pruned + lost })).closeAgg g
  else s.prunePacket q

/-- Every packet not yet begun toward a newly fenced neighbour is pruned, and the port shows it; packets already sent
are not sent again (R264). -/
def State.purgeDir (s : State) (d : Nat) : State :=
  if s.fenced (s.neighbour d) then
    let s := (dirPorts d).foldl (fun s n =>
      let qs := (s.port n).vcq.flatMap (fun e => e.2)
      let s := s.updPort n (fun x => { x with
        vcq := [], retry := x.retry.map SentGroup.blank
        old := x.old.map (fun o => ⟨o.groups.map SentGroup.blank, [], o.delivered⟩) })
      let s := (s.setBit (PORT_STATUS.PEER_FENCED n) true).setBit (PORT_STATUS.AUDIT n) false
      qs.foldl (fun s q => s.pruneQueued d q) s) s
    let keys := (s.router.flows.map (fun e => e.1)).filter (fun k => k % 8 == d)
    keys.foldl (fun s k => (s.flowQueue k).foldl (fun s q => s.pruneQueued d q) (s.setFlowQueue k [])) s
  else (dirPorts d).foldl (fun s n =>
    let s := s.setBit (PORT_STATUS.PEER_FENCED n) false
    s.setBit (PORT_STATUS.AUDIT n) (s.inService n)) s

/-- What follows a change of the fence table, in the clk in which decisions first use it. -/
def State.fenceChanged (s : State) : State :=
  (List.range 6).foldl (fun s d => s.purgeDir d) (s.setBit FAB_STATUS.SELF_FENCED s.selfFenced)

/-- A new clk: a change of the fence table made in the last one takes effect (R262). -/
def State.fenceClk (s : State) : State :=
  if s.router.fenceOld = [] then s else (s.updRouter (fun r => { r with fenceOld := [] })).fenceChanged

/-- Change a register of the fence table; the decisions of this clk go on using what it held (R262). -/
def State.setFenceReg (s : State) (off : Nat) (v : Word) : State :=
  let old := s.reg off
  (s.updRouter (fun r => { r with
    fenceOld := if r.fenceOld.any (fun e => e.1 == off) then r.fenceOld else (off, old) :: r.fenceOld })).setReg off v

/-- Set or clear one chip's fence. -/
def State.setFence (s : State) (chip : Nat) (on : Bool) : State :=
  let off := (FAB_FENCE.FENCED (chip / 64)).off
  s.setFenceReg off (BitVec.ofNat 64 (withBits (s.reg off).toNat (chip % 64) (chip % 64) (b01 on)))

/-- FENCE_RX: the packet is forwarded, whether or not it is applied; one that is not discarded and has a later epoch changes the table.
DESIGN CHOICE: one whose count is not from 1 to 32 is not applied. -/
def execFenceRx (n : Fin 12) (p : Packet) (s : State) : Res := s.live <|
  let fence := pkClass p = Cls.ctl ∧ pkOpc p = 3 ∧ pkMode p = 1
  let t := s.receive n p true (fun s q => (s.leave q).aggLocal q.pkt true)
  let e := leNat (p.payload.take 4)
  let cnt := leNat ((p.payload.drop 4).take 4)
  let d := (e + 2 ^ 32 - s.rd FAB_FENCE_EPOCH.EPOCH) % 2 ^ 32
  .next (if ¬ fence then s
    else if ¬ s.treeTaken n p ∨ ¬ ecrcGood p ∨ cnt = 0 ∨ 32 < cnt ∨ d = 0 ∨ 2 ^ 31 ≤ d then t
    else
      let t := (List.range cnt).foldl (fun t i =>
        let x := leNat ((p.payload.drop (8 + 2 * i)).take 2)
        t.setFence (x % 2 ^ 14) (x.testBit 15)) t
      t.wr FAB_FENCE_EPOCH.EPOCH e)

/-- FENCE_TABLE_WRITE. -/
def execFenceTableWrite (i : BitVec 8) (v : Word) (s : State) : Res := s.live <|
  .next (s.setFenceReg (FAB_FENCE.FENCED i.toNat).off v)

/-! Mask group entries (R257, R269). -/

/-- The word of FAB_MGDATAn. -/
def State.mgData (s : State) (n : Nat) : Nat := s.rd (FAB_MGDATA.DATA n)

/-- The checks of an entry write (R257). -/
def mgEntryOk (w0 : Nat) (sub : Nat → Nat) : Bool :=
  let ports := (List.range 12).filter (fun p => w0.testBit (50 + p))
  (List.range 12).all (fun p => (sub p < 2 ^ 15) && (if ports.contains p then sub p != 0 else sub p == 0)) &&
    bitsOf w0 33 19 == bitsOf w0 62 62 + ((List.range 12).map sub).sum &&
    (List.range 6).all (fun d => ! (ports.contains d && ports.contains (d + 6))) && bitsOf w0 17 0 == 0

/-- MGROUP_WRITE. -/
def execMgroupWrite (idx : BitVec 12) (s : State) : Res := s.live <|
  let g := idx.toNat
  let sub (p : Nat) : Nat := bitsOf (s.mgData (1 + p / 4)) (16 * (p % 4) + 15) (16 * (p % 4))
  let s := s.wr FAB_MGSEL.INDEX g
  .next (if ¬ mgEntryOk (s.mgData 0) sub then s.fabReport F_FAB_MGROUP 2
    else
      let s := if bitsOf (s.mgWord g 0) 63 63 = 1 ∧ (s.aggState g).isSome then
          (s.setAgg g none).addSat FAB_COUNT1.ABANDON 1 else s
      let ws := (List.range 4).map (fun n => BitVec.ofNat 64 (s.mgData n))
      s.updRouter (fun r => { r with mgroups := tsetMany zeroWord r.mgroups (4 * g) ws }))

/-- MGROUP_READ. -/
def execMgroupRead (idx : BitVec 12) (s : State) : Res := s.live <|
  let s := s.wr FAB_MGSEL.INDEX idx.toNat
  .next ((List.range 4).foldl (fun t n => t.wr (FAB_MGDATA.DATA n) (s.mgWord idx.toNat n)) s)

/-- FAB_CFG_WRITE. -/
def execFabCfgWrite (v : Word) (s : State) : Res := s.live <|
  let busy := (List.range 12).any (fun n => s.inService n || s.portState n == PortSt.held)
  let chip := fieldOf v FAB_CFG.CHIPID
  let inside := coordOf chip 0 ≤ fieldOf v FAB_CFG.XS_M1 ∧ coordOf chip 1 ≤ fieldOf v FAB_CFG.YS_M1 ∧
    coordOf chip 2 ≤ fieldOf v FAB_CFG.ZS_M1
  .next (if busy ∨ ¬ inside then s.fabReport F_FAB_CFG 2
    else
      let w := [FAB_CFG.XS_M1, FAB_CFG.YS_M1, FAB_CFG.ZS_M1, FAB_CFG.CHIPID, FAB_CFG.HB_SLOTS, FAB_CFG.HB_MISS].foldl
        (fun w f => withBits w f.hi f.lo (fieldOf v f)) 0
      (s.setReg FAB_CFG.XS_M1.off (BitVec.ofNat 64 w)).fenceChanged)

end Sys2Proof.Machine
end

