-- ==== Sys2Proof/Machine/Remote.lean ====
section
/-!
DEFINITION. Memory-semantic operations across a domain: issue, the atomics, the target and the answers (R271 to R288).
-/

namespace Sys2Proof.Machine

/-! Checks at issue (R271, R274). -/

/-- Domain chip index and local address of a domain address. -/
def domIndex (off : Nat) : Nat := bitsOf off 45 40
def domLocal (off : Nat) : Nat := off % 2 ^ 40

/-- A right of a segment entry: 0 R, 1 W, 2 A; `nt` needs N too. -/
def State.segGrants (s : State) (c j right : Nat) (nt : Bool) (off n : Nat) : Bool :=
  s.bit (RMEM_SEGB.VALID c j) &&
    (if right = 0 then s.bit (RMEM_SEGB.R c j) else if right = 1 then s.bit (RMEM_SEGB.W c j) else s.bit (RMEM_SEGB.A c j)) &&
    (! nt || s.bit (RMEM_SEGB.N c j)) &&
    decide (s.rd (RMEM_SEGB.BASE c j) * 4096 ≤ off) && decide (off + n ≤ (s.rd (RMEM_SEGL.LIMIT c j) + 1) * 4096)

/-- The code a space-0x3 access meets first. -/
def State.remoteFault (s : State) (c off n right : Nat) (nt : Bool) : Option Nat :=
  if ¬ s.bit (RMEM_CTL.EN c) ∨ 2 ^ 46 ≤ off ∨ s.rd (RMEM_CTL.DSIZE_M1 c) < domIndex off ∨
      ¬ s.bit (RMEM_DMAP.VALID c (domIndex off)) ∨ memBytesUsable < domLocal off + n then some F_ISA_RANGE
  else if ¬ (List.range 32).any (fun j => s.segGrants c j right nt off n) then some F_ISA_OWN
  else if off % n ≠ 0 then some F_ISA_ALIGN
  else none

/-! Issue (R276 to R281). -/

/-- A space-0x3 operation as its instruction gives it: OPC (R278), value, compare value, counter, destination register
and sign extension. -/
structure RemoteOp where
  opc : Nat
  val : Nat := 0
  cmp : Nat := 0
  cc : Nat := 0
  dst : Nat := 0
  sx : Bool := false
  deriving DecidableEq, Repr

/-- The REQ of an operation (R278). -/
def State.reqPacket (s : State) (c chip loc seq : Nat) (o : RemoteOp) : Packet :=
  mkPacket { cls := Cls.req, dest := chip, src := s.chipId, job := s.rd (CTX_JOB.JOB c), seq := seq, cc := o.cc, opc := o.opc }
    (leBytes 8 loc ++ leBytes 8 o.val ++ (if o.opc % 16 = 8 then leBytes 8 o.cmp ++ leBytes 8 0 else []))

/-- An operation of the stream to the same block of the same target is outstanding (R281). -/
def State.sameBlock (s : State) (k chip block : Nat) : Bool :=
  s.remotes.any (fun r => r.stream == k && r.chip == chip && r.block == block)

/-- The REQ injection queue of the first-hop port holds 32 packets of this chip (R281). -/
def State.reqQueueFull (s : State) (p : Packet) : Bool :=
  match s.routeDir (pkDest p) with
  | none => false
  | some d => match s.portFor d (railOf p none) Cls.req with
    | none => false
    | some n => decide (32 ≤ (([0, 1].flatMap (fun vc => tget (fun _ => []) (s.port n).vcq vc)).filter
        (fun q => pkSrc q.pkt == s.chipId)).length)

/-- A REQ of this clk enters its channel's queue (R211, R277): those of one clk by R182, the input ports as requesters 0 to 11 and the
chip's own streams as 12. One that a full queue refuses waits outside, as does one that is held on a page (R348). -/
def State.enterReq (s : State) (r : Request) : State :=
  let ch := channelOf (reqAddr r.pkt)
  let who := fun (x : Request) => (x.since, ((x.fromPort.map (·.1)).getD 12))
  let held := s.reqHeld r.pkt
  let q := s.enqueue 13 who { r with queued := ! held } s.requests
  let s := { s with requests := q }
  if held then s.saturate 2 else (s.overflow ch).chEntered ch

/-- Issue a space-0x3 operation at offset `off`: held for the same block or for injection, else it becomes outstanding, and the REQ leaves, or is served here where the index names this chip (R272). -/
def State.remoteIssue (s : State) (k off : Nat) (o : RemoteOp) : State :=
  let c := s.ctxOf k
  let chip := s.rd (RMEM_DMAP.CHIPID c (domIndex off))
  let loc := domLocal off
  let probe := s.reqPacket c chip loc 0 o
  if s.sameBlock k chip (loc / 64) then s.stall k
  else if s.reqQueueFull probe then (s.saturate 3).stall k
  else
    let (seq, s1) := s.nextSeq Cls.req
    let p := s1.reqPacket c chip loc seq o
    let entry : Remote := ⟨seq, k, (s1.stream k).nextOp, s1.rd (ENG_PC.PC k), o.opc, o.dst, o.sx, chip, loc / 64, s1.ct⟩
    let s2 : State := { s1 with remotes := s1.remotes ++ [entry] }
    let s3 := s2.beginOp k (.remote seq) 3 off
    let reads := o.opc % 16 ≠ 1 ∧ o.opc % 16 ≠ 9 ∧ o.dst ≠ 0
    let s4 := if reads then s3.updStream k (fun x => { x with pendS := o.dst :: x.pendS }) else s3
    let s5 := (s4.sendOn k).queued 3 s4.remotes.length
    if chip = s.chipId then s5.enterReq { pkt := p, buf := none, fromPort := none, own := true, since := s5.clk }
    else (s5.addMod RMEM_COUNT0.REQ_TX 1).inject c p

/-- A remote atomic or RSTN (R276): `code` is the low four bits of OPC. -/
def State.atomic (s : State) (k min : Nat) (b : BitVec 52) (code : Nat) : State :=
  let w := velimWord 0x3C min b
  let n := if bitsOf w 28 28 = 1 then 8 else 4
  let nt := bitsOf w 27 27 == 1
  let a := s.areg k (bitsOf w 42 39)
  let d := effOff a (sfield w 14 0)
  let space := spaceOf a.toNat ≠ 3
  let fails :=
    if space then [(F_ISA_SPACE, 39)]
    else match d with
      | none => [(F_ISA_AOVF, 39)]
      | some off => faultAt (s.remoteFault (s.ctxOf k) off n (if code = 9 then 1 else 2) nt) 39
  let form : Form := {
    bad := (if code = 8 then [] else badZero w 33 29) ++ (if nt then [] else badZero w 26 15) ++
      (if code = 9 then badZero w 47 43 else [])
    s := [fd w, bitsOf w 38 34, bitsOf w 33 29], mem := true, remote := true }
  s.issue k w form fails (fun s => s.remoteIssue k (d.getD 0) {
    opc := code + 16 * (if n = 8 then 3 else 2) + 128 * b01 nt
    val := (s.sreg k (bitsOf w 38 34)).toNat % 2 ^ (8 * n)
    cmp := (s.sreg k (bitsOf w 33 29)).toNat % 2 ^ (8 * n)
    cc := bitsOf w 26 15, dst := fd w })

def execRadd (k : Fin 50) (b : BitVec 52) (s : State) : Res := .next (s.atomic k 0 b 2)
def execRmin (k : Fin 50) (b : BitVec 52) (s : State) : Res := .next (s.atomic k 1 b 3)
def execRminu (k : Fin 50) (b : BitVec 52) (s : State) : Res := .next (s.atomic k 2 b 4)
def execRmax (k : Fin 50) (b : BitVec 52) (s : State) : Res := .next (s.atomic k 3 b 5)
def execRmaxu (k : Fin 50) (b : BitVec 52) (s : State) : Res := .next (s.atomic k 4 b 6)
def execRswp (k : Fin 50) (b : BitVec 52) (s : State) : Res := .next (s.atomic k 5 b 7)
def execRcas (k : Fin 50) (b : BitVec 52) (s : State) : Res := .next (s.atomic k 6 b 8)
def execRstn (k : Fin 50) (b : BitVec 52) (s : State) : Res := .next (s.atomic k 7 b 9)

/-! The target (R205, R275, R277, R278, R280, R284). -/

/-- The context that a NOTIFY counts in: of the REQ's job, and in RUN (R280, R326). -/
def State.notifyCtx (s : State) (job : Nat) : Option Nat :=
  match s.ctxOfJob job with
  | some c => if s.ctxState c = CtxSt.run then some c else none
  | none => none

/-- The status of a REQ at its target (R284). -/
def State.reqStatus (s : State) (p : Packet) : Nat :=
  let n := 2 ^ (pkOpc p / 16 % 4)
  if memBytesUsable < reqAddr p + n then RspSt.range
  else if pkOpc p / 128 = 1 ∧ (s.notifyCtx (pkJob p)).isNone then RspSt.noctx
  else if ¬ s.channelReady (reqAddr p) then RspSt.notready
  else if s.memBad (reqAddr p) n then RspSt.ue
  else RspSt.ok

/-- The word an operation leaves at the target (R276). -/
def remoteNew (code n old val cmp : Nat) : Nat :=
  if code = 2 then (old + val) % 2 ^ (8 * n)
  else if code = 3 then (if signed (8 * n) val < signed (8 * n) old then val else old)
  else if code = 4 then min old val
  else if code = 5 then (if signed (8 * n) old < signed (8 * n) val then val else old)
  else if code = 6 then max old val
  else if code = 8 then (if old = cmp then val else old)
  else val

/-- An answer to an operation goes back: to this chip's own entry at once, else as an RSP in the REQ's buffer. -/
def State.answer (s : State) (r : Request) (val st : Nat) : State :=
  let rsp := rspFor s.chipId r.pkt val st
  if r.own then s.rspAccept (putW0 rsp 55 55 0) else s.sendRsp { pkt := rsp, buf := r.buf, fromPort := r.fromPort } r.pkt

/-- Serve a request at its channel: the block that it reads is checked, also for an atomic and for a store of part of it, and an
uncorrectable one is left as it is (R208, R209, R284). -/
def State.serve (s : State) (r : Request) : State :=
  let p := r.pkt
  let n := 2 ^ (pkOpc p / 16 % 4)
  let st := s.reqStatus p
  let s := { s with requests := s.requests.erase r }
  let s := if st = RspSt.ok ∨ st = RspSt.ue then
      (s.demand (pkOpc p % 16 != 0) (reqAddr p) n).memRead (reqAddr p) n true
    else s
  if st ≠ RspSt.ok then
    let s := if st = RspSt.noctx then s.addSat RMEM_COUNT1.NOCTX 1 else s
    s.answer r 0 st
  else
    let a := reqAddr p
    let old := leNat (s.memBytes a n)
    let code := pkOpc p % 16
    let val := leNat ((p.payload.drop 8).take n)
    let cmp := leNat ((p.payload.drop 16).take n)
    let s := s.addMod RMEM_COUNT1.SERVED 1
    let lost := r.dead.any (fun c => (pagesOf a n).any (fun g => s.isProtected c g))
  let s := if code = 0 ∨ lost then s else
      (s.memWriteNow (match s.ctxOfJob (pkJob p) with
        | some c => c
        | none => 2) a (leBytes n (remoteNew code n old val cmp)))
    let s := if pkOpc p / 128 = 1 then match s.notifyCtx (pkJob p) with
        | some c => s.addCc c (pkCc p) 1
        | none => s
      else s
    s.answer r (if code = 1 ∨ code = 9 then 0 else old) RspSt.ok

/-- REQ_RX. -/
def execReqRx (n : Fin 12) (p : Packet) (s : State) : Res := s.live <|
  .next (if pkClass p ≠ Cls.req then s
    else s.receive n p true (fun s q =>
      let s := s.enterReq { pkt := q.pkt, buf := q.buf, fromPort := q.fromPort, own := false, since := s.clk }
      match s.ctxOfJob (pkJob p) with
      | some c => s.acceptPoison c p
      | none => s))

/-- A request that its controller would perform waits: for a place in the queue, for its channel, or for its page's copy, which saturates
level 2 (R211, R217, R348). -/
def State.reqMustWait (s : State) (r : Request) : Bool :=
  ! r.queued || ! s.channelOpen (reqAddr r.pkt) || s.reqHeld r.pkt

/-- REQ_SERVED: the waiting request at place `op` is served, unless one to the same block is ahead of it (R212). -/
def execReqServed (op : Nat) (upsets : Upsets) (s : State) : Res := s.granting <|
  let s := s.upset upsets
  .next (match s.requests[op]? with
    | none => s
    | some r =>
      if (s.requests.take op).any (fun x => reqAddr x.pkt / 64 == reqAddr r.pkt / 64) then s
      else if (s.reqStatus r.pkt = RspSt.ok ∨ s.reqStatus r.pkt = RspSt.ue) ∧ s.reqMustWait r then s
      else s.serve r)

/-- RSP_RX: an RSP at its requester; for another chip it goes on. -/
def execRspRx (n : Fin 12) (p : Packet) (s : State) : Res := s.live <|
  .next (if pkClass p ≠ Cls.rsp then s else s.receive n p false (fun s q => (s.leave q).rspAccept q.pkt))

/-- REMOTE_TIMEOUT: the outstanding entry with SEQ `op` has waited TIMEOUT strides (R285). -/
def execRemoteTimeout (op : Nat) (s : State) : Res := s.live <|
  .next (match s.remotes.find? (fun r => r.seq == op) with
    | none => s
    | some r =>
      if r.ct + s.rd (RMEM_CTL.TIMEOUT (s.ctxOf r.stream)) ≤ s.ct then
        (({ s with remotes := s.remotes.erase r }).addSat RMEM_COUNT0.TIMEOUT 1).streamFault r.stream F_RMEM_DEAD r.chip r.pc
      else s)

/-- RMEM_CTL_WRITE (R287, R478). -/
def execRmemCtlWrite (c : Fin 2) (v : Word) (s : State) : Res := s.live <|
  .next (if fieldOf v (RMEM_CTL.TIMEOUT c) = 0 ∨ bitsOf v.toNat 31 8 ≠ 0 ∨ bitsOf v.toNat 1 1 ≠ 0 then s.report F_RMEM_CFG 2 0
    else s.writeSetting c (0x038000 + 8 * c) v)

end Sys2Proof.Machine
end

