-- ==== Sys2Proof/Machine/Waits.lean ====
section
/-!
DEFINITION. Completion counters, waits and buffer instructions of Velim (R73 to R76, R189 to R197, R48).
-/

namespace Sys2Proof.Machine

/-- Counter instructions with an immediate: [35:32] zero. -/
def cwImm (w : Nat) : Form := { bad := badZero w 35 32 }

/-- Counter instructions with a scalar register: [35:32] and [26:0] zero. -/
def cwReg (w : Nat) : Form := { bad := badZero w 26 0 ++ badZero w 35 32, s := [fsr w] }

/-- An operation that a counter write has to wait for: stores, copies and their remote kin (R70, R281). -/
def MemKind.stores : MemKind → Bool
  | .st _ | .vst _ | .xmov _ _ _ | .remote _ => true
  | _ => false

/-- Operations in flight of stream `k` that a counter write waits for: a remote load does not count. -/
def State.storesInFlight (s : State) (k : Nat) : List Nat :=
  ((s.stream k).ops.filter (fun o => o.kind.stores &&
    ! (match o.kind with
       | .remote q => s.remotes.any (fun r => r.seq == q && r.opc % 16 == 0)
       | _ => false))).map (fun o => o.id)

/-- A counter write of stream `k`, held until every earlier ST and XMOV of the stream is visible (R70). -/
def State.ccWrite (s : State) (k cc v : Nat) (set : Bool) : State :=
  let after := s.storesInFlight k
  if after = [] ∧ (s.stream k).heldCc = [] then
    if set then s.writeCc k (s.ctxOf k) cc v else s.addCc (s.ctxOf k) cc v
  else s.updStream k (fun x => { x with heldCc := x.heldCc ++ [⟨after, cc, v, set⟩] })

def execCcSet (k : Fin 50) (b : BitVec 52) (s : State) : Res :=
  let w := velimWord 0x0C 0 b
  .next (s.issue k w (cwImm w) [] (fun s => (s.ccWrite k (fcc w) (bitsOf w 31 0) true).retire k))

def execCcAdd (k : Fin 50) (b : BitVec 52) (s : State) : Res :=
  let w := velimWord 0x0C 1 b
  .next (s.issue k w (cwImm w) [] (fun s => (s.ccWrite k (fcc w) (bitsOf w 31 0) false).retire k))

def execCcRd (k : Fin 50) (b : BitVec 52) (s : State) : Res :=
  let w := velimWord 0x0C 2 b
  .next (s.issue k w (cwReg w) [] (fun s =>
    (s.setS k (fsr w) (BitVec.ofNat 64 (s.cc (s.ctxOf k) (fcc w)))).retire k))

def execCcSetr (k : Fin 50) (b : BitVec 52) (s : State) : Res :=
  let w := velimWord 0x0C 3 b
  .next (s.issue k w (cwReg w) [] (fun s =>
    (s.ccWrite k (fcc w) ((s.sreg k (fsr w)).toNat % 2 ^ 32) true).retire k))

/-! Waits (R74, R75). -/

/-- ENG_WAIT of a stream. -/
def State.setWait (s : State) (k kind index target : Nat) : State :=
  ((s.wr (ENG_WAIT.KIND k) kind).wr (ENG_WAIT.INDEX k) index).wr (ENG_WAIT.TARGET k) target

/-- A counter wait: satisfied at once, or entered and timed. -/
def State.waitCounter (s : State) (k cc t : Nat) : State :=
  if reaches (s.cc (s.ctxOf k) cc) t then s.retire k
  else ((s.setEngState k EngSt.waitCc).setWait k 1 cc t).updStream k (fun x => { x with waitFrom := s.ct })

def execWaitCc (k : Fin 50) (b : BitVec 52) (s : State) : Res :=
  let w := velimWord 0x0B 0 b
  .next (s.issue k w (cwImm w) [] (fun s => s.waitCounter k (fcc w) (bitsOf w 31 0)))

def execWaitCcr (k : Fin 50) (b : BitVec 52) (s : State) : Res :=
  let w := velimWord 0x0B 1 b
  .next (s.issue k w (cwReg w) [] (fun s => s.waitCounter k (fcc w) ((s.sreg k (fsr w)).toNat % 2 ^ 32)))

/-- A lap-phase wait (R48, R74). -/
def State.waitLap (s : State) (k t : Nat) : State :=
  let s := s.armAt t
  if t ≤ s.ct then s.retire k
  else ((s.setEngState k EngSt.waitLap).setWait k 2 0 (t % 2 ^ 20)).updStream k (fun x => { x with waitCt := t })

def execWaitSt (k : Fin 50) (b : BitVec 52) (s : State) : Res :=
  let w := velimWord 0x0B 2 b
  .next (s.issue k w { bad := badZero w 47 21 } [] (fun s =>
    s.waitLap k ((s.lapNo + bitsOf w 20 20) * 2 ^ 20 + bitsOf w 19 0)))

def execWaitCt (k : Fin 50) (b : BitVec 52) (s : State) : Res :=
  let w := velimWord 0x0B 3 b
  .next (s.issue k w { bad := badZero w 26 0 ++ badZero w 47 32, s := [fsr w] } [] (fun s =>
    s.waitLap k (s.sreg k (fsr w)).toNat))

/-- A stream's wait is satisfied now; a buffer wait never is, since its grant ends it. -/
def State.waitMet (s : State) (k : Nat) : Bool :=
  (s.engState k == EngSt.waitCc &&
    reaches (s.cc (s.ctxOf k) (s.rd (ENG_WAIT.INDEX k))) (s.rd (ENG_WAIT.TARGET k))) ||
  (s.engState k == EngSt.waitLap && decide ((s.stream k).waitCt ≤ s.ct))

/-- WAIT_SATISFIED: the wait is over and the next instruction may issue. -/
def execWaitSatisfied (k : Fin 50) (s : State) : Res := s.granting <|
  .next (if s.waitMet k then ((s.setEngState k EngSt.run).setReg (engBase k + 0x18) 0).retire k else s)

/-- WAIT_LIMIT_EXPIRY: a counter or buffer wait that reached WAITLIM and is still not satisfied faults (R75). -/
def execWaitLimitExpiry (k : Fin 50) (s : State) : Res := s.granting <|
  let st := s.engState k
  let lim := s.rd (ENG_CTL.WAITLIM k)
  .next (if (st = EngSt.waitCc ∨ st = EngSt.waitBuf) ∧ ¬ s.waitMet k ∧ lim ≠ 0 ∧ (s.stream k).waitFrom + lim ≤ s.ct
    then s.issueFault k (F_ISA_WAITLIM, 0) else s)

/-! Buffers (R76). -/

/-- The code a request of stream `k` raises: its requester is checked before its size (R197, R191). -/
def State.requestFault (s : State) (k bytes : Nat) : List (Nat × Nat) :=
  if ¬ s.reqOk (s.ctxOf k) (s.rd (ENG_CTL.REQID k)) then [(F_LKR_REQID, 0)]
  else if s.poolFor bytes = none then [(F_LKR_SIZE, 0)] else []

/-- A stream's request joins its pool's wait queue, and the clk's grants are made (R192 steps 3 and 4). -/
def State.requestBuf (s : State) (k bytes dst : Nat) : State :=
  let p := (s.poolFor bytes).getD 0
  let s1 := (s.setEngState k EngSt.waitBuf).setWait k 3 p (min bytes (2 ^ 32 - 1))
  let s2 := s1.updStream k (fun x => { x with waitFrom := s.ct })
  (s2.joinWait p ⟨k, s.rd (ENG_CTL.REQID k), bytes, dst, s.clk⟩).grantUpTo 4

def execBufAlloc (k : Fin 50) (b : BitVec 52) (s : State) : Res :=
  let w := velimWord 0x0D 0 b
  let n := (s.sreg k (fa w)).toNat
  .next (s.issue k w { bad := badZero w 37 33 ++ badZero w 32 0, s := [fd w, fa w] } (s.requestFault k n) (fun s =>
    s.requestBuf k n (fd w)))

/-- BUF.TRY: a request not granted in its clk is removed and returns 0 (R192 step 5). -/
def execBufTry (k : Fin 50) (b : BitVec 52) (s : State) : Res :=
  let w := velimWord 0x0D 1 b
  let n := (s.sreg k (fa w)).toNat
  .next (s.issue k w { bad := badZero w 37 33 ++ badZero w 32 0, s := [fd w, fa w] } (s.requestFault k n) (fun s =>
    let t := s.requestBuf k n (fd w)
    if t.engState k = EngSt.waitBuf then
      let t := (t.dropWaits (fun u => u == k.val)).addSat LKR_COUNT.TRY_FAIL 1
      ((((t.setEngState k EngSt.run).setReg (engBase k + 0x18) 0)).setS k (fd w) 0).retire k
    else t))

/-- The fault of a handle check. -/
def handleFault (r : Nat ⊕ Nat) : List (Nat × Nat) :=
  match r with
  | .inl _ => []
  | .inr code => [(code, 0)]

/-- The buffer of a checked handle. -/
def handleKey (r : Nat ⊕ Nat) : Nat :=
  match r with
  | .inl key => key
  | .inr _ => 0

/-- BUF.REF: one more reference, with the clk's other changes (R194). -/
def execBufRef (k : Fin 50) (b : BitVec 52) (s : State) : Res :=
  let w := velimWord 0x0D 2 b
  let r := s.checkHandle (s.ctxOf k) (s.sreg k (fa w))
  .next (s.issue k w { bad := badZero w 47 43 ++ badZero w 37 33 ++ badZero w 32 0, s := [fa w] } (handleFault r)
    (fun s => (s.changeRef ⟨handleKey r, some (k.val, s.rd (ENG_PC.PC k)), true⟩).retire k))

/-- BUF.FREE: one reference less, with the clk's other changes; the last frees the buffer (R194). -/
def execBufFree (k : Fin 50) (b : BitVec 52) (s : State) : Res :=
  let w := velimWord 0x0D 3 b
  let r := s.checkHandle (s.ctxOf k) (s.sreg k (fa w))
  .next (s.issue k w { bad := badZero w 47 43 ++ badZero w 37 33 ++ badZero w 32 0, s := [fa w] } (handleFault r)
    (fun s => (s.changeRef ⟨handleKey r, some (k.val, s.rd (ENG_PC.PC k)), false⟩).retire k))

/-- BUF.ADDR. -/
def execBufAddr (k : Fin 50) (b : BitVec 52) (s : State) : Res :=
  let w := velimWord 0x0D 4 b
  let r := s.checkHandle (s.ctxOf k) (s.sreg k (fa w))
  .next (s.issue k w { bad := badA w 43 ++ badZero w 37 33 ++ badZero w 32 0, s := [fa w] } (handleFault r)
    (fun s => (s.setA k (fd w) (BitVec.ofNat 64 (2 ^ 60 + s.bufBase (handleKey r)))).retire k))

/-- BUF.SIZE. -/
def execBufSize (k : Fin 50) (b : BitVec 52) (s : State) : Res :=
  let w := velimWord 0x0D 5 b
  let r := s.checkHandle (s.ctxOf k) (s.sreg k (fa w))
  .next (s.issue k w { bad := badZero w 37 33 ++ badZero w 32 0, s := [fd w, fa w] } (handleFault r)
    (fun s => (s.setS k (fd w) (BitVec.ofNat 64 (poolSize (keyPool (handleKey r))))).retire k))

end Sys2Proof.Machine
end

