-- ==== Sys2Proof/Machine/MemInstr.lean ====
section
/-!
DEFINITION. LD, ST and XMOV with their completions (R59, R66, R68 to R70, R78).
-/

namespace Sys2Proof.Machine

/-- Overlay a held write on bytes read from `a`. -/
def overlayWrite (a : Nat) (bs : List Byte) (h : HeldWrite) : List Byte :=
  (List.range bs.length).map (fun i =>
    if h.addr ≤ a + i ∧ a + i < h.addr + h.data.length then (h.data[a + i - h.addr]?).getD 0 else (bs[i]?).getD 0)

/-- Bytes as stream `k` reads them: its own held writes come first in program order (R70, R348). -/
def State.streamRead (s : State) (k sp a n : Nat) : List Byte :=
  let l := s.spaceBytes k sp a n
  if sp = 2 then ((s.snap 0).held.filter (fun h => (h.op.map (fun o => o.1)) == some k)).foldl (overlayWrite a) l else l

/-- Size in bytes of an MS-format access. -/
def msBytes (w : Nat) : Nat := 2 ^ bitsOf w 38 37

/-- Faults of a load or store of `n` bytes at the address register and offset (R66, R68, R274). -/
def State.msFaults (s : State) (k : Nat) (a : Word) (d : Int) (n right info : Nat) : List (Nat × Nat) :=
  let sp := spaceOf a.toNat
  match effOff a d with
  | none => [(F_ISA_AOVF, info)]
  | some off =>
    if sp = 3 then faultAt (s.remoteFault (s.ctxOf k) off n right false) info
    else faultAt (s.accessFault k (s.ctxOf k) sp off n n true) info

/-- Accesses of stream `k` to ranges (space, offset, bytes) enter the memory: in LPDDR they wait for a controller in RUN and for the REQs to
their blocks that came before. A single request takes a place in its channel's queue, or is refused and tries again (R211, R212, R223). -/
def State.enterMem (s : State) (k : Nat) (l : List (Nat × Nat × Nat)) (single : Bool) (act : State → State) : State :=
  let l := l.filter (fun x => x.1 == 2)
  if ¬ l.all (fun x => (linesOf x.2.1 x.2.2).all (fun i => s.channelReady (1984 * i))) ∨ l.any (fun x => s.reqAhead x.2.1 x.2.2) then s.stall k
  else if single then l.foldl (fun s x => (s.overflow (channelOf x.2.1)).chEntered (channelOf x.2.1)) (act s)
  else act s

/-- LD: the value is taken, and its check bits looked at, at issue; it reaches the register at LD_COMPLETE. -/
def execLd (k : Fin 50) (b : BitVec 52) (s : State) : Res :=
  let w := velimWord 0x08 0 b
  let n := msBytes w
  let sx := bitsOf w 36 36 == 1
  let a := s.areg k (bitsOf w 42 39)
  let d := sfield w 35 0
  let sp := spaceOf a.toNat
  .next (s.issue k w { s := [fd w], mem := true, remote := sp == 3 } (s.msFaults k a d n 0 39) (fun s =>
    let off := (effOff a d).getD 0
    if sp = 3 then s.remoteIssue k off { opc := 16 * bitsOf w 38 37, dst := fd w, sx := sx }
    else s.enterMem k [(sp, off, n)] true (fun s =>
      let err := s.badCode sp off n
      let (l, s) := (s.checkRead (rinkPort k) sp off n false).besideRead k (sp * 2 ^ 60 + off) (s.streamRead k sp off n)
      let s1 := s.beginOp k (.ld (fd w) (ldValue n sx l) n sx) sp off err
      (if fd w = 0 then s1 else s1.updStream k (fun x => { x with pendS := fd w :: x.pendS })).sendOn k)))

/-- ST. -/
def execSt (k : Fin 50) (b : BitVec 52) (s : State) : Res :=
  let w := velimWord 0x09 0 b
  let n := msBytes w
  let a := s.areg k (bitsOf w 42 39)
  let d := sfield w 35 0
  let sp := spaceOf a.toNat
  .next (s.issue k w { bad := badZero w 36 36, s := [fd w], mem := true, remote := sp == 3 } (s.msFaults k a d n 1 39) (fun s =>
    let off := (effOff a d).getD 0
    let v := (s.sreg k (fd w)).toNat % 2 ^ (8 * n)
    if sp = 3 then s.remoteIssue k off { opc := 1 + 16 * bitsOf w 38 37, val := v }
    else s.enterMem k [(sp, off, n)] true (fun s =>
      let id := (s.stream k).nextOp
      let (l, s) := s.besideWrite k (sp * 2 ^ 60 + off) (fun _ => true) (leBytes n v)
      let s := (s.beginOp k (.st n) sp off).streamWrite (s.ctxOf k) k id sp off l
      (if s.writeHeld k id then s.unplace k id else s).sendOn k)))

/-- Bytes that an operation reads or writes at its own place. -/
def MemKind.bytes : MemKind → Nat
  | .ld _ _ n _ | .st n | .xmov _ _ n => n
  | .vld _ _ _ | .vst _ => 2048
  | _ => 0

/-- An operation on LPDDR can complete: its request has a place, and the channels of its addresses serve it (R211, R212, R217, R222). -/
def State.memReady (s : State) (o : MemOp) : Bool :=
  (o.space != 2 || (o.queued && s.rangeOpen o.addr o.kind.bytes)) &&
  (match o.kind with
   | .xmov _ dst n => spaceOf dst != 2 || s.rangeOpen (offOf dst) n
   | _ => true)

/-- An operation is served: its channels carry its bursts. -/
def State.served (s : State) (o : MemOp) : State :=
  match o.kind with
  | .st n => if o.space = 2 then s.demand true o.addr n else s
  | .xmov _ dst n =>
    let s := if o.space = 2 then s.demand false o.addr n else s
    if spaceOf dst = 2 then s.demand true (offOf dst) n else s
  | _ => if o.space = 2 then s.demand false o.addr o.kind.bytes else s

/-- LD_COMPLETE: the data of a load, scalar or vector, returns, or the error that its read has met (R177, R209). -/
def execLdComplete (k : Fin 50) (op : Nat) (upsets : Upsets) (s : State) : Res := s.granting <|
  let s := s.upset upsets
  .next (match s.findOp k op with
    | none => s
    | some o =>
      if ¬ s.memReady o then s
      else match o.kind with
        | .ld t v _ _ => (match o.err with
          | some code => (s.served o).streamFault k code 0 o.pc
          | none => (((s.served o).setS k t v).updStream k (fun x => { x with pendS := x.pendS.erase t })).endOp k op)
        | .vld t v _ => (match o.err with
          | some code => s.streamFault k code 0 o.pc
          | none => ((s.setV k t v).updStream k (fun x => { x with pendV := x.pendV.erase t })).endOp k op)
        | _ => s)

/-- STORE_COMPLETE: a local store, scalar or vector, is visible. -/
def execStoreComplete (k : Fin 50) (op : Nat) (s : State) : Res := s.granting <|
  .next (match s.findOp k op with
    | none => s
    | some o =>
      match o.kind with
      | .st _ | .vst _ => if s.memReady o ∧ ¬ s.writeHeld k op then (s.served o).endOp k op else s
      | _ => s)

/-- XMOV (R69): both ranges are checked whole; overlapping ranges leave undefined bytes. A copy whose source is uncorrectable writes
nothing and faults when it ends. DESIGN CHOICE: a RANGE or OWN fault that only the length causes names the address field, as R81 does
for any other of its range. -/
def execXmov (k : Fin 50) (b : BitVec 52) (s : State) : Res :=
  let w := velimWord 0x0E 0 b
  let c := s.ctxOf k
  let ad := (s.areg k (bitsOf w 47 44)).toNat
  let as := (s.areg k (bitsOf w 43 40)).toNat
  let n := (s.sreg k (bitsOf w 39 35)).toNat
  let check (a info : Nat) : List (Nat × Nat) := faultAt (s.accessFault k c (spaceOf a) (offOf a) n 16 (spaceOf a != 3)) info
  let fails := check ad 44 ++ check as 40 ++ (if n % 16 = 0 then [] else [(F_ISA_ALIGN, 35)])
  .next (s.issue k w { bad := badZero w 22 0, s := [bitsOf w 39 35], mem := true } fails (fun s =>
    if n = 0 then (s.addCc c (bitsOf w 34 23) 1).retire k
    else s.enterMem k [(spaceOf as, offOf as, n), (spaceOf ad, offOf ad, n)] false (fun s =>
      let id := (s.stream k).nextOp
      let overlap := ad / 2 ^ 60 = as / 2 ^ 60 ∧ offOf ad < offOf as + n ∧ offOf as < offOf ad + n
      let err := s.badCode (spaceOf as) (offOf as) n
      let s := s.checkRead (rinkPort k) (spaceOf as) (offOf as) n false
      let (l, s) := if overlap then s.freeBytes n else s.besideRead k as (s.streamRead k (spaceOf as) (offOf as) n)
      let (l, s) := s.besideWrite k ad (fun _ => true) l
      let s := s.beginOp k (.xmov (bitsOf w 34 23) ad n) (spaceOf as) (offOf as) err
      (if err = none then s.streamWrite c k id (spaceOf ad) (offOf ad) l else s).sendOn k)))

/-- XMOV_COMPLETE: the last byte is written, and the counter counts. -/
def execXmovComplete (k : Fin 50) (op : Nat) (upsets : Upsets) (s : State) : Res := s.granting <|
  let s := s.upset upsets
  .next (match s.findOp k op with
    | none => s
    | some o =>
      if ¬ s.memReady o ∨ s.writeHeld k op then s
      else match o.kind with
        | .xmov cc dst n => (match o.err with
          | some code => (s.served o).streamFault k code 0 o.pc
          | none => (((s.served o).copyEnds k dst n o.loose).addCc (s.ctxOf k) cc 1).endOp k op)
        | _ => s)

end Sys2Proof.Machine
end

