-- ==== Sys2Proof/Machine/Vector.lean ====
section
/-!
DEFINITION. The vector instructions (R91, R98 to R107).
-/

namespace Sys2Proof.Machine

/-! Lanes and masks (R98, R99). -/

/-- Lane `i` of stream `k` is active under the mask field at `lo` (pm above, pmn at `lo`). -/
def State.active (s : State) (k w lo i : Nat) : Bool := (s.preg k (bitsOf w (lo + 3) (lo + 1))).getLsbD i != decide (bitsOf w lo lo = 1)

/-- The mask field's illegal form. -/
def badMask (w lo : Nat) : List Nat := if bitsOf w (lo + 3) (lo + 1) = 0 ∧ bitsOf w lo lo = 1 then [lo] else []

def fva (w : Nat) : Nat := bitsOf w 42 38
def fvb (w : Nat) : Nat := bitsOf w 37 33
def fvc (w : Nat) : Nat := bitsOf w 32 28
def frnd (w : Nat) : Nat := bitsOf w 23 22
def fsat (w : Nat) : Bool := bitsOf w 21 21 == 1

/-- Engines with a vector unit (R91). -/
def hasVector (k : Nat) : Bool := isCluster k || isGate k

/-- Numeric flags of a stream are ORed into its NUM_FLAGS (R107). -/
def State.orFlags (s : State) (k f : Nat) : State :=
  s.setReg (engBase k + 0x30) (s.reg (engBase k + 0x30) ||| BitVec.ofNat 64 f)

/-- OR of the flags of a list of results. -/
def flagsOf (l : List (Nat × Nat)) : Nat := l.foldl (fun f r => f ||| r.2) 0

/-- The form of a VR instruction: which of vb, vc, rnd, sat and x it names; vd, va and pm as given. -/
structure VForm where
  va : Bool := true
  vb : Bool := false
  vc : Bool := false
  pm : Bool := true
  rnd : Bool := false
  sat : Bool := false
  /-- Bits of x that are not named. -/
  x : Nat × Nat := (20, 0)
  deriving DecidableEq, Repr

/-- Illegal fields of a VR instruction (R99). -/
def vrBad (w : Nat) (f : VForm) : List Nat :=
  (if f.va then [] else badZero w 42 38) ++ (if f.vb then [] else badZero w 37 33) ++ (if f.vc then [] else badZero w 32 28) ++
  (if f.pm then badMask w 24 else badZero w 27 25 ++ badZero w 24 24) ++ (if f.rnd then [] else badZero w 23 22) ++
  (if f.sat then [] else badZero w 21 21) ++ badZero w f.x.1 f.x.2

/-- Scoreboard registers of a VR instruction with a vector destination. -/
def vrForm (w : Nat) (f : VForm) : Form :=
  { bad := vrBad w f, engine := hasVector 0
    v := [fd w] ++ (if f.va then [fva w] else []) ++ (if f.vb then [fvb w] else []) ++ (if f.vc then [fvc w] else []) }

/-- Write lanes where the mask is 1, the flags of those lanes ORed into NUM_FLAGS. -/
def State.writeLanes (s : State) (k w : Nat) (f : Nat → Nat × Nat) : State :=
  let old := s.vreg k (fd w)
  let r := laneList.map (fun i => if s.active k w 24 i then f i else (lane old i, 0))
  (s.setV k (fd w) (vecOf (r.map (fun x => x.1)))).orFlags k (flagsOf r)

/-- A lane-wise instruction of MAJ 0x20 or 0x25. -/
def State.vecOp (s : State) (k maj min : Nat) (b : BitVec 52) (f : VForm) (g : State → Nat → Nat → Nat × Nat) : State :=
  let w := velimWord maj min b
  s.issue k w { vrForm w f with engine := hasVector k } [] (fun s => (s.writeLanes k w (g s w)).retire k)

/-- A function of two lanes. -/
def two (k : Nat) (h : Nat → Nat → Nat → Nat × Nat) (s : State) (w i : Nat) : Nat × Nat :=
  h (frnd w) (lane (s.vreg k (fva w)) i) (lane (s.vreg k (fvb w)) i)

/-- A function of one lane. -/
def one (k : Nat) (h : Nat → Nat → Nat × Nat) (s : State) (w i : Nat) : Nat × Nat := h (frnd w) (lane (s.vreg k (fva w)) i)

def formAb : VForm := { vb := true }
def formAbR : VForm := { vb := true, rnd := true }
def formA : VForm := {}
def formAR : VForm := { rnd := true }

/-! Arithmetic (R100). -/

def execVadd (k : Fin 50) (b : BitVec 52) (s : State) : Res := .next (s.vecOp k 0x20 0x00 b formAbR (two k f32Add))
def execVsub (k : Fin 50) (b : BitVec 52) (s : State) : Res := .next (s.vecOp k 0x20 0x01 b formAbR (two k f32Sub))
def execVmul (k : Fin 50) (b : BitVec 52) (s : State) : Res := .next (s.vecOp k 0x20 0x02 b formAbR (two k f32Mul))

/-- VFMA: one rounding. -/
def execVfma (k : Fin 50) (b : BitVec 52) (s : State) : Res :=
  .next (s.vecOp k 0x20 0x03 b { vb := true, vc := true, rnd := true } (fun s w i =>
    f32Fma (frnd w) (lane (s.vreg k (fva w)) i) (lane (s.vreg k (fvb w)) i) (lane (s.vreg k (fvc w)) i)))

def execVmin (k : Fin 50) (b : BitVec 52) (s : State) : Res := .next (s.vecOp k 0x20 0x04 b formAb (two k (fun _ x y => f32Min x y)))
def execVmax (k : Fin 50) (b : BitVec 52) (s : State) : Res := .next (s.vecOp k 0x20 0x05 b formAb (two k (fun _ x y => f32Max x y)))
def execVabs (k : Fin 50) (b : BitVec 52) (s : State) : Res := .next (s.vecOp k 0x20 0x06 b formA (one k (fun _ x => (f32Abs x, 0))))
def execVneg (k : Fin 50) (b : BitVec 52) (s : State) : Res := .next (s.vecOp k 0x20 0x07 b formA (one k (fun _ x => (f32Neg x, 0))))
def execVmov (k : Fin 50) (b : BitVec 52) (s : State) : Res := .next (s.vecOp k 0x20 0x08 b formA (one k (fun _ x => (x, 0))))

/-- VBCAST: the vb field names a scalar register. -/
def execVbcast (k : Fin 50) (b : BitVec 52) (s : State) : Res :=
  let w := velimWord 0x20 0x09 b
  .next (s.issue k w { bad := vrBad w { va := false, vb := true }, engine := hasVector k, s := [fvb w], v := [fd w] } [] (fun s =>
    (s.writeLanes k w (fun _ => ((s.sreg k (fvb w)).toNat % 2 ^ 32, 0))).retire k))

/-- VIOTA: each lane's index. -/
def execViota (k : Fin 50) (b : BitVec 52) (s : State) : Res :=
  .next (s.vecOp k 0x20 0x0A b { va := false } (fun _ _ i => (i, 0)))

def execViadd (k : Fin 50) (b : BitVec 52) (s : State) : Res :=
  .next (s.vecOp k 0x20 0x0B b formAb (two k (fun _ x y => ((x + y) % 2 ^ 32, 0))))
def execVisub (k : Fin 50) (b : BitVec 52) (s : State) : Res :=
  .next (s.vecOp k 0x20 0x0C b formAb (two k (fun _ x y => ((x + 2 ^ 32 - y) % 2 ^ 32, 0))))
def execVand (k : Fin 50) (b : BitVec 52) (s : State) : Res := .next (s.vecOp k 0x20 0x0D b formAb (two k (fun _ x y => (x &&& y, 0))))
def execVor (k : Fin 50) (b : BitVec 52) (s : State) : Res := .next (s.vecOp k 0x20 0x0E b formAb (two k (fun _ x y => (x ||| y, 0))))
def execVxor (k : Fin 50) (b : BitVec 52) (s : State) : Res := .next (s.vecOp k 0x20 0x0F b formAb (two k (fun _ x y => (x ^^^ y, 0))))
def execVshl (k : Fin 50) (b : BitVec 52) (s : State) : Res :=
  .next (s.vecOp k 0x20 0x10 b formAb (two k (fun _ x y => (x * 2 ^ (y % 32) % 2 ^ 32, 0))))
def execVshr (k : Fin 50) (b : BitVec 52) (s : State) : Res :=
  .next (s.vecOp k 0x20 0x11 b formAb (two k (fun _ x y => (x / 2 ^ (y % 32), 0))))

/-! Compare and select (R101). -/

/-- A compare: bit i of the predicate for every active lane. -/
def State.vecCmp (s : State) (k min : Nat) (b : BitVec 52) (f : Nat → Nat → Bool) : State :=
  let w := velimWord 0x21 min b
  s.issue k w { bad := badP w 43 ++ vrBad w formAb, engine := hasVector k, v := [fva w, fvb w] } [] (fun s =>
    let old := s.preg k (fd w)
    let r := laneList.map (fun i =>
      if s.active k w 24 i then f (lane (s.vreg k (fva w)) i) (lane (s.vreg k (fvb w)) i) else old.getLsbD i)
    (s.setP k (fd w) (BitVec.ofNat 512 (r.foldr (fun x acc => 2 * acc + if x then 1 else 0) 0))).retire k)

def execVcmpEq (k : Fin 50) (b : BitVec 52) (s : State) : Res := .next (s.vecCmp k 0x00 b f32Eq)
def execVcmpLt (k : Fin 50) (b : BitVec 52) (s : State) : Res := .next (s.vecCmp k 0x01 b f32Lt)
def execVcmpLe (k : Fin 50) (b : BitVec 52) (s : State) : Res := .next (s.vecCmp k 0x02 b f32Le)
def execVcmpUn (k : Fin 50) (b : BitVec 52) (s : State) : Res := .next (s.vecCmp k 0x03 b (fun x y => ! f32Ordered x y))
def execVicmpEq (k : Fin 50) (b : BitVec 52) (s : State) : Res := .next (s.vecCmp k 0x04 b (fun x y => x == y))
def execVicmpLt (k : Fin 50) (b : BitVec 52) (s : State) : Res :=
  .next (s.vecCmp k 0x05 b (fun x y => decide (signed 32 x < signed 32 y)))

/-- VSEL: the mask selects, and every lane is written. -/
def execVsel (k : Fin 50) (b : BitVec 52) (s : State) : Res :=
  let w := velimWord 0x21 0x08 b
  .next (s.issue k w { vrForm w formAb with engine := hasVector k } [] (fun s =>
    (s.setV k (fd w) (vecOf (laneList.map (fun i =>
      if s.active k w 24 i then lane (s.vreg k (fva w)) i else lane (s.vreg k (fvb w)) i)))).retire k))

/-! Convert and extract (R102). -/

def ffs (w : Nat) : Nat := bitsOf w 20 17
def ffd (w : Nat) : Nat := bitsOf w 16 13
def fq (w : Nat) : Nat := bitsOf w 12 10

/-- A packed format of VCVT. -/
def packed (code : Nat) : Bool := decide (1 ≤ code) && decide (code ≤ 13)

/-- Bytes of a part of a packed format. -/
def partBytes (code : Nat) : Nat := 64 * elemBits code

/-- Parts of a packed format in a vector register. -/
def parts (code : Nat) : Nat := 2048 / partBytes code

/-- The F_ISA_FMT of a VCVT, with the field at fault. -/
def fmtFault (w : Nat) : List (Nat × Nat) :=
  let one := ffs w = 0 ∧ packed (ffd w) ∨ packed (ffs w) ∧ ffd w = 0
  if ¬ one then [(F_ISA_FMT, if ffd w = 0 ∧ ffs w ≠ 0 then 17 else 13)]
  else if parts (if ffs w = 0 then ffd w else ffs w) ≤ fq w then [(F_ISA_FMT, 10)] else []

/-- Bytes [a, a + n) of a vector replaced by a little-endian number. -/
def vecBytes (v : Vec) (a n x : Nat) : Vec := BitVec.ofNat 16384 (withBits v.toNat (8 * (a + n) - 1) (8 * a) x)

/-- Pack all 512 lanes of va into part q of vd: the elements with their flags, and the 16 scale bytes of an MX form. -/
def packLanes (code rnd : Nat) (sat : Bool) (v : Vec) : List (Nat × Nat) × List Nat :=
  let vals := laneList.map (fun i => f32 (lane v i))
  if isMx code then
    let scales := (List.range 16).map (fun j => packScale code ((vals.drop (32 * j)).take 32))
    (vals.zipIdx.map (fun x => elemOf code rnd true (x.1.scale (-((scales[x.2 / 32]?).getD (0, 0)).2))), scales.map (fun x => x.1))
  else (vals.map (fun x => elemOf code rnd sat x), [])

/-- An unpacked lane: its FP32 bits, or none where the exact value is no FP32 number. -/
def unpackLane (code : Nat) (part scales : Nat) (i : Nat) : Option Nat :=
  let x := elemVal code (elemAt code part i)
  let x := if isMx code then (match scaleExp (scales / 2 ^ (8 * (i / 32))) with
      | none => FVal.nan
      | some e => x.scale e)
    else x
  let r := f32Of 0 x
  if r.2 = 0 then some r.1 else none

/-- VCVT. -/
def execVcvt (k : Fin 50) (b : BitVec 52) (s : State) : Res :=
  let w := velimWord 0x22 0x00 b
  let src := ffs w
  let dst := ffd w
  let vf : VForm := { vb := isMx src, vc := isMx dst, rnd := packed dst, sat := packed dst && ! isMx dst, x := (9, 0) }
  .next (s.issue k w { vrForm w vf with engine := hasVector k } (fmtFault w) (fun s =>
    if src = 0 then
      let (es, sc) := packLanes dst (frnd w) (fsat w) (s.vreg k (fva w))
      let s1 := s.setV k (fd w) (vecBytes (s.vreg k (fd w)) (partBytes dst * fq w) (partBytes dst) (packElems dst (es.map (fun x => x.1))))
      let s2 := if isMx dst then
          s1.setV k (fvc w) (vecBytes (s1.vreg k (fvc w)) (16 * fq w) 16 (sc.foldr (fun x acc => acc * 256 + x) 0))
        else s1
      (s2.orFlags k (flagsOf es)).retire k
    else
      let part := bitsOf (s.vreg k (fva w)).toNat (8 * partBytes src * (fq w + 1) - 1) (8 * partBytes src * fq w)
      let scales := bitsOf (s.vreg k (fvb w)).toNat (128 * (fq w + 1) - 1) (128 * fq w)
      let s1 := s.writeLanes k w (fun i => match unpackLane src part scales i with
        | some x => (x, 0)
        | none => (Config.freeNat (s.freeCtr + i) % 2 ^ 32, 0))
      ({ s1 with freeCtr := s1.freeCtr + 512 }).retire k))

/-- VEXT: the vd field names a scalar register. -/
def execVext (k : Fin 50) (b : BitVec 52) (s : State) : Res :=
  let w := velimWord 0x22 0x01 b
  .next (s.issue k w { bad := vrBad w { pm := false, x := (20, 9) }, engine := hasVector k, s := [fd w], v := [fva w] } [] (fun s =>
    (s.setS k (fd w) (BitVec.ofNat 64 (lane (s.vreg k (fva w)) (bitsOf w 8 0)))).retire k))

/-! Load and store (R103). -/

/-- Faults of VLD and VST at an address register and offset. -/
def State.vmFaults (s : State) (k w : Nat) : List (Nat × Nat) :=
  let a := s.areg k (bitsOf w 42 39)
  let sp := spaceOf a.toNat
  let ok := sp = 1 ∨ (sp = 0 ∧ isCluster k) ∨ (sp = 4 ∧ isGate k)
  match effOff a (sfield w 34 0) with
  | none => [(if ok then F_ISA_AOVF else F_ISA_SPACE, 39)]
  | some off => faultAt (s.accessFault k (s.ctxOf k) sp off 2048 64 (decide ok)) 39

/-- The offset of a VM instruction. -/
def State.vmOff (s : State) (k w : Nat) : Nat := (effOff (s.areg k (bitsOf w 42 39)) (sfield w 34 0)).getD 0

/-- The active lanes of a VM instruction. -/
def State.activeLanes (s : State) (k w : Nat) : Pred :=
  BitVec.ofNat 512 (laneList.foldr (fun i acc => 2 * acc + if s.active k w 35 i then 1 else 0) 0)

/-- VLD: the active lanes are taken at issue and reach the register at LD_COMPLETE. -/
def execVld (k : Fin 50) (b : BitVec 52) (s : State) : Res :=
  let w := velimWord 0x23 0x00 b
  .next (s.issue k w { bad := badMask w 35, engine := hasVector k, v := [fd w], mem := true } (s.vmFaults k w) (fun s =>
    let sp := spaceOf (s.areg k (bitsOf w 42 39)).toNat
    let off := s.vmOff k w
    let on := s.activeLanes k w
    let err := s.badCode sp off 2048
    let (l, s) := (s.checkRead (rinkPort k) sp off 2048 false).besideRead k (sp * 2 ^ 60 + off) (s.streamRead k sp off 2048)
    let s := s.beginOp k (.vld (fd w) (vldValue on (s.vreg k (fd w)) l) on) sp off err
    (s.updStream k (fun x => { x with pendV := fd w :: x.pendV })).sendOn k))

/-- The write of a VST: bytes of inactive lanes keep their values, and each block with an active lane contributes to the
trails. -/
def State.vecStore (s : State) (k sp a : Nat) (v : Vec) (act : Nat → Bool) : State :=
  let c := s.ctxOf k
  let old : Vec := BitVec.ofNat 16384 (leNat (s.spaceBytes k sp a 2048))
  let bytes (f : Nat → Nat) (i n : Nat) : List Byte := (List.range n).flatMap (fun j => leBytes 4 (f (i + j)))
  let s := (s.presentWrite k sp a 2048).setSpace k sp a (bytes (fun i => if act i then lane v i else lane old i) 0 512)
  (List.range 32).foldl (fun s j =>
    let on := (List.range 16).filter (fun i => act (16 * j + i))
    if on = [] ∨ 3 ≤ sp then s
    else (List.range 16).foldl (fun s n => s.trailBlock c k sp n (a + 64 * j) (on.length == 16)
      (bytes (fun i => if act i then lane v i else 0) (16 * j) 16)) s) s

/-- VST. -/
def execVst (k : Fin 50) (b : BitVec 52) (s : State) : Res :=
  let w := velimWord 0x23 0x01 b
  .next (s.issue k w { bad := badMask w 35, engine := hasVector k, v := [fd w], mem := true } (s.vmFaults k w) (fun s =>
    let sp := spaceOf (s.areg k (bitsOf w 42 39)).toNat
    let off := s.vmOff k w
    let on := s.activeLanes k w
    let (l, s) := s.besideWrite k (sp * 2 ^ 60 + off) (fun i => on.getLsbD (i / 4)) (leBytes 2048 (s.vreg k (fd w)).toNat)
    ((s.beginOp k (.vst on) sp off).vecStore k sp off (BitVec.ofNat 16384 (leNat l)) (fun i => on.getLsbD i)).sendOn k))

/-! Lane reductions (R104). -/

/-- The fixed tree: at each width the lower half combines with the upper half. -/
def treeReduce (f : Nat → Nat → Nat × Nat) : Nat → List Nat → Nat → Nat × Nat
  | 0, l, fl => ((l[0]?).getD 0, fl)
  | n + 1, l, fl =>
    let w := 2 ^ n
    let r := ((l.take w).zip (l.drop w)).map (fun x => f x.1 x.2)
    treeReduce f n (r.map (fun x => x.1)) (fl ||| flagsOf r)

/-- A reduction with an identity for inactive lanes; the result goes to every lane. -/
def State.vecReduce (s : State) (k min : Nat) (b : BitVec 52) (f : VForm) (idn : Nat) (g : Nat → Nat → Nat → Nat × Nat) : State :=
  let w := velimWord 0x24 min b
  s.issue k w { vrForm w f with engine := hasVector k } [] (fun s =>
    let r := treeReduce (g (frnd w)) 9 (laneList.map (fun i => if s.active k w 24 i then lane (s.vreg k (fva w)) i else idn)) 0
    ((s.setV k (fd w) (vecOf (List.replicate 512 r.1))).orFlags k r.2).retire k)

def execVrsum (k : Fin 50) (b : BitVec 52) (s : State) : Res := .next (s.vecReduce k 0x00 b formAR 0x80000000 f32Add)
def execVrmax (k : Fin 50) (b : BitVec 52) (s : State) : Res := .next (s.vecReduce k 0x01 b formA 0xFF800000 (fun _ x y => f32Max x y))
def execVrmin (k : Fin 50) (b : BitVec 52) (s : State) : Res := .next (s.vecReduce k 0x02 b formA 0x7F800000 (fun _ x y => f32Min x y))

/-! Transcendental functions (R105). -/

def execVexp2 (k : Fin 50) (b : BitVec 52) (s : State) : Res := .next (s.vecOp k 0x25 0x00 b formAR (one k f32Exp2))
def execVlog2 (k : Fin 50) (b : BitVec 52) (s : State) : Res := .next (s.vecOp k 0x25 0x01 b formAR (one k f32Log2))
def execVrcp (k : Fin 50) (b : BitVec 52) (s : State) : Res := .next (s.vecOp k 0x25 0x02 b formAR (one k f32Rcp))
def execVrsqrt (k : Fin 50) (b : BitVec 52) (s : State) : Res := .next (s.vecOp k 0x25 0x03 b formAR (one k f32Rsqrt))
def execVsqrt (k : Fin 50) (b : BitVec 52) (s : State) : Res := .next (s.vecOp k 0x25 0x04 b formAR (one k f32Sqrt))

end Sys2Proof.Machine
end

