-- ==== Sys2Proof/Machine/Gmm.lean ====
section
/-!
DEFINITION. The Grouped Matrix Unit: GMM and its entries (R108 to R122).
-/

namespace Sys2Proof.Machine

/-- The entry is malformed (R111, R118). -/
def Gdt.malformed (e : Gdt) : Bool :=
  e.f 0 43 0 != 0 || e.f 1 31 29 != 0 || (pairNt e.fa e.fb).isNone ||
  ! (e.fc ≤ 3 || e.fc == 14) || (e.exact && e.fa == 1) || (e.fc == 14 && ! e.exact) ||
  e.k % 32 != 0 || e.k == 0 || e.n % 16 != 0 || e.n == 0 || decide (4096 < e.rows) ||
  (e.cadd && ! ((! e.exact && e.fc == 0) || (e.exact && e.fc == 14))) ||
  e.a % 16 != 0 || (! e.aList && (e.aStride % 16 != 0 || (isMx e.fa && e.aScale % 16 != 0))) ||
  e.b % 64 != 0 || (isMx e.fb && e.bScale % 16 != 0) || e.c % 16 != 0 || (! e.cList && e.cStride % 16 != 0)

/-- The code of an access of the GMU of cluster `u`. -/
def State.gmuFault (s : State) (u a n : Nat) : List Nat :=
  (faultAt (s.accessFault u (s.ctxOf u) (spaceOf a) (offOf a) n 1 (decide (spaceOf a < 2))) 0).map (fun x => x.1)

/-- Every code that an entry's addresses raise (R59, R111). -/
def State.gdtFaults (s : State) (u : Nat) (e : Gdt) : List Nat :=
  let rows := List.range e.rows
  let nt := (pairNt e.fa e.fb).getD 64
  let panels := (e.n + nt - 1) / nt
  let lists := (if e.aList then s.gmuFault u e.a (4 * e.rows) else []) ++ (if e.cList then s.gmuFault u e.c (4 * e.rows) else [])
  lists ++ (if lists ≠ [] then [] else
    rows.flatMap (fun r =>
      s.gmuFault u (s.aRowAt u e r).1 e.aRow ++ (if isMx e.fa then s.gmuFault u (s.aRowAt u e r).2 (e.k / 32) else []) ++
      s.gmuFault u (s.cRowAt u e r) (e.n * cBytes e.fc))) ++
  s.gmuFault u e.b (panels * e.k * nt * elemBits e.fb / 8) ++ (if isMx e.fb then s.gmuFault u e.bScale (e.n * (e.k / 32)) else [])

/-- Values of row `r` of A and the scale exponents of its blocks (none for a NaN scale). -/
def State.aVals (s : State) (u : Nat) (e : Gdt) (r : Nat) : List FVal × List (Option Int) :=
  let x := s.aRowAt u e r
  let n := leNat (s.gmuBytes u x.1 e.aRow)
  ((List.range e.k).map (fun i => elemVal e.fa (elemAt e.fa n i)),
   if isMx e.fa then (s.gmuBytes u x.2 (e.k / 32)).map (fun b => scaleExp b.toNat) else List.replicate (e.k / 32) (some 0))

/-- Values of column `c` of B and the scale exponents of its blocks. -/
def State.bVals (s : State) (u : Nat) (e : Gdt) (c : Nat) : List FVal × List (Option Int) :=
  let nt := (pairNt e.fa e.fb).getD 64
  let row := nt * elemBits e.fb / 8
  let base := e.b + c / nt * (e.k * row)
  ((List.range e.k).map (fun i => elemVal e.fb (elemAt e.fb (leNat (s.gmuBytes u (base + i * row) row)) (c % nt))),
   if isMx e.fb then (s.gmuBytes u (e.bScale + c * (e.k / 32)) (e.k / 32)).map (fun b => scaleExp b.toNat)
   else List.replicate (e.k / 32) (some 0))

/-! Output elements (R114 to R118). -/

/-- A product of two elements with their block's scales; a NaN scale makes it NaN. -/
def scaledProduct (a b : FVal) (sa sb : Option Int) : FVal × Nat :=
  match sa, sb with
  | some x, some y => let p := valMul a b; (p.1.scale (x + y), p.2)
  | _, _ => (.nan, 0)

/-- Block exponent of element `i`. -/
def blockExp (l : List (Option Int)) (i : Nat) : Option Int := (l[i / 32]?).getD none

/-- The scaled products of an output element, with the flags of forming them. -/
def products (a b : List FVal × List (Option Int)) : List (FVal × Nat) :=
  ((a.1.zip b.1).zipIdx).map (fun x => scaledProduct x.1.1 x.1.2 (blockExp a.2 x.2) (blockExp b.2 x.2))

def FVal.isFin : FVal → Bool
  | .fin _ _ _ => true
  | _ => false

/-- The sum of values of which one is not finite: NaN, or the infinity they share. -/
def specialSum (l : List (FVal × Nat)) : FVal × Nat :=
  l.foldl (fun a p => let r := valAdd 0 a.1 p.1; (r.1, a.2 ||| r.2 ||| p.2)) (.fin false 0 0, 0)

/-- The least exponent of a list of finite values. -/
def minExp (l : List (FVal × Nat)) : Int := l.foldl (fun m p => match p.1 with
  | .fin _ _ e => min m e
  | _ => m) 0

/-- The exact sum of finite values, and the sum of their magnitudes, in units of 2^e. -/
def exactSums (l : List (FVal × Nat)) (e : Int) : Int × Nat := l.foldl (fun a p => match p.1 with
  | .fin neg m x =>
    let t := m * 2 ^ (x - e).toNat
    (a.1 + (if neg then -(t : Int) else (t : Int)), a.2 + t)
  | _ => a) (0, 0)

/-- Convert a result to FMT_C below XP64, adding the old C where CADD is set (R118). -/
def toC (e : Gdt) (old : Nat) (v : FVal × Nat) : Nat × Nat :=
  let v := if e.cadd then (let r := valAdd e.rnd v.1 (f32 old); (r.1, r.2 ||| v.2)) else v
  let r := elemOf e.fc e.rnd e.sat v.1
  (r.1, r.2 ||| v.2)

/-- A fast-mode element (R114): the exact sum, moved by a free amount within the bound that the device promises, then
rounded once. The flags of the partial roundings are free as well. -/
def fastElem (e : Gdt) (old free : Nat) (ps : List (FVal × Nat)) : Nat × Nat :=
  if ps.all (fun p => p.1.isFin) then
    let ex := minExp ps
    let x := exactSums ps ex
    let d := x.2 * (e.k / 32)
    let t := x.1 * 2 ^ 24 + ((free % (2 * d + 1) : Nat) - (d : Nat))
    let r := toC e old (intVal t (ex - 24), 0)
    (r.1, r.2 ||| (if d = 0 then 0 else free / (2 * d + 1) &&& (NF.nx + NF.uf)))
  else toC e old (specialSum ps)

/-- The largest of a list of exponents. -/
def maxExp (l : List (Option Int)) : Int := match l.filterMap id with
  | [] => 0
  | x :: r => r.foldl max x

/-- u of a format (R93). -/
def uOf (c : Nat) : Int :=
  if c = 2 ∨ c = 8 then 9 else if c = 3 ∨ c = 9 then 16 else if c = 5 ∨ c = 11 then 5 else if c = 13 then 1 else 3

/-- floor(t * 2^k), and whether bits are discarded. -/
def floorShift (t : Int) (k : Int) : Int × Bool :=
  if 0 ≤ k then (t * 2 ^ k.toNat, false) else (t / (2 ^ (-k).toNat : Nat), decide (t % (2 ^ (-k).toNat : Nat) ≠ 0))

/-- The XP64 form of t * 2^e (R117), added to the old X under CADD. -/
def toXp64 (g : Gdt) (old : Nat) (t : Int) (e : Int) : Nat × Nat :=
  let f := floorShift t (e - (g.xanchor - 48))
  let lo : Int := -(2 ^ 63 : Nat)
  let hi : Int := (2 ^ 63 - 1 : Nat)
  let x := max lo (min hi f.1)
  let r := (x + if g.cadd then (old : Int) else 0) % (2 ^ 64 : Nat)
  (r.toNat, flagIf f.2 NF.loss + flagIf (decide (f.1 < lo ∨ hi < f.1)) NF.xovf)

/-- An exact-mode element (R115): the sum of the products, each floored to the accumulator's unit. DESIGN CHOICE: LOSS is set where bits
are discarded (R107), and not by a scale spread beyond the limit that discards none. -/
def exactElem (g : Gdt) (old free : Nat) (a b : List FVal × List (Option Int)) (ps : List (FVal × Nat)) : Nat × Nat :=
  if ps.all (fun p => p.1.isFin) then
    let anc := uOf g.fa + uOf g.fb + maxExp a.2 + maxExp b.2
    let fl := ps.map (fun p => match p.1 with
      | .fin neg m x => floorShift (if neg then -(m : Int) else (m : Int)) (x - (anc - 160))
      | _ => (0, false))
    let w := (fl.map (fun x => x.1)).sum
    let loss := flagIf (fl.any (fun x => x.2)) NF.loss
    let r := if g.fc = 14 then toXp64 g old w (anc - 160) else toC g old (intVal w (anc - 160), 0)
    (r.1, r.2 ||| loss)
  else
    -- A NaN output: of a NaN operand or scale without a flag, of an infinite element with NV.
    let nv := flagIf ((a.1 ++ b.1).any (fun v => match v with
      | .inf _ => true
      | _ => false)) NF.nv
    if g.fc = 14 then (free % 2 ^ 64, NF.nv) else let r := elemOf g.fc g.rnd g.sat .nan; (r.1, r.2 ||| nv)

/-- A plain INT8 element: its sum is exact in both modes (R114). -/
def intElem (g : Gdt) (old : Nat) (ps : List (FVal × Nat)) : Nat × Nat :=
  let t := (exactSums ps 0).1
  if g.fc = 14 then toXp64 g old t 0 else toC g old (intVal t 0, 0)

/-- Output element (r, c): its bits and flags, from the state before the entry. -/
def State.gmmElem (s : State) (u : Nat) (g : Gdt) (r c free : Nat) : Nat × Nat :=
  let a := s.aVals u g r
  let b := s.bVals u g c
  let ps := products a b
  let old := leNat (s.gmuBytes u (s.cRowAt u g r + c * cBytes g.fc) (cBytes g.fc))
  if g.fa = 7 then intElem g old ps
  else if g.exact then exactElem g old free a b ps
  else fastElem g old free ps

/-- An output element of an entry, undefined in bits and flags where the entry is `loose` (R119, R194). -/
def State.gmmOut (s : State) (u : Nat) (g : Gdt) (loose : Bool) (r c free : Nat) : Nat × Nat :=
  if loose then (free % 2 ^ (8 * cBytes g.fc), free / 2 ^ 64 % 128) else s.gmmElem u g r c free

/-- Write an entry's outputs, row block by row block, panel by panel (R113), with their flags. DESIGN CHOICE: every operand and old C is
taken from the state before the entry, though its C rows may repeat or overlap what it reads. -/
def State.gmmWrite (s0 : State) (u op : Nat) (g : Gdt) (loose : Bool) : State :=
  let nt := (pairNt g.fa g.fb).getD 64
  let c := s0.ctxOf u
  let pieces := (List.range ((g.rows + 255) / 256)).flatMap (fun rb => (List.range ((g.n + nt - 1) / nt)).flatMap (fun p =>
    (List.range (min 256 (g.rows - 256 * rb))).map (fun r => (256 * rb + r, p * nt, min nt (g.n - p * nt)))))
  let s1 := pieces.foldl (fun s x =>
    let es := (List.range x.2.2).map (fun j =>
      s0.gmmOut u g loose x.1 (x.2.1 + j) (Config.freeNat (s0.freeCtr + x.1 * g.n + x.2.1 + j)))
    let ad := s0.cRowAt u g x.1 + x.2.1 * cBytes g.fc
    (s.streamWrite c u op (spaceOf ad) (offOf ad) (es.flatMap (fun v => leBytes (cBytes g.fc) v.1))).orFlags u (flagsOf es)) s0
  { s1 with freeCtr := s1.freeCtr + g.rows * g.n }

/-- Clk that an entry spends at the 16-clk floor of its tile passes (R121). -/
def Gdt.floorClk (g : Gdt) : Nat :=
  let nt := (pairNt g.fa g.fb).getD 64
  let kt := pairKt g.fa g.fb
  let passes := (g.k + kt - 1) / kt * ((g.n + nt - 1) / nt)
  let r := if g.exact ∧ g.fa ≠ 7 then 2 else 1
  ((List.range ((g.rows + 255) / 256)).map (fun i => if r * min 256 (g.rows - 256 * i) < 16 then 16 * passes else 0)).sum

/-- Count a valid entry (R123). -/
def State.countEntry (s : State) (u : Nat) (g : Gdt) : State :=
  let t := tget (fun _ => 0) s.floors u + g.floorClk
  let s := { s with floors := tset (fun _ => 0) s.floors u (t % 256) }
  (s.addSat (GMU_COUNT.FLOOR_CLK u) (t / 256)).addSat (GMU_COUNT.ENTRIES u) 1

/-! Issue and completion (R109, R111). -/

/-- The code that an entry raises when the GMU reaches it: the lowest of its own (R111). DESIGN CHOICE: a VALID entry with ROWS = 0 is
skipped without a check, for the rule asks both that it take one clk and write nothing and that a malformed VALID entry fault. -/
def State.entryFault (s : State) (u : Nat) (g : Gdt) : Option Nat :=
  if ¬ g.valid ∨ g.rows = 0 then none
  else (firstFault (((if g.malformed then [F_ISA_GDT] else []) ++ s.gdtFaults u g).map (fun y => (y, 0)))).map (fun f => f.1)

/-- The head of a GMU's queue starts the entry it has reached; a pre-empted context's waits for its return (R120). -/
def State.gmuReach (s : State) (u : Nat) : State :=
  match s.gmu u with
  | [] => s
  | x :: l =>
    if x.desc = [] ∧ s.ctxState (s.ctxOf u) = CtxSt.run then
      let d := s.readEntry u x x.entry
      s.setGmu u ({ x with desc := d, fault := s.entryFault u ⟨d⟩ } :: l)
    else s

/-- A GMM joins a GMU's queue: it begins at once on an idle GMU. -/
def State.gmuAdd (s : State) (u : Nat) (x : GmmOp) : State :=
  let t := s.setGmu u (s.gmu u ++ [x])
  (if s.gmu u = [] then t.gmmBegins u else t).gmuReach u

/-- GMM (R108, R109). DESIGN CHOICE: one of no entries completes at once, even while both places are taken, for it takes none. -/
def execGmm (k : Fin 50) (b : BitVec 52) (s : State) : Res :=
  let w := velimWord 0x28 0x00 b
  let a := (s.areg k (bitsOf w 47 44)).toNat
  let n := (s.sreg k (bitsOf w 43 39)).toNat
  let sp := spaceOf a
  .next (s.issue k w { bad := badZero w 25 0, engine := isCluster k, s := [bitsOf w 43 39], mem := true }
    (faultAt (s.accessFault k (s.ctxOf k) sp (offOf a) (64 * n) 64 (decide (sp < 2))) 44 ++ (if n ≤ 65535 then [] else [(F_ISA_GDT, 39)]))
    (fun s =>
      let cc := bitsOf w 38 27
      let ce := bitsOf w 26 26
      if n = 0 then (if ce = 0 then s.addCc (s.ctxOf k) cc 1 else s).retire k
      else if 2 ≤ (s.gmu k).length then s.stall k
      else
        let x : GmmOp := { stream := k, op := (s.stream k).nextOp, pc := s.rd (ENG_PC.PC k), addr := a, count := n, entry := 0, cc := cc, ce := ce }
        ((s.beginOp k .gmm sp (offOf a)).gmuAdd k x).retire k))

/-- The entry in progress is over: it counts, and the GMU goes on (R109). -/
def State.entryOver (s : State) (u : Nat) (x : GmmOp) (l : List GmmOp) : State :=
  let last := x.entry + 1 = x.count
  let s := if x.ce = 1 ∨ last then s.addCc (s.ctxOf u) x.cc 1 else s
  if last then (((s.setGmu u l).gmmBegins u).gmuReach u).endOp u x.op
  else (s.setGmu u ({ x with entry := x.entry + 1, desc := [], fault := none } :: l)).gmuReach u

/-- GMM_ENTRY_DONE: the entry's outputs are written, or it faults by what it is or by what its reads meet (R177, R209). -/
def execGmmEntryDone (u : Fin 32) (upsets : Upsets) (s : State) : Res := s.granting <|
  let s := s.upset upsets
  let c := s.ctxOf u
  let s := s.gmuReach u
  .next (if ¬ (s.ctxState c = CtxSt.run ∨ s.ctxState c = CtxSt.saving) then s
    else match s.gmu u with
    | [] => s
    | x :: l =>
      if x.desc = [] then s
      else
      let g : Gdt := ⟨x.desc⟩
      let entry := (spaceOf x.addr, offOf x.addr + 64 * x.entry, 64)
      let reads := entry :: (if ¬ g.valid ∨ g.rows = 0 ∨ x.fault.isSome then []
        else (s.gdtReads u g).map (fun r => (spaceOf r.1, offOf r.1, r.2)))
      if ¬ s.servesAll reads then s
      else
      let bad := s.badAll reads
      let s := s.readRanges (rinkPort u) reads false
      match bad with
      | some code => s.streamFault u code 0 x.pc
      | none =>
        if ¬ g.valid then s.entryOver u x l
        else if g.rows = 0 then (s.countEntry u g).entryOver u x l
        else match x.fault with
          | some f => s.streamFault u f x.entry x.pc
          | none => ((s.gmmWrite u x.op g (x.loose.contains x.entry)).countEntry u g).entryOver u x l)

end Sys2Proof.Machine
end

