-- ==== Sys2Proof/Machine/Gate.lean ====
section
/-!
DEFINITION. Gate Engines, sending side: the route descriptor, scoring, selection, weights, dispatch, tallies and the
gate instructions (R125 to R140, R145).
-/

namespace Sys2Proof.Machine

/-! The route descriptor (R128). -/

def rdF (d : List Word) (i hi lo : Nat) : Nat := bitsOf ((d[i]?).getD 0).toNat hi lo
def rdLayer (d : List Word) : Nat := rdF d 0 63 56
def rdFmtX (d : List Word) : Nat := rdF d 0 55 52
def rdFmtW (d : List Word) : Nat := rdF d 0 51 48
def rdSrc (d : List Word) : Bool := rdF d 0 47 47 == 1
def rdLevels (d : List Word) : Bool := rdF d 0 46 46 == 1
def rdGfn (d : List Word) : Nat := rdF d 0 45 44
def rdWfn (d : List Word) : Nat := rdF d 0 43 42
def rdSpill (d : List Word) : Bool := rdF d 0 41 41 == 1
def rdRsv (d : List Word) : Nat := rdF d 0 40 37
def rdK (d : List Word) : Nat := rdF d 0 36 32
def rdKg (d : List Word) : Nat := rdF d 0 31 27
def rdBias (d : List Word) : Bool := rdF d 0 26 26 == 1
def rdD (d : List Word) : Nat := rdF d 1 63 48
def rdE (d : List Word) : Nat := rdF d 1 47 28 + 1
def rdG (d : List Word) : Nat := rdF d 1 27 12 + 1
def rdX (d : List Word) : Nat := rdF d 2 63 0
def rdW (d : List Word) : Nat := rdF d 3 63 0
def rdBiasAddr (d : List Word) : Nat := rdF d 4 63 0
def rdOut (d : List Word) : Nat := rdF d 5 63 0
def rdPos (d : List Word) : Nat := rdF d 6 63 32
def rdStride (d : List Word) : Nat := rdF d 6 31 0
def rdEbase (d : List Word) : Nat := rdF d 7 63 44
def rdEht (d : List Word) : Nat := rdF d 7 23 0

/-- Bytes of a token row: packed elements and, for an MX form, their scales (R130). -/
def rdVec (d : List Word) : Nat := rdD d * elemBits (rdFmtX d) / 8 + if isMx (rdFmtX d) then rdD d / 32 else 0

/-- Bytes of the weight panels, and of all of the weights with their scales. -/
def rdPanels (d : List Word) : Nat := (rdE d + 63) / 64 * (rdD d * 64 * elemBits (rdFmtW d) / 8)
def rdWeights (d : List Word) : Nat := rdPanels d + if isMx (rdFmtW d) then rdE d * (rdD d / 32) else 0

/-- Bytes of a row of external scores. -/
def rdScoreRow (d : List Word) : Nat := (4 * rdE d + 15) / 16 * 16

def gateFmt (f : Nat) : Bool := f == 2 || f == 3 || f == 6 || f == 8 || f == 9 || f == 12

/-- A range of `n` bytes lies in a space of a list. -/
def rangeIn (sps : List Nat) (a n : Nat) : Bool := sps.contains (spaceOf a) && decide (offOf a + n ≤ spaceSize (spaceOf a))

/-- The byte ranges that an instruction of T tokens reads and writes in spaces 0x1 and 0x4. -/
def rdRanges (d : List Word) (t : Nat) : List (Nat × Nat) :=
  [(rdX d, if t = 0 then 0 else (t - 1) * rdStride d + rdVec d), (rdOut d, 16 * t * rdK d)] ++
  if rdSrc d then [(rdW d, t * rdScoreRow d)] else []

/-- The descriptor keeps R128 and R129 for T tokens. -/
def rdOk (d : List Word) (t : Nat) : Bool :=
  let nc := if rdLevels d then rdKg d * rdE d / rdG d else rdE d
  rdF d 0 25 0 == 0 && rdF d 1 11 0 == 0 && rdF d 7 43 24 == 0 && gateFmt (rdFmtX d) && gateFmt (rdFmtW d) &&
  decide (rdGfn d ≤ 1) && decide (rdWfn d ≤ 2) && decide (1 ≤ rdK d) && decide (rdK d + rdRsv d ≤ 16) &&
  rdD d % 32 == 0 && decide (32 ≤ rdD d) && decide (rdD d ≤ 16384) && rdStride d % 16 == 0 &&
  decide (rdEbase d + rdE d ≤ 2 ^ 20) && rdEht d % 8 == 0 && decide (rdEht d + 8 * rdE d ≤ sramSize) &&
  (if rdLevels d then
    decide (2 ≤ rdG d) && rdE d % rdG d == 0 && decide (1 ≤ rdKg d) && decide (rdKg d ≤ min 16 (rdG d)) && decide (nc ≤ 65536)
   else rdKg d == 0 && rdG d == 1 && decide (rdE d ≤ 65536)) &&
  decide (rdK d + rdRsv d ≤ nc) && (rdRanges d t).all (fun r => rangeIn [1, 4] r.1 r.2) &&
  (rdSrc d || rangeIn [4] (rdW d) (rdWeights d)) && (! rdBias d || rangeIn [4] (rdBiasAddr d) (4 * rdE d))

/-- The code that starting an instruction raises: a malformed descriptor, or bytes of the Rink that its context does not
own. -/
def State.descFault (s : State) (c : Nat) (d : List Word) (t : Nat) : Option Nat :=
  if ¬ rdOk d t then some F_GATE_DESC
  else if (rdRanges d t).any (fun r => spaceOf r.1 == 1 && r.2 != 0 && ! s.rinkOwned c (offOf r.1) r.2) then some F_ISA_OWN
  else none

/-! Scores (R130, R131). -/

/-- Bytes at a full address as Gate Engine `g` reads them. -/
def State.geBytes (s : State) (g a n : Nat) : List Byte := s.spaceBytes (32 + g) (spaceOf a) (offOf a) n

/-- The bytes of token row `t`: the vector part of its TOKEN record. -/
def State.tokenRow (s : State) (g : Nat) (d : List Word) (t : Nat) : List Byte := s.geBytes g (rdX d + t * rdStride d) (rdVec d)

/-- Scale exponents of a row of scale bytes, or of a plain format. -/
def rowScales (fmt blocks : Nat) (l : List Byte) : List (Option Int) :=
  if isMx fmt then l.map (fun b => scaleExp b.toNat) else List.replicate blocks (some 0)

/-- Elements and scales of token row `t`. -/
def State.tokenVals (s : State) (g : Nat) (d : List Word) (t : Nat) : List FVal × List (Option Int) :=
  let row := s.tokenRow g d t
  let n := rdD d * elemBits (rdFmtX d) / 8
  let v := leNat (row.take n)
  ((List.range (rdD d)).map (fun i => elemVal (rdFmtX d) (elemAt (rdFmtX d) v i)), rowScales (rdFmtX d) (rdD d / 32) (row.drop n))

/-- Weights and scales of candidate `e`. -/
def State.weightVals (s : State) (g : Nat) (d : List Word) (e : Nat) : List FVal × List (Option Int) :=
  let row := 64 * elemBits (rdFmtW d) / 8
  let base := rdW d + e / 64 * (rdD d * row)
  ((List.range (rdD d)).map (fun i => elemVal (rdFmtW d) (elemAt (rdFmtW d) (leNat (s.geBytes g (base + i * row) row)) (e % 64))),
   rowScales (rdFmtW d) (rdD d / 32) (s.geBytes g (rdW d + rdPanels d + e * (rdD d / 32)) (rdD d / 32)))

/-- A block's exact sum of products. -/
def blockSum (l : List (FVal × Nat)) : FVal × Nat :=
  if l.all (fun p => p.1.isFin) then (intVal (exactSums l (minExp l)).1 (minExp l), 0) else specialSum l

/-- Add the blocks of 32 products to the FP32 sum in ascending order, each addition rounded once. -/
def sumBlocks : Nat → List (FVal × Nat) → Nat × Nat → Nat × Nat
  | 0, _, a => a
  | n + 1, l, a =>
    let b := blockSum (l.take 32)
    let r := f32Round 0 (valAdd 0 (f32 a.1) b.1)
    sumBlocks n (l.drop 32) (r.1, a.2 ||| b.2 ||| r.2)

/-- The raw score of a candidate for a token whose row is `x`, with its flags. -/
def State.rawScore (s : State) (g : Nat) (d : List Word) (t : Nat) (x : List FVal × List (Option Int)) (e : Nat) : Nat × Nat :=
  if rdSrc d then (leNat (s.geBytes g (rdW d + t * rdScoreRow d + 4 * e) 4), 0)
  else sumBlocks (rdD d / 32) (products x (s.weightVals g d e)) (0, 0)

/-! Selection (R132, R133). -/

/-- The ranking key of an FP32 value. -/
def key32 (x : Nat) : Nat :=
  if f32 x = .nan then 0 else if x = 2 ^ 31 then 2 ^ 31 else if x < 2 ^ 31 then x + 2 ^ 31 else 2 ^ 32 - 1 - x

/-- The ranking key of a score and an expert ID or group index. -/
def key52 (x i : Nat) : Nat := key32 x * 2 ^ 20 + (2 ^ 20 - 1 - i % 2 ^ 20)

/-- The items of the `n` largest keys, largest first. -/
def topBy : Nat → List (Nat × Nat) → List Nat
  | 0, _ => []
  | n + 1, l =>
    match l.foldl (fun (m : Option (Nat × Nat)) x => match m with
      | none => some x
      | some y => if y.1 < x.1 then some x else some y) none with
    | none => []
    | some m => m.2 :: topBy n (l.erase m)

/-- A group's score with its flags: the largest, or the sum of the two largest; a group of one has no second, and the sum
is then a free value. -/
def groupScore (d : List Word) (sc : Nat → Nat) (q free : Nat) : Nat × Nat :=
  let n := rdE d / rdG d
  let best := topBy 2 ((List.range n).map (fun i => (key52 (sc (q * n + i)) (rdEbase d + q * n + i), q * n + i)))
  match best with
  | [] => (0, 0)
  | [e] => (if rdGfn d = 0 then sc e else free % 2 ^ 32, 0)
  | e :: f :: _ => if rdGfn d = 0 then (sc e, 0) else f32Add 0 (sc e) (sc f)

/-- The candidates of level 2, with the flags of the group scores. -/
def candidates (d : List Word) (sc : Nat → Nat) (free : Nat → Nat) : List Nat × Nat :=
  if rdLevels d then
    let gs := (List.range (rdG d)).map (fun q => (q, groupScore d sc q (free q)))
    let chosen := topBy (rdKg d) (gs.map (fun x => (key52 x.2.1 x.1, x.1)))
    let n := rdE d / rdG d
    (chosen.flatMap (fun q => (List.range n).map (fun i => q * n + i)), gs.foldl (fun f x => f ||| x.2.2) 0)
  else (List.range (rdE d), 0)

/-! Gate weights (R134). -/

/-- The unnormalised weight of a score: exp(r - m), or the sigmoid. -/
def gateU (wfn m r : Nat) : Nat × Nat :=
  if wfn = 0 then
    let x := f32Sub 0 r m
    let y := f32Exp 0 x.1
    (y.1, x.2 ||| y.2)
  else
    let x := f32Exp 0 (f32Neg r)
    let y := f32Add 0 0x3F800000 x.1
    let z := f32Rcp 0 y.1
    (z.1, x.2 ||| y.2 ||| z.2)

/-- The weights of the K choices from their raw scores, with the flags. -/
def gateWeights (wfn : Nat) (rs : List Nat) : List Nat × Nat :=
  let good := rs.filter (fun r => f32 r != .nan)
  let nv := if good.length = rs.length then 0 else NF.nv
  if wfn = 2 then (rs.map (fun r => if f32 r = .nan then 0 else 0x3F800000), nv)
  else
    let m := good.foldl (fun m r => if key32 m < key32 r then r else m) (good.headD 0)
    let us := rs.map (fun r => if f32 r = .nan then (0, 0) else gateU wfn m r)
    let ok := (rs.zip us).filterMap (fun x => if f32 x.1 = .nan then none else some x.2.1)
    let sum := match ok with
      | [] => (0, 0)
      | u :: l => l.foldl (fun a u => let r := f32Add 0 a.1 u; (r.1, a.2 ||| r.2)) (u, 0)
    let ws := (rs.zip us).map (fun x => if f32 x.1 = .nan then (0, 0) else f32Div 0 x.2.1 sum.1)
    (ws.map (fun w => w.1), nv ||| flagsOf us ||| sum.2 ||| flagsOf ws)

/-- Score and select token `t`: the ranked list of choices with weights and reserves, and the flags. -/
def State.selectToken (s : State) (g : Nat) (d : List Word) (t : Nat) : List (Nat × Nat × Nat) × Nat :=
  let x := s.tokenVals g d t
  let raws := (List.range (rdE d)).map (fun e => s.rawScore g d t x e)
  let rank := (raws.zipIdx).map (fun r =>
    if rdBias d then f32Add 0 r.1.1 (leNat (s.geBytes g (rdBiasAddr d + 4 * r.2) 4)) else (r.1.1, 0))
  let sc (e : Nat) : Nat := ((rank[e]?).getD (0, 0)).1
  let raw (e : Nat) : Nat := ((raws[e]?).getD (0, 0)).1
  let cs := candidates d sc (fun q => Config.freeNat (s.freeCtr + q))
  let top := topBy (rdK d + rdRsv d) (cs.1.map (fun e => (key52 (sc e) (rdEbase d + e), e)))
  let ws := gateWeights (rdWfn d) ((top.take (rdK d)).map raw)
  ((top.zipIdx).map (fun c => (c.1, raw c.1, (ws.1[c.2]?).getD 0)), flagsOf raws ||| flagsOf rank ||| cs.2 ||| ws.2)

/-- The ranges of the Rink that scoring token `t` reads: its row, and its external scores (R130). -/
def tokenReads (d : List Word) (t : Nat) : List (Nat × Nat × Nat) :=
  (spaceOf (rdX d), offOf (rdX d) + t * rdStride d, rdVec d) ::
    if rdSrc d then [(spaceOf (rdW d), offOf (rdW d) + t * rdScoreRow d, rdScoreRow d)] else []

/-- The head instruction's next token is scored and selected. -/
def State.beginToken (s : State) (g : Nat) (x : GateOp) : GateOp × State :=
  let r := s.selectToken g x.desc x.tok
  let s := ((s.orFlags (32 + g) r.2).addMod (GE_COUNT0.TOKENS g) 1).wr (GE_STATUS.TOKEN g) x.tok
  ({ x with sel := r.1 }, { s with freeCtr := s.freeCtr + rdG x.desc })

/-! Homes and capacity (R135 to R137). -/

/-- What trying a candidate gives: its replica's index, gate SRAM offset and ordinal. -/
inductive TryRes where
  | nan
  | over (rp rep : Nat)
  | ok (rp rep ord : Nat)
  | bad
  deriving DecidableEq, Repr

/-- Field of a replica entry at a gate SRAM offset. -/
def State.repF (s : State) (g rep w hi lo : Nat) : Nat := bitsOf (s.gateWord g (rep + 8 * w)) hi lo

def State.repOk (s : State) (g rep : Nat) : Bool := s.repF g rep 0 2 0 == 0 && s.repF g rep 1 31 0 == 0

/-- The EHT entry of candidate `e`: its number of replicas and the offset of the first, unless it is malformed. -/
def State.ehtEntry (s : State) (g : Nat) (d : List Word) (e : Nat) : Option (Nat × Nat) :=
  let w := s.gateWord g (rdEht d + 8 * e)
  let n := bitsOf w 63 60 + 1
  let a := bitsOf w 23 0
  if bitsOf w 59 24 = 0 ∧ a % 16 = 0 ∧ a + 16 * n ≤ sramSize then some (n, a) else none

/-- try(x) of R137, before USED is raised. -/
def State.tryCand (s : State) (g : Nat) (d : List Word) (pos : Nat) (x raw : Nat) : TryRes :=
  if f32 raw = .nan then .nan
  else match s.ehtEntry g d x with
    | none => .bad
    | some (n, a) =>
      let rp := (pos + rdLayer d) % n
      let rep := a + 16 * rp
      if ¬ s.repOk g rep then .bad
      else if s.repF g rep 1 47 32 < s.repF g rep 1 63 48 then .ok rp rep (s.repF g rep 1 47 32) else .over rp rep

/-- Raise USED of a replica. -/
def State.raiseUsed (s : State) (g rep : Nat) : State :=
  (s.setGate g (rep + 8) (leBytes 8 (withBits (s.gateWord g (rep + 8)) 47 32 (s.repF g rep 1 47 32 + 1)))).updGate g (fun y =>
    { y with used := if y.used.contains rep then y.used else rep :: y.used })

/-- Reserves in rank order, not yet marked: each is marked and tried until one is admitted. -/
def State.spill (s : State) (g : Nat) (d : List Word) (pos : Nat) : List (Nat × Nat × Nat) → List Nat → TryRes × Nat × List Nat
  | [], m => (.nan, 0, m)
  | y :: l, m =>
    if m.contains y.1 then s.spill g d pos l m
    else match s.tryCand g d pos y.1 y.2.1 with
      | .ok rp rep o => (.ok rp rep o, y.1, y.1 :: m)
      | .bad => (.bad, y.1, y.1 :: m)
      | _ => s.spill g d pos l (y.1 :: m)

/-- Decide choice j of the current token: the outcome, the candidate it concerns, whether it is a reserve, and the marks. -/
def State.decideChoice (s : State) (g : Nat) (x : GateOp) : TryRes × Nat × Bool × List Nat :=
  let d := x.desc
  let pos := (rdPos d + x.tok) % 2 ^ 32
  let c := (x.sel[x.j]?).getD (0, 0, 0)
  match s.tryCand g d pos c.1 c.2.1 with
  | .over rp rep =>
    if rdSpill d then
      match s.spill g d pos (x.sel.drop (rdK d)) x.marked with
      | (.ok a b o, y, m) => (.ok a b o, y, true, m)
      | (.bad, y, m) => (.bad, y, true, m)
      | (_, _, m) => (.over rp rep, c.1, false, m)
    else (.over rp rep, c.1, false, x.marked)
  | r => (r, c.1, false, x.marked)

/-! Ledger records, the combine table and TOKEN records (R138 to R140). -/

/-- The running gate instruction of an engine is replaced. -/
def State.setHead (s : State) (g : Nat) (x : GateOp) : State := s.updGate g (fun y => { y with ops := x :: y.ops.drop 1 })

/-- A fault found after issue: PC holds the instruction, INFO the token (R126). -/
def State.gateFault (s : State) (g : Nat) (x : GateOp) (code : Nat) : State := s.streamFault (32 + g) code x.tok x.pc

/-- Open the next ledger record with its words 0 to 3, and give its index; none when it is not FREE (R139). -/
def State.openRecord (s : State) (g w0 w1 ret : Nat) (dropped : Bool) : Option (Nat × State) :=
  let i := (s.gate g).nextRec
  if s.recState g i ≠ 0 then none
  else
    let s1 := s.setGate g (s.recAt g i) (leBytes 8 w0 ++ leBytes 8 w1 ++ leBytes 8 (ret * 2 ^ 32 + s.stride * 2 ^ 12) ++
      leBytes 8 (if dropped then s.stride else 0))
    some (i, s1.updGate g (fun y => { y with
      nextRec := (i + 1) % (s.rd (GE_LEDGER.SIZE_M1 g) + 1)
      opened := y.opened + 1
      closedRecs := y.closedRecs + b01 dropped }))

/-- Word 0 of a dispatch record. -/
def recWord0 (st reason : Nat) (spilled : Bool) (epoch layer expert rp : Nat) : Nat :=
  st * 2 ^ 61 + reason * 2 ^ 58 + b01 spilled * 2 ^ 57 + epoch % 2 ^ 16 * 2 ^ 41 + layer * 2 ^ 33 + expert * 2 ^ 13 + rp * 2 ^ 9

/-- Write combine-table entry (t, j). -/
def State.putCombine (s : State) (c g : Nat) (x : GateOp) (j expert fate : Nat) (spilled : Bool) (weight ret led : Nat) : State :=
  let a := rdOut x.desc + 16 * (x.tok * rdK x.desc + j)
  s.streamWrite c (32 + g) x.op (spaceOf a) (offOf a)
    (leBytes 8 (expert * 2 ^ 44 + fate * 2 ^ 41 + b01 spilled * 2 ^ 40 + weight) ++ leBytes 8 (ret * 2 ^ 32 + led * 2 ^ 16))

/-- Bytes of the first four words of a TOKEN record. -/
def tokenHeader (epoch layer expert led src g rg grp slot sidx ord ret pos : Nat) : List Byte :=
  leBytes 8 (2 ^ 60 + epoch % 2 ^ 16 * 2 ^ 44 + layer * 2 ^ 36 + expert * 2 ^ 16 + led) ++
  leBytes 8 (src * 2 ^ 50 + g * 2 ^ 47 + rg * 2 ^ 44 + grp * 2 ^ 34 + slot * 2 ^ 28 + sidx * 2 ^ 16 + ord) ++
  leBytes 8 (ret * 2 ^ 32 + pos) ++ leBytes 8 0

/-- The weight of choice j. -/
def GateOp.weight (x : GateOp) : Nat := ((x.sel[x.j]?).getD (0, 0, 0)).2.2

/-! Handing records on (R161, R162, R165). -/

/-- Every line packet being combined enters its flow's queue. -/
def State.flushLines (s : State) (c g : Nat) : State :=
  let ls := (s.gate g).line
  ls.foldl (fun s l => s.injectLine c l) (s.updGate g (fun y => { y with line := [] }))

/-- The choice is over: the next one, or the next token. -/
def State.nextChoice (s : State) (c g : Nat) (x : GateOp) : State :=
  if x.j + 1 < rdK x.desc then s.setHead g { x with j := x.j + 1, fate := none }
  else (s.setHead g { x with tok := x.tok + 1, j := 0, marked := [], sel := [], fate := none }).flushLines c g

/-- The flow of a record keeps R161. -/
def State.flowOk (s : State) (c f lchip : Nat) : Bool :=
  let e := s.flowEntry f
  flowValid e && flowClass e == 2 && flowJob e == s.rd (CTX_JOB.JOB c) && (flowLine e || flowDest e == lchip)

/-- The member coordinate of a physical chip on the line of a flow: none off the line, or for this chip itself (R162). -/
def State.lineMember (s : State) (e chip : Nat) : Option Nat :=
  let dim := flowDim e
  if chip ≠ s.chipId ∧ (List.range 3).all (fun k => k == dim || coordOf chip k == coordOf s.chipId k) then some (coordOf chip dim) else none

/-- A record joins a line packet of its flow that has room, or starts one; a full one, or one that has the member already,
goes to its queue first (R162). -/
def State.joinLine (s : State) (c g f m : Nat) (hdr shared : List Byte) (k : Option Nat) : State :=
  let fits (l : LinePkt) : Bool :=
    ! l.members.any (fun y => y.1 == m) && decide (l.members.length < 16) &&
      decide (1 + 2 * (l.members.length + 1) + l.shared.length / 16 ≤ 1088)
  match (s.gate g).line.find? (fun l => l.flow == f) with
  | none => s.updGate g (fun y => { y with line := y.line ++ [⟨f, [(m, hdr, k)], shared⟩] })
  | some l =>
    if fits l then s.updGate g (fun y => { y with
      line := y.line.map (fun z => if z.flow = f then { z with members := z.members ++ [(m, hdr, k)] } else z) })
    else (s.injectLine c l).updGate g (fun y => { y with
      line := (y.line.filter (fun z => z.flow != f)) ++ [⟨f, [(m, hdr, k)], shared⟩] })

/-- A record passes to local intake through the Rink, with the checks of R165. -/
def State.handLocal (s : State) (c : Nat) (r : HeldRec) : State :=
  s.dspCheck (some c) ((s.epoch c).getD 0) (fun s c cur => s.toIntake c cur r) (fun s => s.devReleaseOpt r.buf)

/-- A sent choice whose buffers are granted: its ledger record opens, its TOKEN record is written, its combine entry is
made, and the record is handed on (R137 steps 3 and 4). -/
def State.sendChoice (s : State) (c g : Nat) (x : GateOp) (f : Fate) : State :=
  let d := x.desc
  let epoch := (s.epoch c).getD 0
  let lchip := s.repF g f.rep 0 63 50
  let expert := rdEbase d + f.cand
  let pos := (rdPos d + x.tok) % 2 ^ 32
  let bufs := (s.gate g).granted
  let ret := if s.rd (GE_RET.RET_BYTES g) = 0 then 0 else s.handleOf (bufs.headD 0)
  let k := bufs.getLastD 0
  match s.openRecord g (recWord0 1 0 f.spilled epoch (rdLayer d) expert f.rp) (lchip * 2 ^ 50 + pos) ret false with
  | none => s.gateFault g x F_GATE_LEDGER
  | some (i, s) =>
    let src := s.rd (CTX_PISTE.LCHIP c)
    let hdr := tokenHeader epoch (rdLayer d) expert i src g (s.repF g f.rep 0 49 47) (s.repF g f.rep 0 46 37)
      (s.repF g f.rep 0 36 31) (s.repF g f.rep 0 30 19) f.ord ret pos
    let vec := padTo 16 (s.tokenRow g d x.tok)
    let a := s.bufBase k
    let s := ((s.present (rinkPort (32 + g)) a (hdr.length + vec.length)).setRink a (hdr ++ vec)).updGate g (fun y => { y with granted := [] })
    let chip := (s.physical c lchip).getD 0
    let s := s.putCombine c g x x.j expert (if chip = s.chipId then 1 else 0) f.spilled x.weight ret i
    let s := s.addMod (GE_COUNT0.SENT g) 1
    let s := if f.spilled then s.addSat (GE_COUNT1.SPILLS g) 1 else s
    let flow := s.repF g f.rep 0 18 3
    if chip = s.chipId then (s.nextChoice c g x).handLocal c ⟨a, some k, []⟩
    else if ¬ s.flowOk c flow lchip then s.gateFault g x F_DSP_FLOW
    else if flowLine (s.flowEntry flow) then
      match s.lineMember (s.flowEntry flow) chip with
      | none => s.gateFault g x F_DSP_FLOW
      | some m => (s.joinLine c g flow m hdr vec (some k)).nextChoice c g x
    else (s.injectRecord c flow chip (hdr ++ vec) (some k)).nextChoice c g x

/-- A dropped choice: its record opens and closes at once, and its combine entry is the drop notice. -/
def State.dropChoice (s : State) (c g : Nat) (x : GateOp) (cand reason rp lchip : Nat) : State :=
  let d := x.desc
  let pos := (rdPos d + x.tok) % 2 ^ 32
  let expert := rdEbase d + cand
  match s.openRecord g (recWord0 3 reason false ((s.epoch c).getD 0) (rdLayer d) expert rp) (lchip * 2 ^ 50 + pos) 0 true with
  | none => s.gateFault g x F_GATE_LEDGER
  | some (i, s) =>
    let s := s.putCombine c g x x.j expert (reason + 1) false x.weight 0 i
    (s.addSat (if reason = 1 then GE_COUNT1.DROP_CAP g else GE_COUNT1.DROP_NAN g) 1).nextChoice c g x

/-- Bytes of the choice's next buffer and its requester: the return buffer first, then the record's. -/
def State.nextNeed (s : State) (g : Nat) (x : GateOp) : Option (Nat × Nat) :=
  let ret := s.rd (GE_RET.RET_BYTES g)
  let n := (s.gate g).granted.length + (if ret = 0 then 1 else 0)
  if n = 0 then some (s.rd (GE_RET.RETREQ g), ret)
  else if n = 1 then some (s.rd (ENG_CTL.REQID (32 + g)), 32 + (rdVec x.desc + 15) / 16 * 16)
  else none

/-- Ask the Locker for a buffer of the choice; the clk's grants are made (R192). -/
def State.askBuffer (s : State) (g req bytes : Nat) : State :=
  let p := (s.poolFor bytes).getD 0
  let s := s.updGate g (fun y => { y with waiting := true })
  (s.joinWait p ⟨64 + g, req, bytes, 0, s.clk⟩).grantUpTo 4

/-- Obtain the buffers of a sent choice, at most two, and send it once it has them; while a pool is empty it waits. -/
def State.gatherBuffers (s : State) (c g : Nat) (x : GateOp) (f : Fate) : Nat → State
  | 0 => s
  | n + 1 => match s.nextNeed g x with
    | none => s.sendChoice c g x f
    | some (req, bytes) =>
      if ¬ s.reqOk c req then s.gateFault g x F_LKR_REQID
      else if s.poolFor bytes = none then s.gateFault g x F_LKR_SIZE
      else
        let t := s.askBuffer g req bytes
        if (t.gate g).waiting then t else t.gatherBuffers c g x f n

/-- The dispatch stage acts on choice j of the head instruction. DESIGN CHOICE: the ledger record of a choice dropped for NaN, for which
no replica is chosen, holds REPLICA and DEST 0. -/
def State.dispatchChoice (s : State) (c g : Nat) (x : GateOp) : State :=
  match x.fate with
  | some f => s.gatherBuffers c g x f 3
  | none =>
    let r := s.decideChoice g x
    let x := { x with marked := r.2.2.2 }
    match r.1 with
    | .bad => s.gateFault g x F_GATE_EHT
    | .nan => s.dropChoice c g x r.2.1 2 0 0
    | .over rp rep => s.dropChoice c g x r.2.1 1 rp (s.repF g rep 0 63 50)
    | .ok rp rep o =>
      if s.physical c (s.repF g rep 0 63 50) = none then s.gateFault g x F_GATE_EHT
      else
        let f : Fate := ⟨r.2.1, rp, rep, o, r.2.2.1⟩
        let x := { x with fate := some f }
        ((s.raiseUsed g rep).setHead g x).gatherBuffers c g x f 3

/-! GCLOSE (R127). -/

/-- The receiving groups that the layer's replicas name, with their first replica entry and the USED of each slot; none
when an entry is malformed. -/
def State.layerGroups (s : State) (g : Nat) (d : List Word) : Option (List ((Nat × Nat × Nat) × Nat × List (Nat × Nat))) :=
  (List.range (rdE d)).foldl (fun acc e => match acc, s.ehtEntry g d e with
    | some l, some (n, a) => (List.range n).foldl (fun acc i => match acc with
      | none => none
      | some l =>
        let rep := a + 16 * i
        let key := (s.repF g rep 0 63 50, s.repF g rep 0 49 47, s.repF g rep 0 46 37)
        let u := (s.repF g rep 0 36 31, s.repF g rep 1 47 32)
        if ¬ s.repOk g rep then none
        else if l.any (fun y => y.1 == key) then some (l.map (fun y => if y.1 = key then (y.1, y.2.1, u :: y.2.2) else y))
        else some ((key, rep, [u]) :: l)) (some l)
    | _, _ => none) (some [])

/-- Order of receiving groups: logical chip, then Gate Engine, then group. -/
def groupKey (k : Nat × Nat × Nat) : Nat := (k.1 * 8 + k.2.1) * 1024 + k.2.2

/-- Insert into a list kept in ascending key order. -/
def insertKey {α : Type} (key : α → Nat) (x : α) : List α → List α
  | [] => [x]
  | y :: l => if key x ≤ key y then x :: y :: l else y :: insertKey key x l

/-- A TALLY record (R138). -/
def tallyBytes (epoch layer src g sidx : Nat) (key : Nat × Nat × Nat) (us : List (Nat × Nat)) : List Byte :=
  leBytes 8 (2 * 2 ^ 60 + epoch % 2 ^ 16 * 2 ^ 44 + layer * 2 ^ 36) ++
  leBytes 8 (src * 2 ^ 50 + g * 2 ^ 47 + key.2.1 * 2 ^ 44 + key.2.2 * 2 ^ 34 + sidx * 2 ^ 16) ++ leBytes 16 0 ++
  (List.range 64).flatMap (fun sl => leBytes 2 (((us.filter (fun u => u.1 == sl)).map (fun u => u.2)).sum % 2 ^ 16))

/-- Hand one group's tally on: to local intake, or to injection, on a line flow alone. -/
def State.handTally (s : State) (c g : Nat) (x : GateOp) (y : (Nat × Nat × Nat) × Nat × List (Nat × Nat)) : State :=
  let rep := y.2.1
  let rec_ := tallyBytes ((s.epoch c).getD 0) (rdLayer x.desc) (s.rd (CTX_PISTE.LCHIP c)) g (s.repF g rep 0 30 19) y.1 y.2.2
  let flow := s.repF g rep 0 18 3
  match s.physical c y.1.1 with
  | none => s.gateFault g x F_GATE_EHT
  | some chip =>
    if chip = s.chipId then s.handLocal c ⟨0, none, rec_⟩
    else if ¬ s.flowOk c flow y.1.1 then s.gateFault g x F_DSP_FLOW
    else if flowLine (s.flowEntry flow) then
      match s.lineMember (s.flowEntry flow) chip with
      | none => s.gateFault g x F_DSP_FLOW
      | some m => s.injectLine c ⟨flow, [(m, rec_.take 32, none)], rec_.drop 32⟩
    else s.injectRecord c flow chip rec_ none

/-- Hand tallies on in order, until one tears the context down. -/
def State.handTallies (s : State) (c g : Nat) (x : GateOp) : List ((Nat × Nat × Nat) × Nat × List (Nat × Nat)) → State
  | [] => s
  | y :: l =>
    let t := s.handTally c g x y
    if t.ctxState c = s.ctxState c then t.handTallies c g x l else t

/-! Start and end of gate instructions (R126, R127). -/

/-- The head instruction is over: its counter rises and its place is free. -/
def State.gateDone (s : State) (c g : Nat) (x : GateOp) : State :=
  let s := s.updGate g (fun y => { y with ops := y.ops.drop 1 })
  let s := (s.wr (GE_STATUS.QUEUED g) (s.gate g).ops.length).addCc c x.cc 1
  if x.kind = 2 then s else s.endOp (32 + g) x.op

/-- GE_STATUS shows the running instruction and its busy stages. -/
def State.gateShow (s : State) (g : Nat) : State :=
  let s := s.wr (GE_STATUS.QUEUED g) (s.gate g).ops.length
  match (s.gate g).ops with
  | [] => ((s.wr (GE_STATUS.SCORE g) 0).wr (GE_STATUS.SELECT g) 0).wr (GE_STATUS.DISP g) 0
  | x :: _ =>
    (((s.wr (GE_STATUS.LAYER g) (rdLayer x.desc)).wr (GE_STATUS.SCORE g) (b01 (x.kind != 2 && ! rdSrc x.desc))).wr
      (GE_STATUS.SELECT g) (b01 (x.kind != 2))).wr (GE_STATUS.DISP g) (b01 (x.kind == 0))

/-- GCLOSE runs: the layer is closed for the step and its tallies are handed on. -/
def State.runClose (s : State) (c g : Nat) (x : GateOp) : State :=
  let s := s.updGate g (fun y => { y with closed := rdLayer x.desc :: y.closed })
  match s.layerGroups g x.desc with
  | none => s.gateFault g x F_GATE_EHT
  | some l =>
    let t := s.handTallies c g x (l.foldr (fun y acc => insertKey (fun z => groupKey z.1) y acc) [])
    if t.ctxState c = s.ctxState c then t.gateDone c g x else t

/-- The head of an engine's instructions starts: its descriptor is read and checked; GCLOSE, and an instruction of no tokens, complete at
once, and the answer then says that the next may start. A pre-empted context's instruction waits for its return (R145). -/
def State.gateHeadStarts (s : State) (g : Nat) : State × Bool :=
  let c := s.ctxOf (32 + g)
  match (s.gate g).ops with
  | [] => (s, false)
  | x :: _ =>
    if x.desc ≠ [] ∨ s.ctxState c ≠ CtxSt.run then (s, false)
    else
      let d := (List.range 8).map (fun i => BitVec.ofNat 64 (leNat (s.geBytes g (x.addr + 8 * i) 8)))
      let reads := [(spaceOf x.addr, offOf x.addr, 64)]
      let bad := s.badAll reads
      let x := { x with desc := d }
      let s := (s.readRanges (rinkPort (32 + g)) reads false).setHead g x
      match if bad.isSome then bad else s.descFault c d x.count with
      | some f => (if bad.isSome then s.streamFault (32 + g) f 0 x.pc else s.gateFault g x f, false)
      | none =>
        if x.kind ≠ 1 ∧ (s.gate g).closed.contains (rdLayer d) then (s.gateFault g x F_GATE_CLOSED, false)
        else
          let s := s.gateShow g
          if x.kind = 2 then
            let t := s.runClose c g x
            (t, decide (t.ctxState c = CtxSt.run))
          else if x.count = 0 then (s.gateDone c g x, true)
          else (s, false)

/-- Up to `n` of an engine's instructions start in turn, the next when the one before it completed at once. -/
def State.gateReach (s : State) (g : Nat) : Nat → State
  | 0 => s
  | n + 1 =>
    let r := s.gateHeadStarts g
    if r.2 then (r.1.gateReach g n).gateShow g else r.1

/-- Issue a gate instruction of a kind (R125, R126). -/
def State.issueGate (s : State) (k w kind : Nat) : State :=
  let a := (s.areg k (bitsOf w 47 44)).toNat
  let sn := bitsOf w 43 39
  let n := if kind = 2 then 0 else (s.sreg k sn).toNat
  let sp := spaceOf a
  let g := k - 32
  s.issue k w { bad := badZero w 26 0 ++ (if kind = 2 then badZero w 43 39 else []), engine := isGate k, s := [sn], mem := decide (kind ≠ 2) }
    (faultAt (s.accessFault k (s.ctxOf k) sp (offOf a) 64 1 (decide (sp = 1 ∨ sp = 4))) 44 ++
      (if offOf a % 64 = 0 then [] else [(F_GATE_DESC, 44)]) ++ (if n ≤ 65535 then [] else [(F_GATE_DESC, 39)]))
    (fun s =>
      if 2 ≤ (s.gate g).ops.length then s.stall k
      else
        let x : GateOp := { kind := kind, op := (s.stream k).nextOp, pc := s.rd (ENG_PC.PC k), addr := a, count := n, cc := bitsOf w 38 27, desc := [] }
        let s := if kind = 2 then s else s.beginOp k .gate sp (offOf a)
        let s := (s.updGate g (fun y => { y with ops := y.ops ++ [x] })).retire k
        (s.wr (GE_STATUS.QUEUED g) (s.gate g).ops.length).gateReach g 2)

/-- GROUTE. -/
def execGroute (k : Fin 50) (b : BitVec 52) (s : State) : Res := .next (s.issueGate k (velimWord 0x30 0x00 b) 0)

/-- GSELECT. -/
def execGselect (k : Fin 50) (b : BitVec 52) (s : State) : Res := .next (s.issueGate k (velimWord 0x30 0x01 b) 1)

/-- GCLOSE. -/
def execGclose (k : Fin 50) (b : BitVec 52) (s : State) : Res := .next (s.issueGate k (velimWord 0x31 0x00 b) 2)

/-- The sending stages may work on the head: its context is RUN, or is being saved inside a block of 64 tokens (R145), and
no new ledger is being written (R139). -/
def State.gateMay (s : State) (c g : Nat) (x : GateOp) : Bool :=
  ! (s.gate g).zeroing && ! (s.gate g).waiting && (s.ctxState c == CtxSt.run || (s.ctxState c == CtxSt.saving && x.inBlock))

/-- An uncorrectable error among the Rink bytes that scoring a token reads faults (R177); else the token is scored. -/
def State.scoreToken (s : State) (g : Nat) (x : GateOp) (go : State → State) : State :=
  let reads := tokenReads x.desc x.tok
  let bad := s.badAll reads
  let s := s.readRanges (rinkPort (32 + g)) reads false
  match bad with
  | some code => s.streamFault (32 + g) code 0 x.pc
  | none => go s

/-- GATE_DISPATCH_CHOICE. -/
def execGateDispatchChoice (g : Fin 8) (s : State) : Res := s.granting <|
  let c := s.ctxOf (32 + g)
  let s := s.gateReach g 2
  .next (match (s.gate g).ops with
    | [] => s
    | x :: _ =>
      if x.kind ≠ 0 ∨ x.desc = [] ∨ x.count ≤ x.tok ∨ ¬ s.gateMay c g x then s
      else if x.sel = [] then
        s.scoreToken g x (fun s =>
          let r := s.beginToken g x
          (r.2.setHead g r.1).dispatchChoice c g r.1)
      else s.dispatchChoice c g x)

/-- GSELECT selects `n` tokens from `x.tok` on, writes their combine entries with FATE 4, and goes on unless a read has faulted. -/
def State.selectOnly (s : State) (c g : Nat) (x : GateOp) (go : State → GateOp → State) : Nat → State
  | 0 => go s x
  | n + 1 => s.scoreToken g x (fun s =>
    let r := s.beginToken g x
    let s := ((r.1.sel.take (rdK x.desc)).zipIdx).foldl (fun s e =>
      s.putCombine c g x e.2 (rdEbase x.desc + e.1.1) 4 false e.1.2.2 0 0) r.2
    s.selectOnly c g { x with tok := x.tok + 1 } go n)

/-- GATE_INSTR_COMPLETE: every choice of a GROUTE has its fate, or a GSELECT selects its tokens, those of one block where its context
is being saved (R145). -/
def execGateInstrComplete (g : Fin 8) (s : State) : Res := s.granting <|
  let c := s.ctxOf (32 + g)
  let s := s.gateReach g 2
  .next (match (s.gate g).ops with
    | [] => s
    | x :: _ =>
      if x.desc = [] then s
      else if x.kind = 0 ∧ x.tok = x.count ∧ (s.ctxState c = CtxSt.run ∨ s.ctxState c = CtxSt.saving) then
        ((s.gateDone c g x).gateReach g 2).gateShow g
      else if x.kind = 1 ∧ s.ctxState c = CtxSt.run then
        s.selectOnly c g x (fun s y => ((s.gateDone c g y).gateReach g 2).gateShow g) (x.count - x.tok)
      else if x.kind = 1 ∧ s.ctxState c = CtxSt.saving then
        let n := min (64 - x.tok % 64) (x.count - x.tok)
        s.selectOnly c g x (fun s y =>
          if y.tok = y.count then (s.gateDone c g y).gateShow g else s.setHead g { y with desc := [], sel := [] }) n
      else s)

/-! The ledger's registers (R139). -/

/-- GE_LEDGER_WRITE. -/
def execGeLedgerWrite (g : Fin 8) (v : Word) (s : State) : Res := s.live <|
  let off := (GE_LEDGER.BASE g).off
  .next (if sramSize < fieldOf v (GE_LEDGER.BASE g) + 32 * (fieldOf v (GE_LEDGER.SIZE_M1 g) + 1) then s.report F_GATE_LEDGER 2 0
    else s.writeSetting (s.ctxOf (32 + g)) off v)

/-- LEDGER_ZEROING_DONE. -/
def execLedgerZeroingDone (g : Fin 8) (s : State) : Res := s.granting <| .next (s.updGate g (fun y => { y with zeroing := false }))

end Sys2Proof.Machine
end

