-- ==== Sys2Proof/Machine/Locker.lean ====
section
/-!
DEFINITION. Locker and Rink commands: locks, quotas, grants, zeroing, the scrub and the Buffer auditor (R177 to R200).
-/

namespace Sys2Proof.Machine

/-- Bytes of the Rink. -/
def rinkSize : Nat := 0x18000000

/-- RINK_LOCK: FWRES becomes read-only (R180). -/
def execRinkLock (v : Word) (s : State) : Res := s.live <|
  .next (if s.bit RINK_CFG.LOCK then s else (s.wr RINK_CFG.FWRES (fieldOf v RINK_CFG.FWRES)).wr RINK_CFG.LOCK 1)

/-- Rink range of pool `p`. -/
def State.poolRange (s : State) (p : Nat) : Nat × Nat :=
  (s.rd (LKR_POOL.BASE p), s.rd (LKR_POOL.BASE p) + s.poolCount p * poolSize p)

/-- The pool registers keep R186. A pool of no buffers has no range, but its BASE too is a multiple of its size. -/
def State.poolsOk (s : State) : Bool :=
  (List.range 6).all (fun p => s.rd (LKR_POOL.BASE p) % poolSize p == 0 &&
    (s.poolCount p == 0 ||
    (decide (s.rd RINK_CFG.FWRES * 2 ^ 20 ≤ (s.poolRange p).1) && decide ((s.poolRange p).2 ≤ rinkSize) &&
      (List.range p).all (fun q => s.poolCount q == 0 || decide ((s.poolRange p).2 ≤ (s.poolRange q).1) ||
        decide ((s.poolRange q).2 ≤ (s.poolRange p).1)))))

/-- Values written to a register and not yet in force. -/
def State.pendingValues (s : State) (off : Nat) : List Word :=
  ((s.ctx 0).deferred ++ (s.ctx 1).deferred).filterMap (fun d => if d.1 = off then some d.2.1 else none)

/-- RESV of a requester as R190 counts it: the larger of its value in force and any that waits. -/
def State.resvMax (s : State) (r p : Nat) : Nat :=
  ((s.pendingValues (LKR_QUOTA.RESV r p).off).map (fun v => fieldOf v (LKR_QUOTA.RESV r p))).foldl max (s.rd (LKR_QUOTA.RESV r p))

/-- Sum of the reserves of pool `p` over the requesters that satisfy `q`. -/
def State.resvSum (s : State) (p : Nat) (q : Nat → Bool) : Nat :=
  (((List.range 64).filter q).map (fun r => s.resvMax r p)).sum

/-- The fixed requesters' quotas keep R190. -/
def State.fixedOk (s : State) : Bool :=
  ((List.range 5).all (fun i => (List.range 6).all (fun p =>
    s.rd (LKR_QUOTA.LIMIT (59 + i) p) == s.rd (LKR_QUOTA.RESV (59 + i) p)))) &&
  decide (((List.range 6).map (fun p => s.rd (LKR_QUOTA.RESV 63 p) * poolSize p)).sum ≤ 335544320) &&
  (List.range 6).all (fun p => decide (s.resvSum p (fun _ => true) ≤ s.poolCount p))

/-- LOCKER_LOCK: the checks of R187, then every buffer is FREE with generation 0. -/
def execLockerLock (v : Word) (s : State) : Res := s.live <|
  .next (if s.bit LKR_CTL.LOCK then s
    else
      let s := s.wr LKR_CTL.ZERO (fieldOf v LKR_CTL.ZERO)
      if s.poolsOk ∧ s.fixedOk then
        let s := { s with locker := {} }
        ((List.range 6).foldl (fun s p => s.setFreeQ p (List.range (s.poolCount p))) s).wr LKR_CTL.LOCK 1
      else s.report F_LKR_CFG 2 0)

/-- A write of the quota of requester `r` in pool `p` (R190): a fixed requester's is RWL, so after the lock the write is ignored; one that
would break the pool's sum is ignored and reported; any other waits for the context that owns the requester (R478). -/
def State.quotaWrite (s : State) (r p : Nat) (v : Word) : State :=
  let off := (LKR_QUOTA.RESV r p).off
  if 59 ≤ r ∧ s.bit LKR_CTL.LOCK then s
  else if s.poolCount p < s.resvSum p (fun x => x != r) + max (s.resvMax r p) (fieldOf v (LKR_QUOTA.RESV r p)) then s.report F_LKR_CFG 2 0
  else if 59 ≤ r then s.applySetting off v
  else s.writeSetting (s.rd (LKR_REQ.CTX r)) off v

/-- LKR_QUOTA_WRITE. -/
def execLkrQuotaWrite (r : Fin 64) (p : Fin 6) (v : Word) (s : State) : Res := s.live <| .next (s.quotaWrite r p v)

/-- LOCKER_GRANT: one waiting request is granted (R192 step 4). -/
def execLockerGrant (s : State) : Res := s.granting <|
  .next (match s.grantOne with
    | some t => t
    | none => s)

/-- BUFFER_ZERO_DONE: the oldest buffer under zeroing is all zeros and joins its free queue (R195). -/
def execBufferZeroDone (s : State) : Res := s.granting <|
  .next (match s.locker.zero with
    | [] => s
    | k :: rest =>
      let s := s.updLocker (fun l => { l with zero := rest })
      let s := s.clearRink (s.bufBase k) (s.bufBase k + poolSize (keyPool k))
      (s.wr LKR_STATUS.ZEROING rest.length).joinFree k)

/-! The end of a clk (R192, R194, R195). -/

/-- Of releases by streams, the one with the lowest priority of the clk (R194). -/
def State.lastOf (s : State) : List (Nat × Nat) → Option (Nat × Nat)
  | [] => none
  | x :: l => match s.lastOf l with
    | none => some x
    | some y => if s.rank 50 x.1 < s.rank 50 y.1 then some y else some x

/-- All changes of a clk to one buffer, summed and applied together. -/
def State.settleRef (s : State) (key : Nat) (cs : List RefChange) : State :=
  let b := s.buf key
  let good := cs.filter (fun c => b.alloc && keyGen c.buf == b.gen)
  let s := if cs.any (fun c => c.stream.isNone && ! good.contains c) then { s with bufBreach := true } else s
  let up := good.filter (fun c => c.adds)
  let down := good.filter (fun c => ! c.adds)
  if good = [] then s
  else if b.refs + up.length ≤ down.length then
    let s := s.freeBuf key
    if b.refs + up.length = down.length then s
    else match s.lastOf (down.filterMap (fun c => c.stream)) with
      | some x => s.streamFault x.1 F_LKR_DFREE 0 x.2
      | none => { s with bufBreach := true }
  else
    let n := b.refs + up.length - down.length
    let s := s.setBuf key { b with refs := min n 255 }
    if n ≤ 255 then s
    else match s.lastOf (up.filterMap (fun c => c.stream)) with
      | some x => s.streamFault x.1 F_LKR_REFOVF 0 x.2
      | none => s

/-- The clk's reference changes are applied, and the buffers freed in it join their free queues in ascending order: the next clk can
grant them. -/
def State.settleRefs (s : State) : State :=
  let cs := s.locker.changes
  let keys := ((cs.map (fun c => c.buf % 2 ^ 24)).eraseDups).mergeSort (fun a b => a ≤ b)
  let s := s.updLocker (fun l => { l with changes := [] })
  let s := keys.foldl (fun s k => s.settleRef k (cs.filter (fun c => c.buf % 2 ^ 24 == k))) s
  let fresh := s.locker.fresh
  fresh.foldl (fun s k => s.joinFree k) (s.updLocker (fun l => { l with fresh := [] }))

/-! Audit and scrub. -/

/-- Buffers of pool `p` that are allocated, and that are free but have not joined the free queue. -/
def State.poolAlloc (s : State) (p : Nat) : Nat :=
  (s.locker.bufs.filter (fun e => keyPool e.1 == p && e.2.alloc)).length
def State.poolZeroing (s : State) (p : Nat) : Nat :=
  ((s.locker.zero ++ s.locker.fresh).filter (fun k => keyPool k == p)).length

/-- The Buffer auditor's checks (R198). -/
def State.buffersOk (s : State) : Bool :=
  ! s.bit LKR_CTL.LOCK ||
  (List.range 6).all (fun p =>
    s.poolAlloc p + (s.freeQ p).length + s.poolZeroing p == s.poolCount p &&
    ((List.range 64).map (fun r => s.rd (LKR_QUOTA.ALLOC r p))).sum == s.poolAlloc p + s.poolZeroing p &&
    (List.range 64).all (fun r => decide (s.rd (LKR_QUOTA.ALLOC r p) ≤ s.rd (LKR_QUOTA.LIMIT r p)) || s.locker.lowered.contains (8 * r + p)))

/-- BUFFER_AUDIT: once in 1,024 clk, after the clk's changes. A requester that holds no more than its LIMIT is marked no longer. -/
def execBufferAudit (s : State) : Res := s.live <|
  .next (if s.lcc % 1024 ≠ 1023 then s
    else
      let s := s.settleRefs
      let ok := s.buffersOk && ! s.bufBreach
      let above := s.locker.lowered.filter (fun i =>
        decide (s.rd (LKR_QUOTA.LIMIT (i / 8) (i % 8)) < s.rd (LKR_QUOTA.ALLOC (i / 8) (i % 8))))
      let s := s.updLocker (fun l => { l with lowered := above })
      let s := { s.addMod CSV_STATUS.PASSES 1 with bufBreach := false }
      if ok then s else s.auditBreach 1)

/-- RINK_SCRUB: every bank reads, corrects and rewrites its line of the scrub row (R177, R178); `errs` are upsets that the arrays have
seen by then. -/
def execRinkScrub (errs : List RinkError) (s : State) : Res := s.granting <|
  .next (if s.lcc % 65536 ≠ 65535 then s
    else
      let s := errs.foldl (fun s e => s.rinkUpset e) s
      let row := s.scrubLine
      let s := s.rinkRead (16384 * row) 16384 true
      let s := { s with rinkErr := s.rinkErr.filter (fun e => e.1 / 1024 != row || e.2 == 2) }
      if row + 1 = 24576 then { s.addMod RINK_ECC.PASSES 1 with scrubLine := 0 } else { s with scrubLine := row + 1 })

end Sys2Proof.Machine
end

