-- ==== Sys2Proof/Machine/Relay.lean ====
section
/-!
DEFINITION. Relay engines and the Reduction Store: posted operations, their packets, admission, combining, poison
(R289 to R313, R317).
-/

namespace Sys2Proof.Machine

/-! Descriptors (R291, R292, R295). -/

/-- A range is a 16-byte-aligned space-0x1 address that lies wholly in the Rink. -/
def rinkRange (a n : Nat) : Bool := spaceOf a == 1 && a % 16 == 0 && decide (offOf a + n ≤ 0x18000000)

/-- The descriptor keeps R291, R292 and R295. -/
def odOk (d : List Word) : Bool :=
  let op := odOp d
  let n := odLen d
  odF d 0 10 0 == 0 && odF d 3 18 0 == 0 && odF d 6 47 32 == 0 && odF d 7 39 0 == 0 &&
  decide (1 ≤ op) && decide (op ≤ 4) && (! odRetc d || op == 4) && decide (odMode d ≤ 2) && (! odRs d || decide (op ≤ 2)) &&
  (! odFree d || odRs d) && (! odAck d || odMode d == 1) && (! odRs d || odFmt d == 0 || odFmt d == 1 || odFmt d == 14) &&
  ! (op == 2 && odMode d == 1) &&
  (if odRs d then n == 0 && odF d 2 15 0 == 0
   else if op == 1 then n % 16 == 0 && decide (16 ≤ n) && rinkRange (odSrc d) n
   else if op == 2 then n % 16 == 0 && decide (16 ≤ n) && decide (n ≤ 16384) && rinkRange (odSrc d) n
   else if op == 3 then n == 0
   else n % 16 == 0 && odStride d % 16 == 0 && rinkRange (odSrc d) ((odCount d - 1) * odStride d + n)) &&
  (if op == 1 || op == 3 then odDoff d % 16 == 0 else if op == 2 then odF d 4 7 0 == 0 else true) &&
  (decide (op ≤ 2) || (decide (1 ≤ odCount d) && rinkRange (odList d) (16 * odCount d))) &&
  (! odRetc d || (odMode d == 0 && odChip d == 0 && odGroup d == 0 && odFlow d == 0 && odLz d == 0 && odDoff d == 0))

/-! Chunks of the Reduction Store (R298 to R302, R306). -/

/-- The entry that holds a chunk of a context's collective. -/
def State.chunkEntry (s : State) (c colid chunk : Nat) : Option Nat :=
  (List.range 512).find? (fun i =>
    let e := s.rsEntry i
    e.st != 0 && e.ctx == c && e.colid == colid && e.chunk == chunk)

/-- Entries that a collective of a context holds. -/
def State.colEntries (s : State) (c colid : Nat) : List Nat :=
  (List.range 512).filter (fun i => (s.rsEntry i).st != 0 && (s.rsEntry i).ctx == c && (s.rsEntry i).colid == colid)

def State.rsBytes (s : State) (i a n : Nat) : List Byte := tgetMany zeroByte s.rstore (i * 16384 + a) n
def State.setRs (s : State) (i a : Nat) (l : List Byte) : State := { s with rstore := tsetMany zeroByte s.rstore (i * 16384 + a) l }
def State.guardByte (s : State) (i j : Nat) : Nat := (tget zeroByte s.guard (i * 2048 + j)).toNat
def State.setGuard (s : State) (i j v : Nat) : State := { s with guard := tset zeroByte s.guard (i * 2048 + j) (BitVec.ofNat 8 v) }

/-- Bytes of an element of a combining function. -/
def fopBytes (fop : Nat) : Nat := if fop = 3 then 8 else 4

/-- The identity of a combining function, as the element's bits (R302). -/
def fopIdentity (fop : Nat) : Nat :=
  if fop = 0 then 0x80000000 else if fop = 1 then 0xFF800000 else if fop = 2 then 0x7F800000 else if fop = 3 then 0
  else if fop = 4 then 0x80000000 else 0x7FFFFFFF

/-- The 72-bit element `j` of an XP64 entry. -/
def State.xpElem (s : State) (i j : Nat) : Int := signed 72 (leNat (s.rsBytes i (8 * j) 8) + s.guardByte i j * 2 ^ 64)

def State.setXp (s : State) (i j : Nat) (v : Int) : State :=
  let n := (v % (2 ^ 72 : Nat)).toNat
  (s.setRs i (8 * j) (leBytes 8 (n % 2 ^ 64))).setGuard i j (n / 2 ^ 64)

/-- Free an entry. -/
def State.freeEntry (s : State) (i : Nat) : State := s.setRsEntry i {}

/-! Export of a chunk (R306). -/

/-- Flag bits of COL_FLAGS: XOVF, NV, OF, UF, NX from bit 4. -/
def colFlags (f : Nat) : Nat :=
  flagIf (f.testBit 6) 16 + flagIf (f.testBit 0) 8 + flagIf (f.testBit 2) 4 + flagIf (f.testBit 3) 2 + flagIf (f.testBit 4) 1

/-- OR flags of a conversion into a context's COL_FLAGS. -/
def State.orCol (s : State) (c f : Nat) : State :=
  let fld := if c = 0 then COL_FLAGS.GEN else COL_FLAGS.RT
  s.wr fld (s.rd fld ||| colFlags f)

/-- An OFMT fits a combining function. -/
def fmtFits (fop fmt : Nat) : Bool := if fop = 3 then true else if fop ≤ 2 then fmt == 0 || fmt == 1 else fmt == 0

/-- Element `j` of entry `i` in the output format: its bytes and flags. -/
def State.exportElem (s : State) (i j fmt rnd : Nat) (sat : Bool) : List Byte × Nat :=
  let e := s.rsEntry i
  if e.fop = 3 then
    let x := s.xpElem i j
    if fmt = 14 then
      let lo : Int := -(2 ^ 63 : Nat)
      let hi : Int := (2 ^ 63 - 1 : Nat)
      (leBytes 8 ((max lo (min hi x)) % (2 ^ 64 : Nat)).toNat, flagIf (decide (x < lo ∨ hi < x)) NF.xovf)
    else
      let r := elemOf fmt rnd sat (.fin (decide (x < 0)) x.natAbs (e.xanchor - 48))
      (leBytes (if fmt = 0 then 4 else 2) r.1, r.2)
  else if fmt = 1 then
    let r := elemOf 1 rnd sat (f32 (leNat (s.rsBytes i (4 * j) 4)))
    (leBytes 2 r.1, r.2)
  else (s.rsBytes i (4 * j) 4, 0)

/-- The bytes that a chunk gives as a source, and the flags. -/
def State.exportChunk (s : State) (i fmt rnd : Nat) (sat : Bool) : List Byte × Nat :=
  let e := s.rsEntry i
  let r := (List.range (e.bytes / fopBytes e.fop)).map (fun j => s.exportElem i j fmt rnd sat)
  (r.flatMap (fun x => x.1), r.foldl (fun f x => f ||| x.2) 0)

/-! Posting (R289, R290). -/

/-- Read a descriptor's words from the Rink. -/
def State.rinkWords (s : State) (a n : Nat) : List Word := (List.range n).map (fun i => BitVec.ofNat 64 (s.rinkWord (a + 8 * i)))

/-- RPOST. -/
def execRpost (k : Fin 50) (b : BitVec 52) (s : State) : Res :=
  let w := velimWord 0x38 0x00 b
  let a := (s.areg k (bitsOf w 47 44)).toNat
  .next (s.issue k w { bad := badZero w 43 39 ++ badZero w 38 34 ++ badZero w 33 22 ++ badZero w 21 0, engine := isRelay k }
    (faultAt (s.accessFault k (s.ctxOf k) (spaceOf a) (offOf a) 64 64 (decide (spaceOf a = 1))) 44) (fun s =>
      let r := s.relay (k - 40)
      if 256 ≤ (r.posted.filter (fun o => ! o.fired)).length then s.stall k
      else
        let d := s.rinkWords (offOf a) 8
        let pc := s.rd (ENG_PC.PC k)
        let bad := s.rinkBad (offOf a) 64
        let s := (s.retire k).checkRead (rinkPort k) 1 (offOf a) 64 false
        if bad then s.streamFault k F_LKR_RINKUE 0 pc
        else if odOk d then s.setRelay (k - 40) { r with posted := r.posted ++ [{ desc := d, pc := pc }] }
        else s.streamFault k F_COL_DESC 0 pc))

/-- RCANCEL. -/
def execRcancel (k : Fin 50) (b : BitVec 52) (s : State) : Res :=
  let w := velimWord 0x38 0x01 b
  .next (s.issue k w { bad := badZero w 47 44 ++ badZero w 43 39 ++ badZero w 38 34 ++ badZero w 21 0, engine := isRelay k } [] (fun s =>
    let r := s.relay (k - 40)
    ((s.setRelay (k - 40) { r with posted := r.posted.filter (fun o => o.fired) }).addCc (s.ctxOf k) (bitsOf w 33 22) 1).retire k))

/-! Admission (R299 to R301). -/

/-- An admission descriptor keeps R299. -/
def adOk (d : List Word) : Bool :=
  decide (odF d 0 41 38 ≤ 5) && (odF d 0 41 38 == 3 || odF d 0 63 48 == 0) &&
  decide (1 ≤ odF d 0 37 27) && decide (odF d 0 37 27 ≤ 1024) && decide (1 ≤ odF d 0 26 16) && decide (odF d 0 26 16 ≤ 1024) &&
  odF d 0 15 0 == 0 && odF d 1 14 0 == 0 && odF d 2 63 0 == 0 && odF d 3 63 0 == 0

/-- A COLID is later than another. -/
def laterCol (c last : Nat) : Bool :=
  let d := (c + 2 ^ 32 - last % 2 ^ 32) % 2 ^ 32
  decide (1 ≤ d) && decide (d < 2 ^ 31)

/-- A context's RADMIT of this clk has its turn: it is compared with the COLID before it, waits while 16 requests wait, or is admitted,
and then its descriptor faults or it joins the queue (R300). -/
def State.admitAsked (s : State) (r : Admit) (a : Nat) : State :=
  let k := r.stream
  let c := s.ctxOf k
  let late := match (s.ctx c).lastCol with
    | some l => ! laterCol r.colid l
    | none => false
  if s.engState k ≠ EngSt.run then s
  else if late then s.preciseFault k (F_COL_ORDER, 0)
  else if 16 ≤ (s.admits c).length then s.stall k
  else
    let bad := s.rinkBad a 32
    let s := (s.updCtx c (fun x => { x with lastCol := some r.colid })).wr (if c = 0 then COL_LASTID.GEN else COL_LASTID.RT) r.colid
    let s := (s.retire k).checkRead (rinkPort k) 1 a 32 false
    if bad then s.streamFault k F_LKR_RINKUE 0 r.pc
    else if adOk r.desc then s.setAdmits c (s.admits c ++ [r])
    else s.streamFault k F_COL_DESC 0 r.pc

/-- The RADMITs of a clk are taken in the priority order of their streams (R182, R183, R300). -/
def State.settleAdmits (s : State) : State :=
  let l := s.col.asked.foldl (fun l r => insertBy (fun x => s.rank 50 x.stream) r l) []
  l.foldl (fun s r => s.admitAsked r (offOf r.addr)) (s.updCol (fun x => { x with asked := [] }))

/-- RADMIT: its faults but the order of its COLID are known at issue; the rest follows at the end of the clk. -/
def execRadmit (k : Fin 50) (b : BitVec 52) (s : State) : Res :=
  let w := velimWord 0x39 0x00 b
  let c := s.ctxOf k
  let a := (s.areg k (bitsOf w 47 44)).toNat
  let n := (s.sreg k (bitsOf w 43 39)).toNat
  let id := (s.sreg k (bitsOf w 38 34)).toNat % 2 ^ 32
  .next (s.issue k w { bad := badZero w 33 22 ++ badZero w 21 0, engine := isRelay k, s := [bitsOf w 43 39, bitsOf w 38 34] }
    (faultAt (s.accessFault k c (spaceOf a) (offOf a) 32 32 (decide (spaceOf a = 1))) 44 ++
      (if n = 0 ∨ 512 < n ∨ (s.partition c).length < n then [(F_COL_TOOBIG, 0)] else [])) (fun s =>
      let r : Admit := ⟨n, id, s.rinkWords (offOf a) 4, s.rd (ENG_PC.PC k), k, a⟩
      s.updCol (fun x => { x with asked := x.asked ++ [r] })))

/-- Send a CTL DATA notice of context `c` on a mask group: CC and the two payload words. -/
def State.sendNotice (s : State) (c group cc w0 w1 : Nat) : State :=
  let (q, s) := s.nextSeq Cls.ctl
  let i : PacketInfo := { cls := Cls.ctl, mode := 1, src := s.chipId, job := s.rd (CTX_JOB.JOB c), seq := q, cc := cc }
  s.originateTree c (mkPacket { i with mgroup := group, opc := 4 } (leBytes 8 w0 ++ leBytes 8 w1))

/-- An entry is granted to chunk `chunk` of a request (R302). -/
def State.admitEntry (s : State) (c : Nat) (r : Admit) (i chunk : Nat) : State :=
  let d := r.desc
  let fop := odF d 0 41 38
  let bytes := 16 * (if chunk + 1 = r.count then odF d 0 26 16 else odF d 0 37 27)
  let s := s.setRsEntry i { st := 1, colid := r.colid, chunk := chunk, expectM1 := odF d 0 47 42, fop := fop, ctx := c, bytes := bytes,
                            xanchor := signed 16 (odF d 0 63 48), donecc := odF d 1 63 52 }
  let s := s.setRs i 0 ((List.range (bytes / fopBytes fop)).flatMap (fun _ => leBytes (fopBytes fop) (fopIdentity fop)))
  if fop = 3 then (List.range (bytes / 8)).foldl (fun s j => s.setGuard i j 0) s else s

/-- RS_ADMIT_GRANT. -/
def execRsAdmitGrant (c : Fin 2) (s : State) : Res := s.granting <|
  let s := s.settleAdmits
  .next (match s.admits c with
    | [] => s
    | r :: l =>
      let free := s.freeEntries c
      if ¬ s.ctxExists c ∨ free.length < r.count then s
      else
        let s := ((free.take r.count).zipIdx).foldl (fun s e => s.admitEntry c r e.1 e.2) (s.setAdmits c l)
        let s := (s.addCc c (odF r.desc 1 51 40) 1).addSat RS_COUNT.ADMITS 1
        if odF r.desc 1 15 15 = 1 then s.sendNotice c (odF r.desc 1 27 16) (odF r.desc 1 39 28) (2 * 2 ^ 48 + r.colid) 0 else s)

/-- RFREE. -/
def execRfree (k : Fin 50) (b : BitVec 52) (s : State) : Res :=
  let w := velimWord 0x39 0x01 b
  let c := s.ctxOf k
  let l := s.colEntries c ((s.sreg k (bitsOf w 38 34)).toNat % 2 ^ 32)
  .next (s.issue k w { bad := badZero w 47 44 ++ badZero w 43 39 ++ badZero w 33 22 ++ badZero w 21 0, engine := isRelay k, s := [bitsOf w 38 34] }
    (if l.any (fun i => (s.rsEntry i).st == 2) then [(F_COL_FREEBUSY, 0)] else []) (fun s =>
      (l.foldl (fun s i => s.freeEntry i) s).retire k))

/-- RS_CFG_WRITE. -/
def execRsCfgWrite (v : Word) (s : State) : Res := s.live <|
  .next (if (List.range 512).any (fun i => (s.rsEntry i).st != 0) ∨ 256 < fieldOf v RS_CFG.RT_ENTRIES then s.report F_COL_CFG 2 0
    else s.wr RS_CFG.RT_ENTRIES (fieldOf v RS_CFG.RT_ENTRIES))

/-! Firing (R289, R302). -/

/-- The chunk that a SRCRS operation reads. -/
def State.sourceChunk (s : State) (c : Nat) (d : List Word) : Option Nat := s.chunkEntry c (odF d 2 63 32) (odF d 2 31 16)

/-- A fault of the operation that stream (e, c) posted at `pc`. -/
def State.relayFault (s : State) (e c code pc : Nat) : State := s.streamFault (40 + 2 * e + c) code 0 pc

/-- A SRCRS operation's chunk is COMPLETE. -/
def State.chunkReady (s : State) (c : Nat) (d : List Word) : Bool :=
  ! odRs d || (match s.sourceChunk c d with
    | some i => (s.rsEntry i).st == 3
    | none => false)

/-- TRIGGER_FIRE: every posted operation of the stream whose counter has reached its threshold fires. -/
def execTriggerFire (e : Fin 4) (c : Fin 2) (s : State) : Res := s.granting <|
  let key := 2 * e.val + c.val
  let r := s.relay key
  let due (o : Posted) : Bool := ! o.fired && reaches (s.cc c (odTcc o.desc)) (odThresh o.desc)
  .next (if s.ctxState c ≠ CtxSt.run then s
    else match r.posted.find? (fun o => due o && ! s.chunkReady c o.desc) with
      | some o => s.relayFault e c F_COL_NOTREADY o.pc
      | none => s.setRelay key { r with posted := r.posted.map (fun o =>
          if due o then { o with fired := true, epoch := (s.epoch c).getD 0 } else o) })

/-! Contributions (R303). -/

/-- A contribution to a chunk: the code it raises, or the entry it goes to. -/
def State.contribution (s : State) (c colid chunk midx n : Nat) : Nat ⊕ Nat :=
  match s.chunkEntry c colid chunk with
  | none => .inl F_COL_NOENTRY
  | some i =>
    let e := s.rsEntry i
    let queued := s.col.combine.any (fun x => x.ctx == c && x.colid == colid && x.chunk == chunk && x.midx == midx)
    if e.st = 3 ∨ n ≠ e.bytes ∨ e.expectM1 < midx ∨ e.arrived.getLsbD midx ∨ queued then .inl F_COL_MEMBER else .inr i

/-- A contribution is queued: those of one clk combine in the order of R182, the input ports as requesters 0 to 11 and local ones as
requester 12 (R303). -/
def State.queueCombine (s : State) (x : Contribution) : State :=
  let q := s.enqueue 13 (fun y => (y.since, (y.fromPort.map (·.1)).getD 12)) { x with since := s.clk } s.col.combine
  s.updCol (fun y => { y with combine := q })

/-! Landing (R297). -/

/-- Data lands through a Rink port in a zone of context `c` and counts; none outside a VALID zone. -/
def State.colLand (s : State) (port c doff lz cc : Nat) (data : List Byte) : Option State :=
  let z := lz % 64
  let stop := doff + data.length
  if ¬ s.bit (COL_LZ.VALID c z) ∨ 16 * s.rd (COL_LZ.SIZE c z) < stop ∨ 0x18000000 < s.rd (COL_LZ.BASE c z) + stop then none
  else
    let a := s.rd (COL_LZ.BASE c z) + doff
    some (((s.present port a data.length).rinkWrite c a data).addCc c cc 1)

/-! Operations in execution (R289, R292 to R295). -/

/-- The context whose operation engine `e` executes. -/
def State.relayOwner (s : State) (e : Nat) : Option Nat := (List.range 2).find? (fun c => (s.relay (2 * e + c)).run.isSome)

/-- An idle engine takes the head of one stream's run queue, by R182 with N = 2, if its OP is `op`. -/
def State.relayTake (s : State) (e op : Nat) : State :=
  if (s.relayOwner e).isSome then s
  else
    let ready := ([0, 1].filter (fun c => s.ctxState c == CtxSt.run)).filterMap (fun c =>
      ((s.relay (2 * e + c)).posted.find? (fun o => o.fired)).map (fun o => (c, o)))
    let best := match ready with
      | [a, b] => some (if s.rank 2 1 < s.rank 2 0 then b else a)
      | l => l.head?
    match best with
    | some (c, o) =>
      if odOp o.desc = op then
        let r := s.relay (2 * e + c)
        s.setRelay (2 * e + c) { posted := r.posted.erase o, run := some o }
      else s
    | none => s

/-- The flow or group that an operation names keeps R293. -/
def State.colFlowOk (s : State) (c flow mode group : Nat) : Bool :=
  let f := s.flowEntry flow
  flowValid f && flowClass f == Cls.col && flowJob f == s.rd (CTX_JOB.JOB c) &&
    (mode != 1 || (s.mgValid group (s.rd (CTX_JOB.JOB c)) && s.mgRoot group))

/-- Put the operation of (e, c) back with its progress. -/
def State.putRun (s : State) (e c : Nat) (o : Posted) : State :=
  (s.setRelay (2 * e + c) { s.relay (2 * e + c) with run := some o }).addMod (REL_COUNT.PKTS e) 1

/-- Clk, in units of 256, that engine `e` met a full injection queue (R315): the spec gives that queue no depth, so a free
number. -/
def State.flowWaited (s : State) (e : Nat) : State := s.free.2.addSat (REL_COUNT.FLOW_WAIT e) s.free.1

/-- Destination of a packet: a mode, a chip, a group and a flow. -/
structure ColDest where
  mode : Nat
  chip : Nat
  group : Nat := 0
  flow : Nat
  deriving DecidableEq, Repr

/-- Make a COL packet with an OPC, a prefix and data: the class and SEQ that it took, and the state after injection. -/
def State.sendCol (s : State) (c : Nat) (o : Posted) (t : ColDest) (phys opc : Nat) (poison : Bool) (prefix_ data : List Byte) :
    (Nat × Nat) × State :=
  let d := o.desc
  let (q, s) := s.nextSeq Cls.col
  let i : PacketInfo := { cls := Cls.col, mode := t.mode, sched := true, poison := poison, dest := phys, src := s.chipId, job := s.rd (CTX_JOB.JOB c) }
  let j : PacketInfo := { i with seq := q, cc := odRcc d, flow := t.flow, mgroup := if t.mode = 1 then t.group else 0, opc := opc, epoch := o.epoch }
  let p := mkPacket { j with ackcc := odAckcc d, pcc := odPcc d, ackreq := odAck d } (prefix_ ++ data)
  ((Cls.col, q), if t.mode = 1 then s.originateTree c p else s.inject c p)

/-- Send one packet of data to a landing zone, or write it locally (R292): the operation's progress is `o`. -/
def State.relayData (s : State) (e c : Nat) (o : Posted) (t : ColDest) (lz doff : Nat) (poison : Bool) (data : List Byte) : State :=
  let phys := if t.mode = 0 then s.physical c t.chip else some (if t.mode = 2 then s.chipId else 0)
  if t.mode ≠ 2 ∧ ¬ s.colFlowOk c t.flow t.mode t.group then s.relayFault e c F_COL_FLOW o.pc
  else match phys with
    | none => s.relayFault e c F_COL_DESC o.pc
    | some chip =>
      if t.mode ≠ 1 ∧ chip = s.chipId then
        match (s.putRun e c o).colLand (40 + e) c doff lz (odRcc o.desc) data with
        | none => s.contextFault c F_COL_LAND
        | some u => if poison then (u.addSat COL_COUNT.POISONED 1).poison c o.epoch else u
      else
        let r := s.sendCol c o t chip 1 poison (leBytes 8 doff ++ leBytes 8 lz) data
        if r.2.ctxState c = s.ctxState c then (r.2.putRun e c { o with sent := r.1 :: o.sent }).flowWaited e else r.2

/-- The engine reads ranges of the Rink through its port for its operation: an uncorrectable error faults (R177). -/
def State.relayRead (s : State) (e c : Nat) (o : Posted) (l : List (Nat × Nat)) (go : State → State) : State :=
  let bad := l.any (fun x => s.rinkBad (offOf x.1) x.2)
  let s := s.readRanges (40 + e) (l.map (fun x => (1, offOf x.1, x.2))) false
  if bad then s.relayFault e c F_LKR_RINKUE o.pc else go s

/-- A residue fault of a chunk (R309): it is poisoned, counted, reported, noticed once, and its step is TAINTED. -/
def State.residueFault (s : State) (c i : Nat) : State :=
  let e := s.rsEntry i
  let s := ((s.setRsEntry i { e with poison := true, noted := true }).addSat COL_COUNT.RESIDUE 1).report F_COL_RESIDUE c (e.colid * 2 ^ 16 + e.chunk)
  let epoch := (s.epoch c).getD 0
  let s := if e.noted then s
    else s.sendNotice c (s.rd (COL_CTL.PGROUP c)) (s.rd (COL_CTL.TAINTCC c)) (2 ^ 48 + epoch * 2 ^ 32 + e.colid) (s.chipId * 2 ^ 50 + e.chunk * 2 ^ 34)
  s.updCtx c (fun x => { x with step := x.step.map (fun t => { t with tainted := true }) })

/-- A read of an operation's source, of which the two leading-zero counts of an export may disagree (R308): the chunk is then poisoned,
and the exported bytes are free. -/
def State.exportChecked (s : State) (c : Nat) (d : List Word) (disagree poison : Bool) (l : List Byte) : List Byte × Bool × State :=
  match s.sourceChunk c d with
  | some i => if odRs d ∧ disagree then
      let r := (s.residueFault c i).freeBytes l.length
      (r.1, true, r.2)
    else (l, poison, s)
  | none => (l, poison, s)

/-- The source of a PUT or RPUT: its bytes, whether they are poisoned, and the flags; or the code that it raises. The
context must own the bytes when the operation starts. -/
def State.relaySource (s : State) (c : Nat) (d : List Word) (start : Bool) : Nat ⊕ (List Byte × Bool × Nat) :=
  if odRs d then
    match s.sourceChunk c d with
    | none => .inl F_COL_NOTREADY
    | some i =>
      if (s.rsEntry i).st ≠ 3 then .inl F_COL_NOTREADY
      else if ¬ fmtFits (s.rsEntry i).fop (odFmt d) then .inl F_COL_DESC
      else
        let r := s.exportChunk i (odFmt d) (odRnd d) (odSat d)
        .inr (r.1, (s.rsEntry i).poison, r.2)
  else if start ∧ ¬ s.rinkOwned c (offOf (odSrc d)) (odLen d) then .inl F_ISA_OWN
  else .inr (s.rinkBytes (offOf (odSrc d)) (odLen d), false, 0)

/-- Data that an operation sends: undefined where a buffer that it uses was freed (R194). -/
def State.relayBytes (s : State) (o : Posted) (l : List Byte) : List Byte × State := s.spoil (fun _ => o.loose) l

/-- The running operation of an engine, when it has the OP that the command names. -/
def State.running (s : State) (e op : Nat) : Option (Nat × Posted) :=
  match s.relayOwner e with
  | none => none
  | some c => match (s.relay (2 * e + c)).run with
    | some o => if odOp o.desc = op ∧ s.ctxState c = CtxSt.run then some (c, o) else none
    | none => none

/-- The destination that a descriptor names. -/
def odDest (d : List Word) : ColDest := ⟨odMode d, odChip d, odGroup d, odFlow d⟩

/-- RELAY_PUT: the next packet of at most 16,384 bytes. -/
def execRelayPut (turn : RelayTurn) (s : State) : Res := s.granting <|
  let e := turn.engine
  let s := s.relayTake e 1
  .next (match s.running e 1 with
    | none => s
    | some (c, o) => match s.relaySource c o.desc (o.next == 0) with
      | .inl f => s.relayFault e c f o.pc
      | .inr (l, poison, fl) =>
        let n := min 16384 (l.length - o.next)
        if n = 0 then s
        else s.relayRead e c o (if odRs o.desc then [] else [(odSrc o.desc + o.next, n)]) (fun s =>
          let r := s.relayBytes o ((l.drop o.next).take n)
          let x := (r.2.orCol c fl).exportChecked c o.desc turn.disagree poison r.1
          x.2.2.relayData e c { o with next := o.next + n } (odDest o.desc) (odLz o.desc) (odDoff o.desc + o.next) x.2.1 x.1))

/-- The contribution of an RPUT goes in one packet, or is queued here. -/
def State.relayContribute (s : State) (e c : Nat) (o : Posted) (poison : Bool) (l : List Byte) : State :=
  let d := o.desc
  let t := odDest d
  let id := odF d 4 63 32
  let chunk := odF d 4 31 16
  let midx := odF d 4 15 8
  let o := { o with next := l.length }
  if t.mode ≠ 2 ∧ ¬ s.colFlowOk c t.flow t.mode t.group then s.relayFault e c F_COL_FLOW o.pc
  else match (if t.mode = 2 then some s.chipId else s.physical c t.chip) with
    | none => s.relayFault e c F_COL_DESC o.pc
    | some chip =>
      if chip = s.chipId then
        match s.contribution c id chunk midx l.length with
        | .inl f => s.contextFault c f
        | .inr _ => (s.putRun e c o).queueCombine ⟨c, id, chunk, midx, poison, chip, odRcc d, o.epoch, l, none, none, false, 0⟩
      else
        let r := s.sendCol c o t chip 2 poison (leBytes 8 (id * 2 ^ 32 + chunk * 2 ^ 16 + midx * 2 ^ 8) ++ leBytes 8 0) l
        if r.2.ctxState c = s.ctxState c then (r.2.putRun e c { o with sent := r.1 :: o.sent }).flowWaited e else r.2

/-- RELAY_RPUT: the one packet of a contribution. -/
def execRelayRput (turn : RelayTurn) (s : State) : Res := s.granting <|
  let e := turn.engine
  let s := s.relayTake e 2
  .next (match s.running e 2 with
    | none => s
    | some (c, o) =>
      if o.next ≠ 0 then s
      else match s.relaySource c o.desc true with
        | .inl f => s.relayFault e c f o.pc
        | .inr (l, poison, fl) => s.relayRead e c o (if odRs o.desc then [] else [(odSrc o.desc, odLen o.desc)]) (fun s =>
          let r := s.relayBytes o l
          let x := (r.2.orCol c fl).exportChecked c o.desc turn.disagree poison r.1
          x.2.2.relayContribute e c o x.2.1 x.1))

/-- A piece keeps the rules of R292. -/
def pieceOk (x : Nat × Nat) : Bool :=
  decide (x.2 < 2 ^ 32) && x.2 % 16 == 0 && decide (16 ≤ x.2) && decide (x.2 ≤ 2 ^ 31) && rinkRange x.1 x.2

/-- Bytes [off, off + n) of the concatenated pieces. -/
def State.pieceBytes (s : State) : List (Nat × Nat) → Nat → Nat → List Byte
  | [], _, _ => []
  | x :: l, off, n =>
    if n = 0 then []
    else if x.2 ≤ off then s.pieceBytes l (off - x.2) n
    else
      let m := min n (x.2 - off)
      s.rinkBytes (offOf x.1 + off) m ++ s.pieceBytes l 0 (n - m)

/-- The ranges that those bytes lie in. -/
def pieceRanges : List (Nat × Nat) → Nat → Nat → List (Nat × Nat)
  | [], _, _ => []
  | x :: l, off, n =>
    if n = 0 then []
    else if x.2 ≤ off then pieceRanges l (off - x.2) n
    else (x.1 + off, min n (x.2 - off)) :: pieceRanges l 0 (n - min n (x.2 - off))

/-- RELAY_GATHER: the next packet of the concatenated pieces. -/
def execRelayGather (e : Fin 4) (s : State) : Res := s.granting <|
  let s := s.relayTake e 3
  .next (match s.running e 3 with
    | none => s
    | some (c, o) =>
      let d := o.desc
      let ps := s.pieces d
      let start := o.next = 0
      if start ∧ ¬ s.rinkOwned c (offOf (odList d)) (16 * odCount d) then s.relayFault e c F_ISA_OWN o.pc
      else if start ∧ s.rinkBad (offOf (odList d)) (16 * odCount d) then s.relayRead e c o [(odList d, 16 * odCount d)] id
      else if start ∧ ¬ ps.all pieceOk then s.relayFault e c F_COL_DESC o.pc
      else if start ∧ ps.any (fun x => ! s.rinkOwned c (offOf x.1) x.2) then s.relayFault e c F_ISA_OWN o.pc
      else
        let n := min 16384 ((ps.map (fun x => x.2)).sum - o.next)
        if n = 0 then s
        else s.relayRead e c o ((if start then [(odList d, 16 * odCount d)] else []) ++ pieceRanges ps o.next n) (fun s =>
          let r := s.relayBytes o (s.pieceBytes ps o.next n)
          r.2.relayData e c { o with next := o.next + n } (odDest d) (odLz d) (odDoff d + o.next) false r.1))

/-- A row of a SCATTER goes as a RET packet, or through the Rink to this chip itself (R166, R295). -/
def State.relayReturn (s : State) (e c : Nat) (o : Posted) (ent row : List Byte) : State :=
  let w0 := leNat (ent.take 8)
  let w1 := leNat (ent.drop 8)
  let src := bitsOf w1 63 50
  let epoch := bitsOf w0 15 0
  match s.physical c src with
  | none => s.relayFault e c F_COL_DESC o.pc
  | some chip =>
    if chip = s.chipId then (s.putRun e c o).acceptReturn (40 + e) (some c) epoch (ent ++ row) id
    else if s.retFlow src = 0xFFFF then s.relayFault e c F_DSP_FLOW o.pc
    else
      let (q, s) := s.nextSeq Cls.ret
      let i : PacketInfo := { cls := Cls.ret, sched := true, dest := chip, src := s.chipId, job := s.rd (CTX_JOB.JOB c), seq := q }
      let t := s.inject c (mkPacket { i with flow := s.retFlow src, epoch := epoch } (ent ++ row))
      if t.ctxState c = s.ctxState c then (t.putRun e c { o with sent := (Cls.ret, q) :: o.sent }).flowWaited e else t

/-- The context owns the list and every row of a SCATTER. -/
def State.scatterOwned (s : State) (c : Nat) (d : List Word) : Bool :=
  s.rinkOwned c (offOf (odList d)) (16 * odCount d) &&
  (List.range (odCount d)).all (fun i => s.rinkOwned c (offOf (odSrc d + i * odStride d)) (odLen d))

/-- Every flow that a SCATTER's list names keeps R293; an operation with one that does not sends nothing. -/
def State.scatterFlows (s : State) (c : Nat) (d : List Word) : Bool :=
  odRetc d || (List.range (odCount d)).all (fun i => s.colFlowOk c (bitsOf (s.rinkWord (offOf (odList d) + 16 * i)) 43 31) 0 0)

/-- RELAY_SCATTER: the next row, or the next 16,384 bytes of one. -/
def execRelayScatter (e : Fin 4) (s : State) : Res := s.granting <|
  let s := s.relayTake e 4
  .next (match s.running e 4 with
    | none => s
    | some (c, o) =>
      let d := o.desc
      let a := odSrc d + o.next * odStride d
      if odCount d ≤ o.next then s
      else if o.next = 0 ∧ o.sub = 0 ∧ ¬ s.scatterOwned c d then s.relayFault e c F_ISA_OWN o.pc
      else if o.next = 0 ∧ o.sub = 0 ∧ s.rinkBad (offOf (odList d)) (16 * odCount d) then s.relayRead e c o [(odList d, 16 * odCount d)] id
      else if o.next = 0 ∧ o.sub = 0 ∧ ¬ s.scatterFlows c d then s.relayFault e c F_COL_FLOW o.pc
      else
        let entAt := (odList d + 16 * o.next, 16)
        let ent := s.rinkBytes (offOf (odList d) + 16 * o.next) 16
        if odRetc d then s.relayRead e c o [entAt, (a, odLen d)] (fun s =>
          let r := s.relayBytes o (s.rinkBytes (offOf a) (odLen d))
          r.2.relayReturn e c { o with next := o.next + 1 } ent r.1)
        else
          let w0 := leNat (ent.take 8)
          let doff := leNat (ent.drop 8)
          let n := min 16384 (odLen d - o.sub)
          let isOver := odLen d ≤ o.sub + n
          let next := if isOver then { o with next := o.next + 1, sub := 0 } else { o with sub := o.sub + n }
          s.relayRead e c o [entAt, (a + o.sub, n)] (fun s =>
            if bitsOf w0 30 0 ≠ 0 ∨ doff % 16 ≠ 0 then s.relayFault e c F_COL_DESC o.pc
            else
              let r := s.relayBytes o (s.rinkBytes (offOf a + o.sub) n)
              r.2.relayData e c next ⟨0, bitsOf w0 63 50, 0, bitsOf w0 43 31⟩ (bitsOf w0 49 44) (doff + o.sub) false r.1))

/-- A packet of this chip's own making is still in a queue or on its way out of a port. -/
def State.inQueues (s : State) (cls seq : Nat) : Bool :=
  let mine (q : QPkt) : Bool := q.fromPort.isNone && pkSrc q.pkt == s.chipId && pkClass q.pkt == cls && pkSeq q.pkt == seq
  s.router.flows.any (fun f => f.2.any mine) || s.router.ports.any (fun x => x.2.sending.any mine || x.2.vcq.any (fun v => v.2.any mine))

/-- Every packet of an operation is made. -/
def State.relayMade (s : State) (c : Nat) (o : Posted) : Bool :=
  let d := o.desc
  if odOp d = 4 then decide (odCount d ≤ o.next)
  else if odOp d = 3 then decide (((s.pieces d).map (fun x => x.2)).sum ≤ o.next)
  else match s.relaySource c d false with
    | .inl _ => decide (o.next ≠ 0)
    | .inr r => decide (o.next ≠ 0 ∧ r.1.length ≤ o.next)

/-- RELAY_OP_END: the last packet has left, or the last local byte is written or combined (R294). -/
def execRelayOpEnd (e : Fin 4) (s : State) : Res := s.granting <|
  .next (match s.relayOwner e with
    | none => s
    | some c => match (s.relay (2 * e + c)).run with
      | none => s
      | some o =>
        let d := o.desc
        let waits := s.col.combine.any (fun x => ! x.packet && x.ctx == c && odOp d == 2 && x.colid == odF d 4 63 32 &&
          x.chunk == odF d 4 31 16 && x.midx == odF d 4 15 8)
        if ¬ s.relayMade c o ∨ waits ∨ o.sent.any (fun x => s.inQueues x.1 x.2) then s
        else
          let s := (s.setRelay (2 * e + c) { s.relay (2 * e + c) with run := none }).addSat (REL_COUNT.OPS e) 1
          let s := s.addCc c (odDcc d) 1
          if odFree d then match s.sourceChunk c d with
            | some i => s.freeEntry i
            | none => s
          else s)

/-! COL packets at this chip (R296, R297, R303). -/

/-- The check of R296: the destination context, or the state after the discard. -/
def State.colCheck (s : State) (p : Packet) : Nat ⊕ State :=
  let stray (c : Nat) : State := ((s.addSat COL_COUNT.STRAY 1).lapFlag 18).report F_COL_STRAY c 0
  match s.ctxOfJob (pkJob p) with
  | none => .inr (stray 2)
  | some c =>
    if s.cancelled c (pkEpoch p) then .inr ((s.addSat COL_COUNT.STALE 1).lapFlag 18)
    else if s.epoch c = some (pkEpoch p) then .inl c else .inr ((stray c).latePoison (some c) p)

/-- COL_PUT_RX. -/
def execColPutRx (n : Fin 13) (p : Packet) (s : State) : Res := s.granting <|
  .next (if pkClass p ≠ Cls.col ∨ pkOpc p ≠ 1 then s
    else s.receive n p true (fun s q =>
      let s := s.leave q
      match s.colCheck p with
      | .inr t => t.aggLocal p false
      | .inl c =>
        match s.colLand (fabricPort n) c (leNat (p.payload.take 8)) (leNat ((p.payload.drop 8).take 1)) (pkCc p) (p.payload.drop 16) with
        | none => (s.aggLocal p false).contextFault c F_COL_LAND
        | some t => (t.aggLocal p true).acceptPoison c p))

/-- COL_RPUT_RX: the packet keeps its buffer until its data is combined. -/
def execColRputRx (n : Fin 13) (p : Packet) (s : State) : Res := s.granting <|
  .next (if pkClass p ≠ Cls.col ∨ pkOpc p ≠ 2 then s
    else s.receive n p true (fun s q =>
      match s.colCheck p with
      | .inr t => (t.leave q).aggLocal p false
      | .inl c =>
        let w := leNat (p.payload.take 8)
        let data := p.payload.drop 16
        match s.contribution c (bitsOf w 63 32) (bitsOf w 31 16) (bitsOf w 15 8) data.length with
        | .inl f => ((s.leave q).aggLocal p false).contextFault c f
        | .inr _ =>
          ((s.aggLocal p true).queueCombine ⟨c, bitsOf w 63 32, bitsOf w 31 16, bitsOf w 15 8, pkPoison p, pkSrc p, pkCc p, pkEpoch p, data,
            q.buf, q.fromPort, true, 0⟩).acceptPoison c p))

/-! Combining (R303, R308, R309, R313). -/

/-- The aligned operand of the adder: significand shifted left by 3, then right by the exponent difference with a sticky bit (R308). -/
def alignedSig (neg : Bool) (m d : Nat) : Int :=
  let x := 8 * m
  let v := x / 2 ^ d ||| (if x % 2 ^ d = 0 then 0 else 1)
  if neg then -(v : Int) else v

/-- A sum of `w` bits with some of them wrong, and whether its residue is then the one predicted from the operands. -/
def flippedSum (w : Nat) (a b : Int) (flips : Nat) : Int × Bool :=
  let n := ((a + b) % (2 ^ w : Nat)).toNat
  let t := signed w (n ^^^ (flips % 2 ^ w))
  (t, decide ((a % 127 + b % 127) % 127 = t % 127))

/-- An FP32 sum whose adder gives some bits of S wrong: the word, and whether the check holds. -/
def sum32 (a b flips : Nat) : Nat × Bool :=
  match f32 a, f32 b with
  | .fin na ma ea, .fin nb mb eb =>
    if flips % 2 ^ 29 = 0 then ((f32Add 0 a b).1, true)
    else
      let e := max ea eb
      let r := flippedSum 29 (alignedSig na ma (e - ea).toNat) (alignedSig nb mb (e - eb).toNat) flips
      ((f32Of 0 (intVal r.1 (e - 3))).1, r.2)
  | _, _ => ((f32Add 0 a b).1, true)

/-- Element `j` of an entry combined with a contribution's element, with the wrong bits of its sum, and whether the check holds. -/
def State.combineElem (s : State) (i fop : Nat) (data : List Byte) (j flips : Nat) : State × Bool :=
  if fop = 3 then
    let a := s.xpElem i j
    let b := signed 64 (leNat ((data.drop (8 * j)).take 8))
    let r := if flips = 0 then (a + b, true) else flippedSum 72 a b flips
    (s.setXp i j r.1, r.2)
  else
    let a := leNat (s.rsBytes i (4 * j) 4)
    let b := leNat ((data.drop (4 * j)).take 4)
    let r := if fop = 0 then sum32 a b flips
      else (if fop = 1 then (f32Max a b).1 else if fop = 2 then (f32Min a b).1
        else if fop = 4 then (if signed 32 a < signed 32 b then b else a) else (if signed 32 b < signed 32 a then b else a), true)
    (s.setRs i (4 * j) (leBytes 4 r.1), r.2)

/-- An element whose two units disagree: free bits. -/
def State.freeElem (s : State) (i fop j : Nat) : State :=
  let n := fopBytes fop
  let r := s.freeBytes n
  r.2.setRs i (n * j) r.1

/-- Every element of a contribution combines, with the faults of its adders: whether every check holds, and the state (R303, R308). -/
def State.combineAll (s : State) (i : Nat) (data : List Byte) (faults : List AdderFault) : Bool × State :=
  let fop := (s.rsEntry i).fop
  (List.range ((s.rsEntry i).bytes / fopBytes fop)).foldl (fun (x : Bool × State) j =>
    let f := faults.filter (fun f => f.elem.toNat == j)
    let r := x.2.combineElem i fop data j (f.foldl (fun m g => m ^^^ g.flips.toNat) 0)
    if f.any (fun g => g.unit) then (false, r.1.freeElem i fop j) else (x.1 && r.2, r.1)) (true, s)

/-- The last contribution of a chunk: DONECC and the slow-member records. -/
def State.chunkDone (s : State) (c : Nat) (e : RsEntry) (x : Contribution) : State :=
  let s := ((s.wr (COL_SLOW.CHIP c) x.src).wr (COL_SLOW.MIDX c) x.midx).wr (COL_SLOW.SPREAD c) (s.stride + 2 ^ 20 - e.first)
  ((s.wr (COL_SLOW.COLID c) x.colid).addSat (COL_SLOWCNT.LAST c x.midx) 1).addCc c e.donecc 1

/-- RS_COMBINE_DONE: the contribution queued first combines, with the faults that its adders meet. -/
def execRsCombineDone (faults : List AdderFault) (s : State) : Res := s.granting <|
  .next (match s.col.combine with
    | [] => s
    | x :: l =>
      let s := (s.updCol (fun y => { y with combine := l })).endContribution x
      match s.chunkEntry x.ctx x.colid x.chunk with
      | none => s.contextFault x.ctx F_COL_NOENTRY
      | some i =>
        let e := s.rsEntry i
        let r := s.combineAll i x.data faults
        let arrived := e.arrived ||| BitVec.ofNat 64 (2 ^ x.midx)
        let full := ((List.range 64).filter (fun m => arrived.getLsbD m)).length = e.expectM1 + 1
        let e := { e with arrived := arrived, first := if e.st = 1 then s.stride else e.first, poison := e.poison || x.poison
                          st := if full then 3 else 2 }
        let s := (r.2.setRsEntry i e).addMod RS_COUNT.COMBINES 1
        let s := s.addCc x.ctx x.rcc 1
        let s := if r.1 then s else s.residueFault x.ctx i
        if full then s.chunkDone x.ctx e x else s)

/-- POISON_NOTICE_RX. -/
def execPoisonNoticeRx (n : Fin 13) (p : Packet) (s : State) : Res := s.live <|
  let e := bitsOf (leNat (p.payload.take 8)) 47 32
  .next (if ¬ isPoisonNotice p then s
    else s.receive n p true (fun s q =>
      let s := s.leave q
      let stray (c : Nat) : State := (((s.addSat COL_COUNT.STRAY 1).lapFlag 18).report F_COL_STRAY c 0).aggLocal p false
      match s.ctxOfJob (pkJob p) with
      | none => stray 2
      | some c =>
        if s.cancelled c e then ((s.addSat COL_COUNT.STALE 1).lapFlag 18).aggLocal p false
        else if s.epoch c = some e ∨ (s.ctx c).committed.any (fun x => x.1 == e) then (s.aggLocal p true).poison c e
        else stray c))

end Sys2Proof.Machine
end

