-- ==== Sys2Proof/Machine/MemCtl.lean ====
section
/-!
DEFINITION. The LPDDR memory controllers: start-up, ECC, refresh, scrubbing and live retraining (R202 to R227).
-/

namespace Sys2Proof.Machine

/-- Release and discard are levels that the security block holds (R222, R383). -/
def State.released (s : State) : Bool := s.sec.verdict == 1
def State.discarded (s : State) : Bool := s.sec.verdict == 2

def State.setMemState (s : State) (m st : Nat) : State := s.wr (MEM_STATUS.STATE m) st

/-! Start-up (R222 to R225). -/

/-- A controller starts to train: from OFF with a package reset, from self-refresh with its contents kept. -/
def State.memTrain (s : State) (m : Nat) (kept : Bool) : State :=
  let s := (s.updMem m (fun x => { x with kept := kept })).setMemState m MemSt.training
  if kept then s else s.emit (.mem m 0 0 "RESET_N pulse")

/-- DISCARD at one controller: packages in reset, training results and channel registers cleared (R224). -/
def State.memDiscard (s : State) (m : Nat) : State :=
  let st := s.memState m
  if st = MemSt.run ∨ st = MemSt.selfref ∨ st = MemSt.discarded then s
  else
    let s := (List.range 16).foldl (fun s k => s.setReg (MEM_CH.FAILED m k).off 0) s
    ((s.setMemCtl m {}).setMemState m MemSt.discarded).emit (.mem m 0 0 "RESET_N low")

/-- HELD is entered; under RELEASE the controller goes on to RUN. -/
def State.memHold (s : State) (m : Nat) : State :=
  if s.released then (s.setMemState m MemSt.run).checkReady else s.setMemState m MemSt.held

/-- RELEASE reaches the controllers: those in HELD run. -/
def State.releaseMem (s : State) : State :=
  (List.range 12).foldl (fun s m => if s.memState m = MemSt.held then s.memHold m else s) s

/-- DISCARD reaches the controllers. -/
def State.discardMem (s : State) : State := (List.range 12).foldl (fun s m => s.memDiscard m) s

/-- MEM_START: training starts from OFF. -/
def execMemStart (m : Fin 12) (s : State) : Res := s.live <|
  .next (if s.memState m = MemSt.off then s.memTrain m false else s.memReport m F_MEM_CFG)

/-- A value for MEM_CTL. DESIGN CHOICE: a PERIOD_MS outside 10 to 1,000, for which R227 gives no effect, leaves that field as it is. -/
def State.memCtlValue (s : State) (m : Nat) (v : Word) : Word :=
  let p := fieldOf v (MEM_CTL.PERIOD_MS m)
  if 10 ≤ p ∧ p ≤ 1000 then v else BitVec.ofNat 64 (withBits v.toNat 47 32 (s.rd (MEM_CTL.PERIOD_MS m)))

/-- MEM_CTL_WRITE (R222, R227). -/
def execMemCtlWrite (m : Fin 12) (v : Word) (s : State) : Res := s.live <|
  let off := (MEM_CTL.START m).off
  let v := s.memCtlValue m v
  let start := fieldOf v (MEM_CTL.START m) = 1
  .next (if s.memState m = MemSt.off then
      let s := s.applySetting off v
      if start then s.memTrain m false else s
    else if s.memState m = MemSt.run ∧ ¬ start then { s with lapDeferred := s.lapDeferred ++ [(off, v)] }
    else s.memReport m F_MEM_CFG)

/-- MEM_TRAINING_DONE: `failed` names the channels that failed, and `p` is what the mode registers say of the package. -/
def execMemTrainingDone (m : Fin 12) (failed : BitVec 16) (p : Package) (s : State) : Res := s.live <|
  .next (if s.memState m ≠ MemSt.training then s
    else if ¬ p.listed then (s.memReport m F_MEM_PKG).setMemState m MemSt.failed
    else if failed ≠ 0 then (s.memReport m F_MEM_TRAINFAIL).setMemState m MemSt.failed
    else
      let s := s.updMem m (fun x => { x with rfm := p.rfm.map (fun t => t.toNat) })
      if (s.mem m).kept then s.memHold m else s.setMemState m MemSt.zeroing)

/-- MEM_ZEROING_DONE: every block of the controller's channels holds zeros with a valid check value. -/
def execMemZeroingDone (m : Fin 12) (s : State) : Res := s.live <|
  .next (if s.memState m ≠ MemSt.zeroing then s
    else ({ s with
      lpddr := s.lpddr.filter (fun e => channelOf e.1 / 16 != m.val)
      flips := s.flips.filter (fun e => channelOf (64 * e.1) / 16 != m.val) }).memHold m)

/-! Demand of fixed-function blocks (R208, R209). -/

/-- MEM_REQUEST_SERVED: a channel serves a read of a block with no stream; each block of it is checked, and the data of an
uncorrectable one is discarded. -/
def execMemRequestServed (m : Fin 12) (r : MemService) (s : State) : Res := s.live <|
  let a := r.addr.toNat
  let n := 16 * r.granules.toNat
  let s := (r.upsets.filter (fun u => channelOf u.addr.toNat / 16 == m.val)).foldl (fun s u => s.memUpset u) s
  .next (if channelOf a / 16 ≠ m.val ∨ memBytesUsable < a + n ∨ ¬ s.channelOpen a then s
    else (s.demand false a n).memRead a n true)

/-! Failed channels (R221). -/

/-- A channel fails: a device fault. -/
def State.channelFail (s : State) (m k code : Nat) : State :=
  let s := s.wr (MEM_STATUS.CH_FAILED m) (s.rd (MEM_STATUS.CH_FAILED m) ||| 2 ^ k)
  ((s.wr (MEM_CH.FAILED m k) 1).wr (MEM_STATUS.LAST_CODE m) code).deviceFault code

/-! Refresh (R213, R214). -/

/-- A per-bank refresh of the channel's next bank in round-robin order. -/
def State.refreshBank (s : State) (m k : Nat) : State :=
  let b := tget (fun _ => 0) (s.mem m).banks k
  (s.updMem m (fun x => { x with
    banks := tset (fun _ => 0) x.banks k ((b + 1) % 16), refreshed := tset (fun _ => 0) x.refreshed k (s.ct + 1) })).emit (.mem m k b "REFpb")

/-- MEM_BASE_REFRESH. -/
def execMemBaseRefresh (m : Fin 12) (ch : Fin 16) (s : State) : Res := s.live <|
  .next (if s.channelOn m ch ∧ s.refreshDue m ch then (s.addMod (MEM_REFCNT.BASE m) 1).refreshBank m ch else s)

/-- Offsets of the extra refreshes of a rate. -/
def extraOffsets (rs rate : Nat) : List Nat :=
  if rate = 0 then [] else if rate = 1 then [rs / 2] else [rs / 4, rs / 2, 3 * rs / 4]

/-- The rate that a channel follows: in the stride of a poll still the one before it (R214). -/
def State.rateOf (s : State) (m k : Nat) : Nat :=
  match (s.mem m).rates with
  | some r => if r.1 = s.ct then (r.2[k]?).getD 0 else s.rd (MEM_CH.RATE m k)
  | none => s.rd (MEM_CH.RATE m k)

/-- MEM_EXTRA_REFRESH. -/
def execMemExtraRefresh (m : Fin 12) (ch : Fin 16) (s : State) : Res := s.live <|
  .next (if s.channelOn m ch ∧ (extraOffsets s.refreshRs (s.rateOf m ch)).contains (s.sinceRefresh ch) ∧
      tget (fun _ => 0) (s.mem m).refreshed ch ≠ s.ct + 1 then
      (((s.addSat (MEM_REFCNT.EXTRA m) 1).lapFlag 11).repeatEvent 0 1).refreshBank m ch
    else s)

/-- MR4_POLL: each channel takes its rate, which it follows from the next stride on; one above the operating range fails (R214,
R220). -/
def execMr4Poll (m : Fin 12) (rates : List (BitVec 3)) (s : State) : Res := s.live <|
  .next (if s.memState m ≠ MemSt.run ∨ s.stride % 65536 ≠ 0 then s
    else
      let rs := (List.range 16).map (fun k => min 3 ((rates[k]?).getD 0).toNat)
      let s := s.updMem m (fun x => { x with rates := some (s.ct, (List.range 16).map (fun k => s.rateOf m k)) })
      let s := (List.range 16).foldl (fun s k => s.wr (MEM_CH.RATE m k) ((rs[k]?).getD 0)) s
      let s := s.wr (MEM_STATUS.RATE m) (rs.foldl max 0)
      (List.range 16).foldl (fun s k =>
        if (rs[k]?).getD 0 = 3 ∧ ¬ s.bit (MEM_CH.FAILED m k) then s.channelFail m k F_MEM_TEMP else s) s)

/-- MEM_RFM: a bank whose activation count has reached the package's threshold receives its command. PRESUMED: the count then falls by
that threshold, as JESD209-5 has it. -/
def execMemRfm (m : Fin 12) (ch : Fin 16) (bank : Fin 16) (s : State) : Res := s.live <|
  .next (if s.channelOn m ch ∧ s.rfmDue m ch bank then
      let key := 16 * ch.val + bank.val
      let n := tget (fun _ => 0) (s.mem m).acts key - (s.rfmAt m).getD 0
      let s := s.updMem m (fun x => { x with acts := tset (fun _ => 0) x.acts key n })
      ((s.addSat (MEM_REFCNT.RFM m) 1).repeatEvent 0 1).emit (.mem m ch bank "RFMpb")
    else s)

/-! Scrubbing (R216, R217). -/

/-- A scrub reads block `n`: one that can be corrected is rewritten. -/
def State.scrubBlock (s : State) (m n : Nat) : State :=
  match s.flipsOf n with
  | [] => s
  | [_] => { (s.memCorrected n).addSat (MEM_ECC.SCRUB_FIX m) 1 with flips := tdel n s.flips }
  | _ => s.memUncorrectable n true

/-- The bursts of a scrub of a line, of which the blocks `fix` are rewritten. -/
def scrubBursts (q : Nat) (fix : List Nat) : List Burst :=
  readBursts q 0 31 ++ fix.flatMap (fun b => dataBursts 1 q b ++ checkBursts 2 q b 1)

/-- MEM_PATROL_SCRUB: the line at POS is read, after a refresh that is due and a step that holds the channel; the round's last channel
advances POS. -/
def execMemPatrolScrub (m : Fin 12) (ch : Fin 16) (upsets : Upsets) (s : State) : Res := s.live <|
  let s := s.upset upsets
  .next (if ¬ s.channelOn m ch ∨ ¬ s.scrubDue m ch ∨ s.refreshDue m ch ∨ s.stepHolds m ch then s
    else
      let pos := s.rd (MEM_SCRUB.POS m)
      let dev := 16 * m.val + ch.val
      let blk (b : Nat) : Nat := addrOf dev pos b / 64
      let s := s.carry dev (scrubBursts pos ((List.range 31).filter (fun b => (s.flipsOf (blk b)).length == 1)))
      let s := (List.range 31).foldl (fun s b => s.scrubBlock m (blk b)) s
      let s := s.updMem m (fun x => { x with scrubbed := tset (fun _ => 0) x.scrubbed ch (s.ct + 1) })
      if (List.range 16).all (fun k => decide (k ≤ ch.val) || ! s.channelOn m k) then
        let s := s.wr (MEM_SCRUB.POS m) (pos + 1)
        if pos + 1 = 2 ^ 21 then s.addMod (MEM_SCRUB.PASSES m) 1 else s
      else s)

/-! Live retraining (R218 to R220). -/

/-- Clk left before stride `e` of this lap. -/
def State.clkBefore (s : State) (e : Nat) : Nat := (e * 2 ^ 44 - s.lap.acc.toNat) / s.rd LAP_LOOP.PHASE_INC

/-- How the present slot of port `m` may be used by controller `m`: none, as a CAL slot (1), as an IDLE slot (2), or
because the port is out of service (3). -/
def State.usableSlot (s : State) (m : Nat) : Nat :=
  let w := s.slotWord m (s.stride / 64)
  let up := s.portState m == PortSt.up || s.portState m == PortSt.ctlonly
  if slotCal w then 1
  else if (s.course (s.rd COURSE_STATUS.BANK)).caldyn ∧ slotValid w ∧ (s.port m).slot.any (fun x => x.index == s.slotNo && x.kind == 2) then 2
  else if ¬ up then 3 else 0

/-- The pass that is due may start: its period's sixteenth has gone by since the last one started (R219). -/
def State.passDue (s : State) (m : Nat) : Bool :=
  (s.mem m).rotStep ≠ 0 || (match (s.mem m).passStart with
    | none => true
    | some t => decide (t + s.rd (MEM_CTL.PERIOD_MS m) * 58750 ≤ s.clk))

/-- A step may start in this clk: at its slot's start, back to back with the step before it in the slot, or once the refresh of this
stride is done (R217, R219). -/
def State.stepTime (s : State) (m k : Nat) : Bool :=
  let x := s.mem m
  ! s.refreshDue m k && decide (x.stepEnd ≤ s.clk) &&
    (decide (s.prevCt / 64 < s.ct / 64) || (x.stepEnd == s.clk && x.stepSlot == s.slotNo) || tget (fun _ => 0) x.refreshed k == s.ct + 1)

/-- The actions of a pass (R218). -/
def stepName (i : Nat) : String :=
  (["WCK2DQI start", "WCK2DQI read", "WCK2DQO start", "WCK2DQO read", "RDC 1", "RDC 2", "DELAYS", "ZQ latch"][i]?).getD ""

/-- MEM_RETRAIN_STEP: a step of the rotation's channel, which it holds for 112 clk; `drift` and `ok` are what the pass has measured
when its last step runs. -/
def execMemRetrainStep (m : Fin 12) (ch : Fin 16) (drift : BitVec 8) (ok : Bool) (s : State) : Res := s.live <|
  let x := s.mem m
  let use := s.usableSlot m
  .next (if ¬ s.channelOn m ch ∨ ¬ s.bit (MEM_CTL.TRAIN_EN m) ∨ x.rotCh ≠ ch.val ∨ use = 0 ∨ ¬ s.passDue m ∨ ¬ s.stepTime m ch ∨
      s.clkBefore (64 * (s.stride / 64 + 1)) < 112 then s
    else
      let s := if use = 1 then s.addSat (MEM_TRAIN.STEPS_CAL m) 1 else if use = 2 then s.addSat (MEM_TRAIN.STEPS_DYN m) 1 else s
      let s := if x.rotStep = 0 then s.updMem m (fun y => { y with passStart := some s.clk }) else s
      let s := (s.updMem m (fun y => { y with stepEnd := s.clk + 112, stepSlot := s.slotNo, stepCh := ch.val })).emit
        (.mem m ch 0 (stepName x.rotStep))
      if x.rotStep < 7 then s.updMem m (fun y => { y with rotStep := x.rotStep + 1 })
      else
        let s := s.updMem m (fun y => { y with rotStep := 0, rotCh := (x.rotCh + 1) % 16 })
        let s := s.wr (MEM_CH.DRIFT m ch) drift.toNat
        if ok ∧ drift.toInt.natAbs ≤ 24 then
          let s := (s.wr (MEM_CH.LAST_PASS m ch) s.lapNo).addSat (MEM_TRAIN.PASSES m) 1
          s.updMem m (fun y => { y with late := y.late.erase ch.val })
        else s.channelFail m ch F_MEM_DRIFT)

/-- MEM_TRAINLATE: the channel's last pass is older than 2 × PERIOD_MS; once per occurrence (R220). -/
def execMemTrainlate (m : Fin 12) (ch : Fin 16) (s : State) : Res := s.live <|
  let age := (s.lapNo + 2 ^ 32 - s.rd (MEM_CH.LAST_PASS m ch)) % 2 ^ 32
  .next (if s.channelOn m ch ∧ ¬ (s.mem m).late.contains ch.val ∧
      2 * s.rd (MEM_CTL.PERIOD_MS m) * 1000 < age * s.rd LAP_CFG.PERIOD_US then
      (s.updMem m (fun x => { x with late := ch.val :: x.late })).memReport m F_MEM_TRAINLATE
    else s)

end Sys2Proof.Machine
end

