-- ==== Sys2Proof/Machine/Security.lean ====
section
/-!
DEFINITION. The security and management block: the matrix, lifecycle, debug levels, credentials, tokens, quotes, the
Setting Store and the census (R381 to R406).
-/

namespace Sys2Proof.Machine

/-! The matrix (R392). -/

/-- Lifecycle (SEC_STATE.LC). -/
def State.lc (s : State) : Nat := s.rd SEC_STATE.LC

/-- The device is in P0 or P1. -/
def State.powered (s : State) : Bool := decide (s.rd PWR_STATUS.STATE ≤ 2)

/-- Functions M and H: management and data sessions, and the creation of contexts. -/
def State.mayManage (s : State) : Bool :=
  s.powered && decide (s.lc ≤ 3) && ! (s.lc == 2 && s.dbg == 3)

/-- Function A: identity signatures. -/
def State.mayAttest (s : State) : Bool := s.powered && (s.lc == 1 || s.lc == 2) && decide (s.dbg < 3)

/-- Function T: counter read-out and the sampler. -/
def State.mayCount (s : State) : Bool := s.powered && decide (s.lc ≤ 3) && decide (1 ≤ s.dbg)

/-- Function S: trace and standstill. -/
def State.mayTrace (s : State) : Bool := s.powered && decide (s.lc ≤ 3) && decide (2 ≤ s.dbg)

/-- Function I: freeze, scan, register poke. -/
def State.mayScan (s : State) : Bool := s.powered && decide (s.lc ≤ 3) && s.dbg == 3

/-! Reports, windows and keys. -/

/-- A code of the security block (R404). -/
def State.secReport (s : State) (code : Nat) : State := (s.wr SEC_STATUS.LAST_CODE code).report code 2 0

/-- A code of the Setting Store block. -/
def State.ssReport (s : State) (code : Nat) : State := (s.wr SS_STATUS.LAST_CODE code).secReport code

def State.updSec (s : State) (f : Sec → Sec) : State := { s with sec := f s.sec }

/-- Bytes of a window of the control space. -/
def State.windowBytes (s : State) (a n : Nat) : List Byte := tgetMany zeroByte s.sec.windows a n

def State.setWindow (s : State) (a : Nat) (l : List Byte) : State :=
  s.updSec (fun x => { x with windows := tsetMany zeroByte x.windows a l })

def tokenWindow : Nat := 0x228000
def quoteWindow : Nat := 0x223000
def credWindow : Nat := 0x221000
def certWindow : Nat := 0x224000
def imageWindow : Nat := 0x258000

/-- Bytes of an ML-DSA-65 signature. -/
def mldsaLen : Nat := 3309

/-- Both signatures over a message verify under a pair of keys. -/
def bothVerify (ed mldsa msg edSig mldsaSig : List Byte) : Bool :=
  Config.ed25519Verify ed msg edSig && Config.mldsaVerify mldsa msg mldsaSig

/-- A root key's hash is the fused one. -/
def State.rootFused (s : State) (i : Nat) : Bool := s.sec.rootHashes[i]? == some (Config.sha3_384 (Config.rootKey i))

/-- Signatures under the production (0) or development (1) roots, whose keys match the fuses. -/
def State.rootsVerify (s : State) (dev : Nat) (msg edSig mldsaSig : List Byte) : Bool :=
  s.rootFused (2 * dev) && s.rootFused (2 * dev + 1) &&
    bothVerify (Config.rootKey (2 * dev)) (Config.rootKey (2 * dev + 1)) msg edSig mldsaSig

def State.cred (s : State) (i : Nat) : Cred := tget (fun _ => {}) s.sec.creds i

/-- Credential `i` may be used: entry 0 has ROM keys, every right, and is never valid in DEPLOYED (R394). -/
def State.credOf (s : State) (i : Nat) : Option Cred :=
  if i = 0 then
    (if s.lc = 0 ∨ s.lc = 1 ∨ s.lc = 3 then some ⟨true, 31, Config.romCredential 0, Config.romCredential 1⟩ else none)
  else if i < 16 ∧ (s.cred i).valid then some (s.cred i) else none

/-- A credential that holds SEC. -/
def Cred.holdsSec (c : Cred) : Bool := c.rights.testBit 4

/-! Tokens (R390). -/

def State.tokenWord (s : State) (i : Nat) : Nat := leNat (s.windowBytes (tokenWindow + 8 * i) 8)

/-- SEC_NONCE takes a fresh random value. -/
def State.newNonce (s : State) : State :=
  (List.range 4).foldl (fun s n =>
    let (v, s) := s.free
    s.wr (SEC_NONCE.NONCE n) v) s

/-- Who signed the token in the window: none if it is malformed or its serial, nonce, kind or signatures are wrong; 0 the
production roots, else a credential. -/
def State.tokenSigner (s : State) (kind target : Nat) : Option Nat :=
  let body := s.windowBytes tokenWindow 64
  let ed := s.windowBytes (tokenWindow + 64) 64
  let ml := s.windowBytes (tokenWindow + 128) mldsaLen
  let signer := s.tokenWord 6
  if s.tokenWord 0 ≠ kind * 2 ^ 56 + target * 2 ^ 48 ∨ s.tokenWord 1 ≠ s.rd SEC_SERIAL.SERIAL ∨
      (List.range 4).any (fun i => s.tokenWord (2 + i) != s.rd (SEC_NONCE.NONCE i)) ∨ s.tokenWord 7 ≠ 0 then none
  else if signer = 0 then (if s.rootsVerify 0 body ed ml then some 0 else none)
  else match s.credOf signer with
    | none => none
    | some c => if bothVerify c.ed c.mldsa body ed ml then some signer else none

/-! Commands (R386 to R394). A command written while one runs is ignored with F_SEC_BUSY (R397). -/

/-- The security block takes a command: it is not busy and no lifecycle transition has closed the device. -/
def State.secCommand (s : State) (k : State → State) : State :=
  if s.sec.closed then s
  else if s.bit SEC_STATUS.BUSY then s.secReport F_SEC_BUSY
  else k s

/-- The accepted capsules that can still be executed once their session is closed: those before the first gap. -/
def runPrefix : Nat → List AccCap → List AccCap × List AccCap
  | _, [] => ([], [])
  | n, c :: l => if c.seq = n then let r := runPrefix (n + 1) l; (c :: r.1, r.2) else ([], c :: l)

/-- Capsules of a session's present opening that will never be executed are dropped and their buffers freed (R371). -/
def State.purgeCapsules (s : State) (x : Nat) : State :=
  let y := s.sess x
  let mine := y.accepted.filter (fun c => c.gen == y.gen)
  let r := runPrefix y.nextExec mine
  let s := r.2.foldl (fun s c => s.devReleaseOpt c.buf) s
  s.setSess x { y with accepted := y.accepted.filter (fun c => c.gen != y.gen) ++ r.1 }

/-- Close every WCP session that satisfies `q` (R366). -/
def State.closeSessions (s : State) (q : Nat → Bool) : State :=
  ((List.range 16).filter (fun x => s.sessState x != SessSt.free && q x)).foldl (fun s x => (s.purgeCapsules x).freeSession x) s

/-- Drain capsules of closed sessions are abandoned: their SRD completes and F_WCP_LOST is reported (R372). -/
def State.settleLost (s : State) : State :=
  let l := s.host.lost
  let s := { s with host := { s.host with lost := [] } }
  l.foldl (fun s d =>
    let s := match s.findOp d.1 d.2.1 with
      | some o => match o.kind with
        | .snap _ cc => (s.addCc (s.ctxOf d.1) cc 1).endOp d.1 d.2.1
        | _ => s
      | none => s
    s.wcpEvent F_WCP_LOST (d.2.2.1 * 2 ^ 56 + d.2.2.2)) s

/-- Preconditions of a lifecycle transition (R389). -/
def State.transitionOk (s : State) (target : Nat) : Bool :=
  (s.lc == 0 && target == 1) ||
  (s.lc == 1 && target == 2 && ! s.sec.certificate.isEmpty &&
    (List.range 15).any (fun i => (s.cred (i + 1)).valid && (s.cred (i + 1)).holdsSec)) ||
  (s.lc == 2 && target == 3) || (s.lc != 4 && target == 4)

/-- The fuses and erasures of a transition. -/
def State.makeTransition (s : State) (target : Nat) : State :=
  let s := s.updSec (fun x => { x with fuseLc := target })
  let s := s.wr SEC_STATE.LC target
  if target = 1 then
    let seed := (List.range 32).map (fun i => BitVec.ofNat 8 (Config.freeNat (s.freeCtr + i)))
    { s with freeCtr := s.freeCtr + 32, sec := { s.sec with fuseSeed := seed } }
  else if target = 3 then
    ((s.updSec (fun x => { x with seedKilled := true, fuseSeed := List.replicate 32 0, creds := [], certificate := [] })).eraseMram
      0x3000000 0x3100000).eraseMram 0x3100000 0x3180000
  else if target = 4 then { s with faultLog := [], sec := { s.sec with mram := [], badBlocks := [], creds := [], certificate := [] } }
  else s

/-- LC_ADVANCE: `arg` is the lifecycle code asked for. -/
def execLcAdvance (arg : BitVec 8) (s : State) : Res := s.live <|
  .next (s.secCommand (fun s =>
    let target := arg.toNat
    let t := if ¬ s.transitionOk target then s.secReport F_SEC_LC
      else match s.tokenSigner 1 target with
        | none => s.secReport F_SEC_TOKEN
        | some g =>
          if g = 0 ∨ (target = 4 ∧ (s.credOf g).any Cred.holdsSec) then
            let s := s.makeTransition target
            let s := (s.teardown 0 F_CTX_TEARDOWN 0).teardown 1 F_CTX_TEARDOWN 0
            ((s.closeSessions (fun _ => true)).settleLost).updSec (fun x => { x with closed := true })
          else s.secReport F_SEC_TOKEN
    t.newNonce))

/-- The bytes of a quote before its signatures (R388). -/
def State.quoteBytes (s : State) : List Byte :=
  s.windowBytes quoteWindow 32 ++ leBytes 8 (s.rd SEC_SERIAL.SERIAL) ++ leBytes 4 s.sec.running.version ++
  leBytes 1 s.sec.running.svn ++ leBytes 1 s.lc ++ leBytes 1 s.dbg ++
  leBytes 1 ((s.reg CSV_STATUS.CERT.off).toNat % 32 / 2 * 2 + b01 s.promised) ++ (s.sec.running.hash ++ List.replicate 48 0).take 48 ++
  leBytes 4 (s.rd CFG_EPOCH.EPOCH) ++ leBytes 8 (s.rd CFG_DIGEST.VALUE) ++ leBytes 8 s.ct ++ leBytes 12 0

/-- An ATTEST ends: the quote window is filled and BUSY clears. -/
def State.finishAttest (s : State) : State :=
  if ¬ s.sec.attesting then s
  else
    let s := (s.updSec (fun x => { x with attesting := false })).wr SEC_STATUS.BUSY 0
    match s.sec.identity with
    | none => s
    | some (ed, ml) =>
      let q := s.quoteBytes
      let pad := (Config.mldsaSign ml q ++ List.replicate 3328 0).take 3328
      s.setWindow quoteWindow (q ++ (Config.ed25519Sign ed q ++ List.replicate 64 0).take 64 ++ pad)

/-- A level below D1 stops the sampler, one below D2 the trace and an armed capture (R418), and below D3 every stream in BRK
resumes (R422). -/
def State.lowerDebug (s : State) (d : Nat) : State :=
  let s := if d < 1 then s.setBit TEL_CTL.EN false else s
  let s := if d < 2 then (s.setBit TEL_CTL.TRACE false).setBit DBG_SSCTL.ARM false else s
  if d < 3 then (List.range 50).foldl (fun s k => if s.engState k = EngSt.brk then s.setEngState k EngSt.run else s) s else s

/-- Debug level `d` becomes the level; entry to D3 lets a signature finish, zeroises the identity keys, closes every
session and sets D3SEEN (R391). -/
def State.setDebug (s : State) (d : Nat) : State :=
  if d = 3 ∧ s.dbg < 3 then
    let s := s.finishAttest
    let s := (s.updSec (fun x => { x with identity := none })).wr SEC_STATE.IDENT 0
    let s := (s.closeSessions (fun _ => true)).settleLost
    ((s.wr CSV_STATUS.D3SEEN 1).trouble 25).wr SEC_STATE.DBG 3
  else (s.lowerDebug d).wr SEC_STATE.DBG d

/-- The command raises the level by a token: in PROVISIONED and DEPLOYED, to D2 or D3. -/
def State.needsToken (s : State) (d : Nat) : Bool := (s.lc == 1 || s.lc == 2) && decide (2 ≤ d)

/-- DBG_SET. While a quote is being signed the block is busy and ignores it, so no signature is cut short (R391, R397). -/
def execDbgSet (arg : BitVec 8) (s : State) : Res := s.live <|
  let d := arg.toNat
  .next (if s.sec.closed then s
    else if s.bit SEC_STATUS.BUSY then s.secReport F_SEC_BUSY
    else if 3 < d ∨ ¬ s.powered then s.secReport F_SEC_DBG
    else if d ≤ s.dbg then s.setDebug d
    else if 4 ≤ s.lc then s.secReport F_SEC_DBG
    else if s.needsToken d then
      (match s.tokenSigner 2 d with
        | none => s.secReport F_SEC_TOKEN
        | some g => if d = 2 ∨ g = 0 then s.setDebug d else s.secReport F_SEC_DBG).newNonce
    else s.setDebug d)

/-- CRED_INSTALL: the staged credential is stored. -/
def execCredInstall (arg : BitVec 8) (s : State) : Res := s.live <|
  .next (s.secCommand (fun s =>
    let i := arg.toNat
    if i = 0 ∨ 16 ≤ i then s.secReport F_SEC_CRED
    else
      let c : Cred := ⟨true, leNat (s.windowBytes credWindow 1) % 32, s.windowBytes (credWindow + 8) 32, s.windowBytes (credWindow + 40) 1952⟩
      s.updSec (fun x => { x with creds := tset (fun _ => {}) x.creds i c })))

/-- CRED_REVOKE: the entry is cleared and every session that uses it is closed. -/
def execCredRevoke (arg : BitVec 8) (s : State) : Res := s.live <|
  .next (s.secCommand (fun s =>
    let i := arg.toNat
    if i = 0 ∨ 16 ≤ i then s.secReport F_SEC_CRED
    else
      let s := s.updSec (fun x => { x with creds := tset (fun _ => {}) x.creds i {} })
      (s.closeSessions (fun x => s.rd (WCP_SESS.CRED x) == i)).settleLost))

/-- Bytes of a certificate. -/
def certLen : Nat := 5392

/-- CERT_INSTALL: the token of kind 3 and the certificate behind it check. -/
def execCertInstall (_arg : BitVec 8) (s : State) : Res := s.live <|
  .next (s.secCommand (fun s =>
    let cert := s.windowBytes (tokenWindow + 3456) certLen
    let t := match s.tokenSigner 3 0 with
      | some 0 =>
        match s.sec.identity with
        | none => s.secReport F_SEC_CRED
        | some (ed, ml) =>
          if (cert.drop 8).take 32 = Config.ed25519Public ed ∧ (cert.drop 40).take 1952 = Config.mldsaPublic ml ∧
              s.rootsVerify 0 (cert.take 2000) ((cert.drop 2000).take 64) ((cert.drop 2064).take mldsaLen) then
            s.updSec (fun x => { x with certificate := cert })
          else s.secReport F_SEC_CRED
      | _ => s.secReport F_SEC_TOKEN
    t.newNonce))

/-- ATTEST: refused without a usable identity, else it runs. -/
def execAttest (_arg : BitVec 8) (s : State) : Res := s.live <|
  .next (s.secCommand (fun s =>
    if s.sec.identity = none ∨ ¬ s.mayAttest then s.secReport F_SEC_LC
    else (s.updSec (fun x => { x with attesting := true })).wr SEC_STATUS.BUSY 1))

/-- SVN_COMMIT: fuse steps up to the running image's SVN (R386). -/
def execSvnCommit (s : State) : Res := s.live <|
  .next (s.secCommand (fun s =>
    if s.lc ≠ 2 then s.secReport F_SEC_LC
    else
      let n := max s.sec.fuseSvn (min 64 s.sec.running.svn)
      (s.updSec (fun x => { x with fuseSvn := n })).wr SEC_BOOT.SVN n))

/-- SEC_COMMAND_DONE. -/
def execSecCommandDone (s : State) : Res := s.live <| .next s.finishAttest

/-! Images (R382, R383). -/

/-- Offset of a firmware slot in the Setting Store. -/
def slotBase (slot : Nat) : Nat := 0x1800000 * slot

/-- The header of a slot's image. -/
def State.imageInfo (s : State) (slot : Nat) : ImageInfo :=
  let w (i : Nat) : Nat := leNat (s.mramBytes (slotBase slot + 8 * i) 8)
  { version := w 0 % 2 ^ 32, feature := bitsOf (w 0) 47 40, svn := bitsOf (w 0) 39 32, cert := (w 1).testBit 24,
    devroot := (w 1).testBit 25, length := bitsOf (w 1) 63 32, hash := s.mramBytes (slotBase slot + 16) 48 }

/-- The body of a slot's image. -/
def State.imageBody (s : State) (slot : Nat) : List Byte := s.mramBytes (slotBase slot + 3456) (s.imageInfo slot).length

/-- The Setting Store reads a slot's image: a block that cannot be read is reported (R395). -/
def State.readSlot (s : State) (slot : Nat) : State :=
  if s.mramBad (slotBase slot) (3456 + (s.imageInfo slot).length) then s.ssReport F_SEC_SS else s

/-- The checks of R383 step 5: none if the slot passes, else its code. An image with a block that cannot be read fails. -/
def State.verifySlot (s : State) (slot : Nat) : Option Nat :=
  let b := slotBase slot
  let i := s.imageInfo slot
  let w0 := leNat (s.mramBytes b 8)
  let w1 := leNat (s.mramBytes (b + 8) 8)
  let dev := b01 i.devroot
  if s.mramBad b (3456 + i.length) ∨ bitsOf w0 63 48 ≠ 1 ∨ bitsOf w1 31 26 ≠ 0 ∨ bitsOf w1 23 21 ≠ 0 ∨ bitsOf w1 15 0 ≠ 0 ∨ 23 * 2 ^ 20 < i.length ∨
      i.hash ≠ Config.sha3_384 (s.imageBody slot) ∨
      ¬ s.rootsVerify dev (s.mramBytes b 64) (s.mramBytes (b + 64) 64) (s.mramBytes (b + 128) mldsaLen) ∨
      ¬ (bitsOf w1 20 16).testBit s.lc ∨ (i.devroot ∧ s.lc = 2) then some F_SEC_SIG
  else if i.svn < s.sec.fuseSvn then some F_SEC_SVN
  else none

/-- A_OK or B_OK. -/
def slotOkFld (slot : Nat) : Fld := if slot = 0 then SS_STATUS.A_OK else SS_STATUS.B_OK

/-! The Setting Store's commands (R395 to R397). -/

/-- The Setting Store takes a command. -/
def State.ssCommand (s : State) (k : State → State) : State :=
  if s.sec.closed then s
  else if s.bit SS_STATUS.BUSY then s.ssReport F_SEC_BUSY
  else k s

/-- A command starts to run. -/
def State.ssStart (s : State) (j : SsJob) : State := (s.updSec (fun x => { x with ssJob := some j })).wr SS_STATUS.BUSY 1

/-- The slot that holds the running image. -/
def State.runningSlot (s : State) (slot : Nat) : Bool := s.rd SEC_BOOT.STATE == 1 && s.rd SEC_BOOT.SLOT == slot

/-- SS_WRITE. -/
def execSsWrite (slot : Bool) (off : BitVec 10) (s : State) : Res := s.live <|
  .next (s.ssCommand (fun s =>
    if s.runningSlot (b01 slot) ∨ 768 ≤ off.toNat then s.ssReport F_SEC_IMG else s.ssStart (.write slot off.toNat)))

/-- SS_VERIFY. -/
def execSsVerify (slot : Bool) (s : State) : Res := s.live <| .next (s.ssCommand (fun s => s.ssStart (.verify slot)))

/-- SS_ACTIVATE. -/
def execSsActivate (slot : Bool) (s : State) : Res := s.live <|
  .next (s.ssCommand (fun s =>
    if s.bit (slotOkFld (b01 slot)) then s.ssStart (.activate slot) else s.ssReport F_SEC_IMG))

/-- SS_STORE. -/
def execSsStore (s : State) : Res := s.live <| .next (s.ssCommand (fun s => s.ssStart .store))

/-- SS_COMMAND_DONE: the command that runs writes its result. -/
def execSsCommandDone (s : State) : Res := s.live <|
  .next (match s.sec.ssJob with
    | none => s
    | some j =>
      let s := (s.updSec (fun x => { x with ssJob := none })).wr SS_STATUS.BUSY 0
      match j with
      | .write slot off => s.setMram (slotBase (b01 slot) + 0x8000 * off) (s.windowBytes imageWindow 0x8000)
      | .verify slot =>
        (let s := s.readSlot (b01 slot)
        match s.verifySlot (b01 slot) with
          | none => s.wr (slotOkFld (b01 slot)) 1
          | some _ => (s.wr (slotOkFld (b01 slot)) 0).ssReport F_SEC_IMG)
      | .activate slot => (s.updSec (fun x => { x with preferred := b01 slot })).wr SS_STATUS.PREFERRED (b01 slot)
      | .store => s.storeSettings)

/-- SS_WEAR_SCAN: rewriting and moving a block change nothing that is read; one that cannot be read is reported, and stays so until it is
written. -/
def execSsWearScan (block : Nat) (uncorrectable : Bool) (s : State) : Res := s.live <|
  .next (if block < 2 ^ 20 ∧ (uncorrectable ∨ s.sec.badBlocks.contains block) then
      (s.updSec (fun x => { x with badBlocks := block :: x.badBlocks.erase block })).ssReport F_SEC_SS
    else s)

/-! The census (R399 to R401). -/

/-- Aggregate two results. -/
def CenSum.add (a b : CenSum) : CenSum :=
  { count := a.count + b.count, late := a.late + b.late, minEpoch := min a.minEpoch b.minEpoch, maxEpoch := max a.maxEpoch b.maxEpoch,
    minVer := min a.minVer b.minVer, maxVer := max a.maxVer b.maxVer, minDig := min a.minDig b.minDig, maxDig := max a.maxDig b.maxDig }

/-- This chip's sample. -/
def State.censusSample (s : State) (late : Bool) : CenSum :=
  let e := s.rd CFG_EPOCH.EPOCH
  let v := s.rd SEC_BOOT.VERSION
  let d := s.rd CFG_DIGEST.VALUE
  ⟨1, b01 late, e, e, v, v, d, d⟩

/-- The root records a result. -/
def State.censusRecord (s : State) (x : CenState) (st : Nat) : State :=
  let r := x.sum
  let s := (((s.wr CFG_CENRES0.CID x.cid).wr CFG_CENRES0.COUNT r.count).wr CFG_CENRES0.LATE r.late).wr CFG_CENRES0.STATE st
  let s := ((s.wr CFG_CENRES1.MIN r.minEpoch).wr CFG_CENRES1.MAX r.maxEpoch).wr CFG_CENRES2.MIN r.minVer
  ((s.wr CFG_CENRES2.MAX r.maxVer).wr CFG_CENDMIN.DIGEST r.minDig).wr CFG_CENDMAX.DIGEST r.maxDig

/-- Words 4 to 6 of the two parts of a census report (R400). -/
def censusWords (x : CenState) : List Nat × List Nat :=
  let r := x.sum
  ([x.cid * 2 ^ 48 + r.count % 2 ^ 15 * 2 ^ 32 + r.minEpoch, r.maxEpoch * 2 ^ 32 + r.minVer, r.maxVer * 2 ^ 32 + r.late % 2 ^ 15],
   [x.cid * 2 ^ 48 + 2 ^ 47, r.minDig, r.maxDig])

/-- When nothing more is expected, the root records DONE and any other router sends one pair on its arrival port. -/
def State.censusClose (s : State) : State :=
  match s.sec.census with
  | none => s
  | some x =>
    if x.expect ≠ 0 then s
    else
      let s := s.updSec (fun y => { y with census := none })
      match x.arrival with
      | none => s.censusRecord x 2
      | some n =>
        let w := censusWords x
        (s.lcfDue (s.aggPort n) 4 (w.1.map (BitVec.ofNat 64))).lcfDue (s.aggPort n) 4 (w.2.map (BitVec.ofNat 64))

/-- A report, or this chip's own sample, joins the aggregate. -/
def State.censusAdd (s : State) (r : CenSum) : State :=
  match s.sec.census with
  | none => s
  | some x => (s.updSec (fun y => { y with census := some { x with sum := x.sum.add r, expect := x.expect - 1, sampleDue := false } })).censusClose

/-- This chip samples at once, late, or at the edge that begins the sample lap. -/
def State.censusLocal (s : State) (cid lap : Nat) : State :=
  match s.sec.census with
  | none => s
  | some x =>
    if x.cid ≠ cid then s
    else if lap ≤ s.lapNo then s.censusAdd (s.censusSample true)
    else s.updSec (fun y => { y with census := some { x with sampleDue := true } })

/-- At the edge that begins the sample lap, after the edge's actions. -/
def State.censusEdge (s : State) : State :=
  match s.sec.census with
  | none => s
  | some x => if x.sampleDue ∧ x.lap ≤ s.lapNo then s.censusAdd (s.censusSample false) else s

/-- Reports a router expects for a census packet on group `g`. -/
def State.censusExpect (s : State) (p : Packet) (g : Nat) : Nat :=
  ((s.mgPorts g).filter (fun n => (s.copyLost p n).isNone)).length + b01 (s.mgLocal g)

/-- CID and sample lap of a census packet. -/
def censusCid (p : Packet) : Nat := bitsOf (leNat (p.payload.take 8)) 63 48
def censusLap (p : Packet) : Nat := leNat ((p.payload.drop 8).take 8) / 2 ^ 20

/-- CENSUS_START: the root's state is set, and the packet is sent on the group (R399). The packet carries the JOB of the
group's entry. -/
def execCensusStart (v : Word) (s : State) : Res := s.live <|
  let g := fieldOf v CFG_CENSUS.GROUP
  let s1 := ((s.wr CFG_CENSUS.CID (fieldOf v CFG_CENSUS.CID)).wr CFG_CENSUS.GROUP g).wr CFG_CENSUS.TIMEOUT (fieldOf v CFG_CENSUS.TIMEOUT)
  let cid := fieldOf v CFG_CENSUS.CID
  let lap := s1.rd CFG_CENLAP.LAP
  let p := mkPacket { cls := Cls.ctl, mode := 1, src := s1.chipId, job := bitsOf (s1.mgWord g 0) 49 34, mgroup := g, opc := 0x12 }
    (leBytes 8 (cid * 2 ^ 48) ++ leBytes 8 (lap * 2 ^ 20))
  let root := bitsOf (s1.mgWord g 0) 63 63 = 1 ∧ s1.mgRoot g ∧ ¬ s1.selfFenced
  let x : CenState := ⟨cid, lap, none, if root then s1.censusExpect p g else 1, false, {}, s1.ct⟩
  let s2 := (s1.updSec (fun y => { y with census := some x })).censusRecord x 1
  .next ((s2.originateTree 2 p).censusClose)

/-- CENSUS_RX: the packet is replicated and this chip's sample scheduled; the root's own copy arrives with n = 12. -/
def execCensusRx (n : Fin 13) (p : Packet) (s : State) : Res := s.live <|
  .next (if pkClass p ≠ Cls.ctl ∨ pkOpc p ≠ 0x12 ∨ pkMode p ≠ 1 then s
    else
      let g := pkMgroup p
      let taken := n.val = 12 ∨ s.treeTaken n p
      let same := s.sec.census.any (fun x => x.cid == censusCid p)
      let s1 := if taken ∧ ¬ same then
          s.updSec (fun y => { y with census := some ⟨censusCid p, censusLap p, some n.val, s.censusExpect p g, false, {}, s.ct⟩ })
        else s
      (s1.receive n p true (fun s q => (s.leave q).censusLocal (censusCid p) (censusLap p))).censusClose)

/-- The two parts of a report, in words 4 to 6 of their LCFs. A report of another census, or from a fenced chip, is discarded. -/
def State.censusReport (s : State) (n : Nat) (a b : Lcf) : State :=
  let f (w : Word) (hi lo : Nat) : Nat := bitsOf w.toNat hi lo
  match s.sec.census with
  | none => s
  | some x =>
    if s.fenced (s.neighbour (n % 6)) ∨ f a.w4 63 48 ≠ x.cid ∨ f b.w4 63 48 ≠ x.cid ∨ f a.w4 47 47 ≠ 0 ∨ f b.w4 47 47 ≠ 1 then s
    else s.censusAdd ⟨f a.w4 46 32, f a.w6 14 0, f a.w4 31 0, f a.w5 63 32, f a.w5 31 0, f a.w6 63 32, b.w5.toNat, b.w6.toNat⟩

/-- CENSUS_LCF_RX: two consecutive groups of a port that CENSUS LCFs close. The contents are used once both have passed R235. -/
def execCensusLcfRx (n : Fin 12) (r : CensusGroups) (s : State) : Res := s.live <|
  let g0 := r.first
  let g1 := r.second
  .next (if lcfType g0.lcf ≠ 4 ∨ lcfType g1.lcf ≠ 4 then s
    else
      let good := s.inService n ∧ groupGood g0 ∧ lcfGseq g0.lcf = (s.port n).gseqRx ∧ groupGood g1 ∧
        lcfGseq g1.lcf = (lcfGseq g0.lcf + 1) % 4096
      let t := (s.takeGroup n g0 id).takeGroup n g1 id
      if good then t.censusReport n g0.lcf g1.lcf else t)

/-- CENSUS_TIMEOUT: at the root, the partial aggregate. -/
def execCensusTimeout (s : State) : Res := s.live <|
  .next (match s.sec.census with
    | none => s
    | some x =>
      if x.arrival = none ∧ x.since + s.rd CFG_CENSUS.TIMEOUT ≤ s.ct then
        (((s.updSec (fun y => { y with census := none })).censusRecord x 3).secReport F_SEC_CENSUS)
      else s)

end Sys2Proof.Machine
end

