-- ==== Sys2Proof/Machine/Wcp.lean ====
section
/-!
DEFINITION. The host ports and the sessions and data capsules of the Weing Command Protocol (R361 to R380).
-/

namespace Sys2Proof.Machine

/-! Host ports (R361, R362). -/

/-- Host port states (HP_STATUS.STATE). -/
def HpSt.down : Nat := 0
def HpSt.train : Nat := 1
def HpSt.held : Nat := 2
def HpSt.up : Nat := 3
def HpSt.discarded : Nat := 4

def State.hostState (s : State) (n : Nat) : Nat := s.rd (HP_STATUS.STATE n)
def State.setHostState (s : State) (n st : Nat) : State := s.wr (HP_STATUS.STATE n) st

/-- HP_CTL takes a written word, with EN as the command has it. -/
def State.writeHpCtl (s : State) (n : Nat) (v : Word) (en : Bool) : State :=
  ((((s.wr (HP_CTL.VID n) (fieldOf v (HP_CTL.VID n))).wr (HP_CTL.PTP n) (fieldOf v (HP_CTL.PTP n))).wr (HP_CTL.VLAN n)
    (fieldOf v (HP_CTL.VLAN n))).wr (HP_CTL.AN n) (fieldOf v (HP_CTL.AN n))).setBit (HP_CTL.EN n) en

/-- HOST_PORT_ENABLE. -/
def execHostPortEnable (n : Fin 2) (v : Word) (s : State) : Res := s.live <|
  let t := s.writeHpCtl n v true
  .next (if t.hostState n = HpSt.down then t.setHostState n HpSt.train else t)

/-- HOST_PORT_DISABLE: DOWN, with the transmitters in electrical idle. -/
def execHostPortDisable (n : Fin 2) (v : Word) (s : State) : Res := s.live <|
  let t := s.writeHpCtl n v false
  .next (if t.hostState n = HpSt.discarded then t else t.setHostState n HpSt.down)

/-- HOST_TRAINING_DONE: HELD, or UP under RELEASE. -/
def execHostTrainingDone (n : Fin 2) (s : State) : Res := s.live <|
  .next (if s.hostState n ≠ HpSt.train then s
    else s.setHostState n (if s.discarded then HpSt.discarded else if s.released then HpSt.up else HpSt.held))

/-- HOST_LINK_LOSS: an UP port reports it and trains again. -/
def execHostLinkLoss (n : Fin 2) (s : State) : Res := s.live <|
  .next (if s.hostState n = HpSt.up then
      ((s.wr (HP_STATUS.LAST_CODE n) F_HOST_LINK).setHostState n HpSt.train).report F_HOST_LINK 2 n
    else if s.hostState n = HpSt.held then s.setHostState n HpSt.train
    else s)

/-- RELEASE and DISCARD at the host ports. -/
def State.releaseHost (s : State) : State :=
  [0, 1].foldl (fun s n => if s.hostState n = HpSt.held then s.setHostState n HpSt.up else s) s
def State.discardHost (s : State) : State := [0, 1].foldl (fun s n => s.setHostState n HpSt.discarded) s

/-- The port holds its link, so that it answers for its addresses. -/
def State.hostLinked (s : State) (n : Nat) : Bool := s.hostState n == HpSt.held || s.hostState n == HpSt.up

/-- A frame arrives on a port that holds its link; the symbols corrected in it count (R379). -/
def State.onFrame (s : State) (n : Nat) (f : Frame) (k : State → State) : State :=
  if s.hostLinked n then k (s.addSat (HP_COUNT.FEC_CORR n) f.corrected) else s

/-- ARP_RX: a request for the port's own IPv4 address is answered. -/
def execArpRx (n : Fin 2) (f : Frame) (s : State) : Res := s.live <|
  .next (s.onFrame n f (fun s => match (s.etherOf n f).bind (fun e => arpOf e.1 e.2) with
      | none => s.hostDrop n
      | some a =>
        if s.bit (HP_IPV4.VALID n) ∧ a.target = s.rd (HP_IPV4.ADDR n) then
          s.emit (.frame n (s.etherFrame n 0x0806 (arpReply (s.rd (HP_MAC.MAC n)) a.target a)))
        else s.hostDrop n))

/-- NEIGHBOUR_SOLICITATION_RX: a solicitation of the port's own IPv6 address is answered by an advertisement. -/
def execNeighbourSolicitationRx (n : Fin 2) (f : Frame) (s : State) : Res := s.live <|
  .next (s.onFrame n f (fun s => match (s.etherOf n f).bind (fun e => solicitationOf e.1 e.2) with
      | none => s.hostDrop n
      | some a =>
        if s.ipv6 n ≠ 0 ∧ a.target = s.ipv6 n then
          s.emit (.frame n (s.etherFrame n 0x86DD (advertisement (s.rd (HP_MAC.MAC n)) a.target a)))
        else s.hostDrop n))

/-- FRAME_DISCARD: a frame that R361 or R362 has the port discard; the codewords that it came in count (R379). -/
def execFrameDiscard (d : DiscardedFrame) (s : State) : Res := s.live <|
  .next (s.onFrame d.port ⟨[], d.corrected⟩ (fun s => (s.addSat (HP_COUNT.FEC_UNCORR d.port) d.uncorrectable).hostDrop d.port))

/-! Frames (R363, R364). -/

def frGet (f : Dgram) (a n : Nat) : Nat := leNat ((f.data.drop a).take n)
def frType (f : Dgram) : Nat := frGet f 1 1
def frSess (f : Dgram) : Nat := frGet f 2 1
def frSeq (f : Dgram) : Nat := frGet f 4 4
def frCum (f : Dgram) : Nat := frGet f 8 4
def frSack (f : Dgram) : Nat := frGet f 12 8
def frClen (f : Dgram) : Nat := frGet f 20 4
def frBody (f : Dgram) : List Byte := f.data.drop 24

/-- A frame of the given type from the host keeps R363. -/
def frGood (f : Dgram) (type : Nat) : Bool :=
  let sealed := type != 1
  decide (24 ≤ f.data.length) && frGet f 0 1 == 1 && (frType f) == type && decide ((frSess f) < 16) && frGet f 3 1 == 0 &&
    (type == 0x11 || ((frCum f) == 0 && (frSack f) == 0)) && (decide (3 < type) || (frSeq f) == 0) &&
    f.data.length == 24 + (frClen f) + (if sealed then 16 else 0)

/-- The plaintext of a sealed frame, if its tag verifies. -/
def Sess.unseal (y : Sess) (f : Dgram) : Option (List Byte) :=
  Config.gcmOpen y.rxKey (wcpNonce y.rxIv (frSeq f) (frType f == 0x11 || frType f == 0x12)) (f.data.take 24) ((frBody f).take (frClen f))
    ((frBody f).drop (frClen f))

/-- A frame reaches the protocol as the payload of a datagram to WCP_CFG.UDP_PORT: the port is UP, or the frame is discarded; a
malformed one is discarded. -/
def State.wcpFrame (s : State) (n type : Nat) (f : Frame) (k : State → Dgram → State) : State :=
  s.onFrame n f (fun s =>
    if s.sec.closed then s
    else if s.hostState n ≠ HpSt.up then s.hostDrop n
    else match s.dgramOf n f with
      | none => s.hostDrop n
      | some d =>
        if d.near ≠ s.rd WCP_CFG.UDP_PORT then s.hostDrop n
        else if ¬ frGood d type then s.addSat WCP_COUNT.MALFORMED 1
        else k s d)

/-- The host's end of a datagram. -/
def Dgram.peer (d : Dgram) : Bool × Nat × Nat := (d.v6, d.addr, d.far)

/-- A frame whose tag fails: reported at most once per session per lap (R364). -/
def State.tagFail (s : State) (x : Nat) : State :=
  let s := s.addSat WCP_COUNT.TAGFAIL 1
  if (s.sess x).tagLap = some s.lapNo then s
  else (s.updSess x (fun y => { y with tagLap := some s.lapNo })).report F_WCP_TAG 2 x

/-- A frame of an OPEN session with a good tag: its port becomes the session's, and the idle time restarts. -/
def State.verified (s : State) (n : Nat) (f : Dgram) (k : State → Nat → List Byte → State) : State :=
  let x := (frSess f)
  if s.sessState x ≠ SessSt.opened then s
  else match (s.sess x).unseal f with
    | none => s.tagFail x
    | some p => k ((s.wr (WCP_SESS.PORT x) n).updSess x (fun y => { y with since := s.clk, peer := f.peer })) x p

/-- A session closes and its drain capsules are abandoned. -/
def State.closeSession (s : State) (x : Nat) : State := (((s.purgeCapsules x).freeSession x)).settleLost

/-! The handshake (R366 to R368). -/

/-- Bytes of an INIT body. -/
def initLen : Nat := 1252

/-- Bytes of a string label. -/
def label (t : String) : List Byte := t.toList.map (fun c => BitVec.ofNat 8 c.toNat)

/-- The seeds with which the device signs a handshake of credential `i` (R392). -/
def State.handshakeSeeds (s : State) (i : Nat) : Option (List Byte × List Byte) :=
  if s.mayAttest ∧ s.sec.identity.isSome then s.sec.identity
  else if i = 0 then some (Config.romSeed 0, Config.romSeed 1) else none

/-- Free random bytes. -/
def State.randomBytes (s : State) (n : Nat) : List Byte × State :=
  ((List.range n).map (fun i => BitVec.ofNat 8 (Config.freeNat (s.freeCtr + i))), { s with freeCtr := s.freeCtr + n })

/-- INIT_RX. -/
def execInitRx (n : Fin 2) (f : Frame) (s : State) : Res := s.live <|
  .next (s.wcpFrame n 1 f (fun s f =>
    let x := (frSess f)
    let b := (frBody f)
    let i := leNat (b.take 2)
    let host := (b.drop 36).take 32
    if s.sessState x ≠ SessSt.free ∨ b.length ≠ initLen ∨ leNat ((b.drop 3).take 1) ≠ 0 then s.addSat WCP_COUNT.MALFORMED 1
    else match s.credOf i, s.handshakeSeeds i with
      | some c, some seeds =>
        if ¬ s.mayManage then s.report F_WCP_AUTH 2 x
        else
          let (nonce, s) := s.randomBytes 32
          let (scalar, s) := s.randomBytes 32
          let (coins, s) := s.randomBytes 32
          let pub := Config.x25519 scalar (9 :: List.replicate 31 0)
          let kem := Config.mlkemEncaps (b.drop 68) coins
          let resp := nonce ++ pub ++ kem.1
          let h1 := Config.sha3_384 (b ++ resp)
          let secret := h1 ++ Config.x25519 scalar host ++ kem.2
          let body := resp ++ Config.ed25519Sign seeds.1 h1 ++ Config.mldsaSign seeds.2 h1
          let y : Sess := { s.sess x with
            gen := (s.sess x).gen + 1, peer := f.peer, h1 := h1, since := s.clk, nextExec := 1, rxAbove := []
            rxKey := Config.kdf (label "wcp h2d key") secret 32, txKey := Config.kdf (label "wcp d2h key") secret 32
            rxIv := Config.kdf (label "wcp h2d iv") secret 12, txIv := Config.kdf (label "wcp d2h iv") secret 12 }
          let s := (s.purgeCapsules x).setSess x { y with accepted := ((s.purgeCapsules x).sess x).accepted }
          let s := (((s.wr (WCP_SESS.STATE x) SessSt.respSent).wr (WCP_SESS.CRED x) i).wr (WCP_SESS.RIGHTS x)
            (leNat ((b.drop 2).take 1) &&& c.rights &&& 15)).wr (WCP_SESS.PORT x) n
          s.sendUdp n ⟨f.v6, f.addr, f.far, f.near, wcpHeader 2 x 1 0 0 0 body.length ++ body⟩
      | _, _ => s.report F_WCP_AUTH 2 x))

/-- FIN_RX: both signatures over H2 verify, or the session is freed. -/
def execFinRx (n : Fin 2) (f : Frame) (s : State) : Res := s.live <|
  .next (s.wcpFrame n 3 f (fun s f =>
    let x := (frSess f)
    let y := s.sess x
    if s.sessState x ≠ SessSt.respSent then s
    else
      let h2 := Config.sha3_384 (y.h1 ++ label "wcp fin")
      let ok := match s.credOf (s.rd (WCP_SESS.CRED x)), y.unseal f with
        | some c, some p => p.length == 64 + mldsaLen && bothVerify c.ed c.mldsa h2 (p.take 64) (p.drop 64)
        | _, _ => false
      if ok then
        let s := s.setSess x { y with
          since := s.clk, peer := f.peer, rto := s.rd WCP_CFG.RTO, retryMax := s.rd WCP_CFG.RETRY_MAX, idle := s.rd WCP_CFG.IDLE }
        let s := (((s.wr (WCP_SESS.STATE x) SessSt.opened).wr (WCP_SSEQ.RXCUM x) 1).wr (WCP_SSEQ.TXNEXT x) 1).wr (WCP_SESS.PORT x) n
        let s := s.wr WCP_STATUS.OPEN (s.rd WCP_STATUS.OPEN ||| 2 ^ x)
        if (s.rd (WCP_SESS.RIGHTS x)).testBit 3 then s.drainRing x else s
      else (s.closeSession x).report F_WCP_AUTH 2 x))

/-- Clk in a millisecond and in a microsecond. -/
def clkPerMs : Nat := 940000
def clkPerUs : Nat := 940

/-- HANDSHAKE_TIMEOUT: 5 ms without FIN. -/
def execHandshakeTimeout (x : Fin 16) (s : State) : Res := s.live <|
  .next (if s.sessState x = SessSt.respSent ∧ (s.sess x).since + 5 * clkPerMs ≤ s.clk then
      (s.closeSession x).report F_WCP_AUTH 2 x
    else s)

/-- CLOSE_RX. -/
def execCloseRx (n : Fin 2) (f : Frame) (s : State) : Res := s.live <|
  .next (s.wcpFrame n 0x12 f (fun s f => s.verified n f (fun s x _ => s.closeSession x)))

/-- SESSION_IDLE_TIMEOUT. -/
def execSessionIdleTimeout (x : Fin 16) (s : State) : Res := s.live <|
  .next (if s.sessState x = SessSt.opened ∧ (s.sess x).since + (s.sess x).idle * clkPerMs ≤ s.clk then s.closeSession x else s)

/-- SESSION_KILL. -/
def execSessionKill (x : Fin 16) (s : State) : Res := s.live <| .next (s.closeSession x)

/-! Capsules in (R370, R371, R373). -/

def AccCap.word (c : AccCap) (i hi lo : Nat) : Nat := bitsOf (leNat ((c.plain.drop (8 * i)).take 8)) hi lo
def AccCap.kind (c : AccCap) : Nat := c.word 0 63 56
def AccCap.len (c : AccCap) : Nat := c.word 0 31 0
def AccCap.tag (c : AccCap) : Nat := c.word 3 63 0
def AccCap.payload (c : AccCap) : List Byte := c.plain.drop 32
def AccCap.hold (c : AccCap) : Bool := c.word 0 54 54 == 1
def AccCap.count (c : AccCap) : Nat := c.word 1 30 24 + 1

/-- A capsule that is accepted and not executed: a reserved or device KIND, a reserved field that is not 0, a LEN that
disagrees or exceeds 8,160, or a write without its COUNT values. -/
def AccCap.malformed (c : AccCap) : Bool :=
  ! (c.kind == 1 || c.kind == 2 || c.kind == 0x10 || c.kind == 0x30) || decide (c.plain.length < 32) ||
    c.word 0 53 48 != 0 || c.word 2 51 32 != 0 || c.len + 32 != c.plain.length || decide (8160 < c.len) || (c.kind == 2 && c.len != 8 * c.count)

/-- The capsule that session `x` executes next. -/
def State.headCap (s : State) (x : Nat) : Option AccCap :=
  match (s.sess x).accepted with
  | [] => none
  | c :: _ => if c.gen ≠ (s.sess x).gen ∨ c.seq = (s.sess x).nextExec then some c else none

/-- The executed capsule leaves the list; its buffer is freed on request. -/
def State.popCap (s : State) (x : Nat) (c : AccCap) (free : Bool) : State :=
  let s := s.updSess x (fun y => { y with
    accepted := y.accepted.drop 1, nextExec := if c.gen = y.gen then y.nextExec + 1 else y.nextExec })
  if free then s.devReleaseOpt c.buf else s

/-- Malformed capsules at the head are reported and passed over. -/
def State.skipBad (s : State) (x : Nat) : Nat → State
  | 0 => s
  | n + 1 => match s.headCap x with
    | none => s
    | some c => if c.malformed then ((s.popCap x c true).report F_WCP_DATA 2 c.tag).skipBad x n else s

/-- Insert an accepted capsule in sequence order among those of its opening. -/
def insertCap (c : AccCap) : List AccCap → List AccCap
  | [] => [c]
  | d :: l => if d.gen = c.gen ∧ c.seq < d.seq then c :: d :: l else d :: insertCap c l

/-- CUM advances over every run of consecutive accepted numbers. -/
def advanceCum : Nat → Nat → List Nat → Nat × List Nat
  | 0, cum, l => (cum, l)
  | n + 1, cum, l => if l.contains cum then advanceCum n (cum + 1) (l.erase cum) else (cum, l)

/-- CAPSULE_RX. -/
def execCapsuleRx (n : Fin 2) (f : Frame) (s : State) : Res := s.live <|
  .next (s.wcpFrame n 0x10 f (fun s f => s.verified n f (fun s x p =>
    let y := s.sess x
    let cum := s.rd (WCP_SSEQ.RXCUM x)
    let q := (frSeq f)
    let sec := (s.credOf (s.rd (WCP_SESS.CRED x))).any Cred.holdsSec
    let c : AccCap := ⟨y.gen, s.rd (WCP_SESS.RIGHTS x) + (if sec then 16 else 0), q, p, none⟩
    if q < cum ∨ y.rxAbove.contains q then
      (s.addSat WCP_COUNT.DUP 1).updSess x (fun z => { z with ackDue := true })
    else if cum + 64 ≤ q then s.addSat WCP_COUNT.WINDOW 1
    else if c.kind = 0x10 ∧ c.hold ∧ 1024 ≤ (s.ctx (c.word 0 55 55)).held.length then s.addSat WCP_COUNT.HOLDFULL 1
    else match s.ingressTake 59 p.length with
      | none => s.noQuota
      | some (b, s) =>
        let r := advanceCum 65 cum (q :: y.rxAbove)
        let s := (s.setRink (s.bufBase b) p).setSess x { s.sess x with
          rxAbove := r.2, ackDue := true, accepted := insertCap { c with buf := some b } (s.sess x).accepted }
        ((s.wr (WCP_SSEQ.RXCUM x) r.1).skipBad x 65))))

/-- WCP_ACK_SEND: an ACK frame of what has been accepted (R363, R370). -/
def execWcpAckSend (x : Fin 16) (s : State) : Res := s.live <|
  let y := s.sess x
  .next (if s.sessState x ≠ SessSt.opened ∨ ¬ y.ackDue then s
    else
      let cum := s.rd (WCP_SSEQ.RXCUM x)
      let sack := ((List.range 64).map (fun i => if y.rxAbove.contains (cum + 1 + i) then 2 ^ i else 0)).sum
      let f := y.seal 0x11 x y.ackNext cum sack []
      ((s.setSess x { y with ackDue := false, ackNext := y.ackNext + 1 }).sendWcp x f).closeExhausted)

/-! Capsules out (R372). -/

/-- Queued capsules leave while the window has room. -/
def State.pumpCapsules (s : State) (x : Nat) : Nat → State
  | 0 => s
  | n + 1 =>
    let y := s.sess x
    match y.queue with
    | [] => s
    | c :: rest =>
      if y.txFull (s.rd (WCP_SSEQ.TXNEXT x)) then s
      else
        let s := (s.setSess x { y with queue := [] }).sendCapsule x c.1 c.2
        (s.updSess x (fun z => { z with queue := rest })).pumpCapsules x n

/-- A drain capsule has been acknowledged: its SRD completes. -/
def State.drainAcked (s : State) (d : Option (Nat × Nat × Nat × Nat)) : State :=
  match d with
  | none => s
  | some d => match s.findOp d.1 d.2.1 with
    | some o => match o.kind with
      | .snap _ cc => (s.addCc (s.ctxOf d.1) cc 1).endOp d.1 d.2.1
      | _ => s
    | none => s

/-- ACK_RX: acknowledged capsules are done, and the window moves. -/
def execAckRx (n : Fin 2) (f : Frame) (s : State) : Res := s.live <|
  .next (s.wcpFrame n 0x11 f (fun s f => s.verified n f (fun s x _ =>
    let y := s.sess x
    let acked (c : TxCap) : Bool := decide (c.seq < (frCum f)) ||
      (decide ((frCum f) < c.seq) && decide (c.seq ≤ (frCum f) + 64) && (frSack f).testBit (c.seq - (frCum f) - 1))
    let done := y.unacked.filter acked
    let moved := y.unacked.any (fun c => decide (c.seq < (frCum f)))
    let s := s.setSess x { y with
      unacked := y.unacked.filter (fun c => ! acked c)
      periods := if moved then 0 else y.periods, sentAt := if moved then s.clk else y.sentAt }
    let s := done.foldl (fun s c => s.drainAcked c.drain) s
    (s.pumpCapsules x (y.queue.length)).closeExhausted)))

/-- WCP_RETRANSMIT: a period of RTO µs ends with capsules unacknowledged. -/
def execWcpRetransmit (x : Fin 16) (s : State) : Res := s.live <|
  let y := s.sess x
  .next (if s.sessState x ≠ SessSt.opened ∨ y.unacked = [] ∨ s.clk < y.sentAt + y.rto * clkPerUs then s
    else if y.retryMax ≤ y.periods + 1 then (s.closeSession x).report F_WCP_TIMEOUT 2 x
    else
      let s := s.setSess x { y with periods := y.periods + 1, sentAt := s.clk }
      y.unacked.foldl (fun s c => s.sendWcp x c.frame) s)

/-! PUT and NOP (R369, R373, R375, R376). -/

/-- The capsule that session `x` executes next, if it is of kind `kind`; one whose right the session lacks is passed
over with F_WCP_DENIED. -/
def State.runCapsule (s : State) (x kind right : Nat) (k : State → AccCap → State) : State :=
  match s.headCap x with
  | none => s
  | some c =>
    if c.kind ≠ kind then s
    else if right < 4 ∧ ¬ c.rights.testBit right then
      ((s.popCap x c true).report F_WCP_DENIED 2 c.tag).skipBad x 65
    else (k s c).skipBad x 65

/-- The destination of a PUT. -/
def AccCap.space (c : AccCap) : Nat := c.word 1 63 60
def AccCap.offset (c : AccCap) : Nat := c.word 1 59 0
def AccCap.ctx (c : AccCap) : Nat := c.word 0 55 55

/-- The checks of R375. -/
def State.putOk (s : State) (c : AccCap) : Bool :=
  let x := c.ctx
  let st := s.ctxState x
  let cc := c.word 2 63 52
  let add := c.word 2 31 0
  (st != CtxSt.none && st != CtxSt.torn) && s.rd (CTX_JOB.JOB x) == c.word 0 47 32 &&
    ((c.space == 1 && s.rinkOwned x c.offset c.len) || (c.space == 2 && s.memOwned x c.offset c.len)) &&
    ! (cc != 0 && add == 0)

/-- PUT: rejected, held for the context's next step boundary, or applied. One that its context has no room to hold waits, as does one to a
page that is to be copied first (R348, R376). -/
def execPut (x : Fin 16) (s : State) : Res := s.granting <|
  .next (s.runCapsule x 0x10 1 (fun s c =>
    if ¬ s.putOk c then (s.popCap x c true).report F_WCP_DATA 2 c.tag
    else if c.hold ∧ 1024 ≤ (s.ctx c.ctx).held.length then s
    else if c.hold then
      (s.popCap x c false).updCtx c.ctx (fun y => { y with held := y.held ++
        [⟨x, c.seq, c.space, c.offset, c.payload, c.word 2 63 52, c.word 2 31 0, c.buf⟩] })
    else if s.rangeBlocked c.space c.offset c.len then s.saturate 2
    else ((s.putWrite c.ctx c.space c.offset c.payload).addCc c.ctx (c.word 2 63 52) (c.word 2 31 0)).repeatEvent 5 1 |>.popCap x c true))

/-- WCP_NOP. -/
def execWcpNop (x : Fin 16) (s : State) : Res := s.live <| .next (s.runCapsule x 0x30 4 (fun s c => s.popCap x c true))

/-- Session order, then sequence order (R376). -/
def putOrder (a b : HeldPut) : Bool := a.sess < b.sess || (a.sess == b.sess && a.seq ≤ b.seq)

def insertPut (h : HeldPut) : List HeldPut → List HeldPut
  | [] => [h]
  | g :: l => if putOrder h g then h :: g :: l else g :: insertPut h l

/-- The held PUTs of a context are due at its step boundary, those of an earlier one first. -/
def State.applyHeldPuts (s : State) (c : Nat) : State :=
  let s := s.updCtx c (fun x => { x with
    held := x.held.take x.putsDue ++ (x.held.drop x.putsDue).foldr insertPut [], putsDue := x.held.length })
  s.applyPuts c (s.ctx c).held.length

end Sys2Proof.Machine
end

