-- ==== Sys2Proof/Machine/Snapshot.lean ====
section
/-!
DEFINITION. The Snapshot Engine: page states, checkpoints, drain instructions and restore (R344 to R360).
-/

namespace Sys2Proof.Machine

/-! Configuration and pages (R345 to R350). -/

/-- Both contexts are NONE. -/
def State.bothNone (s : State) : Bool := s.ctxState 0 == CtxSt.none && s.ctxState 1 == CtxSt.none

/-- The context whose region table holds an offset. -/
def regionCtx (off : Nat) : Option Nat :=
  if off % 8 ≠ 0 then none
  else if 0x200500 ≤ off ∧ off < 0x200580 then some 0
  else if 0x200580 ≤ off ∧ off < 0x200600 then some 1 else none

/-- Every page of a context is PENDING. -/
def State.allPending (s : State) (c : Nat) : State :=
  s.updSnap c (fun x => { x with pageDef := PageSt.pending, pages := [] })

/-- SNP_CFG_WRITE (R345). -/
def execSnpCfgWrite (off : BitVec 24) (v : Word) (s : State) : Res := s.live <|
  let o := off.toNat
  .next (if o = 0x200400 then
      if s.bothNone then s.applySetting o v else s.report F_SNP_CFG 2 0
    else match regionCtx o with
      | none => s
      | some c =>
        if s.bothNone then s.applySetting o v
        else if s.ctxState c = CtxSt.halted then (s.applySetting o v).allPending c
        else s.report F_SNP_CFG 2 0)

/-! The order of service (R349, R351): preservation, roll-back, pre-emption save, sweep, drain copy, drain reads. -/

/-- No engine of the general context is inside an entry (R120) or a block of tokens (R145), and every other operation of
its streams is complete (R77). A GSELECT's block begins when it starts, or goes on after its context's return. -/
def State.settled (s : State) : Bool :=
  (s.streamsOf 0).all (fun k => (s.stream k).ops.all (fun o => o.kind == .gmm || o.kind == .gate)) &&
  (List.range 32).all (fun u => s.ctxOf u != 0 || (match s.gmu u with
    | [] => true
    | x :: _ => x.desc == [])) &&
  (s.gatesOf 0).all (fun g => match (s.gate g).ops with
    | [] => true
    | x :: _ => x.desc == [] || (x.kind == 0 && (x.tok == x.count || ! x.inBlock)))

/-- Writes that may be held on a page, as ranges of LPDDR: of streams, of REQs, of the next capsules, and of the PUTs of a step boundary. -/
def State.heldRanges (s : State) : List (Nat × Nat) :=
  (s.snap 0).held.map (fun h => (h.addr, h.data.length)) ++
  (s.requests.filter (fun r => s.reqHeld r.pkt)).map (fun r => (reqAddr r.pkt, 2 ^ (pkOpc r.pkt / 16 % 4))) ++
  (List.range 16).filterMap (fun x => match s.headCap x with
    | some h => if h.kind = 0x10 ∧ ¬ h.hold ∧ s.putOk h ∧ s.rangeBlocked h.space h.offset h.len then some (h.offset, h.len) else none
    | none => none) ++
  (List.range 2).filterMap (fun c => match (s.ctx c).held with
    | h :: _ => if 0 < (s.ctx c).putsDue ∧ s.rangeBlocked h.space h.addr h.data.length then some (h.addr, h.data.length) else none
    | [] => none)

/-- A write is held on a page. -/
def State.waitsOn (s : State) (page : Nat) : Bool := s.heldRanges.any (fun r => (pagesOf r.1 r.2).contains page)

/-- A page has to be copied before it is written (R348, R352). -/
def State.needsCopy (s : State) (page : Nat) : Bool :=
  (List.range 2).any (fun c => s.isProtected c page && (s.page c page == PageSt.pending || s.drainWants c page))

/-- A preservation is due. -/
def State.preserveDue (s : State) : Bool := s.heldRanges.any (fun r => (pagesOf r.1 r.2).any (fun g => s.needsCopy g))

/-- A preservation, a roll-back or a pre-emption save comes before a sweep. -/
def State.sweepYields (s : State) : Bool :=
  s.preserveDue || (s.snap 0).copyBack || (s.snap 1).copyBack || (s.ctxState 0 == CtxSt.saving && s.settled)

/-- The context holds something to sweep. -/
def State.ctxLive (s : State) (c : Nat) : Bool := s.ctxState c != CtxSt.none && s.ctxState c != CtxSt.torn

/-- The page that the sweep of a context comes to. -/
def State.nextSweep (s : State) (c : Nat) : Option Nat :=
  if s.ctxLive c then s.firstPage c (fun p => s.page c p == PageSt.pending) else none

/-- The Snapshot Engine copies a page between `a` and `b`: it waits for the channels of both; a copy that meets an uncorrectable block tears
the context down (R209, R359). -/
def State.snapCopy (s : State) (c a b : Nat) (k : State → State) : State :=
  if ¬ s.rangeOpen a 4096 ∨ ¬ s.rangeOpen b 4096 then s
  else
    let bad := s.memBad a 4096
    let s := (s.demand false a 4096).memRead a 4096 false
    if bad then s.contextFault c F_SNP_UE else k ((s.demand true b 4096).copyMem a b 4096)

/-- SNP_SWEEP_PAGE: the lowest PENDING page goes to the rolling image and becomes CLEAN, when nothing comes before the sweep. -/
def execSnpSweepPage (c : Fin 2) (upsets : Upsets) (s : State) : Res := s.granting <|
  let s := s.upset upsets
  .next (if s.sweepYields then s
    else match s.nextSweep c with
      | none => s
      | some p => match s.imageOffset c p with
        | none => s
        | some o => s.snapCopy c (p * 4096) (s.imageBase c false + o) (fun s => (s.setPage c p PageSt.clean).retryHeld))

/-- WRITE_PRESERVE_DONE: the page's copy has been read, and the writes that waited for it go on. -/
def execWritePreserveDone (c : Fin 2) (page : Nat) (upsets : Upsets) (s : State) : Res := s.granting <|
  let s := s.upset upsets
  .next (if ¬ s.isProtected c page ∨ ¬ s.needsCopy page ∨ ¬ s.waitsOn page ∨ ¬ s.rangeOpen (page * 4096) 4096 then s
    else
      let bad := s.memBad (page * 4096) 4096
      let s := (s.demand false (page * 4096) 4096).memRead (page * 4096) 4096 false
      if bad then s.contextFault c F_SNP_UE else (s.preservePage page).retryHeld)

/-- Copy every DIRTY page of a context back from its rolling image. -/
def State.copyBackPages (s : State) (c : Nat) : State :=
  ((s.snap c).pages.filter (fun e => e.2 == PageSt.dirty)).foldl (fun s e =>
    match s.imageOffset c e.1 with
    | none => s
    | some o => (s.copyMem (s.imageBase c false + o) (e.1 * 4096) 4096).setPage c e.1 PageSt.clean) s

/-- The rolling-image places of the DIRTY pages of a context. -/
def State.dirtyImages (s : State) (c : Nat) : List Nat :=
  ((s.snap c).pages.filter (fun e => e.2 == PageSt.dirty)).filterMap (fun e => (s.imageOffset c e.1).map (fun o => s.imageBase c false + o))

/-- ROLLBACK_COPY_DONE: held writes and the release of templates may proceed (R350). -/
def execRollbackCopyDone (c : Fin 2) (upsets : Upsets) (s : State) : Res := s.granting <|
  let s := s.upset upsets
  .next (if ¬ (s.snap c).copyBack ∨ s.preserveDue then s
    else
      let l := (s.dirtyImages c).map (fun a => (2, a, 4096))
      let bad := (s.badAll l).isSome
      let s := s.readRanges 44 l false
      if bad then s.contextFault c F_SNP_UE
      else
        let s := (s.copyBackPages c).updSnap c (fun x => { x with copyBack := false })
        (s.updCtx c (fun x => { x with rollback := false })).retryHeld)

/-! Checkpoints (R352). -/

/-- VALID regions of a context. -/
def State.validRegions (s : State) (c : Nat) : List Nat := regionList.filter (fun n => s.bit (SNP_REG.VALID c n))

/-- CKPT_REQUEST. -/
def execCkptRequest (c : Fin 2) (v : Word) (s : State) : Res := s.live <|
  let s1 := s.wr (SNP_CKPT.LAP c) (fieldOf v (SNP_CKPT.LAP c))
  .next (if s1.rd (drainFld c) ≠ DrainSt.idle ∨ s1.validRegions c = [] then s1.report F_SNP_CKPTBUSY 2 c
    else s1.updSnap c (fun x => { x with ckptReq := some (fieldOf v (SNP_CKPT.LAP c)) }))

/-- CKPT_RELEASE. -/
def execCkptRelease (c : Fin 2) (v : Word) (s : State) : Res := s.live <|
  .next (((s.wr (SNP_CKPT.LAP c) (fieldOf v (SNP_CKPT.LAP c))).dropDrain c).retryHeld)

/-- Field of the checkpoint step. -/
def ckstepFld (c : Nat) : Fld := if c = 0 then SNP_STATUS.CKSTEP else SNP_CKSTEP_RT.CKSTEP

/-- A requested checkpoint is taken at a step boundary at or after its lap. -/
def State.takeCheckpoint (s : State) (c : Nat) : State :=
  match (s.snap c).ckptReq with
  | none => s
  | some l =>
    if s.lapNo < l ∨ s.rd (drainFld c) ≠ DrainSt.idle then s
    else
      let s := s.updSnap c (fun x => { x with ckptReq := none, copied := [], digests := [], feeding := [], lchip := s.rd (CTX_PISTE.LCHIP c) })
      (s.wr (drainFld c) DrainSt.copying).wr (ckstepFld c) s.lapNo

/-- A sweep, or what comes before it, comes before a drain copy. -/
def State.drainYields (s : State) : Bool := s.sweepYields || (s.nextSweep 0).isSome || (s.nextSweep 1).isSome

/-- DRAIN_COPY_PAGE: the last page seals the image. -/
def execDrainCopyPage (c : Fin 2) (upsets : Upsets) (s : State) : Res := s.granting <|
  let s := s.upset upsets
  .next (if s.rd (drainFld c) ≠ DrainSt.copying ∨ s.drainYields then s
    else match s.nextDrain c with
      | none => s.wr (drainFld c) DrainSt.sealed
      | some p => match s.imageOffset c p with
        | none => s
        | some o => s.snapCopy c (p * 4096) (s.imageBase c true + o) (fun s => (s.drained c p).retryHeld))

/-! Drain instructions (R353 to R355). -/

/-- Issue a snapshot instruction of `n` descriptor bytes: it retires at issue and stays outstanding. -/
def State.snapIssue (s : State) (k min n : Nat) (b : BitVec 52) : State :=
  let w := velimWord 0x3D min b
  let a := (s.areg k (bitsOf w 47 44)).toNat
  s.issue k w { bad := badZero w 31 0, engine := isSnap k, mem := true }
    (faultAt (s.accessFault k (s.ctxOf k) (spaceOf a) (offOf a) n 64 (spaceOf a == 1)) 44)
    (fun s => (s.beginOp k (.snap min (bitsOf w 43 32)) 1 (offOf a)).retire k)

def execSrd (k : Fin 50) (b : BitVec 52) (s : State) : Res := .next (s.snapIssue k 0 32 b)
def execSdig (k : Fin 50) (b : BitVec 52) (s : State) : Res := .next (s.snapIssue k 1 16 b)
def execSman (k : Fin 50) (b : BitVec 52) (s : State) : Res := .next (s.snapIssue k 2 24 b)

/-- The region of a context with a region ID. -/
def State.regionOfId (s : State) (c id : Nat) : Option Nat :=
  (s.validRegions c).find? (fun n => s.rd (SNP_REG.REGID c n) == id)

/-- Base of a region within the context's images. -/
def State.regionImage (s : State) (c n : Nat) : Nat := ((List.range n).map (fun m => s.regionSize c m)).sum

/-- Words 0 to 3 of a shard header (R353). -/
def State.shardWords (s : State) (c n : Nat) : List Byte :=
  leBytes 8 (2 ^ 48 + s.rd (CTX_JOB.JOB c) * 2 ^ 32 + s.rd (SNP_REG.REGID c n) * 2 ^ 24 + (s.snap c).lchip) ++
  leBytes 8 (s.rd (ckstepFld c) * 2 ^ 20) ++ leBytes 8 (s.regionSize c n) ++ leBytes 8 0

/-- An address of a descriptor that a snapshot instruction reads or writes: in the Rink, owned and aligned. -/
def State.snapAddr (s : State) (k : Nat) (a : Word) (n align : Nat) : Bool :=
  (s.accessFault k (s.ctxOf k) (spaceOf a.toNat) (offOf a.toNat) n align (spaceOf a.toNat == 1)).isNone

/-- A snapshot instruction is done: its counter counts. -/
def State.snapDone (s : State) (k : Nat) (o : MemOp) (cc : Nat) : State := (s.addCc (s.ctxOf k) cc 1).endOp k o.id

/-- Word `i` of a descriptor at a Rink offset. -/
def State.descWord (s : State) (a i : Nat) : Nat := s.rinkWord (a + 8 * i)

/-- Pieces of at most 8,160 bytes, the most a capsule carries. -/
def capsulePieces : Nat → List Byte → List (List Byte)
  | 0, l => [l]
  | n + 1, l => if l.length ≤ 8160 then [l] else l.take 8160 :: capsulePieces n (l.drop 8160)

/-- Send bytes as drain capsules, the last of which completes the SRD. -/
def State.sendDrain (s : State) (x : Nat) (d : Nat × Nat × Nat × Nat) : List (List Byte) → State
  | [] => s
  | [l] => s.sendCapsule x (innerHeader 0x21 0 l.length 0 0 0 ++ l) (some d)
  | l :: r => (s.sendCapsule x (innerHeader 0x21 0 l.length 0 0 0 ++ l) none).sendDrain x d r

/-- A snapshot instruction reads ranges (space, offset, bytes), checks them and goes on with `f`; an uncorrectable block or word faults its
stream after issue (R80, R177, R209). -/
def State.snapRead (s : State) (k : Nat) (o : MemOp) (l : List (Nat × Nat × Nat)) (f : State → State) : State :=
  let bad := s.badAll l
  let s := s.readRanges 44 l false
  match bad with
  | some code => s.streamFault k code 0 o.pc
  | none => f s

/-- SRD at its turn. -/
def State.runSrd (s : State) (k : Nat) (o : MemOp) (cc : Nat) : State :=
  let c := s.ctxOf k
  let w := s.descWord o.addr
  let id := bitsOf (w 0) 63 56
  let dig := bitsOf (w 0) 55 52
  let first := bitsOf (w 0) 51 51 = 1
  let target := bitsOf (w 0) 50 49
  let sess := bitsOf (w 0) 48 41
  let off := w 1
  let len := w 2
  let fail (s : State) : State := s.streamFault k F_SNP_DESC 0 o.pc
  match s.regionOfId c id with
  | none => fail s
  | some n =>
    let open? := (s.snap c).feeding.find? (fun e => e.1 == dig)
    let next := if first then some 0 else match open? with
      | some (_, r, f) => if r = id then some f else none
      | none => none
    if s.rd (drainFld c) ≠ DrainSt.sealed ∨ bitsOf (w 0) 40 0 ≠ 0 ∨ 2 ≤ target ∨ off % 16 ≠ 0 ∨ len % 16 ≠ 0 ∨ len < 16 ∨
        524288 < len ∨ s.regionSize c n < off + len ∨ next ≠ some off ∨
        ¬ s.snapAddr k (BitVec.ofNat 64 (w 3)) len 16 ∨
        (target = 1 ∧ ¬ (sess < 16 ∧ s.sessState sess = SessSt.opened ∧ (s.rd (WCP_SESS.RIGHTS sess)).testBit 2)) then fail s
    else
      let a := s.imageBase c true + s.regionImage c n + off
      let l := s.memBytes a len
      s.snapRead k o [(2, a, len)] (fun s =>
      let s := (s.present 44 (offOf (w 3)) len).rinkWrite c (offOf (w 3)) l
      let s := s.updSnap c (fun x => { x with feeding := (dig, id, off + len) :: x.feeding.filter (fun e => e.1 != dig) })
      if target = 1 then
        let s := s.updStream k (fun x => { x with ops := x.ops.map (fun p => if p.id = o.id then { p with kind := .snap 3 cc } else p) })
        s.sendDrain sess (k, o.id, id, off) (capsulePieces 64 l)
      else s.snapDone k o cc)

/-- SDIG at its turn: the shard header is written. -/
def State.runSdig (s : State) (k : Nat) (o : MemOp) (cc : Nat) : State :=
  let c := s.ctxOf k
  let w := s.descWord o.addr
  let a := w 1
  let fail (s : State) : State := s.streamFault k F_SNP_DESC 0 o.pc
  match (s.snap c).feeding.find? (fun e => e.1 == w 0 % 16) with
  | none => fail s
  | some (dig, id, fed) => match s.regionOfId c id with
    | none => fail s
    | some n =>
      if 16 ≤ w 0 ∨ fed < s.regionSize c n ∨ ¬ s.snapAddr k (BitVec.ofNat 64 a) 64 1 then fail s
      else
        let h := s.shardWords c n
        let body := s.memBytes (s.imageBase c true + s.regionImage c n) (s.regionSize c n)
        let hdr := h ++ (Config.sha3_256 (h ++ body) ++ List.replicate 32 0).take 32
        let s := (s.present 44 (offOf a) 64).rinkWrite c (offOf a) hdr
        let s := s.updSnap c (fun x => { x with digests := hdr :: x.digests, feeding := x.feeding.filter (fun e => e.1 != dig) })
        s.snapDone k o cc

/-- REGID of a shard header. -/
def shardId (h : List Byte) : Nat := bitsOf (leNat (h.take 8)) 31 24

/-- Insert a shard header in ascending REGID. -/
def insertShard (h : List Byte) : List (List Byte) → List (List Byte)
  | [] => [h]
  | g :: l => if shardId h ≤ shardId g then h :: g :: l else g :: insertShard h l

/-- SMAN at its turn: the manifest is built and signed (R354). -/
def State.runSman (s : State) (k : Nat) (o : MemOp) (cc : Nat) : State :=
  let c := s.ctxOf k
  let w := s.descWord o.addr
  let n := w 0 % 32
  let fail (s : State) : State := s.streamFault k F_SNP_DESC 0 o.pc
  let hs := (List.range n).map (fun i => s.rinkBytes (offOf (w 1) + 64 * i) 64)
  let len := 64 + 64 * n + 64 + 3328
  if s.rd (drainFld c) ≠ DrainSt.sealed ∨ 32 ≤ w 0 ∨ n ≠ (s.validRegions c).length ∨
      ¬ s.snapAddr k (BitVec.ofNat 64 (w 1)) (64 * n) 1 ∨ ¬ s.snapAddr k (BitVec.ofNat 64 (w 2)) len 1 ∨
      hs.any (fun h => ! (s.snap c).digests.contains h) then fail s
  else s.snapRead k o [(1, offOf (w 1), 64 * n)] (fun s => match s.sec.identity with
    | none => (s.report F_SNP_SIGN 2 c).snapDone k o cc
    | some (ed, ml) =>
      if ¬ s.mayAttest then (s.report F_SNP_SIGN 2 c).snapDone k o cc
      else
        let top := leBytes 8 (2 ^ 48 + s.rd (CTX_JOB.JOB c) * 2 ^ 32 + n) ++ leBytes 8 (s.rd (ckstepFld c) * 2 ^ 20) ++
          leBytes 8 ((s.snap c).lchip * 2 ^ 16 + s.chipId) ++ leBytes 8 (s.rd CFG_EPOCH.EPOCH) ++ leBytes 32 0
        let msg := top ++ (hs.foldr insertShard []).flatMap id
        let m := msg ++ (Config.ed25519Sign ed msg ++ List.replicate 64 0).take 64 ++
          (Config.mldsaSign ml msg ++ List.replicate 3328 0).take 3328
        ((((s.present 44 (offOf (w 2)) len).rinkWrite c (offOf (w 2)) m).wr (drainFld c) DrainSt.signed).snapDone k o cc))

/-- A sweep or a drain copy, or what comes before it, comes before the drain's reads. -/
def State.readsYield (s : State) : Bool :=
  s.drainYields || (List.range 2).any (fun c => s.ctxLive c && s.rd (drainFld c) == DrainSt.copying)

/-- SNAPSHOT_INSTR_COMPLETE: the oldest snapshot instruction of the context's stream runs to its end; an SRD to the host
ends when its capsule is acknowledged, or here if the capsule was abandoned (R372). -/
def execSnapshotInstrComplete (c : Fin 2) (s : State) : Res := s.granting <|
  let k := 48 + c.val
  let s := s.settleLost
  .next (match (s.stream k).ops.find? (fun o => match o.kind with
      | .snap m _ => decide (m < 3)
      | _ => false) with
    | none => s
    | some o => match o.kind with
      | .snap m cc =>
        if m = 0 ∧ s.readsYield then s
        else s.snapRead k o [(1, o.addr, if m = 0 then 32 else if m = 1 then 16 else 24)] (fun s =>
          if m = 0 then s.runSrd k o cc else if m = 1 then s.runSdig k o cc else s.runSman k o cc)
      | _ => s)

/-! Restore (R356 to R358). -/

def State.rstState (s : State) : Nat := s.rd SNP_RSTSTAT.STATE
def State.setRst (s : State) (st : Nat) : State := s.wr SNP_RSTSTAT.STATE st

/-- A command in the wrong state is ignored. -/
def State.rstRefuse (s : State) : State := s.report F_RST_STATE 2 0

/-- The restore is rejected: the staging area is discarded, and the first code is kept (R360). -/
def State.rstReject (s : State) (code : Nat) : State :=
  let s := if s.rd SNP_RSTSTAT.LAST_CODE = 0 then s.wr SNP_RSTSTAT.LAST_CODE code else s
  ((s.report code 2 s.restore.ctx).setRst RstSt.rejected).clearRestore

/-- A command of SNP_RSTCTL: its STEP and CTX are stored (R360). -/
def State.putRstCtl (s : State) (v : Word) : State :=
  (s.wr SNP_RSTCTL.STEP (fieldOf v SNP_RSTCTL.STEP)).wr SNP_RSTCTL.CTX (fieldOf v SNP_RSTCTL.CTX)

/-- A context may be restored. -/
def State.rstCtxOk (s : State) (c : Nat) : Bool := s.ctxState c == CtxSt.prepared || s.ctxState c == CtxSt.halted

/-- RESTORE_START: the context and the step of this restore are taken now. -/
def execRestoreStart (v : Word) (s : State) : Res := s.live <|
  let s := s.putRstCtl v
  let c := fieldOf v SNP_RSTCTL.CTX
  .next (if ¬ s.rstCtxOk c ∨ (RstSt.checking ≤ s.rstState ∧ s.rstState ≤ RstSt.committing) then s.rstRefuse
    else
      let s := ((s.dropDrain c).setRst RstSt.checking).wr SNP_RSTSTAT.LAST_CODE 0
      { s.wr SNP_RSTSTAT.CLOSED 0 with restore := { ctx := c, step := fieldOf v SNP_RSTCTL.STEP } })

/-- Fields of a manifest and of its shard headers. -/
def manWord (m : List Byte) (i : Nat) : Nat := leNat ((m.drop (8 * i)).take 8)
def manShards (m : List Byte) : Nat := manWord m 0 % 32
def manStep (m : List Byte) : Nat := manWord m 1 / 2 ^ 20
def manJob (m : List Byte) : Nat := bitsOf (manWord m 0) 47 32
def manChip (m : List Byte) : Nat := bitsOf (manWord m 2) 13 0
def manLchip (m : List Byte) : Nat := bitsOf (manWord m 2) 29 16
def manHeader (m : List Byte) (i : Nat) : List Byte := (m.drop (64 + 64 * i)).take 64
def hdrLen (h : List Byte) : Nat := leNat ((h.drop 16).take 8)
def hdrStep (h : List Byte) : Nat := leNat ((h.drop 8).take 8) / 2 ^ 20
def hdrJob (h : List Byte) : Nat := bitsOf (leNat (h.take 8)) 47 32
def hdrLchip (h : List Byte) : Nat := bitsOf (leNat (h.take 8)) 13 0

/-- Fields of a restore entry. -/
def entMidx (e : List Nat) : Nat := bitsOf ((e[0]?).getD 0) 63 56
def entSidx (e : List Nat) : Nat := bitsOf ((e[0]?).getD 0) 55 48
def entRegion (e : List Nat) : Nat := bitsOf ((e[0]?).getD 0) 47 40
def entSoff (e : List Nat) : Nat := (e[1]?).getD 0
def entLen (e : List Nat) : Nat := (e[2]?).getD 0
def entDoff (e : List Nat) : Nat := (e[3]?).getD 0

/-- Public keys of the chip that signed a manifest: this device's own, or another chip's. -/
def State.chipKeys (s : State) (chip : Nat) : List Byte × List Byte :=
  if chip = s.chipId then match s.sec.identity with
    | some (ed, ml) => (Config.ed25519Public ed, Config.mldsaPublic ml)
    | none => (Config.chipKey chip 0, Config.chipKey chip 1)
  else (Config.chipKey chip 0, Config.chipKey chip 1)

/-- Both signatures of a manifest verify. -/
def State.manSigned (s : State) (m : List Byte) : Bool :=
  let n := 64 + 64 * manShards m
  let key := s.chipKeys (manChip m)
  bothVerify key.1 key.2 (m.take n) ((m.drop n).take 64) ((m.drop (n + 64)).take mldsaLen)

/-- The list keeps R356 and R357. -/
def State.listOk (s : State) (c : Nat) (mans : List (List Byte)) (es : List (List Nat)) : Bool :=
  es.all (fun e => match mans[entMidx e]? with
    | none => false
    | some m =>
      decide (entSidx e < manShards m) && entSoff e % 16 == 0 && entLen e % 16 == 0 && entDoff e % 16 == 0 &&
      decide (entSoff e + entLen e ≤ hdrLen (manHeader m (entSidx e))) &&
      (match s.regionOfId c (entRegion e) with
        | none => false
        | some n => decide (entDoff e + entLen e ≤ s.regionSize c n))) &&
  (List.range es.length).all (fun i => (List.range i).all (fun j => match es[i]?, es[j]? with
    | some a, some b => entRegion a != entRegion b || decide (entDoff a + entLen a ≤ entDoff b) || decide (entDoff b + entLen b ≤ entDoff a)
    | _, _ => true))

/-- What a read of the Rink by a fixed-function block gives: with an uncorrectable word, nothing, and the host is told (R177). -/
def State.blockRead (s : State) (p a n : Nat) : List Byte × State :=
  let t := s.checkRead p 1 a n true
  (if s.rinkBad a n then [] else s.rinkBytes a n, t)

/-- The manifests at Rink offsets. -/
def State.readManifests (s : State) : List Nat → List (List Byte) × State
  | [] => ([], s)
  | a :: l =>
    let r := s.blockRead 44 a (64 + 64 * (s.rinkWord a % 32) + 64 + 3328)
    let q := r.2.readManifests l
    (r.1 :: q.1, q.2)

/-- Word `i` of bytes read. -/
def wordOf (l : List Byte) (i : Nat) : Nat := leNat ((l.drop (8 * i)).take 8)

/-- RESTORE_CHECK_DONE: FEEDING, or REJECTED with the first code. DESIGN CHOICE: a list that cannot be read is malformed, and a manifest that
cannot be read has no good signature; R177 discards their data and R357 names no code of its own. -/
def execRestoreCheckDone (s : State) : Res := s.granting <|
  .next (if s.rstState ≠ RstSt.checking then s
    else
      let c := s.restore.ctx
      let a := s.rd SNP_RSTLIST.ADDR
      let nm := s.rd SNP_RSTLIST.NMAN_M1 + 1
      let ne := s.rd SNP_RSTLIST.NENT_M1 + 1
      let b := (8 * nm + 31) / 32 * 32
      let (l, s) := s.blockRead 44 a (b + 32 * ne)
      if l = [] then s.rstReject F_RST_LIST
      else
        let (mans, s) := s.readManifests ((List.range nm).map (fun i => wordOf l i))
        let es := (List.range ne).map (fun i => (List.range 4).map (fun j => wordOf l (b / 8 + 4 * i + j)))
        if ¬ s.listOk c mans es then s.rstReject F_RST_LIST
        else if mans.any (fun m => ! s.manSigned m) then s.rstReject F_RST_SIG
        else if mans.any (fun m => manStep m != s.restore.step) then s.rstReject F_RST_STEPMIX
        else if mans.any (fun m => manJob m != s.rd (CTX_JOB.JOB c)) then s.rstReject F_RST_COORD
        else { s.setRst RstSt.feeding with restore := { s.restore with mans := mans, entries := es } })

/-- Bytes already fed of a shard. -/
def Restore.fedOf (r : Restore) (k : Nat × Nat) : List Byte := ((r.fed.find? (fun e => e.1 == k)).map (fun e => e.2)).getD []

/-- The bytes of a piece at shard offset `at` that an entry lists go to the staging area. -/
def State.stagePiece (s : State) (c pos : Nat) (l : List Byte) (e : List Nat) : State :=
  match s.regionOfId c (entRegion e) with
  | none => s
  | some n =>
    let lo := max pos (entSoff e)
    let hi := min (pos + l.length) (entSoff e + entLen e)
    if lo < hi then
      s.setMem (s.imageBase c true + s.regionImage c n + entDoff e + (lo - entSoff e)) ((l.drop (lo - pos)).take (hi - lo))
    else s

/-- A shard of which every byte has been fed is compared with its header. -/
def State.closeShard (s : State) (k : Nat × Nat) (m h : List Byte) : State :=
  let all := s.restore.fedOf k
  if (h.drop 32).take 32 ≠ Config.sha3_256 (h.take 32 ++ all) then s.rstReject F_RST_DIGEST
  else if hdrStep h ≠ manStep m then s.rstReject F_RST_STEPMIX
  else if hdrJob h ≠ manJob m ∨ hdrLchip h ≠ manLchip m then s.rstReject F_RST_COORD
  else ({ s with restore := { s.restore with closed := k :: s.restore.closed } }).addMod SNP_RSTSTAT.CLOSED 1

/-- RESTORE_FEED. DESIGN CHOICE: a piece that cannot be read is discarded and the shard stays where it was, so it may be fed again. -/
def execRestoreFeed (v : Word) (s : State) : Res := s.granting <|
  .next (if s.rstState ≠ RstSt.feeding then s.rstRefuse
    else
      let c := s.restore.ctx
      let k := (fieldOf v SNP_RSTFEED1.MIDX, fieldOf v SNP_RSTFEED1.SIDX)
      let len := s.rd SNP_RSTFEED0.LEN
      match s.restore.mans[k.1]? with
      | none => s.rstReject F_RST_LIST
      | some m =>
        let h := manHeader m k.2
        let pos := (s.restore.fedOf k).length
        if manShards m ≤ k.2 ∨ s.restore.closed.contains k ∨ len = 0 ∨ 32768 < len ∨ s.rd SNP_RSTFEED0.ADDR % 16 ≠ 0 ∨
            hdrLen h < pos + 16 * len then s.rstReject F_RST_LIST
        else
          let (l, s) := s.blockRead 44 (s.rd SNP_RSTFEED0.ADDR) (16 * len)
          if l = [] then s else
          let s := { s with restore := { s.restore with fed := (k, s.restore.fedOf k ++ l) :: s.restore.fed.filter (fun e => e.1 != k) } }
          let s := (s.restore.entries.filter (fun e => (entMidx e, entSidx e) == k)).foldl (fun s e => s.stagePiece c pos l e) s
          if pos + 16 * len = hdrLen h then s.closeShard k m h else s)

/-- RESTORE_COMMIT. -/
def execRestoreCommit (v : Word) (s : State) : Res := s.live <|
  let s := s.putRstCtl v
  let c := s.restore.ctx
  .next (if s.rstState ≠ RstSt.feeding ∨ fieldOf v SNP_RSTCTL.CTX ≠ c ∨ ¬ s.rstCtxOk c then s.rstRefuse
    else if s.restore.entries.any (fun e => ! s.restore.closed.contains (entMidx e, entSidx e)) then s.rstReject F_RST_MISSING
    else s.setRst RstSt.committing)

/-- The live pages of a context. -/
def State.livePages (s : State) (c : Nat) : List Nat :=
  (s.validRegions c).flatMap (fun n => pagesOf (s.regionBase c n) (s.regionSize c n))

/-- RESTORE_COPY_DONE: every region holds its listed bytes and zeros elsewhere, every page is PENDING. Its writes pass R348 as any others:
each page is preserved first, and they wait for a roll-back. DESIGN CHOICE: of an entry whose staged bytes cannot be read none are copied;
R209 discards the data and R358 does not say more. -/
def execRestoreCopyDone (s : State) : Res := s.granting <|
  let c := s.restore.ctx
  .next (if s.rstState ≠ RstSt.committing ∨ (s.snap c).copyBack then s
    else
      let need := ((s.livePages c).filter (fun g => s.needsCopy g)).map (fun g => (2, g * 4096, 4096))
      let lost := (s.badAll need).isSome
      let s := s.readRanges 44 need false
      if lost then s.contextFault c F_SNP_UE
      else
        let s := need.foldl (fun s x => s.preservePage (x.2.1 / 4096)) s
        let staged (e : List Nat) : Option (Nat × Nat) := (s.regionOfId c (entRegion e)).map (fun n =>
          (s.imageBase c true + s.regionImage c n + entDoff e, s.regionBase c n + entDoff e))
        let es := s.restore.entries.filterMap (fun e => (staged e).map (fun x => (x.1, x.2, entLen e)))
        let good := es.filter (fun e => ! s.memBad e.1 e.2.2)
        let s := s.readRanges 44 (es.map (fun e => (2, e.1, e.2.2))) true
        let s := (s.validRegions c).foldl (fun t n =>
          { t with lpddr := tclear (s.regionBase c n) (s.regionBase c n + s.regionSize c n) t.lpddr
                   flips := tclear (s.regionBase c n / 64) ((s.regionBase c n + s.regionSize c n) / 64) t.flips }) s
        let s := good.foldl (fun t e => (t.demand true e.2.1 e.2.2).copyMem e.1 e.2.1 e.2.2) s
        (((s.allPending c).wr (drainFld c) DrainSt.idle).setRst RstSt.done).clearRestore)

/-- RESTORE_ABANDON: in COMMITTING the live regions are left undefined. -/
def execRestoreAbandon (v : Word) (s : State) : Res := s.live <|
  let s := s.putRstCtl v
  let c := s.restore.ctx
  .next (if s.rstState = RstSt.idle ∨ s.rstState = RstSt.done ∨ fieldOf v SNP_RSTCTL.CTX ≠ c then s.rstRefuse
    else
      let s := if s.rstState = RstSt.committing then
          (s.validRegions c).foldl (fun t n =>
            let r := t.freeBytes (s.regionSize c n)
            r.2.setMem (s.regionBase c n) r.1) s
        else s
      (s.setRst RstSt.idle).clearRestore)

end Sys2Proof.Machine
end

