-- ==== Sys2Proof/Machine/Contexts.lean ====
section
/-!
DEFINITION. Contexts: creation, commands, pre-emption, the start of a job and the registers that may be written in each
state (R318 to R343).
-/

namespace Sys2Proof.Machine

/-! Creation (R328, R345). -/

/-- Two byte ranges share a byte. -/
def meets (x y : Nat × Nat) : Bool := decide (max x.1 y.1 < min x.2 y.2)

/-- A range shares no byte with any of a list. -/
def clearOf (x : Nat × Nat) (l : List (Nat × Nat)) : Bool := l.all (fun y => ! meets x y)

/-- The general context's save area (R334). -/
def State.saveArea (s : State) : Nat × Nat := (s.rd CTX_SAVE.BASE * 2 ^ 30, (s.rd CTX_SAVE.BASE + 1) * 2 ^ 30)

/-- The snapshot area (R345). -/
def State.snapArea (s : State) : Nat × Nat :=
  (s.rd SNP_AREA.BASE * 2 ^ 30, (s.rd SNP_AREA.BASE + s.rd SNP_AREA.SIZE) * 2 ^ 30)

/-- Windows of a context that constrains others: one that is not NONE. -/
def State.liveRink (s : State) (c : Nat) : List (Nat × Nat) := if s.ctxState c = CtxSt.none then [] else s.rinkWindows c
def State.liveMem (s : State) (c : Nat) : List (Nat × Nat) := if s.ctxState c = CtxSt.none then [] else s.memWindows c

/-- The Rink's pools as ranges. -/
def State.poolRanges (s : State) : List (Nat × Nat) := (List.range 6).map (fun p => s.poolRange p)

/-- The firmware region (R179). -/
def State.fwRange (s : State) : Nat × Nat := (0, s.rd RINK_CFG.FWRES * 2 ^ 20)

/-- The piste map condition of context `c` for a table at `pmap` and a logical chip (R328). -/
def State.pisteOk (s : State) (c pmap lchip : Nat) : Bool :=
  let x := (pmap, pmap + 32768)
  let e := leNat (s.rinkBytes (pmap + 2 * lchip) 2)
  pmap % 64 == 0 && decide (x.2 ≤ rinkSize) && clearOf x (s.fwRange :: s.poolRanges) &&
    clearOf x (s.rinkWindows c ++ s.liveRink (1 - c)) && e / 32768 == 1 && e % 16384 == s.chipId

/-- The protected regions of a context as ranges. -/
def State.regionRanges (s : State) (c : Nat) : List (Nat × Nat) :=
  (s.validRegions c).map (fun n => (s.regionBase c n, s.regionBase c n + s.regionSize c n))

/-- No two ranges of a list meet. -/
def apart : List (Nat × Nat) → Bool
  | [] => true
  | x :: l => clearOf x l && apart l

/-- The checks of R345. -/
def State.regionsOk (s : State) (c : Nat) : Bool :=
  (s.regionRanges c).all (fun x => (s.memWindows c).any (fun w => decide (w.1 ≤ x.1) && decide (x.2 ≤ w.2))) &&
    apart (s.regionRanges 0 ++ s.regionRanges 1) &&
    (let ids := (s.validRegions c).map (fun n => s.rd (SNP_REG.REGID c n))
     decide (ids.eraseDups.length = ids.length)) &&
    decide (2 * (s.protectedBytes 0 + s.protectedBytes 1) ≤ s.rd SNP_AREA.SIZE * 2 ^ 30) &&
    decide (s.protectedBytes 0 + s.protectedBytes 1 ≤ 128 * 2 ^ 30)

/-- The checks of CREATE (R328). -/
def State.createOk (s : State) (c : Nat) : Bool :=
  let job := s.rd (CTX_JOB.JOB c)
  let other := s.ctxState (1 - c) != CtxSt.none
  job != 0 && ! (other && s.rd (CTX_JOB.JOB (1 - c)) == job) &&
    s.bit PWR_STATUS.READY && s.bit LKR_CTL.LOCK && s.bit RINK_CFG.LOCK && (c == 0 || s.bit CTX_RSET.EN) &&
    (s.rinkWindows c).all (fun w => decide (w.2 ≤ rinkSize) && clearOf w (s.fwRange :: s.poolRanges ++ s.liveRink (1 - c))) &&
    (s.memWindows c).all (fun w => decide (w.2 ≤ memBytesUsable) && clearOf w (s.snapArea :: s.liveMem (1 - c)) &&
      ((c == 1 && ! other) || ! meets w s.saveArea)) &&
    (c == 1 || (decide (s.saveArea.2 ≤ memBytesUsable) && clearOf s.saveArea (s.snapArea :: s.memWindows 0 ++ s.liveMem 1))) &&
    s.pisteOk c (s.rd (CTX_PISTE.PMAP c)) (s.rd (CTX_PISTE.LCHIP c)) && s.regionsOk c

/-- A new context: counters 0, cancel list empty, no replay, no collective ID, every protected page PENDING, and no code
shown (R73, R89, R171, R304, R346). -/
def State.prepare (s : State) (c : Nat) : State :=
  let s := s.updCtx c (fun x => { x with
    cc := [], cxl := [], xlat := [], startLap := none, step := none, haltLap := none, resumeLap := none, replays := 0,
    lastCol := none, committed := [], begun := [], rollback := false, putsDue := 0 })
  let s := s.wr (if c = 0 then COL_LASTID.GEN else COL_LASTID.RT) 0
  let s := (s.streamsOf c).foldl (fun s k => s.wr (ENG_FAULT.CODE k) 0) s
  ((s.wr (CTX_STATE.CODE c) 0).allPending c).setCtxState c CtxSt.prepared

/-! Commands (R327). -/

/-- A command that its state does not allow is ignored. -/
def State.cmdIgnored (s : State) (c : Nat) : State := s.report F_CTX_CMD c 0

/-- A command reaches a context after the clk's faults (R339); its LAP field is kept. -/
def State.putCmdLap (s : State) (c : Nat) (v : Word) : State := s.settleAdmits.settleFaults.wr (CTX_CMD.LAP c) (fieldOf v (CTX_CMD.LAP c))

/-- CREATE. -/
def execCreate (c : Fin 2) (v : Word) (s : State) : Res := s.live <|
  let s := s.putCmdLap c v
  .next (if s.ctxState c ≠ CtxSt.none then s.cmdIgnored c
    else if s.mayManage ∧ s.createOk c then s.prepare c else s.report F_CTX_CFG c 0)

/-- A stream stops at its next instruction boundary, with its pc at the first instruction that has not retired; a wait in
progress is abandoned (R77). -/
def State.suspend (s : State) (k : Nat) : State :=
  let st := s.engState k
  if st = EngSt.run ∨ st = EngSt.waitCc ∨ st = EngSt.waitLap ∨ st = EngSt.waitBuf then
    ((s.updStream k (fun x => { x with fenceWait := none })).setReg (engBase k + 0x18) 0).setEngState k EngSt.saved
  else s

/-- The accounting entry of a context: the lowest VALID entry of its client, else the last (R341). -/
def State.acctEntry (s : State) (c : Nat) : Nat :=
  ((List.range 63).find? (fun n => s.bit (ACCT_ID.VALID n) && s.rd (ACCT_ID.CLIENT n) == s.rd (CTX_JOB.CLIENT c))).getD 63

/-- PREEMPT: every stream of the general context stops (R334). -/
def execPreempt (c : Fin 2) (v : Word) (s : State) : Res := s.live <|
  let s := s.putCmdLap c v
  .next (if c.val ≠ 0 ∨ s.ctxState 0 ≠ CtxSt.run then s.cmdIgnored c
    else
      let s := ((s.streamsOf 0).foldl (fun s k => s.suspend k) s).dropWaits (fun u => decide (u < 64) && s.ctxOf u == 0)
      let s := s.updCol (fun x => { x with relays := x.relays.map (fun e =>
        if e.1 % 2 = 0 then (e.1, { posted := e.2.run.toList ++ e.2.posted, run := none }) else e) })
      (s.addSat (ACCT_CNT.PREEMPTS (s.acctEntry 0)) 1).setCtxState 0 CtxSt.saving)

/-- Write cells, as offsets from `base`, to LPDDR after clearing `n` bytes there. -/
def State.imageCells (s : State) (base n : Nat) (cells : List Host.Cell) : State :=
  cells.foldl (fun s e => s.setMem (base + e.1) [e.2]) { s with lpddr := tclear base (base + n) s.lpddr }

/-- The cells of a table in [lo, lo + n), as offsets from `lo`. -/
def cellsOf (t : List Host.Cell) (lo n : Nat) : List Host.Cell :=
  t.filterMap (fun e => if lo ≤ e.1 ∧ e.1 < lo + n then some (e.1 - lo, e.2) else none)

/-- The cells of an engine's vector registers: register r at 2,048 r. -/
def vecCells (v : List (Nat × Vec)) : List Host.Cell :=
  v.flatMap (fun e => (leBytes 2048 e.2.toNat).zipIdx.filterMap (fun b => if b.1 = 0 then none else some (2048 * e.1 + b.2, b.1)))

/-- Write the stream part of the save image (R334): the first MiB, whose layout the spec does not give, holds free bytes. -/
def State.writeImage (s : State) : State :=
  let base := s.saveArea.1
  let (l, s1) := s.freeBytes 0x100000
  let s2 := s1.setMem base l
  let ks := s.streamsOf 0
  let s3 := (ks.filter (fun k => decide (k < 40))).foldl (fun s k => s.imageCells (base + 0x100000 + 0x10000 * k) 0x10000 (vecCells (s.stream k).v)) s2
  let s4 := (ks.filter (fun k => decide (k < 32))).foldl (fun s k =>
    s.imageCells (base + 0x400000 + 0x400000 * k) 0x400000 (cellsOf s.store (0x400000 * k) 0x400000)) s3
  let s5 := (s.gatesOf 0).foldl (fun s g =>
    s.imageCells (base + 0x8400000 + 0x1000000 * g) 0x1000000 (cellsOf s.gsram (0x1000000 * g) 0x1000000)) s4
  s5.updCtx 0 (fun x => { x with image := some {
    streams := ks.map (fun k => (k, s.stream k))
    gmm := (ks.filter (fun k => decide (k < 32))).map (fun k => (k, s.gmu k))
    gate := (s.gatesOf 0).map (fun g => (g, (s.gate g).ops))
    relay := (List.range 4).map (fun e => (2 * e, s.relay (2 * e)))
    regs := ks.flatMap (fun k => [0x00, 0x08, 0x10, 0x20, 0x28].map (fun o => (engBase k + o, s.reg (engBase k + o)))) } })

/-- SAVE_COMPLETE: every issued operation is complete and the stream part of the save image is written (R334). -/
def execSaveComplete (upsets : Upsets) (s : State) : Res := s.granting <|
  let s := s.upset upsets
  .next (if s.ctxState 0 ≠ CtxSt.saving ∨ ¬ s.settled then s
    else s.writeImage.setCtxState 0 CtxSt.saved)

/-- RESUME: the stream part is read back at once, for a return to RUN at the edge of LAP, which is at least one whole lap
ahead (R336). -/
def execResume (c : Fin 2) (v : Word) (s : State) : Res := s.live <|
  let s := s.putCmdLap c v
  let lap := s.rd (CTX_CMD.LAP c)
  .next (if s.ctxState c ≠ CtxSt.saved ∨ lap < s.lapNo + 2 ∨ (s.ctx c).needRetain then s.cmdIgnored c
    else (s.updCtx c (fun x => { x with resumeLap := some lap, readBack := false })).wake)

/-- Read the stream part of the save image back into the engines. -/
def State.readImage (s : State) : State :=
  match (s.ctx 0).image with
  | none => s
  | some i =>
    let base := s.saveArea.1
    let s := i.streams.foldl (fun s e =>
      let a := base + 0x100000 + 0x10000 * e.1
      let x := if e.1 < 40 then
          { e.2 with v := (List.range 32).foldl (fun t r => tset zeroVec t r (BitVec.ofNat 16384 (leNat (s.memBytes (a + 2048 * r) 2048)))) [] }
        else e.2
      s.setStream e.1 x) s
    let s := i.gmm.foldl (fun s e =>
      let cells := cellsOf s.lpddr (base + 0x400000 + 0x400000 * e.1) 0x400000
      let s := { s with store := tclear (0x400000 * e.1) (0x400000 * (e.1 + 1)) s.store }
      (cells.foldl (fun s x => s.setStore e.1 x.1 [x.2]) s).setGmu e.1 e.2) s
    let s := i.gate.foldl (fun s e =>
      let cells := cellsOf s.lpddr (base + 0x8400000 + 0x1000000 * e.1) 0x1000000
      let s := { s with gsram := tclear (0x1000000 * e.1) (0x1000000 * (e.1 + 1)) s.gsram }
      (cells.foldl (fun s x => s.setGate e.1 x.1 [x.2]) s).updGate e.1 (fun y => { y with ops := e.2.map (fun o => { o with desc := [] }) })) s
    let s := i.relay.foldl (fun s e => s.setRelay e.1 e.2) s
    i.regs.foldl (fun s e => s.setReg e.1 e.2) s

/-- The ranges of LPDDR that the read-back of the stream part reads: the first MiB, and the slots of the general context's engines. -/
def State.imageRanges (s : State) : List (Nat × Nat) :=
  let base := s.saveArea.1
  (base, 0x100000) :: ((s.streamsOf 0).filter (fun k => decide (k < 40))).map (fun k => (base + 0x100000 + 0x10000 * k, 0x10000)) ++
  ((s.streamsOf 0).filter (fun k => decide (k < 32))).map (fun k => (base + 0x400000 + 0x400000 * k, 0x400000)) ++
  (s.gatesOf 0).map (fun g => (base + 0x8400000 + 0x1000000 * g, 0x1000000))

/-- SAVE_IMAGE_READBACK_DONE: an uncorrectable block of the image tears the context down (R334). -/
def execSaveImageReadbackDone (upsets : Upsets) (s : State) : Res := s.granting <|
  let s := s.upset upsets
  .next (if s.ctxState 0 ≠ CtxSt.saved ∨ (s.ctx 0).resumeLap = none ∨ (s.ctx 0).readBack then s
    else
      let l := s.imageRanges
      let bad := l.any (fun x => s.memBad x.1 x.2)
      let s := l.foldl (fun s x => s.memRead x.1 x.2 false) s
      if bad then s.contextFault 0 F_CTX_SAVE else s.readImage.updCtx 0 (fun x => { x with readBack := true }))

/-- HALT: taken at the edge of LAP, or at the next edge (R327). -/
def execHalt (c : Fin 2) (v : Word) (s : State) : Res := s.live <|
  let s := s.putCmdLap c v
  .next (if s.ctxBusy c then s.updCtx c (fun x => { x with haltLap := some (s.rd (CTX_CMD.LAP c)) }) else s.cmdIgnored c)

/-- DESTROY: everything still held is released without a code (R338). -/
def execDestroy (c : Fin 2) (v : Word) (s : State) : Res := s.live <|
  let s := s.putCmdLap c v
  let st := s.ctxState c
  .next (if st = CtxSt.torn then s.setCtxState c CtxSt.none
    else if st = CtxSt.prepared ∨ st = CtxSt.delivered ∨ st = CtxSt.halted then (s.release c).setCtxState c CtxSt.none
    else s.cmdIgnored c)

/-- TEARDOWN. -/
def execTeardown (c : Fin 2) (v : Word) (s : State) : Res := s.live <|
  let s := s.putCmdLap c v
  .next (if s.ctxState c = CtxSt.none ∨ s.ctxState c = CtxSt.torn then s.cmdIgnored c else s.contextFault c F_CTX_TEARDOWN)

/-! Registers that depend on the state (R323, R328). -/

/-- CTX_RSET_WRITE. -/
def execCtxRsetWrite (v : Word) (s : State) : Res := s.live <|
  .next (if s.bothNone then s.applySetting 0x030000 v else s.report F_CTX_CFG 2 0)

/-- Windows, job, digest and piste may be written. -/
def State.ctxOpen (s : State) (c : Nat) : Bool := s.ctxState c == CtxSt.none || s.ctxState c == CtxSt.halted

/-- The context has been prepared and has not started. -/
def State.ctxStarting (s : State) (c : Nat) : Bool := s.ctxState c == CtxSt.prepared || s.ctxState c == CtxSt.delivered

/-- CTX_JOB_WRITE: a new SEPOCH takes a DELIVERED context back to PREPARED, with its counters 0, no cancel list, replay or collective ID, and
every page PENDING (R325, R347). -/
def execCtxJobWrite (c : Fin 2) (v : Word) (s : State) : Res := s.live <|
  let off := 0x030030 + 8 * c.val
  .next (if s.ctxOpen c then s.setReg off v
    else if s.ctxStarting c ∧ fieldOf v (CTX_JOB.JOB c) = s.rd (CTX_JOB.JOB c) then
      let t := s.setReg off v
      if s.ctxState c = CtxSt.delivered ∧ t.rd (CTX_JOB.SEPOCH c) ≠ s.rd (CTX_JOB.SEPOCH c) then
        ((t.updCtx c (fun x => { x with startLap := none, cc := [], cxl := [], replays := 0, lastCol := none })).wr
          (if c = 0 then COL_LASTID.GEN else COL_LASTID.RT) 0).allPending c |>.setCtxState c CtxSt.prepared
      else t
    else s.report F_CTX_CFG c 0)

/-- CTX_PISTE_WRITE. -/
def execCtxPisteWrite (c : Fin 2) (v : Word) (s : State) : Res := s.live <|
  let off := 0x030050 + 8 * c.val
  .next (if s.ctxOpen c then s.applySetting off v
    else if s.ctxStarting c then
      if s.pisteOk c (fieldOf v (CTX_PISTE.PMAP c)) (fieldOf v (CTX_PISTE.LCHIP c)) then s.applySetting off v else s
    else s.report F_CTX_CFG c 0)

/-- A write of CTX_JDIG, which has no row of its own. -/
def State.writeJdig (s : State) (c : Nat) (v : Word) : State :=
  if s.ctxOpen c ∨ s.ctxStarting c then s.setReg (CTX_JDIG.DIGEST c).off v else s.report F_CTX_CFG c 0

/-- A write of a window register of context `c`. -/
def State.writeWindow (s : State) (c off : Nat) (v : Word) : State :=
  if s.ctxOpen c then s.applySetting off v else s.report F_CTX_CFG c 0

/-! Starting a job (R330 to R332). -/

/-- The context of a job, in any state but NONE (R322). -/
def State.memberOf (s : State) (job : Nat) : Option Nat :=
  [0, 1].find? (fun c => s.ctxState c != CtxSt.none && s.rd (CTX_JOB.JOB c) == job)

/-- Word `i` of a packet's payload. -/
def payWord (p : Packet) (i : Nat) : Nat := leNat ((p.payload.drop (8 * i)).take 8)

/-- An epoch is earlier than another (R330). -/
def earlier (e c : Nat) : Bool := let d := (c + 2 ^ 32 - e % 2 ^ 32) % 2 ^ 32; decide (1 ≤ d) && decide (d < 2 ^ 31)

/-- A copy that no rule accepts is refused (R331). -/
def State.jobRefuse (s : State) (c : Nat) : State := (s.addSat JOB_COUNT.REFUSED 1).report F_JOB_REFUSE c 0

/-- A member's answer to a copy of DELIVER or COMMIT: the state, and whether the copy counts as real. -/
def State.member (s : State) (p : Packet) (accept : State → Nat → Option (State × Bool)) : State × Bool :=
  let s := s.settleFaults
  match s.memberOf (pkJob p) with
  | none => (s.jobRefuse 2, false)
  | some c =>
    match accept s c with
    | some r => r
    | none =>
      if earlier (payWord p 0 % 2 ^ 32) (s.rd (CTX_JOB.SEPOCH c)) then (s.addSat JOB_COUNT.STALE 1, false) else (s.jobRefuse c, false)

/-- DELIVER_RX. -/
def execDeliverRx (n : Fin 13) (p : Packet) (s : State) : Res := s.live <|
  .next (if pkClass p ≠ Cls.ctl ∨ pkOpc p ≠ 0x10 then s
    else s.receive n p true (fun s q =>
      let r := (s.leave q).member p (fun s c =>
        let st := s.ctxState c
        if (st = CtxSt.prepared ∨ st = CtxSt.halted ∨ st = CtxSt.delivered) ∧ payWord p 0 % 2 ^ 32 = s.rd (CTX_JOB.SEPOCH c) ∧
            payWord p 1 = s.rd (CTX_JDIG.DIGEST c) then
          some (s.setCtxState c CtxSt.delivered, true)
        else none)
      r.1.aggLocal p r.2))

/-- COMMIT_RX. -/
def execCommitRx (n : Fin 13) (p : Packet) (s : State) : Res := s.live <|
  .next (if pkClass p ≠ Cls.ctl ∨ pkOpc p ≠ 0x11 then s
    else s.receive n p true (fun s q =>
      let r := (s.leave q).member p (fun s c =>
        if s.ctxState c = CtxSt.delivered ∧ payWord p 0 % 2 ^ 32 = s.rd (CTX_JOB.SEPOCH c) then
          let l := payWord p 1 / 2 ^ 20
          if s.lapNo < l then some ((s.updCtx c (fun x => { x with startLap := some l })).wake, true)
          else some (s.report F_JOB_LATECOMMIT c 0, false)
        else none)
      r.1.aggLocal p r.2))

/-- Leader phases (JOB_LSTAT.PHASE). -/
def LeadPh.idle : Nat := 0
def LeadPh.deliver : Nat := 1
def LeadPh.commit : Nat := 2
def LeadPh.done : Nat := 3
def LeadPh.failed : Nat := 4
def LeadPh.short : Nat := 5

/-- Send the packet of a phase and wait for its aggregated count. -/
def State.leadPhase (s : State) (ph : Nat) : State :=
  let x := s.lead
  let c := x.ctx
  let job := s.rd (CTX_JOB.JOB c)
  let w0 := job * 2 ^ 48 + s.rd (CTX_JOB.SEPOCH c)
  let pay := if ph = LeadPh.deliver then leBytes 8 w0 ++ leBytes 8 (s.rd (CTX_JDIG.DIGEST c)) ++ leBytes 8 x.members ++ leBytes 8 0
    else leBytes 8 w0 ++ leBytes 8 (x.startLap * 2 ^ 20)
  let p := mkPacket { cls := Cls.ctl, mode := 1, src := s.chipId, job := job, mgroup := x.mgroup, opc := 0x0F + ph,
                      ackcc := x.ackcc, pcc := x.pcc, ackreq := true } pay
  let s := { s with lead := { x with active := true, ackBase := s.cc c x.ackcc, pBase := s.cc c x.pcc, since := s.ct } }
  (s.wr JOB_LSTAT.PHASE ph).originateTree c p

/-- The procedure ends in a phase, with a code or none. -/
def State.leadEnd (s : State) (ph : Nat) (code : Option Nat) : State :=
  let s := { s.wr JOB_LSTAT.PHASE ph with lead := { s.lead with active := false } }
  match code with
  | some x => s.report x s.lead.ctx 0
  | none => s

/-- JOB_LEAD_START. -/
def execJobLeadStart (v : Word) (s : State) : Res := s.live <|
  let s := s.applySetting 0x030200 v
  let c := s.rd JOB_LEAD.CTX
  let g := s.rd JOB_LEAD.MGROUP
  let ok := s.ctxState c = CtxSt.prepared ∧ s.mgValid g (s.rd (CTX_JOB.JOB c)) ∧ s.mgRoot g ∧ s.mgLocal g ∧
    s.mgMembers g = s.rd JOB_LEAD.MEMBERS ∧ s.lapNo + 2 ≤ s.rd JOB_LEADT.START_LAP ∧
    s.rd JOB_LSTAT.PHASE ≠ LeadPh.deliver ∧ s.rd JOB_LSTAT.PHASE ≠ LeadPh.commit
  .next (if ok then
      ({ s with lead := { ctx := c, mgroup := g, ackcc := s.rd JOB_LEAD.ACKCC, pcc := s.rd JOB_LEAD.PCC, startLap := s.rd JOB_LEADT.START_LAP,
                          timeout := s.rd JOB_LEADT.TIMEOUT, members := s.rd JOB_LEAD.MEMBERS } } : State).leadPhase LeadPh.deliver
    else s.report F_JOB_LEAD c 0)

/-- LEAD_PHASE_COMPLETE: the whole tree's count is in. -/
def execLeadPhaseComplete (s : State) : Res := s.live <|
  let x := s.lead
  let since (i base : Nat) : Nat := (s.cc x.ctx i + 2 ^ 32 - base) % 2 ^ 32
  .next (if ¬ x.active ∨ since x.ackcc x.ackBase ≠ x.members then s
    else
      let pruned := since x.pcc x.pBase
      let ph := s.rd JOB_LSTAT.PHASE
      let s := (s.wr JOB_LSTAT.PRUNED pruned).wr JOB_LSTAT.REAL (x.members - pruned)
      if ph = LeadPh.deliver then
        if pruned = 0 then s.leadPhase LeadPh.commit else s.leadEnd LeadPh.failed (some F_JOB_STARTFAIL)
      else if pruned = 0 then s.leadEnd LeadPh.done none
      else s.leadEnd LeadPh.short (some F_JOB_SHORT))

/-- LEAD_PHASE_TIMEOUT. -/
def execLeadPhaseTimeout (s : State) : Res := s.live <|
  let x := s.lead
  .next (if ¬ x.active ∨ s.ct < x.since + x.timeout ∨ (s.cc x.ctx x.ackcc + 2 ^ 32 - x.ackBase) % 2 ^ 32 = x.members then s
    else s.leadEnd (if s.rd JOB_LSTAT.PHASE = LeadPh.deliver then LeadPh.failed else LeadPh.short) (some F_JOB_STARTTMO))

end Sys2Proof.Machine
end

