-- ==== Sys2Proof/Machine/Power.lean ====
section
/-!
DEFINITION. Supplies, power, domains, power states, clocks, resets and start-up (R428 to R454, R477), with the boot verdict
(R383 to R385).
-/

namespace Sys2Proof.Machine

/-! Supplies (R428, R431). -/

/-- Band of supply `n` in µV: nominal less and plus its tolerance; VDD_CORE's is ±2 % of the AVS set point, or of 0.75 V before
start-up sets one (R428, R433). -/
def State.band (s : State) (n : Nat) : Nat × Nat :=
  let core := if s.rd PWR_AVS.VSET = 0 then 750 else s.rd PWR_AVS.VSET
  let nominal := ([750, 1800, 900, 900, 1200, core, 800, 900, 500][n]?).getD 0
  let pct := ([3, 5, 2, 2, 3, 2, 3, 3, 3][n]?).getD 0
  (nominal * 10 * (100 - pct), nominal * 10 * (100 + pct))

/-- A state uses the supply: in P2 only VDD_AON, VDD_IO18, VDD_MEMPHY and VDDQ_MEM (R441). -/
def State.supplyUsed (s : State) (n : Nat) : Bool := s.pwrState != PwrSt.p2 || n == 0 || n == 1 || n == 7 || n == 8

/-- A reading of a supply. -/
def State.supplyReading (s : State) (n mv : Nat) : State :=
  let lo := s.rd (PWR_SUP.MIN n)
  ((s.wr (PWR_SUP.NOW n) mv).wr (PWR_SUP.MIN n) (if lo = 0 then mv else min lo mv)).wr (PWR_SUP.MAX n) (max (s.rd (PWR_SUP.MAX n)) mv)

/-- SUPPLY_EXCURSION: a supply in use that has been outside its band for more than 1 µs; one report per excursion. -/
def execSupplyExcursion (n : Fin 9) (now : BitVec 16) (s : State) : Res :=
  let mv := now.toNat
  let b := s.band n
  let t := s.supplyReading n mv
  .next (if ¬ s.supplyUsed n then s
    else if b.1 ≤ 1000 * mv ∧ 1000 * mv ≤ b.2 then t.updPower (fun p => { p with outside := p.outside.filter (fun i => i != n.val) })
    else
      let t := (t.setBit (PWR_SUP.ALARM n) true).setLimit
      if t.power.outside.contains n.val then t
      else (t.updPower (fun p => { p with outside := n.val :: p.outside })).pwrReport F_PWR_SUPPLY n)

/-- A supply is in its band. -/
def State.supplyIn (s : State) (n : Nat) : Bool := s.power.inBand.any (fun e => e.1 == n)

/-- SUPPLY_IN_BAND: the order of R428 is watched; a violation is recorded when PORST_N is released. -/
def execSupplyInBand (n : Fin 9) (s : State) : Res :=
  let early := n.val ≠ 0 ∧ ¬ s.supplyIn (n - 1)
  .next (s.updPower (fun p => { p with
    inBand := (n.val, s.clk) :: p.inBand.filter (fun e => e.1 != n.val)
    outside := p.outside.filter (fun i => i != n.val)
    seqBad := p.seqBad || early }))

/-! Power and temperature (R436, R437). -/

/-- POWER_AVERAGE_10MS. -/
def execPowerAverage10ms (w : BitVec 16) (s : State) : Res :=
  let t := s.wr PWR_METER.PEAK10MS (max (s.rd PWR_METER.PEAK10MS) w.toNat)
  .next (if 1500 < w.toNat then t.setLimit.pwrReport F_PWR_POWER 0 else t)

/-- POWER_AVERAGE_1S. -/
def execPowerAverage1s (w : BitVec 16) (s : State) : Res :=
  let t := s.wr PWR_METER.AVG1S w.toNat
  .next (if 1350 < w.toNat then t.pwrReport F_PWR_POWER 0 else t)

/-- A reading in 1/8 °C. -/
def celsius8 (t : BitVec 16) : Int := t.toInt

/-- The highest of the sensors' readings, and the first sensor that shows it. -/
def hottest : List (BitVec 16) → Nat → Option (Nat × BitVec 16)
  | [], _ => none
  | t :: l, i => match hottest l (i + 1) with
    | none => some (i, t)
    | some (j, u) => if celsius8 t < celsius8 u then some (j, u) else some (i, t)

/-- A junction at 115 °C: the device stops, and THERMTRIP_N is driven low until PORST_N (R437). -/
def State.thermalTrip (s : State) : State :=
  if s.power.tripped then s
  else ((s.updPower (fun p => { p with tripped := true })).deviceFault F_PWR_TRIP).interrupt.emit (.pin "THERMTRIP_N" false)

/-- THERMAL_SAMPLE: F_PWR_THERM once per excursion above 100 °C of any sensor. -/
def execThermalSample (temps : List (BitVec 16)) (s : State) : Res :=
  .next (match hottest temps 0 with
    | none => s
    | some (i, t) =>
      let m := BitVec.ofNat 16 (s.rd PWR_THERM.TJ_MAX)
      let s := ((s.wr PWR_THERM.HOT i).wr PWR_THERM.TJ_NOW t.toNat).wr PWR_THERM.TJ_MAX
        (if m = 0 ∨ celsius8 m < celsius8 t then t else m).toNat
      let s := if celsius8 t < 800 then s.updPower (fun p => { p with hot := [] })
        else
          let s := (s.setBit PWR_THERM.ALARM true).setLimit
          if s.power.hot = [] then (s.updPower (fun p => { p with hot := [i] })).pwrReport F_PWR_THERM i else s
      if celsius8 t < 920 then s else s.thermalTrip)

/-! Domains (R438 to R440). -/

/-- PWR_DOM_WRITE: the write waits for the lap edge. -/
def execPwrDomWrite (i : Fin 2) (v : Word) (s : State) : Res :=
  .next (s.updPower (fun p => { p with domains := p.domains ++ [(i.val, v)] }))

/-- PWR_DOM0 or PWR_DOM1 with a written value in its writable bits. -/
def State.domValue (s : State) (i : Nat) (v : Word) : Word :=
  if i = 0 then (v &&& 0xF00000FFFFFFFFFF#64) ||| (s.reg PWR_DOM0.DOM.off &&& 0x0FFFFF0000000000#64)
  else v &&& 0x3FF#64

/-- A domain write would switch off an engine of a context in RUN or SAVING, or both host ports (R439). -/
def State.domRefused (s : State) (i : Nat) (w : Word) : Bool :=
  if i = 0 then (List.range 40).any (fun k => ! w.getLsbD k &&
    s.domainGoal k && (s.ctxState (s.ctxOf k) == CtxSt.run || s.ctxState (s.ctxOf k) == CtxSt.saving))
  else ! w.getLsbD 8 && ! w.getLsbD 9

/-- One domain write at the lap edge. -/
def State.applyDomain (s : State) (i : Nat) (v : Word) : State :=
  let w := s.domValue i v
  if s.domRefused i w then s.pwrReport F_PWR_DOM i
  else
    let s := s.setReg (if i = 0 then PWR_DOM0.DOM.off else PWR_DOM1.DOM.off) w
    let engines := if s.pwrState = PwrSt.p1 then [] else List.range 40
    s.bringDomains (engines ++ (List.range 14).map (fun n => 60 + n)) s.selected

/-- Registers of a range go back to their reset values. -/
def State.clearRegs (s : State) (lo n : Nat) : State := { s with regs := tclear lo (lo + n) s.regs }

/-- Free contents for a cluster's or Gate Engine's vector registers. -/
def State.loseStream (s : State) (k : Nat) : State :=
  let s := if s.ctxState (s.ctxOf k) = CtxSt.saved then s else s.clearRegs (engBase k) (if k < 32 then 0x4000 else 0x8000)
  let n := s.freeCtr
  let v := (List.range 32).foldl (fun t r => tset zeroVec t r (BitVec.ofNat 16384 (Config.freeNat (n + r)))) []
  { s.setStream k { v := v } with freeCtr := n + 32 }

/-- A domain that is switched off loses all its state (R439). What R335 keeps of a saved context's Gate Engines stays. -/
def State.loseDomain (s : State) (d : Nat) : State :=
  if d < 32 then
    let (l, s) := (s.loseStream d).freeBytes 0x400000
    (s.setStore d 0 l).setGmu d []
  else if d < 40 then
    let (l, s) := (s.loseStream d).freeBytes 0x1000000
    (s.setGate (d - 32) 0 l).updGate (d - 32) (fun g => { g with ops := [], line := [], granted := [], waiting := false, waitClk := 0 })
  else if 60 ≤ d ∧ d < 72 then
    let n := d - 60
    let t := s.portDown n
    let x := t.port n
    t.setPort n { ({} : Port) with vcq := x.vcq, agg := x.agg, buffered := x.buffered } |>.clearRegs (0x180000 + 0x2000 * n) 0x2000
  else if 72 ≤ d ∧ d < 74 then s.clearRegs (0x210000 + 0x100 * (d - 72)) 0x100
  else s

/-- PWR_DSTAT shows a domain on or off. -/
def State.setDomain (s : State) (d : Nat) (on : Bool) : State :=
  if d < 64 then s.setBit ⟨PWR_DSTAT0.DOM.off, d, d, .ro⟩ on else s.setBit ⟨PWR_DSTAT1.DOM.off, d - 64, d - 64, .ro⟩ on

/-- Clk of the 40 µs after which a domain switched on is usable. -/
def domainSettle : Nat := 37600

/-- DOMAIN_SWITCH: the next domain's turn. -/
def execDomainSwitch (s : State) : Res :=
  .next (match s.power.switches with
    | [] => s
    | (d, on) :: l =>
      let s := s.updPower (fun p => { p with switches := l, usable := p.usable.filter (fun e => e.1 != d) })
      if on then (s.setDomain d true).updPower (fun p => { p with usable := (d, s.clk + domainSettle) :: p.usable })
      else (s.loseDomain d).setDomain d false)

/-! Resets (R450). -/

/-- What the fuses and the Setting Store keep through every reset. -/
def Sec.kept (x : Sec) : Sec :=
  { rootHashes := x.rootHashes, fuseLc := x.fuseLc, fuseSerial := x.fuseSerial, fuseSeed := x.fuseSeed,
    seedKilled := x.seedKilled, fuseSvn := x.fuseSvn, mram := x.mram, creds := x.creds, certificate := x.certificate,
    preferred := x.preferred }

/-- The state under cold reset: fuses, the Setting Store and the outside world stay, and LPDDR until it is zeroed. -/
def State.coldState (s : State) (cause : Nat) : State :=
  { pending := s.pending, out := s.out, clk := s.clk, freeCtr := s.freeCtr, lpddr := s.lpddr, faultLog := s.faultLog,
    sec := s.sec.kept, stopped := true,
    power := { inBand := s.power.inBand, seqBad := s.power.seqBad, cause := cause } }

/-- Keep only the RWS fields of the register table (R4). -/
def rwsOnly (regs : List (Nat × Word)) : List (Nat × Word) :=
  regs.foldl (fun t e => match findRow e.1 with
    | none => t
    | some r => tset resetWord t e.1 (r.fields.foldl (fun w f =>
        if f.acc = .rws then BitVec.ofNat 64 (withBits w.toNat f.hi f.lo (bitsOf e.2.toNat f.hi f.lo)) else w) (resetWord e.1))) []

/-- The RO fields that a warm reset leaves: the readings of the always-on domain's supply and thermal monitors, and what the
clock inputs show. Their RC and W1C fields reset (R4, R428). -/
def alwaysOn : List Fld :=
  [PWR_THERM.HOT, PWR_THERM.TJ_NOW, CLK_STATUS.SREF_S, CLK_STATUS.SREF_N, CLK_STATUS.REF1, CLK_STATUS.REF0, CLK_STATUS.ACTIVE] ++
    (List.range 9).map PWR_SUP.NOW

/-- The state under warm reset: as under cold reset, but RWS fields and the readings of `alwaysOn` keep their values. The
BMC, whose target is in the always-on domain, hears of the change of state (R435). -/
def State.warmState (s : State) (cause : Nat) : State :=
  let t := s.coldState cause
  let t := { t with
    regs := rwsOnly s.regs, sec := { t.sec with closed := s.sec.closed }
    power := { s.power with commands := [], domains := [], switches := [], usable := [], cause := cause, held := true, starting := false } }
  let t := alwaysOn.foldl (fun t f => t.wr f (s.rd f)) t
  if s.pwrState = PwrSt.start then t else t.interrupt

/-- RESET_N of every package is low while PORST_N is (R430, R464). -/
def State.packagesReset (s : State) : State := (List.range 12).foldl (fun s m => s.emit (.mem m 0 0 "RESET_N low")) s

/-- COLD_RESET: PORST_N low; THERMTRIP_N is released. -/
def execColdReset (s : State) : Res :=
  .next ((s.coldState 1).packagesReset.emit (.pin "THERMTRIP_N" true))

/-- WARM_RESET: WRST_N low. It does nothing while PORST_N holds a cold reset, or in the end state of a FAILED verdict, which only
a cold reset leaves (R224, R241, R453). -/
def execWarmReset (s : State) : Res :=
  .next (if (s.stopped ∧ s.power.held ∧ s.power.cause ≤ 1) ∨ s.pwrState = PwrSt.hold then s else s.warmState 2)

/-! Retention (R337, R444, R445). -/

/-- R337's conditions on the general context hold. -/
def State.mayRetain (s : State) : Bool :=
  s.ctxState 1 == CtxSt.none &&
  (s.ctxState 0 == CtxSt.none || (s.ctxState 0 == CtxSt.saved &&
    ! (List.range 512).any (fun i => (s.rsEntry i).st != 0 && (s.rsEntry i).ctx == 0) &&
    (s.gatesOf 0).all (fun g => s.recordsIn g 1 == [] && (s.gate g).later == [] && (s.gate g).inbox == [] &&
      (s.gate g).groups.all (fun e => e.2.held == []))))

/-- The pool registers. -/
def State.poolRegs (s : State) : List Word := (List.range 6).map (fun p => s.reg (LKR_POOL.BASE p).off)

/-- Buffers of the general context. -/
def State.ownedBufs (s : State) : List (Nat × Buf) := s.locker.bufs.filter (fun e => e.2.alloc && e.2.owner == 0)

/-- Write the retention part (R337). Its place in the save area has no layout, so those bytes are free. -/
def State.writeRetention (s : State) : State :=
  if s.ctxState 0 ≠ CtxSt.saved then s
  else
    let ranges := s.rinkWindows 0 ++ s.ownedBufs.map (fun e => (s.bufBase e.1, s.bufBase e.1 + poolSize (keyPool e.1)))
    let r : Retention := {
      cells := s.rink.filter (fun x => ranges.any (fun w => decide (w.1 ≤ x.1) && decide (x.1 < w.2)))
      bufs := s.ownedBufs, pools := s.poolRegs
      counts := (cntRange 0).map (fun n => (0x024100 + 8 * n, s.reg (0x024100 + 8 * n))) }
    let (l, s) := s.freeBytes (400 * 2 ^ 20)
    (s.setMem (s.saveArea.1 + 0x10400000) l).updCtx 0 (fun x => { x with retained := some r })

/-- The controllers complete their queued requests (R225): each page that one of them writes is copied first. -/
def State.finishRequests (s : State) : State :=
  s.requests.foldl (fun s r =>
    let s := if s.reqHeld r.pkt then (pagesOf (reqAddr r.pkt) 8).foldl (fun s p => s.preservePage p) s else s
    s.serve r) s

/-- A controller in RUN enters self-refresh: each channel gets an all-bank refresh and a self-refresh entry (R225). -/
def State.enterSelfRefresh (s : State) (m : Nat) : State :=
  if s.memState m = MemSt.run then
    (List.range 16).foldl (fun s k => (s.emit (.mem m k 0 "REFab")).emit (.mem m k 0 "SRE")) ((s.setMemCtl m {}).setMemState m MemSt.selfref)
  else s

/-- P2_ENTRY_DONE: steps 2 to 7 of R444 are over. A thermal trip overrides the entry. -/
def execP2EntryDone (s : State) : Res :=
  .next (if s.pwrState ≠ PwrSt.p2prep ∨ s.power.tripped then s
    else
      let s := s.writeRetention
      let s := (List.range 12).foldl (fun s n => s.portDown n) s
      let s := [0, 1].foldl (fun s n => (s.setBit (HP_CTL.EN n) false).setHostState n HpSt.down) s
      let s := (List.range 12).foldl (fun s m => s.enterSelfRefresh m) s.finishRequests
      let s := ((s.setReg PWR_DSTAT0.DOM.off 0).setReg PWR_DSTAT1.DOM.off 0).setBit PWR_STATUS.READY false
      let s := (s.wr LAP_STATUS.STATE LapSt.stopped).setPwrState PwrSt.p2
      { s.updPower (fun p => { p with inBand := p.inBand.filter (fun e => e.1 ≤ 1 || 7 ≤ e.1), switches := [], usable := [] }) with
        stopped := true })

/-- The state of a retention exit before its start-up: as under warm reset, but D3SEEN, FRZSEEN and LIMIT stay, LPDDR is in
self-refresh, and the saved context keeps its registers and what its retention part restores. -/
def State.exitState (s : State) : State :=
  let t := s.warmState 5
  let t := (s.regs.filter (fun e => decide (0x030000 ≤ e.1) && decide (e.1 < 0x040000))).foldl (fun t e => t.setReg e.1 e.2) t
  let t := ((t.setBit CSV_STATUS.D3SEEN (s.bit CSV_STATUS.D3SEEN)).setBit CSV_STATUS.FRZSEEN (s.bit CSV_STATUS.FRZSEEN)).setBit
    CSV_STATUS.LIMIT (s.bit CSV_STATUS.LIMIT)
  let t := (List.range 12).foldl (fun t m => if s.memState m = MemSt.selfref then t.setMemState m MemSt.selfref else t) t
  if s.ctxState 0 = CtxSt.none then t
  else t.setCtx 0 { s.ctx 0 with held := [], needRetain := (s.ctx 0).retained.isSome }

/-- Give a retained buffer its old state back: it leaves the free queue and is charged again. -/
def State.restoreBuf (s : State) (k : Nat) (b : Buf) : State :=
  let p := keyPool k
  ((s.setBuf k b).setFreeQ p ((s.freeQ p).filter (fun i => i != keyIdx k))).addMod (LKR_QUOTA.ALLOC b.req p) 1

/-- RETENTION_RESTORE_DONE: once the Locker has been locked; another pool configuration tears the context down. -/
def execRetentionRestoreDone (s : State) : Res := s.granting <|
  .next (match (s.ctx 0).retained with
    | none => s
    | some r =>
      if ¬ (s.ctx 0).needRetain ∨ ¬ s.bit LKR_CTL.LOCK then s
      else if r.pools ≠ s.poolRegs then s.contextFault 0 F_CTX_RETAIN
      else
        let s := r.cells.foldl (fun s x => s.setRink x.1 [x.2]) s
        let s := r.bufs.foldl (fun s e => s.restoreBuf e.1 e.2) s
        let s := r.counts.foldl (fun s e => s.setReg e.1 e.2) s
        s.updCtx 0 (fun x => { x with retained := none, needRetain := false }))

/-! Power commands (R442 to R444). -/

/-- No context is in RUN or SAVING. -/
def State.noneRunning (s : State) : Bool :=
  [0, 1].all (fun c => s.ctxState c != CtxSt.run && s.ctxState c != CtxSt.saving)

/-- A command at its lap edge, with the checks of R442. -/
def State.powerCommand (s : State) (cmd : Nat) (mayWarm bmc : Bool) : State :=
  let st := s.pwrState
  if cmd = 2 ∧ st = PwrSt.p0 ∧ s.noneRunning then
    (s.bringDomains (List.range 40) (fun _ => false)).setPwrState PwrSt.p1
  else if cmd = 1 ∧ st = PwrSt.p1 then s.wake
  else if cmd = 3 ∧ (st = PwrSt.p0 ∨ st = PwrSt.p1) ∧ s.lc ≠ 4 then
    if s.mayRetain then s.setPwrState PwrSt.p2prep else (s.report F_CTX_RETAIN 0 0)
  else if cmd = 4 ∧ (st = PwrSt.p0 ∨ st = PwrSt.p1) ∧ mayWarm then s.warmState (if bmc then 4 else 3)
  else s.pwrReport F_PWR_CMD cmd

/-- The supplies that a retention exit needs are in band, VDD_SRAM for at least 1 ms (R442). -/
def State.exitSupplies (s : State) : Bool :=
  [2, 3, 4, 5].all s.supplyIn && s.power.inBand.any (fun e => e.1 == 6 && decide (e.2 + 940000 ≤ s.clk))

/-- A power command is written: in P0 and P1 it waits for the lap edge, in P2 it is taken at once, and in any other state it
is refused. -/
def State.writePwrCmd (s : State) (path : Path) (cmd : Nat) (sec : Bool) : State :=
  let bmc := path == .i3c
  let st := s.pwrState
  if path ≠ .i3c ∧ path ≠ .management then s.pwrReport F_PWR_CMD cmd
  else if cmd = 0 ∨ 4 < cmd then s.pwrReport F_PWR_CMD cmd
  else if st = PwrSt.p0 ∨ st = PwrSt.p1 then
    s.updPower (fun p => { p with commands := p.commands ++ [(cmd, sec || bmc, bmc)] })
  else if st = PwrSt.p2 ∧ cmd = 1 ∧ bmc ∧ s.exitSupplies then s.exitState
  else s.pwrReport F_PWR_CMD cmd

/-- P0, P1, P2 and WARM over a path whose writer holds every right. -/
def execP0 (path : Path) (s : State) : Res := .next (s.writePwrCmd path 1 true)
def execP1 (path : Path) (s : State) : Res := .next (s.writePwrCmd path 2 true)
def execP2 (path : Path) (s : State) : Res := .next (s.writePwrCmd path 3 true)
def execWarm (path : Path) (s : State) : Res := .next (s.writePwrCmd path 4 true)

/-- The power actions of a lap edge: domain writes, then commands, oldest first, until one resets the device. -/
def State.powerEdge (s : State) : State :=
  let ds := s.power.domains
  let cs := s.power.commands
  let s := s.updPower (fun p => { p with domains := [], commands := [] })
  let s := ds.foldl (fun s e => s.applyDomain e.1 e.2) s
  cs.foldl (fun s e => if s.stopped then s else s.powerCommand e.1 e.2.1 e.2.2) s

/-! AVS (R433). -/

/-- A set point between 0.68 V and 0.82 V; the device's monitors choose it. -/
def State.avsStart (s : State) : State :=
  let (v, s) := s.free
  let mv := 680 + v % 141
  (s.wr PWR_AVS.VSET mv).emit (.avs mv)

/-- At a lap edge the set point moves by at most 5 mV, and the readings follow. Whether the regulator answers one of the four
attempts at a transaction is free: where it answers none, the set point is held. -/
def State.avsEdge (s : State) : State :=
  if s.rd PWR_AVS.VSET = 0 then s
  else
    let (v, s) := s.free
    let (a, s) := s.free
    let (b, s) := s.free
    let (fails, s) := s.free
    if fails % 2 = 1 then (s.addSat PWR_AVS.ERRORS 1).pwrReport F_PWR_AVS 0
    else
    let mv := min 820 (max 680 (s.rd PWR_AVS.VSET + v % 11 - 5))
    let s := (s.wr PWR_AVS.VOUT a).wr PWR_AVS.IOUT b
    if mv = s.rd PWR_AVS.VSET then s else (s.wr PWR_AVS.VSET mv).emit (.avs mv)

/-! Clocks (R446 to R448). -/

/-- Presence bit of core reference `i`. -/
def refFld (i : Nat) : Fld := if i = 0 then CLK_STATUS.REF0 else CLK_STATUS.REF1

/-- REFCLK_LOSS: the active reference is lost, and the PLL switches to the other if it is present. -/
def execRefclkLoss (s : State) : Res :=
  let a := s.rd CLK_STATUS.ACTIVE
  let s := (s.setBit (refFld a) false).addSat CLK_STATUS.SWITCHES 1
  .next ((if s.bit (refFld (1 - a)) then s.wr CLK_STATUS.ACTIVE (1 - a) else s).pwrReport F_PWR_REFCLK a)

/-- REFCLK_BOTH_LOST: a device fault. -/
def execRefclkBothLost (s : State) : Res :=
  .next ((((s.setBit CLK_STATUS.REF0 false).setBit CLK_STATUS.REF1 false).deviceFault F_PWR_CLKLOSS).interrupt)

/-- REFCLK_RETURN: the lost reference becomes the standby. -/
def execRefclkReturn (s : State) : Res :=
  let a := s.rd CLK_STATUS.ACTIVE
  .next (s.setBit (refFld (if s.bit (refFld (1 - a)) then a else 1 - a)) true)

/-- SREFCLK_LOSS: every port of the die fails, and its host port loses its link. -/
def execSrefclkLoss (die : Fin 2) (s : State) : Res :=
  let s := s.setBit (if die.val = 0 then CLK_STATUS.SREF_N else CLK_STATUS.SREF_S) false
  let s := ((List.range 6).map (fun d => d + 6 * die.val)).foldl (fun s n =>
    let st := s.portState n
    if st = PortSt.down ∨ st = PortSt.failed ∨ st = PortSt.discarded then s else s.portFail n F_FAB_LANE) s
  let n := die.val
  .next (if s.hostState n ≠ HpSt.down ∧ s.hostState n ≠ HpSt.discarded then
      ((s.wr (HP_STATUS.LAST_CODE n) F_HOST_LINK).setHostState n HpSt.train).report F_HOST_LINK 2 n
    else s)

/-! Start-up (R451 to R453, R477). -/

/-- Identity keys, derived in PROVISIONED and DEPLOYED (R387). -/
def State.deriveIdentity (s : State) : State :=
  if (s.lc = 1 ∨ s.lc = 2) ∧ ¬ s.sec.seedKilled then
    let key (label : String) : List Byte :=
      Config.kdf (label.toList.map (fun c => BitVec.ofNat 8 c.toNat)) s.sec.fuseSeed 32
    (s.updSec (fun x => { x with identity := some (key "zholdo id ed25519", key "zholdo id mldsa65") })).wr SEC_STATE.IDENT 1
  else s

/-- A ring size above 1 in the dimension of port `n`, or its strap where no settings record is valid (R451 step 4). -/
def State.portTrains (s : State) (n : Nat) : Bool :=
  match s.newestCopy with
  | some _ => decide (1 < s.ring (n % 6 / 2))
  | none => Config.strapDim (n % 6 / 2)

/-- Copy a slot's image to the firmware region (R383 step 4). -/
def State.copyImage (s : State) (slot : Nat) : State :=
  let n := (s.imageInfo slot).length
  let s := s.wr RINK_CFG.FWRES (max 4 ((n + 2 ^ 20 - 1) / 2 ^ 20))
  ((s.setRink 0 (s.imageBody slot)).wr SEC_BOOT.SLOT slot).updSec (fun x => { x with tried := slot })

/-- A settings register takes its value from a copy. -/
def State.loadSetting (s : State) (i off : Nat) : State :=
  match s.copyValue i off with
  | some v => s.setReg off v
  | none => s

/-- The zeros of R477. -/
def State.zeroStores (s : State) : State :=
  let t : State := { s with rink := [], store := [], gsram := [], rstore := [], guard := [] }
  (List.range 40).foldl (fun t k => t.updStream k (fun x => { x with v := [] })) t

/-- The start's first step: the cause and the references (R451). -/
def State.startClock (s : State) : State :=
  let cause := s.power.cause
  let s := (s.updPower (fun p => { p with held := false, starting := true })).wr PWR_STATUS.CAUSE cause
  let s := if s.power.seqBad then
      ((s.updPower (fun p => { p with seqBad := false })).setLimit).pwrReport F_PWR_SEQ 0
    else s
  let s := if cause ≤ 1 then
      [CLK_STATUS.REF0, CLK_STATUS.REF1, CLK_STATUS.SREF_N, CLK_STATUS.SREF_S].foldl (fun s f => s.setBit f true) s
    else s
  s.wr CLK_STATUS.ACTIVE (if s.bit CLK_STATUS.REF0 then 0 else 1)

/-- The start's fuses: the life cycle, the serial, the security version and the copy that is preferred (R451). -/
def State.startFuses (s : State) : State :=
  let s := ((s.wr SEC_STATE.LC s.sec.fuseLc).wr SEC_SERIAL.SERIAL s.sec.fuseSerial.toNat).newNonce
  (s.wr SEC_BOOT.SVN s.sec.fuseSvn).wr SS_STATUS.PREFERRED s.sec.preferred

/-- The start's stores and settings (R451, R477). -/
def State.startStores (s : State) : State :=
  let s := ({ s with stopped := false }.deriveIdentity.avsStart).zeroStores
  match s.newestCopy with
  | some i => (s.loadSetting i FAB_CFG.XS_M1.off).wr SS_STATUS.STORE_SEQ ((s.validCopy i).getD 0)
  | none => s

/-- The start's trainings: the memory channels, the host ports and the fabric ports (R451). -/
def State.startTrain (s : State) : State :=
  let s := (List.range 12).foldl (fun s m =>
    if s.memState m = MemSt.selfref then
      (List.range 16).foldl (fun s k => s.emit (.mem m k 0 "SRX")) (s.memTrain m true)
    else if s.lc = 1 ∨ s.lc = 2 then s.memTrain m false else s) s
  let s := [0, 1].foldl (fun s n => (s.setBit (HP_CTL.EN n) true).setHostState n HpSt.train) s
  (List.range 12).foldl (fun s n => if s.portTrains n then (s.setBit (PORT_CTL.EN n) true).enterTrain n else s) s

/-- Steps 1 to 4 of R451. -/
def State.startUp (s : State) : State :=
  let t : State := { s.startClock.startFuses with stopped := true }
  if t.lc = 4 then t
  else
    let u := t.startStores.startTrain
    u.copyImage u.sec.preferred

/-- RESET_RELEASE: the start runs if a reset is held. -/
def execResetRelease (s : State) : Res := .next (if s.power.held then s.startUp else s)

/-- RELEASE and DISCARD at the fabric ports (R238, R241). -/
def State.releasePorts (s : State) : State := (List.range 12).foldl (fun s n => (s.sendHello n).helloAdvance n) s

def State.portDiscard (s : State) (n : Nat) : State :=
  let s := [0x10, 0x18, 0x20, 0x28].foldl (fun s o => s.setReg (0x180000 + 0x2000 * n + o) 0) s
  (s.updPort n (fun x => { x with
    retry := [], forming := [], formed := [], due := [], tell := [], sending := none, replay := none, old := none, heard := none
    helloPeer := none, helloSent := [], delays := [] })).setPortState n PortSt.discarded

/-- One register of the settings record, as boot firmware loads it: the trouble counters only after a cold start, HP_CTL with
EN as start-up set it, LAP_CTRL with ENABLE clear. -/
def State.bootSetting (s : State) (i off : Nat) : State :=
  if 0x243000 ≤ off then (if s.power.cause ≤ 1 then s.loadSetting i off else s)
  else
    let t := s.loadSetting i off
    if off = 0x210000 ∨ off = 0x210100 then t.setReg off (t.reg off ||| 1#64)
    else if off = LAP_CTRL.ENABLE.off then t.setBit LAP_CTRL.ENABLE false
    else t

/-- What boot firmware does (R426, R451 step 7): it loads the settings record and locks the Rink. -/
def State.bootFirmware (s : State) : State :=
  let s := match s.newestCopy with
    | some i => settingsRegs.foldl (fun (s : State) o => s.bootSetting i o) s
    | none => s
  s.setBit RINK_CFG.LOCK true

/-- A PASSED verdict (R383 step 7, R385, R452). -/
def State.bootPass (s : State) (slot : Nat) : State :=
  let i := s.imageInfo slot
  let s := (s.updSec (fun x => { x with verdict := 1, running := i })).wr (slotOkFld slot) 1
  let s := ((s.wr SEC_BOOT.VERSION i.version).wr SEC_BOOT.STATE 1).setBit CSV_STATUS.CERT (i.cert && ! i.devroot && s.lc == 2)
  s.bootFirmware.releaseMem.releasePorts.releaseHost

/-- A FAILED verdict (R384, R453). -/
def State.bootFail (s : State) : State :=
  let s := (s.updSec (fun x => { x with verdict := 2 })).secReport F_SEC_BOOT
  let s := ((s.wr SEC_BOOT.CODE F_SEC_BOOT).wr SEC_BOOT.STATE 2).discardMem.discardHost
  let s := (List.range 12).foldl (fun s n => s.portDiscard n) s
  let s := { s with rink := [], stopped := true }
  let s := s.setReg PWR_DSTAT0.DOM.off (s.reg PWR_DSTAT0.DOM.off &&& 0xFFFF000000000000#64)
  ((s.wr LAP_STATUS.STATE LapSt.stopped).setBit PWR_STATUS.READY false).setPwrState PwrSt.hold

/-- BOOT_SLOT_VERIFIED: the slot under verification passes or fails; the other slot is tried once. -/
def execBootSlotVerified (s : State) : Res :=
  let slot := s.sec.tried
  .next (if s.sec.verdict ≠ 0 ∨ s.stopped ∨ s.power.held then s
    else match s.verifySlot slot with
      | none => s.bootPass slot
      | some code =>
        let s := ((((s.readSlot slot).trouble 22).wr (slotOkFld slot) 0).wr SEC_BOOT.CODE code).secReport code
        if slot = s.sec.preferred then s.copyImage (1 - slot) else s.bootFail)

end Sys2Proof.Machine
end

