-- ==== Sys2Proof/Machine/Scalar.lean ====
section
/-!
DEFINITION. The control, scalar, immediate, compare, predicate, address and branch instructions (R64 to R67, R71, R72).
-/

namespace Sys2Proof.Machine

/-! Shared forms. -/

/-- Format Z: nothing but the guard. -/
def zForm (w : Nat) : Form := { bad := badZero w 47 0 }

/-- Format RR with d, a and b named. -/
def rrForm (w : Nat) : Form := { bad := badZero w 32 0, s := [fd w, fa w, fb w] }

/-- Format RI with d and a named. -/
def riForm (w : Nat) : Form := { s := [fd w, fa w] }

/-- Format RR with d and a named. -/
def rr2Form (w : Nat) : Form := { bad := badZero w 37 33 ++ badZero w 32 0, s := [fd w, fa w] }

/-- An ALU instruction in either form: d := op a b (R64). -/
def State.alu (s : State) (k : Nat) (imm : Bool) (min : Nat) (b : BitVec 52) (op : Word → Word → Word) : State :=
  let w := velimWord (if imm then 0x02 else 0x01) min b
  s.issue k w (if imm then riForm w else rrForm w) [] (fun s =>
    (s.setS k (fd w) (op (s.sreg k (fa w)) (if imm then simm w 37 0 else s.sreg k (fb w)))).retire k)

/-- A one-operand ALU instruction; b must be 0. -/
def State.alu1 (s : State) (k min : Nat) (b : BitVec 52) (op : Word → Word) : State :=
  let w := velimWord 0x01 min b
  s.issue k w (rr2Form w) [] (fun s => (s.setS k (fd w) (op (s.sreg k (fa w)))).retire k)

/-- A compare in either form (R65). -/
def State.cmp (s : State) (k : Nat) (imm : Bool) (min : Nat) (b : BitVec 52) (op : Word → Word → Bool) : State :=
  let w := velimWord (if imm then 0x05 else 0x04) min b
  s.issue k w
    (if imm then { bad := badP w 43, s := [fa w] } else { bad := badP w 43 ++ badZero w 32 0, s := [fa w, fb w] }) []
    (fun s => (s.setP k (fd w) (predOf (op (s.sreg k (fa w)) (if imm then simm w 37 0 else s.sreg k (fb w))))).retire k)

/-- Predicate logic on all 512 bits (R65). -/
def State.pred (s : State) (k min : Nat) (b : BitVec 52) (op : Pred → Pred → Pred) : State :=
  let w := velimWord 0x06 min b
  s.issue k w { bad := badP w 43 ++ badP w 38 ++ badP w 33 ++ badZero w 32 0 } []
    (fun s => (s.setP k (fd w) (op (s.preg k (fa w)) (s.preg k (fb w)))).retire k)

/-- Shift count b[5:0] (R64). -/
def sh6 (b : Word) : Nat := b.toNat % 64

/-! Control (R72, R67). -/

/-- NOP. -/
def execNop (k : Fin 50) (b : BitVec 52) (s : State) : Res :=
  .next (s.issue k (velimWord 0 0 b) (zForm (velimWord 0 0 b)) [] (fun s => s.retire k))

/-- END: waits, as FENCE does, then ends the instance. -/
def execEndInstance (k : Fin 50) (b : BitVec 52) (s : State) : Res :=
  .next (s.issue k (velimWord 0 1 b) (zForm (velimWord 0 1 b)) [] (fun s =>
    (s.updStream k (fun x => { x with fenceWait := some .endInst })).fenceDone k))

/-- TRAP. -/
def execTrap (k : Fin 50) (b : BitVec 52) (s : State) : Res :=
  let w := velimWord 0 2 b
  .next (s.issue k w { bad := badZero w 47 16 } [(F_ISA_TRAP, bitsOf w 15 0)] (fun s => s))

/-- BRK: at D3 the stream stops in BRK after it; below, F_ISA_BRK. -/
def execBrk (k : Fin 50) (b : BitVec 52) (s : State) : Res :=
  let w := velimWord 0 3 b
  .next (s.issue k w (zForm w) (if s.dbg = 3 then [] else [(F_ISA_BRK, 0)]) (fun s => (s.retire k).setEngState k EngSt.brk))

/-- FENCE: issue stalls until every earlier memory operation of the stream is complete (R70). -/
def execFence (k : Fin 50) (b : BitVec 52) (s : State) : Res :=
  .next (s.issue k (velimWord 0 4 b) (zForm (velimWord 0 4 b)) [] (fun s =>
    (s.updStream k (fun x => { x with fenceWait := some .fence })).fenceDone k))

/-- A special register as MFSR reads it (R67). -/
def State.special (s : State) (k i : Nat) : Nat :=
  let c := s.ctxOf k
  if i = 0 then engCode k else if i = 1 then c else if i = 2 then s.rd (CTX_JOB.JOB c) else if i = 3 then s.ct
  else if i = 4 then s.lcc else if i = 5 then s.rd (CTX_STATE.EPOCH c) else if i = 6 then s.chipId
  else if i = 7 then s.rd (ENG_STATUS.TMPL k) else if i = 8 then s.rd (ENG_CTL.WAITLIM k)
  else (s.stream k).scratch.toNat

/-- MFSR. -/
def execMfsr (k : Fin 50) (b : BitVec 52) (s : State) : Res :=
  let w := velimWord 0 5 b
  .next (s.issue k w { bad := badZero w 42 38, s := [fd w] }
    (if bitsOf w 37 0 ≤ 9 then [] else [(F_ISA_SPR, 0)])
    (fun s => (s.setS k (fd w) (BitVec.ofNat 64 (s.special k (bitsOf w 37 0)))).retire k))

/-- MTSR: only WAITLIM and SCRATCH may be written. -/
def execMtsr (k : Fin 50) (b : BitVec 52) (s : State) : Res :=
  let w := velimWord 0 6 b
  .next (s.issue k w { bad := badZero w 47 43, s := [fa w] }
    (if bitsOf w 37 0 = 8 ∨ bitsOf w 37 0 = 9 then [] else [(F_ISA_SPR, 0)])
    (fun s =>
      let v := s.sreg k (fa w)
      let s := if bitsOf w 37 0 = 8 then s.wr (ENG_CTL.WAITLIM k) v.toNat else s.updStream k (fun x => { x with scratch := v })
      s.retire k))

/-! ALU (R64). -/

def execAdd (k : Fin 50) (imm : Bool) (b : BitVec 52) (s : State) : Res := .next (s.alu k imm 0x00 b (fun x y => x + y))
def execSub (k : Fin 50) (imm : Bool) (b : BitVec 52) (s : State) : Res := .next (s.alu k imm 0x01 b (fun x y => x - y))
def execAnd (k : Fin 50) (imm : Bool) (b : BitVec 52) (s : State) : Res := .next (s.alu k imm 0x02 b (fun x y => x &&& y))
def execOr (k : Fin 50) (imm : Bool) (b : BitVec 52) (s : State) : Res := .next (s.alu k imm 0x03 b (fun x y => x ||| y))
def execXor (k : Fin 50) (imm : Bool) (b : BitVec 52) (s : State) : Res := .next (s.alu k imm 0x04 b (fun x y => x ^^^ y))
def execShl (k : Fin 50) (imm : Bool) (b : BitVec 52) (s : State) : Res := .next (s.alu k imm 0x05 b (fun x y => x <<< sh6 y))
def execShr (k : Fin 50) (imm : Bool) (b : BitVec 52) (s : State) : Res := .next (s.alu k imm 0x06 b (fun x y => x >>> sh6 y))
def execSra (k : Fin 50) (imm : Bool) (b : BitVec 52) (s : State) : Res :=
  .next (s.alu k imm 0x07 b (fun x y => x.sshiftRight (sh6 y)))
def execMul (k : Fin 50) (imm : Bool) (b : BitVec 52) (s : State) : Res := .next (s.alu k imm 0x08 b (fun x y => x * y))

/-- MULHU: no immediate form. -/
def execMulhu (k : Fin 50) (b : BitVec 52) (s : State) : Res :=
  .next (s.alu k false 0x09 b (fun x y => BitVec.ofNat 64 (x.toNat * y.toNat / 2 ^ 64)))

/-- MULHS: no immediate form. -/
def execMulhs (k : Fin 50) (b : BitVec 52) (s : State) : Res :=
  .next (s.alu k false 0x0A b (fun x y => BitVec.ofInt 64 (x.toInt * y.toInt / 2 ^ 64)))

def execMin (k : Fin 50) (imm : Bool) (b : BitVec 52) (s : State) : Res :=
  .next (s.alu k imm 0x0B b (fun x y => if x.slt y then x else y))
def execMinu (k : Fin 50) (imm : Bool) (b : BitVec 52) (s : State) : Res :=
  .next (s.alu k imm 0x0C b (fun x y => if x.ult y then x else y))
def execMax (k : Fin 50) (imm : Bool) (b : BitVec 52) (s : State) : Res :=
  .next (s.alu k imm 0x0D b (fun x y => if x.slt y then y else x))
def execMaxu (k : Fin 50) (imm : Bool) (b : BitVec 52) (s : State) : Res :=
  .next (s.alu k imm 0x0E b (fun x y => if x.ult y then y else x))

/-- Leading zeros of a word; 64 for 0. -/
def clz64 (x : Word) : Word := BitVec.ofNat 64 (if x = 0 then 64 else 63 - Nat.log2 x.toNat)

/-- Set bits of a word. -/
def popc64 (x : Word) : Word := BitVec.ofNat 64 ((List.range 64).filter (fun i => x.getLsbD i)).length

def execClz (k : Fin 50) (b : BitVec 52) (s : State) : Res := .next (s.alu1 k 0x0F b clz64)
def execPopc (k : Fin 50) (b : BitVec 52) (s : State) : Res := .next (s.alu1 k 0x10 b popc64)

/-- SEL: the guard selects and does not suppress. -/
def execSel (k : Fin 50) (b : BitVec 52) (s : State) : Res :=
  let w := velimWord 0x01 0x11 b
  .next (s.issue k w { rrForm w with sel := true } [] (fun s =>
    (s.setS k (fd w) (if s.guardOf k w then s.sreg k (fa w) else s.sreg k (fb w))).retire k))

/-- MOVI. -/
def execMovi (k : Fin 50) (b : BitVec 52) (s : State) : Res :=
  let w := velimWord 0x03 0 b
  .next (s.issue k w { s := [fd w] } [] (fun s => (s.setS k (fd w) (simm w 42 0)).retire k))

/-- MOVHI: keeps d[42:0]. -/
def execMovhi (k : Fin 50) (b : BitVec 52) (s : State) : Res :=
  let w := velimWord 0x03 1 b
  .next (s.issue k w { bad := badZero w 42 21 |>.map (fun _ => 0), s := [fd w] } [] (fun s =>
    (s.setS k (fd w) (BitVec.ofNat 64 (bitsOf w 20 0 * 2 ^ 43 + (s.sreg k (fd w)).toNat % 2 ^ 43))).retire k))

/-! Compares and predicates (R65). -/

def execCmpEq (k : Fin 50) (imm : Bool) (b : BitVec 52) (s : State) : Res := .next (s.cmp k imm 0 b (fun x y => x == y))
def execCmpNe (k : Fin 50) (imm : Bool) (b : BitVec 52) (s : State) : Res := .next (s.cmp k imm 1 b (fun x y => x != y))
def execCmpLt (k : Fin 50) (imm : Bool) (b : BitVec 52) (s : State) : Res := .next (s.cmp k imm 2 b (fun x y => x.slt y))
def execCmpGe (k : Fin 50) (imm : Bool) (b : BitVec 52) (s : State) : Res := .next (s.cmp k imm 3 b (fun x y => ! x.slt y))
def execCmpLtu (k : Fin 50) (imm : Bool) (b : BitVec 52) (s : State) : Res := .next (s.cmp k imm 4 b (fun x y => x.ult y))
def execCmpGeu (k : Fin 50) (imm : Bool) (b : BitVec 52) (s : State) : Res := .next (s.cmp k imm 5 b (fun x y => ! x.ult y))

def execPand (k : Fin 50) (b : BitVec 52) (s : State) : Res := .next (s.pred k 0 b (fun x y => x &&& y))
def execPor (k : Fin 50) (b : BitVec 52) (s : State) : Res := .next (s.pred k 1 b (fun x y => x ||| y))
def execPxor (k : Fin 50) (b : BitVec 52) (s : State) : Res := .next (s.pred k 2 b (fun x y => x ^^^ y))
def execPandn (k : Fin 50) (b : BitVec 52) (s : State) : Res := .next (s.pred k 3 b (fun x y => x &&& ~~~y))

/-! Addresses (R66). -/

/-- AMOV: ad := sa. -/
def execAmov (k : Fin 50) (b : BitVec 52) (s : State) : Res :=
  let w := velimWord 0x07 0 b
  .next (s.issue k w { bad := badA w 43 ++ badZero w 37 33 ++ badZero w 32 0, s := [fa w] } [] (fun s =>
    (s.setA k (fd w) (s.sreg k (fa w))).retire k))

/-- SMOV: sd := aa. -/
def execSmov (k : Fin 50) (b : BitVec 52) (s : State) : Res :=
  let w := velimWord 0x07 1 b
  .next (s.issue k w { bad := badA w 38 ++ badZero w 37 33 ++ badZero w 32 0, s := [fd w] } [] (fun s =>
    (s.setS k (fd w) (s.areg k (fa w))).retire k))

/-- An address plus a signed addend keeps its space code; a sum outside 0 to 2^60 - 1 raises F_ISA_AOVF (R66). -/
def State.addrAdd (s : State) (k w : Nat) (f : Form) (d : Int) : State :=
  let a := s.areg k (fa w)
  s.issue k w f (if (effOff a d).isSome then [] else [(F_ISA_AOVF, 38)]) (fun s =>
    (s.setA k (fd w) (BitVec.ofNat 64 (spaceOf a.toNat * 2 ^ 60 + (effOff a d).getD 0))).retire k)

def execAadd (k : Fin 50) (b : BitVec 52) (s : State) : Res :=
  let w := velimWord 0x07 2 b
  .next (s.addrAdd k w { bad := badA w 43 ++ badA w 38 ++ badZero w 32 0, s := [fb w] } (s.sreg k (fb w)).toInt)

def execAaddi (k : Fin 50) (b : BitVec 52) (s : State) : Res :=
  let w := velimWord 0x07 3 b
  .next (s.addrAdd k w { bad := badA w 43 ++ badA w 38 } (sfield w 37 0))

/-! Branches (R71). The target is the branch's address plus 8 times the signed offset, never wrapped. -/

def State.target (s : State) (k : Nat) (off : Int) : Int := (s.rd (ENG_PC.PC k) : Nat) + 8 * off

/-- A branch target outside 0 to 2^29 - 1 faults at the branch. -/
def State.targetFault (s : State) (k : Nat) (off : Int) : List (Nat × Nat) :=
  if 0 ≤ s.target k off ∧ s.target k off < 2 ^ 29 then [] else [(F_ISA_FETCH, 0)]

def execBr (k : Fin 50) (b : BitVec 52) (s : State) : Res :=
  let w := velimWord 0x0A 0 b
  .next (s.issue k w { bad := badZero w 47 46 } (s.targetFault k (sfield w 45 0)) (fun s =>
    s.retireTo k (s.target k (sfield w 45 0)).toNat))

def execCall (k : Fin 50) (b : BitVec 52) (s : State) : Res :=
  let w := velimWord 0x0A 1 b
  .next (s.issue k w { bad := badZero w 47 46 } (s.targetFault k (sfield w 45 0)) (fun s =>
    (s.setA k 15 (BitVec.ofNat 64 (2 ^ 60 + (s.rd (ENG_PC.PC k) + 8)))).retireTo k (s.target k (sfield w 45 0)).toNat))

def execRet (k : Fin 50) (b : BitVec 52) (s : State) : Res :=
  let w := velimWord 0x0A 2 b
  .next (s.issue k w { bad := badZero w 45 0 ++ badZero w 47 46 }
    (if spaceOf (s.areg k 15).toNat = 1 then [] else [(F_ISA_FETCH, 0)])
    (fun s => s.retireTo k ((s.areg k 15).toNat % 2 ^ 29)))

/-- LOOP: the count is decremented; while it is not 0 the branch is taken. -/
def execLoop (k : Fin 50) (b : BitVec 52) (s : State) : Res :=
  let w := velimWord 0x0A 3 b
  let n := s.sreg k (fd w) - 1
  .next (s.issue k w { s := [fd w] } (if n = 0 then [] else s.targetFault k (sfield w 42 0)) (fun s =>
    let t := s.setS k (fd w) n
    if n = 0 then t.retire k else t.retireTo k (s.target k (sfield w 42 0)).toNat))

end Sys2Proof.Machine
end

