-- ==== Sys2Proof/Machine/Observe.lean ====
section
/-!
DEFINITION. The Telemetry Sampler, the read window, the standstill commands, breakpoints, freeze and read-out
(R414 to R427).
-/

namespace Sys2Proof.Machine

/-! Reads without side effects. -/

/-- The template bank that the shadow window shows for an entry (R82). -/
def State.shadowBank (s : State) (e : Nat) : Nat := 1 - s.rd (if e < 384 then LS_TCTL.BANK_GEN else LS_TCTL.BANK_RT)

/-- Key of word `w` of entry `e` in bank `b`. -/
def tmplKey (b e w : Nat) : Nat := b * 4096 + e * 8 + w

/-- Windows of plain bytes: the credential, quote and token windows and the image buffer (R388, R390, R394, R396). -/
def plainWindow (off : Nat) : Bool :=
  (decide (0x221000 ≤ off) && decide (off < 0x221800)) || (decide (0x223000 ≤ off) && decide (off < 0x223DC0)) ||
  (decide (0x228000 ≤ off) && decide (off < 0x22B000)) || (decide (0x258000 ≤ off) && decide (off < 0x260000))

/-- The certificate window (R388): the certificate, or before one is installed the serial and the public keys. -/
def State.certView (s : State) : List Byte :=
  if s.sec.certificate ≠ [] then s.sec.certificate
  else leBytes 8 s.sec.fuseSerial.toNat ++ match s.sec.identity with
    | some (ed, ml) =>
      (Config.ed25519Public ed ++ List.replicate 32 0).take 32 ++ (Config.mldsaPublic ml ++ List.replicate 1952 0).take 1952
    | none => []

/-- The certificate window holds an offset. -/
def certAt (off : Nat) : Bool := decide (0x224000 ≤ off) && decide (off < 0x224000 + 5392)

/-- A register or window as a read without side effects returns it; the read window shows nothing here. -/
def State.peek (s : State) (off : Nat) : Word :=
  match findRow off with
  | some _ => s.readQuiet off
  | none =>
    if 0x028000 ≤ off ∧ off < 0x030000 then
      let e := (off - 0x028000) / 64
      tget zeroWord s.tmpl (tmplKey (s.shadowBank e) e (off % 64 / 8))
    else if plainWindow off then BitVec.ofNat 64 (leNat (s.windowBytes off 8))
    else if certAt off then BitVec.ofNat 64 (leNat ((s.certView.drop (off - 0x224000)).take 8))
    else 0

/-! The sampler and its ring (R415 to R418). -/

def State.ringBase (s : State) : Nat := s.rd TEL_RING.BASE
def State.ringSize (s : State) : Nat := s.rd TEL_RING.SIZE * 4096

/-- The ring is not empty and lies wholly within the firmware region. -/
def State.ringOk (s : State) : Bool := decide (0 < s.ringSize) && decide (s.ringBase + s.ringSize ≤ s.firmwareBytes)

/-- The record of a sample now: of a register that a read of this clk has cleared, what it showed before. -/
def State.sampleRecord (s : State) : List Byte :=
  let vals := (List.range 64).filterMap (fun n =>
    let off := 8 * s.rd (TEL_SEL.OFFSET n)
    if ¬ s.bit (TEL_SEL.VALID n) then none
    else match s.thisClk.cleared.find? (fun e => e.1 == off) with
      | some e => some e.2
      | none => some (s.peek off))
  padTo 32 (leBytes 1 1 ++ leBytes 1 vals.length ++ leBytes 2 0 ++ leBytes 4 s.telSeq ++ leBytes 8 s.ct ++ leBytes 4 s.lcc ++
    leBytes 12 0 ++ wordBytes vals)

/-- A sample is due now: in the first clk of a sample stride, and once in it (R48, R415). -/
def State.sampleDue (s : State) : Bool :=
  s.bit TEL_CTL.EN && s.mayCount && decide (s.stride % 2 ^ s.rd TEL_CTL.PEXP = s.rd TEL_CTL.PHASE) &&
    decide (s.prevCt < s.ct) && s.telLast != some s.ct

/-- TELEMETRY_SAMPLE. -/
def execTelemetrySample (s : State) : Res := s.granting <|
  .next (if ¬ s.sampleDue then s else { s.telPush s.sampleRecord with telSeq := (s.telSeq + 1) % 2 ^ 32, telLast := some s.ct })

/-- Write bytes at a ring offset. -/
def State.ringWrite (s : State) (o : Nat) (l : List Byte) : State := (s.present 50 (s.ringBase + o) l.length).setRink (s.ringBase + o) l

/-- The ring pointer after a record: it wraps when no record can follow before the end. -/
def State.ringTo (s : State) (o : Nat) : State :=
  if s.ringSize ≤ o then (s.wr TEL_STATUS.WRPTR 0).addMod TEL_STATUS.WRAPS 1 else s.wr TEL_STATUS.WRPTR o

/-- A record goes to the ring; one that would pass the end starts at 0, and the bytes it skips become zero. -/
def State.ringPut (s : State) (r : List Byte) : State :=
  let o := s.rd TEL_STATUS.WRPTR
  let s := s.repeatEvent 2 1
  if o + r.length ≤ s.ringSize then (s.ringWrite o r).ringTo (o + r.length)
  else
    let s := (s.ringWrite o (List.replicate (s.ringSize - o) 0)).addMod TEL_STATUS.WRAPS 1
    (s.ringWrite 0 r).ringTo r.length

/-- TELEMETRY_RECORD_WRITE. -/
def execTelemetryRecordWrite (s : State) : Res := s.granting <|
  .next (match s.telQueue with
    | [] => s
    | r :: q =>
      let s := { s with telQueue := q }
      if s.ringOk then s.ringPut r else s.addSat TEL_STATUS.LOST 1)

/-- A TEL_CTL write (R418): the sampler is enabled only over a good ring and period and at D1, the trace only at D2. -/
def State.telCtl (s : State) (v : Word) : State :=
  let s := (s.wr TEL_CTL.PHASE (fieldOf v TEL_CTL.PHASE)).wr TEL_CTL.PEXP (fieldOf v TEL_CTL.PEXP)
  let s := s.setBit TEL_CTL.TRACE (fieldOf v TEL_CTL.TRACE = 1 ∧ 2 ≤ s.dbg)
  let p := s.rd TEL_CTL.PEXP
  if fieldOf v TEL_CTL.EN = 0 then s.setBit TEL_CTL.EN false
  else if ¬ s.ringOk ∨ p < 6 ∨ 20 < p then s.setBit TEL_STATUS.CFGERR true
  else if s.dbg < 1 then s
  else s.setBit TEL_CTL.EN true

/-- TEL_CTL_WRITE. -/
def execTelCtlWrite (v : Word) (s : State) : Res := s.live <| .next (s.telCtl v)

/-! The read window (R419). -/

/-- Rink offset that a window offset reads. -/
def State.windowAt (s : State) (off : Nat) : Nat := s.rd DBG_RWSEL.BASE + (off - 0x248000)

/-- The level that a read of 8 bytes at `a` needs: none where it is never allowed. -/
def State.windowLevel (s : State) (a : Nat) : Option Nat :=
  if s.firmwareBytes < a + 8 then none
  else if s.ringBase ≤ a ∧ a + 8 ≤ s.ringBase + s.ringSize then some 1
  else if s.rd DBG_SSBUF.BASE ≤ a ∧ a + 8 ≤ s.rd DBG_SSBUF.BASE + 524288 then some 2
  else some 3

/-- A read of the window is allowed. -/
def State.windowAllowed (s : State) (off : Nat) : Bool :=
  match s.windowLevel (s.windowAt off) with
  | some l => decide (l ≤ s.dbg)
  | none => false

/-- One access to the Rink through port 50, which RWIN counts. The management block discards data that it cannot read: it shows 0 (R177). -/
def State.windowRead (s : State) (off : Nat) : Word × State :=
  let a := s.windowAt off
  (if s.rinkBad a 8 then 0 else BitVec.ofNat 64 (s.rinkWord a), (s.checkRead 50 1 a 8 true).repeatEvent 3 1)

/-- READ_WINDOW_READ: one Rink access; a read that is not allowed is answered DENIED, with no access. -/
def execReadWindowRead (off : BitVec 24) (s : State) : Res := s.granting <|
  let o := off.toNat
  .next (if o < 0x248000 ∨ 0x250000 ≤ o ∨ o % 8 ≠ 0 then s
    else if s.windowAllowed o then
      let r := s.windowRead o
      r.2.emit (.shift "READ_WINDOW" [r.1])
    else s.emit (.shift "READ_WINDOW DENIED" []))

/-! Standstill (R420). -/

/-- STANDSTILL_ARMED. -/
def execStandstillArmed (s : State) : Res := s.live <|
  .next (if s.bit DBG_SSCTL.ARM ∧ 2 ≤ s.dbg ∧ s.rd DBG_SSCT.TARGET ≤ s.ct then s.standstill 0 else s)

/-- A DBG_SSCTL write: ARM is ignored below D2 or with a bad buffer, and NOW takes a capture. -/
def State.ssControl (s : State) (v : Word) (now : Bool) : State :=
  let s := s.setBit DBG_SSCTL.ONFAULT (fieldOf v DBG_SSCTL.ONFAULT = 1)
  let arm := fieldOf v DBG_SSCTL.ARM = 1 ∧ 2 ≤ s.dbg
  let s := if arm ∧ ¬ s.ssBufferOk then s.setBit TEL_STATUS.CFGERR true
    else if arm then (s.armAt (s.rd DBG_SSCT.TARGET)).setBit DBG_SSCTL.ARM true
    else s.setBit DBG_SSCTL.ARM false
  if now ∧ 2 ≤ s.dbg then s.standstill 2 else s

/-- STANDSTILL_NOW. -/
def execStandstillNow (v : Word) (s : State) : Res := s.live <| .next (s.ssControl v true)

/-- STANDSTILL_WRITE_DONE: the capture is in the buffer; each grant carried up to 512 bytes. -/
def execStandstillWriteDone (s : State) : Res := s.granting <|
  .next (if ¬ s.bit DBG_SSSTAT.WRITING then s
    else
      let l := s.capture
      let s := ((s.present 50 (s.rd DBG_SSBUF.BASE) l.length).setRink (s.rd DBG_SSBUF.BASE) l).repeatEvent 4 ((l.length + 511) / 512)
      { (s.setBit DBG_SSSTAT.WRITING false).setBit DBG_SSSTAT.DONE true with capture := [] })

/-! Breakpoints (R422). -/

/-- A DBG_STREAM write: NUM is stored, and a command acts on a stream in BRK at D3. -/
def State.dbgStream (s : State) (v : Word) (cmd : Nat) : State :=
  let k := fieldOf v DBG_STREAM.NUM
  let s := s.wr DBG_STREAM.NUM k
  if 50 ≤ k ∨ s.dbg < 3 ∨ s.engState k ≠ EngSt.brk then s
  else if cmd = 1 then s.setEngState k EngSt.run
  else if cmd = 2 then (s.updStream k (fun x => { x with stepOne := true })).setEngState k EngSt.run
  else s

/-- DBG_RESUME. -/
def execDbgResume (v : Word) (s : State) : Res := s.live <| .next (s.dbgStream v 1)

/-- DBG_STEP. -/
def execDbgStep (v : Word) (s : State) : Res := s.live <| .next (s.dbgStream v 2)

/-! Freeze (R423). -/

/-- FREEZE_ASSERT: the trigger byte of the shadow's header has no value in R421, so it is free. -/
def execFreezeAssert (s : State) : Res :=
  .next (if ¬ s.mayScan ∨ s.frozen then s
    else
      let s := (s.setBit CSV_STATUS.FRZSEEN true).trouble 24
      let (t, s) := s.free
      { s with frozen := true, shadow := s.ssCapture t })

/-- FREEZE_MEM_STOP: the controllers in service enter self-refresh without serving their queues. -/
def execFreezeMemStop (s : State) : Res :=
  .next (if ¬ s.frozen then s
    else (List.range 12).foldl (fun s m =>
      if s.rd (MEM_STATUS.STATE m) = MemSt.run then
        (List.range 16).foldl (fun s k => s.emit (.mem m k 0 "SRE")) (s.wr (MEM_STATUS.STATE m) MemSt.selfref)
      else s) s)

/-- FREEZE_CLOCK_STOP. -/
def execFreezeClockStop (s : State) : Res := .next (if s.frozen then { s with stopped := true } else s)

/-! Read-out (R425). -/

/-- Bytes as a segment: 16-byte header, data, and the CRC-32 of the data padded to 16 bytes. -/
def segment (id : Nat) (l : List Byte) : List Byte :=
  leBytes 2 id ++ leBytes 6 0 ++ leBytes 8 l.length ++ l ++ leBytes 16 (crc32 l).toNat

/-- Offsets of an array of registers. -/
def dimOffsets : List (Nat × Nat) → List Nat
  | [] => [0]
  | (st, n) :: d => (List.range n).flatMap (fun i => (dimOffsets d).map (fun o => i * st + o))

/-- The offsets of every defined register, ascending. -/
def allOffsets : List Nat := (regRows.flatMap (fun r => (dimOffsets r.dims).map (fun o => r.base + o))).mergeSort

/-- Stream state of R57: pc, s0 to s31, a0 to a15, p0 to p7 and the special registers. -/
def State.streamBytes (s : State) (k : Nat) : List Byte :=
  leBytes 8 (s.rd (ENG_PC.PC k)) ++ (List.range 32).flatMap (fun r => leBytes 8 (s.sreg k r).toNat) ++
  (List.range 16).flatMap (fun r => leBytes 8 (s.areg k r).toNat) ++
  (List.range 8).flatMap (fun r => leBytes 64 (s.preg k r).toNat) ++ (List.range 10).flatMap (fun i => leBytes 8 (s.special k i))

/-- The vector registers of a cluster or Gate Engine. -/
def State.vectorBytes (s : State) (k : Nat) : List Byte := (List.range 32).flatMap (fun r => leBytes 2048 (s.vreg k r).toNat)

/-- The segments of the read-out with their mask bits, in ascending ID order. -/
def State.segments (s : State) : List (Nat × Nat × List Byte) := [
  (0, 0x0001, wordBytes (allOffsets.map s.readQuiet)), (1, 0x0002, (List.range 50).flatMap s.streamBytes),
  (2, 0x0003, (List.range 40).flatMap s.vectorBytes), (3, 0x0004, s.shadow), (4, 0x0010, s.rinkBytes 0 0x18000000),
  (5, 0x0011, tgetMany zeroByte s.store 0 0x8000000), (6, 0x0012, tgetMany zeroByte s.gsram 0 0x8000000),
  (7, 0x0013, tgetMany zeroByte s.rstore 0 0x800000)]

/-- The bytes that a mask sends. -/
def State.readOut (s : State) (mask : Nat) : List Byte :=
  (s.segments.filter (fun e => mask.testBit e.1)).flatMap (fun e => segment e.2.1 e.2.2) ++ segment 0x00FF []

/-- The TAP's instruction register. -/
def State.tapIr (s : State) (i : Nat) : State := s.updPower (fun p => { p with ir := i, extest := i == 3 })

/-- A TAP instruction that the matrix withholds selects BYPASS (R465). -/
def State.tapBypass (s : State) : State := s.tapIr 0xFF

/-- SCAN_DUMP. -/
def execScanDump (s : State) : Res :=
  .next (if s.frozen ∧ s.mayScan then (s.tapIr 0x21).emit (.shift "TDO" (leWords (s.readOut 0xFF))) else s.tapBypass)

/-- RO_START. -/
def execRoStart (mask : BitVec 16) (s : State) : Res :=
  .next (if s.frozen ∧ s.mayScan then (s.tapIr 0x22).emit (.shift "DBG_RO" (leWords (s.readOut mask.toNat))) else s.tapBypass)

/-! JTAG (R465). -/

/-- IDCODE, in every lifecycle and power state but P3. -/
def execIdcode (s : State) : Res := .next ((s.tapIr 0x01).emit (.shift "TDO" [0x19416D6B]))

/-- BYPASS: one bit. -/
def execBypass (s : State) : Res := .next (s.tapIr 0xFF)

/-- SAMPLE/PRELOAD: the chain holds the pins. The value of the pins is the environment's: a free value. -/
def execSamplePreload (s : State) : Res :=
  .next (if ¬ s.mayScan then s.tapBypass
    else
      let (v, s) := s.free
      ((s.tapIr 0x02).updPower (fun p => { p with cells := BitVec.ofNat 64 v })).emit (.shift "TDO" [BitVec.ofNat 64 v]))

/-- EXTEST: the pins follow the boundary-scan cells. -/
def execExtest (pins : Word) (s : State) : Res :=
  .next (if ¬ s.mayScan then s.tapBypass
    else ((s.tapIr 0x03).updPower (fun p => { p with cells := pins })).emit (.shift "PINS" [pins]))

/-- TRST_N resets only the TAP (R450): IDCODE is selected, as IEEE 1149.1 requires. -/
def execTapReset (s : State) : Res := .next ((s.tapIr 0x01).updPower (fun p => { p with shiftData := 0, cells := 0 }))

end Sys2Proof.Machine
end

