-- ==== Sys2Proof/Machine/Sequencer.lean ====
section
/-!
DEFINITION. The Lap Sequencer's templates: release, instances and commits (R82 to R90).
-/

namespace Sys2Proof.Machine

/-! Entries (R82). -/

/-- Entries of a context's partition. -/
def entriesOf (c : Nat) : List Nat := if c = 0 then List.range 384 else (List.range 128).map (fun i => 384 + i)

/-- Word `w` of entry `e` of a bank. -/
def State.tmplWord (s : State) (b e w : Nat) : Nat := (tget zeroWord s.tmpl (tmplKey b e w)).toNat

/-- The bank in force for an entry. -/
def State.activeBank (s : State) (e : Nat) : Nat := s.rd (if e < 384 then LS_TCTL.BANK_GEN else LS_TCTL.BANK_RT)

def tmplValid (w : Nat) : Bool := bitsOf w 63 63 == 1
def tmplEngine (w : Nat) : Nat := bitsOf w 61 56
def tmplRelease (w : Nat) : Nat := bitsOf w 51 32

/-- The stream that an engine code of a context's entry names: a Relay or Snapshot engine's stream is that of the context. -/
def streamFor (c eng : Nat) : Nat := if eng < 40 then eng else if eng < 44 then 40 + 2 * (eng - 40) + c else 48 + c

/-- ARGSEL `i` of an entry. -/
def State.argSel (s : State) (b e i : Nat) : Nat := bitsOf (s.tmplWord b e 2) (8 * i + 7) (8 * i)

/-- The LS_CNT registers that an entry selects. -/
def State.selectedCnts (s : State) (b e : Nat) : List Nat :=
  (List.range 8).filterMap (fun i => let a := s.argSel b e i; if 0x40 ≤ a ∧ a < 0x80 then some (a - 0x40) else none)

/-- CONST `i` of an entry. -/
def State.tmplConst (s : State) (b e i : Nat) : Nat := bitsOf (s.tmplWord b e (3 + i / 2)) (32 * (i % 2) + 31) (32 * (i % 2))

/-- The value that an ARGSEL code selects (R83). -/
def State.argValue (s : State) (c b e a : Nat) : Nat :=
  if 1 ≤ a ∧ a ≤ 8 then s.tmplConst b e (a - 1)
  else if a = 0x10 then s.lapNo
  else if a = 0x11 then (s.epoch c).getD 0
  else if a = 0x12 then s.ct
  else if a = 0x13 then s.chipId
  else if a = 0x14 then s.rd (CTX_JOB.JOB c)
  else if 0x40 ≤ a ∧ a < 0x80 then s.rd (LS_CNT.VALUE (a - 0x40))
  else 0

/-! Release (R40, R85, R311, R337, R350, R440). -/

/-- Templates of the context may be released: it is RUN, the lap runs, no restore of its pages is under
way, and every PUT held for its step boundary has been applied (R350, R376). -/
def State.mayRelease (s : State) (c : Nat) : Bool :=
  let l := s.rd LAP_STATUS.STATE
  s.ctxState c == CtxSt.run && (l == LapSt.locked || l == LapSt.holdover || l == LapSt.freerun) &&
    ! (s.ctx c).rollback && ! (s.snap c).copyBack && (s.ctx c).putsDue == 0

/-- An armed entry of a context may be released now: its stride has come, every count it selects is final, and its
engine's domain is usable. -/
def State.releasable (s : State) (c e : Nat) : Bool :=
  match (s.ctx c).step with
  | none => false
  | some x =>
    let b := s.activeBank e
    let w := s.tmplWord b e 0
    decide (x.lap * 2 ^ 20 + tmplRelease w ≤ s.ct) && (s.selectedCnts b e).all (fun n => s.bit (LS_CNT.FINAL n)) &&
      (decide (40 ≤ tmplEngine w) || s.domainUsable (tmplEngine w))

/-- The lowest releasable armed entry of the chip, with its context. -/
def State.nextRelease (s : State) : Option (Nat × Nat) :=
  let of (c : Nat) : Option (Nat × Nat) :=
    if s.mayRelease c then ((entriesOf c).find? (fun e => (s.ctx c).armed.contains e && s.releasable c e)).map (fun e => (c, e)) else none
  match of 0 with
  | some r => some r
  | none => of 1

/-- Instances released in a context's step. -/
def relFld (c : Nat) : Fld := if c = 0 then LS_TSTATUS.REL_GEN else LS_TSTATUS.REL_RT
def endFld (c : Nat) : Fld := if c = 0 then LS_TSTATUS.END_GEN else LS_TSTATUS.END_RT

/-- TEMPLATE_RELEASE: one release of a clk (R85); a full queue faults the engine's stream (R86). DESIGN CHOICE: no instruction causes that
fault, and ENG_FAULT.PC takes the stream's next pc. -/
def execTemplateRelease (s : State) : Res := s.live <|
  .next (match s.nextRelease with
    | none => s
    | some (c, e) =>
      let b := s.activeBank e
      let k := streamFor c (tmplEngine (s.tmplWord b e 0))
      let args := (List.range 8).map (fun i => BitVec.ofNat 64 (s.argValue c b e (s.argSel b e i)))
      let lap := match (s.ctx c).step with
        | some x => x.lap
        | none => 0
      let s := (s.updCtx c (fun x => { x with armed := x.armed.erase e })).addMod (relFld c) 1
      let s := s.trace 1 k c e
      if 8 ≤ (s.stream k).queue.length then s.issueFault k (F_ISA_TQOVF, 0)
      else s.updStream k (fun x => { x with queue := x.queue ++ [⟨e, bitsOf (s.tmplWord b e 1) 28 0, args, lap⟩] }))

/-- INSTANCE_START: a free stream with no operation in flight takes the oldest instance of its queue (R86, R87, R281). -/
def execInstanceStart (k : Fin 50) (s : State) : Res := s.live <|
  let st := s.engState k
  .next (if s.ctxState (s.ctxOf k) ≠ CtxSt.run ∨ (s.ctx (s.ctxOf k)).faults ≠ [] ∨ (s.stream k).ops ≠ [] ∨ ¬ (st = EngSt.idle ∨ st = EngSt.fault) then s
    else match (s.stream k).queue with
      | [] => s
      | i :: q => (s.updStream k (fun x => { x with queue := q })).startInstance k i)

/-! Commits (R84, R478). -/

/-- An ARGSEL code is defined, and names no LS_CNT of the other context. -/
def argOk (c a : Nat) : Bool :=
  decide (a ≤ 8) || (decide (0x10 ≤ a) && decide (a ≤ 0x14)) || (decide (0x40 ≤ a) && decide (a < 0x80) && (cntRange c).contains (a - 0x40))

/-- A VALID entry passes the checks of R84. DESIGN CHOICE: none of them names an ENTRY that is no multiple of 8; it is accepted, and the
instance starts at that pc. -/
def State.entryOk (s : State) (c b e : Nat) : Bool :=
  let w0 := s.tmplWord b e 0
  let w1 := s.tmplWord b e 1
  let g := tmplEngine w0
  decide (g ≤ 44) && (decide (40 ≤ g) || s.ctxOf g == c) && (List.range 8).all (fun i => argOk c (s.argSel b e i)) &&
    s.inRinkWindow c (bitsOf w1 28 0) 8 && bitsOf w0 62 62 == 0 && bitsOf w0 55 52 == 0 && bitsOf w0 31 0 == 0 && bitsOf w1 63 29 == 0 &&
    s.tmplWord b e 7 == 0

/-- Every VALID entry of a partition's shadow bank passes. -/
def State.bankOk (s : State) (c : Nat) : Bool :=
  let b := 1 - s.rd (bankFld c)
  (entriesOf c).all (fun e => ! tmplValid (s.tmplWord b e 0) || s.entryOk c b e)

/-- A commit is requested: refused, made at once, or left for the step boundary. -/
def State.commitTemplates (s : State) (c : Nat) : State :=
  if ¬ s.bankOk c then s.report F_ISA_TMPL c 0
  else if s.ctxBusy c then s.setBit (pendFld c) true
  else s.wr (bankFld c) (1 - s.rd (bankFld c))

/-- COMMIT_GEN. -/
def execCommitGen (s : State) : Res := s.live <| .next (s.commitTemplates 0)

/-- COMMIT_RT. -/
def execCommitRt (s : State) : Res := s.live <| .next (s.commitTemplates 1)

end Sys2Proof.Machine
end

