-- ==== Sys2Proof/Machine/Boundary.lean ====
section
/-!
DEFINITION. The lap-edge actions of R339: overrun and rollback, the step boundary (R18), HALT, RESUME, entry to RUN, the
Course's activation, and what each unit records of the lap that ends.
-/

namespace Sys2Proof.Machine

/-! The end of a step. -/

/-- The Ledger auditor's check of an epoch that ends: each record opened is closed once or still open (R24, R169). -/
def State.auditLedger (s : State) (c : Nat) : State :=
  if (s.gatesOf c).all (fun g => (s.gate g).opened == (s.gate g).closedRecs + (s.recordsIn g 1).length) then s else s.auditBreach 3

/-- Records still open at a step boundary close CANCELLED, and the epoch enters the cancel list (R169, R171). -/
def State.closeOpen (s : State) (c epoch : Nat) : State :=
  let n := ((s.gatesOf c).map (fun g => (s.recordsIn g 1).length)).sum
  if n = 0 then s
  else (((s.cancelRecords c true).addCancel c epoch).addSat DSP_COUNT.UNCLOSED n).report F_DSP_UNCLOSED c 0

/-- Reduction Store entries still held at a step boundary are freed, reported once (R304). -/
def State.freeUnfreed (s : State) (c : Nat) : State :=
  if s.col.entries.any (fun e => e.2.st != 0 && e.2.ctx == c) then (s.freeEntriesOf c).report F_COL_UNFREED c 0 else s.freeEntriesOf c

/-- Each VALID trail window keeps the ended step's digest and starts anew (R413). -/
def State.keepTrails (s : State) (c epoch : Nat) : State :=
  let s := (List.range 16).foldl (fun s n =>
    if ¬ s.bit (TRAIL_WIN.VALID c n) then s
    else
      let s := s.wr (TRAIL_LAST.DIGEST c n) (s.rd (TRAIL_SUM.DIGEST c n))
      let s := (s.wr (TRAIL_LINFO.EPOCH c n) epoch).wr (TRAIL_LINFO.COUNT c n) (s.rd (TRAIL_CNT.COUNT c n))
      let s := s.setBit (TRAIL_LINFO.PARTIAL c n) (s.partials.contains (c * 16 + n))
      (s.wr (TRAIL_SUM.DIGEST c n) 0).wr (TRAIL_CNT.COUNT c n) 0) s
  { s with partials := s.partials.filter (fun p => decide (p / 16 ≠ c)) }

/-- DIRTY pages become PENDING (R347). -/
def State.pagesToPending (s : State) (c : Nat) : State :=
  ((s.snap c).pages.filter (fun e => e.2 == PageSt.dirty)).foldl (fun s e => s.setPage c e.1 PageSt.pending) s

/-- Closed marks, counts and intake of a context's engines are cleared (R85, R127, R136, R144, R168). -/
def State.clearGates (s : State) (c : Nat) : State :=
  ((s.gatesOf c).foldl (fun s g =>
    ((s.clearIntake g false).clearUsed g).updGate g (fun y => { y with closed := [], opened := 0, closedRecs := 0 })) s).clearCnt c

/-- The step boundary of a context (R18), in its running step or, at entry to RUN, with none: trails, held PUTs
and at last the settings that waited for it (R376, R413, R478). A write that becomes visible in the clk of the edge counts in the step after it
(R413), so the held PUTs come after the trails. -/
def State.stepBoundary (s : State) (c : Nat) : State :=
  let s := match (s.ctx c).step with
    | none => (s.freeRecords c).clearGates c
    | some x =>
      let s := ((s.auditLedger c).freeRecords c).closeOpen c x.epoch
      let s := (s.freeUnfreed c).clearGates c
      s.updCtx c (fun y => { y with committed := (x.epoch, s.lapNo) :: y.committed, replays := 0 })
  let epoch := (s.ctx c).step.map (fun x => x.epoch)
  let s := ((s.pagesToPending c).takeCheckpoint c).updCtx c (fun y => { y with step := none })
  let s := match epoch with
    | some e => s.keepTrails c e
    | none => s
  (s.applyHeldPuts c).applySettings c

/-! The start of a step. -/

/-- Records held for the step that begins enter intake; those of a step that was skipped are discarded (R144, R168). -/
def State.enterLater (s : State) (g epoch : Nat) : State :=
  let l := (s.gate g).later
  let ahead (e : Nat) : Nat := (e + 2 ^ 16 - epoch) % 2 ^ 16
  let s := (l.filter (fun r => decide (2 < ahead r.1))).foldl (fun s r => s.devReleaseOpt r.2.buf) s
  (s.updGate g (fun y => { y with
    later := l.filter (fun r => decide (1 ≤ ahead r.1) && decide (ahead r.1 ≤ 2))
    inbox := y.inbox ++ (l.filter (fun r => ahead r.1 == 0)).map (fun r => r.2) })).intakeStat g

/-- A step begins in the lap that begins: every VALID entry of the context's active bank is armed (R85). -/
def State.beginStep (s : State) (c : Nat) : State :=
  let e := s.lapNo % 2 ^ 16
  let armed := (entriesOf c).filter (fun i => tmplValid (s.tmplWord (s.activeBank i) i 0))
  let begun := s.lapNo :: (s.ctx c).begun.filter (fun l => decide (s.lapNo < l + 2 ^ 16))
  let s := s.updCtx c (fun x => { x with step := some { lap := s.lapNo, epoch := e }, armed := armed, begun := begun })
  let s := (((s.wr (relFld c) 0).wr (endFld c) 0).wr (CTX_STATE.EPOCH c) e).trace 4 255 c e
  ((s.gatesOf c).foldl (fun s g => s.enterLater g e) s).checkDone c

/-! What the edge does to a context. A result's second part says that a new step begins at this edge. -/

/-- A step is cancelled under R52. -/
def State.overrunCancel (s : State) (c : Nat) : State :=
  ((s.auditLedger c).cancelStep c).addSat (LAP_OVR.ABORTS c) 1 |>.report F_LAP_OVERRUN c 0

/-- A TAINTED step is rolled back (R311). -/
def State.rollBack (s : State) (c : Nat) : State × Bool :=
  let s := (((s.auditLedger c).cancelStep c).updCtx c (fun x => { x with replays := x.replays + 1 })).trouble 17
  if s.rd (COL_CTL.REPLAY_MAX c) < (s.ctx c).replays then (s.contextFault c F_COL_REPLAYMAX, false) else (s, true)

/-- The running step of a context in RUN (R52, R311). A step that is not complete, and of which no notice has come, goes
on. DESIGN CHOICE: R52 wants a stretched step complete on every member and names no notice of it, so this chip's own
completion decides here. -/
def State.edgeStep (s : State) (c : Nat) (x : Step) : State × Bool :=
  if x.tainted then s.rollBack c
  else if x.stretched then
    if x.doneCt.isSome then (s.stepBoundary c, true) else (s.overrunCancel c, true)
  else if x.overrun then
    if s.rd (LAP_OVR.POLICY c) = 0 then
      ((s.addSat (LAP_OVR.STRETCHES c) 1).updCtx c (fun y => { y with step := some { x with stretched := true, overrun := false } }), false)
    else (s.overrunCancel c, true)
  else if x.doneCt.isSome then (s.stepBoundary c, true)
  else (s, false)

/-- HALT (R327): a complete step commits, any other is cancelled. -/
def State.haltNow (s : State) (c : Nat) : State :=
  let s := match (s.ctx c).step with
    | none => s.applySettings c
    | some x =>
      if s.ctxState c = CtxSt.run ∧ x.doneCt.isSome ∧ ¬ x.tainted then s.stepBoundary c
      else ((s.auditLedger c).cancelStep c).applySettings c
  if s.ctxState c = CtxSt.torn then s
  else
    let s := s.updCtx c (fun x => { x with haltLap := none, resumeLap := none, image := none, readBack := false, retained := none })
    (s.updCtx c (fun x => { x with needRetain := false })).setCtxState c CtxSt.halted

/-- RESUME (R336): streams go on from their saved pc, the GMUs and Gate Engines from their saved entry or block (R120, R145), and the step
counts as begun at this edge. -/
def State.resumeNow (s : State) (c : Nat) : State :=
  let s := (s.streamsOf c).foldl (fun s k => if s.engState k = EngSt.saved then s.setEngState k EngSt.run else s) s
  let s := s.updCtx c (fun x => { x with
    resumeLap := none, image := none, readBack := false, retained := none
    step := x.step.map (fun t => { t with lap := s.lapNo, overrun := false, stretched := false, ovrSent := false }) })
  let s := (List.range 32).foldl (fun s u => if s.ctxOf u = c then s.gmuReach u else s) (s.setCtxState c CtxSt.run)
  (s.gatesOf c).foldl (fun s g => s.gateReach g 2) s

/-- What a Rink table of the piste map holds now (R319). -/
def State.pisteTable (s : State) (c : Nat) : List (Nat × BitVec 16) :=
  tableOf (fun _ => (0 : BitVec 16)) 16384 (fun l => BitVec.ofNat 16 (leNat (s.rinkBytes (s.rd (CTX_PISTE.PMAP c) + 2 * l) 2)))

/-- Entry to RUN at the edge that begins START_LAP (R319, R331). -/
def State.enterRun (s : State) (c : Nat) : State :=
  let s := s.updCtx c (fun x => { x with startLap := none, xlat := s.pisteTable c })
  ((s.setCtxState c CtxSt.run).setBit LAP_STATUS.CTX_SEEN true).stepBoundary c

/-- A lap that a context waits for has come. -/
def dueLap (l : Option Nat) (now : Nat) : Bool :=
  match l with
  | some x => decide (x ≤ now)
  | none => false

/-- The edge's action on one context. -/
def State.edgeContext (s : State) (c : Nat) : State × Bool :=
  let st := s.ctxState c
  let x := s.ctx c
  if s.ctxBusy c ∧ dueLap x.haltLap s.lapNo then (s.haltNow c, false)
  else if st = CtxSt.run then match x.step with
    | some t => s.edgeStep c t
    | none => (s, false)
  else if st = CtxSt.saved ∧ dueLap x.resumeLap s.lapNo ∧ x.readBack then (s.resumeNow c, false)
  else if st = CtxSt.delivered ∧ dueLap x.startLap s.lapNo then (s.enterRun c, true)
  else (s, false)

/-! The Course (R155, R156). -/

/-- A staged Course whose lap has come is accepted; it becomes active at the first edge with no stretched step. -/
def State.courseEdge (s : State) : State :=
  let s := if s.bit COURSE_STATUS.STAGED ∧ s.rd COURSE_ACT.ACT_LAP ≤ s.lapNo then s.setBit COURSE_STATUS.PENDING true else s
  let inside := (List.range 2).any (fun c => match (s.ctx c).step with
    | some x => x.stretched
    | none => false)
  if s.bit COURSE_STATUS.PENDING ∧ ¬ inside then s.activateCourse else s

/-- VALID slots that port `n` serves in a lap. -/
def State.validSlots (s : State) (n : Nat) : Nat :=
  let t := (s.course (s.rd COURSE_STATUS.BANK)).slots
  let own (m : Nat) := t.filter (fun e => e.1 / 16384 == m && slotValid e.2.toNat)
  (own n).length + if s.isShared (partner n) then
    ((own (partner n)).filter (fun e => ! slotValid (s.slotWord n (e.1 % 16384)))).length else 0

/-- The lap's slot counts of a port and the Slot auditor's check (R24). A slot whose start was not commanded counts by its VALID bit. -/
def State.slotEdge (s : State) (n : Nat) : State :=
  let s := s.endSlot n
  let x := s.port n
  let v := s.validSlots n
  let seenValid := (x.seen.filter (fun i => slotValid (s.servedSlot n i))).length
  let idle := x.idle + (v - seenValid)
  let opened := x.opened + (16384 - v - (x.seen.length - seenValid))
  let s := ((s.wr (SLOT_CNT.FILLED n) x.filled).wr (SLOT_CNT.IDLE n) idle).wr (SLOT_CNT.OPEN n) opened
  let s := s.updPort n (fun y => { y with filled := 0, idle := 0, opened := 0, seen := [], doubled := false, ingress := 0 })
  if x.doubled ∨ x.filled + idle + opened ≠ 16384 then s.auditBreach 2 else s

/-! Records of the lap that ends. -/

/-- The accounting table (R341), by the state that each context had in the lap that ends. -/
def State.accountEdge (s : State) : State :=
  (List.range 2).foldl (fun s c =>
    let st := s.ctxState c
    let n := s.acctEntry c
    if st = CtxSt.prepared ∨ st = CtxSt.delivered ∨ st = CtxSt.halted then s.addSat (ACCT_CNT.WAIT_LAPS n) 1
    else if st = CtxSt.saving ∨ st = CtxSt.saved then s.addSat (ACCT_CNT.SAVED_LAPS n) 1
    else s) s

/-- The levels (R185). DESIGN CHOICE: the spec gives the cluster stores' ports no rule, so in a lap with accesses to them the refusals
of level 0 and the most that waited are free values. -/
def State.levelEdge (s : State) : State :=
  let used := tget (fun _ => 0) s.levels 12 ≠ 0
  let x := s.free
  let y := x.2.free
  let s := if used then y.2 else s
  let get (k : Nat) : Nat :=
    if used ∧ k = 0 then x.1 % 2 ^ 32 else if used ∧ k = 4 then y.1 % 2 ^ 16 else tget (fun _ => 0) s.levels k
  let s1 := (List.range 4).foldl (fun s n =>
    (s.wr (LVL_OCC.SAT_LAST n) (capped 32 (get n))).wr (LVL_OCC.PEAK n) (capped 16 (get (4 + n)))) s
  let top := (List.range 4).foldl (fun b n => if get b < get n then n else b) 0
  { (s1.wr LVL_SAT.LEVEL top).wr LVL_SAT.VALID (if get top = 0 then 0 else 1) with levels := [] }

/-- The causes that count once per lap (R426). -/
def State.flagEdge (s : State) : State := { s.lapFlags.foldl (fun s i => s.trouble i) s with lapFlags := [] }

/-- LAPDIFF: a signed 15-bit value that saturates. -/
def lapDiff (a b : Nat) : Nat :=
  let d : Int := (a : Int) - b
  (BitVec.ofInt 15 (max (-16384) (min 16383 d))).toNat

/-- DBG_REPEAT takes the lap's counts (R409); `before` is the clk count of the lap before. -/
def State.repeatEdge (s : State) (before : Nat) : State :=
  let get (k : Nat) : Nat := tget (fun _ => 0) s.repeats k
  let w (f : Fld) (v : Nat) (s : State) : State := s.wr f (capped 8 v)
  let s1 := s |> w DBG_REPEAT.EXTRA (get 0) |> w DBG_REPEAT.RETRY (get 1) |> w DBG_REPEAT.SAMPLE (get 2) |> w DBG_REPEAT.RWIN (get 3)
    |> w DBG_REPEAT.SS (get 4 / 4) |> w DBG_REPEAT.UNHELD (get 5)
  let s2 := s1.wr DBG_REPEAT.LAPDIFF (lapDiff (s1.rd LAP_LCC.LAST_LAP_CLK) before)
  { s2.setBit DBG_REPEAT.QUIET (decide (bitsOf (s2.reg DBG_REPEAT.QUIET.off).toNat 63 16 = 0)) with repeats := [] }

/-- A controller's counts of the lap (R210, R227). -/
def State.memEdge (s : State) (m : Nat) : State :=
  let get (k : Nat) : Nat := tget (fun _ => 0) (s.mem m).ce k
  let s1 := (List.range 16).foldl (fun s k => s.wr (MEM_CH.CE_LAP m k) (capped 8 (get k))) s
  let s2 := (s1.wr (MEM_QUEUE.DEPTH_MAX m) (s1.mem m).depth).updMem m (fun x => { x with ce := [], depth := 0 })
  let ages := ((List.range 16).filter (fun k => s2.channelOn m k)).map (fun k => (s2.lapNo + 2 ^ 32 - s2.rd (MEM_CH.LAST_PASS m k)) % 2 ^ 32)
  s2.wr (MEM_TRAIN.OLDEST m) (capped 16 (ages.foldl max 0))

/-- Settings that take effect at a lap edge; the digest follows a change of the epoch, CFG_USER or the Course (R398). -/
def State.lapSettings (s : State) (course : Bool) : State :=
  let ds := s.lapDeferred
  let s := ds.foldl (fun s d => s.applySetting d.1 d.2) { s with lapDeferred := [] }
  if course ∨ ds.any (fun d => d.1 = CFG_EPOCH.EPOCH.off ∨ d.1 = CFG_USER.VALUE.off) then
    s.wr CFG_DIGEST.VALUE (leNat ((Config.sha3_256 (s.sec.running.hash ++ leBytes 4 (s.rd CFG_EPOCH.EPOCH) ++ s.activeCourse.hash ++
      leBytes 8 (s.rd CFG_USER.VALUE))).take 8))
  else s

/-- Begin the step of a context that is still RUN. -/
def State.beginIf (s : State) (c : Nat) (b : Bool) : State := if b ∧ s.ctxState c = CtxSt.run then s.beginStep c else s

/-- Every lap-edge action, once the new lap has begun; `before` is the clk count of the lap before the one that ends. -/
def State.lapEdgeActions (s : State) (before : Nat) : State :=
  let s := (List.range 12).foldl (fun s n => s.slotEdge n) s
  let s := s.accountEdge
  let (s, b0) := s.edgeContext 0
  let (s, b1) := s.edgeContext 1
  let bank := s.rd COURSE_STATUS.BANK
  let s := s.courseEdge
  let s := s.lapSettings (s.rd COURSE_STATUS.BANK != bank)
  let s := (s.beginIf 0 b0).beginIf 1 b1
  let s := ((s.levelEdge).flagEdge).repeatEdge before
  let s := (List.range 12).foldl (fun s m => s.memEdge m) s
  ((s.powerEdge).avsEdge).censusEdge

/-! OVERRUN (R50 to R53). -/

/-- OVERRUN_SEND: at stride D this chip's part of a step is not complete, or completed at D or later (R50). -/
def execOverrunSend (c : Fin 2) (s : State) : Res := s.live <|
  .next (match (s.ctx c).step with
    | none => s
    | some x =>
      let d := x.lap * 2 ^ 20 + s.rd (LAP_OVR.DEADLINE c)
      let late : Bool := match x.doneCt with
        | none => true
        | some t => decide (d ≤ t)
      if s.ctxState c ≠ CtxSt.run ∨ x.ovrSent ∨ s.ct < d ∨ ¬ late then s
      else
        let g := s.rd (LAP_OVR.GROUP c)
        let job := s.rd (CTX_JOB.JOB c)
        let leaves : Bool := s.mgValid g job && s.mgRoot g && ! s.selfFenced
        let s := s.updCtx c (fun y => { y with step := some { x with ovrSent := true, overrun := x.overrun || leaves } })
        let p := mkPacket { cls := Cls.ctl, mode := 1, src := s.chipId, job := job, mgroup := g, opc := 5, epoch := x.epoch } []
        (s.originateTree c p).trace 6 255 c x.epoch)

/-- The latest lap whose number ends in the batch epoch `e`. -/
def State.lapOfEpoch (s : State) (e : Nat) : Nat := s.lapNo - (s.lapNo + 2 ^ 16 - e) % 2 ^ 16

/-- OVERRUN_RX: the notice marks the running step. A notice of lap L is late once the step of lap L + 1 has begun here,
committed, cancelled or running (R52, R53). Any other notice has no effect. -/
def execOverrunRx (n : Fin 13) (p : Packet) (s : State) : Res := s.live <|
  .next (if pkClass p ≠ Cls.ctl ∨ pkOpc p ≠ 5 then s
    else s.receive n p true (fun s q =>
      let s := s.leave q
      match s.ctxOfJob (pkJob p) with
      | none => s
      | some c =>
        let s := s.acceptPoison c p
        if s.ctxState c ≠ CtxSt.run then s
        else
          let late : Bool := (s.ctx c).begun.contains (s.lapOfEpoch (pkEpoch p) + 1)
          match (s.ctx c).step with
          | none => if late then s.contextFault c F_LAP_LATEOVR else s
          | some x =>
            if x.epoch = pkEpoch p then s.updCtx c (fun y => { y with step := some { x with overrun := true } })
            else if late then s.contextFault c F_LAP_LATEOVR
            else s))

end Sys2Proof.Machine
end

