-- ==== Sys2Proof/Machine/Lap.lean ====
section
/-!
DEFINITION. The Lap Unit: enabling, the discipline loop, reference edges, states and the lap edge (R31 to R55).
-/

namespace Sys2Proof.Machine

/-! Time passes. -/

/-- Add `n` clk to a count kept in units of 256: the part of a unit, and the state. -/
def State.addUnits (s : State) (f : Fld) (rest n : Nat) : Nat × State := ((rest + n) % 256, s.addSat f ((rest + n) / 256))

/-- The counters that count clk in which a unit waits or works. -/
def State.unitClk (s : State) (n : Nat) : State :=
  let s := ((List.range 50).filter (fun k =>
    let st := s.engState k
    st == EngSt.waitCc || st == EngSt.waitLap || st == EngSt.waitBuf || (st == EngSt.run && (s.stream k).fenceWait != none))).foldl
      (fun s k => s.addSat (ENG_COUNT.STALL_CLK k) n) s
  let s := if (List.range 6).any (fun p => s.waitQ p != []) then s.addSat LKR_COUNT.WAIT_CLK n else s
  let s := ((List.range 32).filter (fun u => match s.gmu u with
    | [] => false
    | x :: _ => x.desc != [])).foldl (fun s u => s.addSat (GMU_COUNT.BUSY_CLK u) n) s
  let s := ((List.range 8).filter (fun g => (s.gate g).waiting)).foldl (fun s g =>
    let r := s.addUnits (GE_COUNT1.RET_WAIT g) (s.gate g).waitClk n
    r.2.updGate g (fun x => { x with waitClk := r.1 })) s
  let s := if (List.range 2).any (fun c => s.admits c != []) then
      let r := s.addUnits RS_COUNT.ADMIT_WAIT s.col.waitClk n
      r.2.updCol (fun x => { x with waitClk := r.1 })
    else s
  if s.heldRanges != [] then
    let r := s.addUnits SNP_COUNT.PRESERVE_CLK (s.snap 0).heldClk n
    (r.2.saturateFor 2 n).updSnap 0 (fun x => { x with heldClk := r.1 })
  else s

/-- The Lap Unit runs. -/
def State.lapRuns (s : State) : Bool := s.rd LAP_STATUS.STATE != LapSt.stopped

/-- A running stream fetches the word at its pc: an uncorrectable one faults (R177), and so does a reserved opcode, with the lowest field at
fault, precise as any fault found at issue (R63, R80, R81). -/
def State.fetchOne (s : State) (k : Nat) : State :=
  let pc := s.rd (ENG_PC.PC k)
  if s.engState k ≠ EngSt.run ∨ (s.stream k).fenceWait ≠ none ∨ s.unretired k ≠ [] ∨ ¬ s.inRinkWindow (s.ctxOf k) pc 8 then s
  else if s.rinkBad pc 8 then (s.checkRead (rinkPort k) 1 pc 8 false).issueFault k (F_LKR_RINKUE, 0)
  else
    let w := s.rinkWord pc
    let i := Fin.ofNat 50 k
    let bad := (badGuard w).foldl min (reservedAt i (BitVec.ofNat 64 w))
    if (velimInstr i (BitVec.ofNat 64 w)).isSome then s else s.issueFault k (F_ISA_ENC, bad)

/-- Every stream fetches, unless the machine stands. -/
def State.fetchAll (s : State) : State := if s.stopped ∨ s.frozen then s else (List.range 50).foldl (fun s k => s.fetchOne k) s

/-- The end of a clk: the changes and the faults that the clk has gathered. -/
def State.endClk (s : State) : State :=
  let t := s.settleRefs.settleAdmits.fetchAll.settleFaults
  if t.frozen then t else t.promote

/-- `n` clk pass within a lap: the accumulator and the LCC advance unless the Lap Unit is STOPPED (R36, R43); then a change of the fence
table takes effect, and the links do what is due. -/
def State.advance (s : State) (n : Nat) : State :=
  let s := s.endClk.unitClk n
  let s := if s.frozen then s else s.rinkRun (min n (s.rinkQ.length + 2)) 0
  let t := { s with clk := s.clk + n }
  let t := if t.lapRuns then
      (t.updLap (fun x => { x with acc := x.acc + BitVec.ofNat 64 (n * t.rd LAP_LOOP.PHASE_INC) })).wr LAP_LCC.LCC (t.lcc + n)
    else t
  (List.range 12).foldl (fun t p => t.linkClk p) t.fenceClk

/-- Clk until the accumulator carries; none while it stands. -/
def State.clkToCarry (s : State) : Option Nat :=
  let inc := s.rd LAP_LOOP.PHASE_INC
  if ¬ s.lapRuns ∨ inc = 0 then none else some ((2 ^ 64 - s.lap.acc.toNat + inc - 1) / inc)

/-! The discipline loop (R37). Clk per lap are held in units of 1/(16,384 * 10^7) clk. -/

def lapUnit : Int := 163840000000

/-- Nominal clk per lap: PERIOD_US at 940 MHz. -/
def State.nNom (s : State) : Int := s.rd LAP_CFG.PERIOD_US * 940

/-- round(2^64 / n). -/
def incOf (n : Int) : Nat := ((2 ^ 65 * lapUnit + n) / (2 * n)).toNat

def clampInt (x lo hi : Int) : Int := if x < lo then lo else if hi < x then hi else x

/-- A phase error is within LOCK_TOL. -/
def State.inTol (s : State) (e : Int) : Bool := decide (e.natAbs ≤ s.rd LAP_CFG.LOCK_TOL * 256)

/-- Enter LOCKED. -/
def State.enterLocked (s : State) : State :=
  ((s.wr LAP_STATUS.STATE LapSt.locked).wr LAP_STATUS.HOLD_LAPS 0).updLap (fun x => { x with missRun := 0, clampRun := 0 })

/-- Enter HOLDOVER: PHASE_INC becomes the mean of the last 16 locked laps (R38). DESIGN CHOICE: the mean is rounded half up; with
fewer than 16 laps locked since ENABLE all of them count, laps from before a RELOCK among them; with none PHASE_INC stays. -/
def State.enterHoldover (s : State) : State :=
  let s := (((s.wr LAP_STATUS.STATE LapSt.holdover).wr LAP_STATUS.HOLD_LAPS 0).wr LAP_STATUS.LOCK_RUN 0).trouble 2
  let s := s.updLap (fun x => { x with missRun := 0, clampRun := 0, bakRun := 0, holdexp := false })
  let h := s.lap.incHist
  if h = [] then s
  else
    let inc := (2 * h.sum + h.length) / (2 * h.length)
    (s.wr LAP_LOOP.PHASE_INC inc).updLap (fun x => { x with nEff := (2 ^ 65 * lapUnit + inc) / (2 * inc) })

/-- A usable phase error of the active source drives the loop, and the state follows (R37, R38). -/
def State.loopUpdate (s : State) (e : Int) : State :=
  let st := s.rd LAP_STATUS.STATE
  let nom := s.nNom
  let integ := s.lap.integ + e
  let n0 := nom * lapUnit + e * 80000000 + integ * 10000000
  let slew := nom * s.rd LAP_CFG.SLEW * 16384
  let n1 := if st = LapSt.locked ∨ st = LapSt.holdover then clampInt n0 (s.lap.nEff - slew) (s.lap.nEff + slew) else n0
  let far := nom * 40960000
  let n2 := clampInt n1 (nom * lapUnit - far) (nom * lapUnit + far)
  let run := if s.inTol e then min 255 (s.rd LAP_STATUS.LOCK_RUN + 1) else 0
  let clamps := if n1 = n2 then 0 else s.lap.clampRun + 1
  let s := s.updLap (fun x => { x with integ := integ, nEff := n2, clampRun := clamps, missRun := 0 })
  let s := ((s.wr LAP_PERR.PERR (BitVec.ofInt 32 e).toNat).wr LAP_LOOP.PHASE_INC (incOf n2)).wr LAP_STATUS.LOCK_RUN run
  if st = LapSt.locked ∧ 8 ≤ clamps then (s.report F_LAP_RANGE 2 0).enterHoldover
  else if (st = LapSt.acquire ∨ st = LapSt.holdover) ∧ 8 ≤ run then s.enterLocked
  else s

/-! Sources (R31, R37). -/

/-- Lap source codes. -/
def Src.lapIn : Nat := 1
def Src.ptp : Nat := 2
def Src.fabric : Nat := 3
def Src.freerun : Nat := 4

/-- The host port of a PTP source: that of SRC_BAK uses the other one. -/
def State.ptpPort (s : State) (bak : Bool) : Nat := if bak then 1 - s.rd LAP_CTRL.PTP_PORT else s.rd LAP_CTRL.PTP_PORT

/-- An edge of a source is one of the active source. -/
def State.isActive (s : State) (src port : Nat) : Bool :=
  s.rd LAP_STATUS.SRC_ACTIVE == src && (src != Src.ptp || port == s.ptpPort s.lap.onBackup)

/-- Code of the backup: whichever of SRC_PRI and SRC_BAK is not the active source. -/
def State.backupCode (s : State) : Nat := if s.lap.onBackup then s.rd LAP_CTRL.SRC_PRI else s.rd LAP_CTRL.SRC_BAK

/-- An edge of a source is one of the backup. -/
def State.isBackup (s : State) (src port : Nat) : Bool :=
  s.rd LAP_CTRL.SRC_BAK != 0 && s.backupCode == src && (src != s.rd LAP_STATUS.SRC_ACTIVE || src == Src.ptp) &&
    (src != Src.ptp || port == s.ptpPort (! s.lap.onBackup))

/-- The backup becomes the active source. -/
def State.switchSource (s : State) : State :=
  (s.wr LAP_STATUS.SRC_ACTIVE s.backupCode).updLap (fun x => { x with
    onBackup := ! x.onBackup, missRun := 0, refEarly := x.bakEarly, bakEarly := none, bakErr := none, bakRun := 0 })

/-- Where a reference edge `r`, in 1/256 clk from the start of the lap, lies: its error against the latest edge, against
the coming edge, or outside both windows of 16,384 strides. -/
inductive RefPlace where
  | past (e : Int)
  | coming (e : Int)
  | outside
  deriving DecidableEq, Repr

def State.placeRef (s : State) (r : Int) : RefPlace :=
  let inc : Int := s.rd LAP_LOOP.PHASE_INC
  let near (e : Int) : Bool := decide (e.natAbs * inc ≤ 16384 * 2 ^ 52)
  if near r then .past r
  else match s.clkToCarry with
    | none => .outside
    | some k =>
      let e := r - 256 * ((s.lcc + k : Nat) : Int)
      if near e then .coming e else .outside

/-! The lap edge (R34, R38, R43). -/

/-- Child ports of the lap tree. -/
def State.markerPorts (s : State) : List Nat :=
  let g := s.rd LAP_CTRL.TREE_GROUP
  if bitsOf (s.mgWord g 0) 63 63 = 1 then s.mgPorts g else []

/-- A lap marker is queued toward every child: a CTL packet to the neighbour, which gets its departure time when its first flit leaves.
A self-fenced chip sends none, and none goes toward a fenced chip (R263, R264). -/
def State.sendMarkers (s : State) : State :=
  if s.selfFenced then s
  else s.markerPorts.foldl (fun s n =>
    let d := n % 6
    if s.fenced (s.neighbour d) then s
    else match s.portFor d (n / 6) Cls.ctl with
      | none => s
      | some m =>
        let i : PacketInfo := { cls := Cls.ctl, dest := s.neighbour d, src := s.chipId, job := 0, opc := 2 }
        s.queuePort m { pkt := s.outgoing (mkPacket i (markerPayload s.lapNo 0 0)) none d }) s

/-- A new lap begins: number `lap`, `count` clk in the lap that ends. -/
def State.beginLap (s : State) (lap count : Nat) : State :=
  (s.wr LAP_CT.LAP lap).wr LAP_LCC.LAST_LAP_CLK count

/-- The lap that ends had no usable reference edge (R37, R38). -/
def State.countMissed (s : State) : State :=
  let s := ((s.addSat LAP_COUNT.MISSED 1).wr LAP_STATUS.LOCK_RUN 0).updLap (fun x => { x with clampRun := 0, missRun := x.missRun + 1 })
  if s.rd LAP_STATUS.STATE = LapSt.locked ∧ s.rd LAP_CFG.MISS_MAX ≤ s.lap.missRun then
    match s.lap.bakErr with
    | some e => if s.inTol e then s.switchSource else s.enterHoldover
    | none => s.enterHoldover
  else s

/-- The backup's run of good laps, which can end a holdover. -/
def State.countBackup (s : State) : State :=
  let good : Bool := match s.lap.bakErr with
    | some e => s.inTol e
    | none => false
  let s := s.updLap (fun x => { x with bakRun := if good then x.bakRun + 1 else 0 })
  if s.rd LAP_STATUS.STATE = LapSt.holdover ∧ 8 ≤ s.lap.bakRun then s.switchSource.enterLocked else s

/-- The discipline's part of an internal lap edge. -/
def State.disciplineEdge (s : State) : State :=
  let st := s.rd LAP_STATUS.STATE
  let s := if st = LapSt.holdover then s.addSat LAP_STATUS.HOLD_LAPS 1
    else if st = LapSt.locked then s.updLap (fun x => { x with incHist := (s.rd LAP_LOOP.PHASE_INC :: x.incHist).take 16 })
    else s
  if st = LapSt.freerun then s
  else
    let s := if s.lap.refDone then s else s.countMissed
    let s := s.countBackup
    let early := s.lap.refEarly
    let s := s.updLap (fun x => { x with refDone := early.isSome, refEarly := none, bakErr := x.bakEarly, bakEarly := none })
    match early with
    | some e => s.loopUpdate e
    | none => s

/-- LAP_EDGE: the clk pass until the accumulator carries, and the next lap begins. -/
def execLapEdge (s : State) : Res := s.live <|
  .next (match s.clkToCarry with
    | none => s
    | some k =>
      let before := s.rd LAP_LCC.LAST_LAP_CLK
      let t := s.advance k
      let t := ((t.beginLap (s.lapNo + 1) (s.lcc + k)).wr LAP_LCC.LCC 0).disciplineEdge
      t.sendMarkers.lapEdgeActions before)

/-! Reference edges. -/

/-- The phase step of ACQUIRE (R38): the lap number `lap` began `el`, in 1/256 clk, before now. -/
def State.phaseStep (s : State) (lap el : Nat) : State :=
  let s := s.settleAdmits.settleFaults
  let before := s.rd LAP_LCC.LAST_LAP_CLK
  let inc := s.rd LAP_LOOP.PHASE_INC
  let t := (s.beginLap lap s.lcc).updLap (fun x => { x with
    acc := BitVec.ofNat 64 (inc * el / 256), stepped := true, integ := 0, refDone := true, refEarly := none, bakErr := none,
    bakEarly := none })
  let t := (t.wr LAP_LCC.LCC (el / 256)).loopUpdate 0
  t.sendMarkers.lapEdgeActions before

/-- A reference edge outside the window counts as a glitch (R37). -/
def State.glitch (s : State) : State := (s.addSat LAP_COUNT.GLITCH 1).trouble 3

/-- A usable edge of the active source. Of two edges that belong to one internal edge the first counts. -/
def State.activeEdge (s : State) (place : RefPlace) : State :=
  match place with
  | .past e => if s.lap.refDone then s else (s.updLap (fun x => { x with refDone := true })).loopUpdate e
  | .coming e => s.updLap (fun x => { x with refEarly := if x.refEarly = none then some e else x.refEarly })
  | .outside => s.glitch

/-- An edge of the backup, measured by the same rule and with the same window (R37). -/
def State.backupEdge (s : State) (place : RefPlace) : State :=
  match place with
  | .past e => s.updLap (fun x => { x with bakErr := if x.bakErr = none then some e else x.bakErr })
  | .coming e => s.updLap (fun x => { x with bakEarly := if x.bakEarly = none then some e else x.bakEarly })
  | .outside => s.glitch

/-- A reference edge at `r`, in 1/256 clk from the start of the lap, of a source; `lap` is the number of the lap that it
begins, for the phase step. In ACQUIRE the first usable edge makes the step (R38). -/
def State.reference (s : State) (src port lap : Nat) (r : Int) : State :=
  let st := s.rd LAP_STATUS.STATE
  let place := s.placeRef r
  if ¬ (st = LapSt.acquire ∨ st = LapSt.locked ∨ st = LapSt.holdover) then s
  else if s.isActive src port then
    if st = LapSt.acquire ∧ ¬ s.lap.stepped ∧ ¬ s.bit LAP_STATUS.CTX_SEEN ∧ place ≠ .outside then
      s.phaseStep lap ((s.lcc * 256 : Nat) - r).toNat
    else s.activeEdge place
  else if s.isBackup src port then s.backupEdge place
  else s

/-- The stamp of an edge that came `frac`/256 clk before the clk in which it leaves its synchroniser, in 1/256 clk from the start
of the lap (R47). -/
def State.stamp (s : State) (frac : BitVec 8) : Int := s.lcc * 256 - frac.toNat

/-- LAP_IN_EDGE. -/
def execLapInEdge (frac : BitVec 8) (s : State) : Res := s.live <| .next (s.reference Src.lapIn 0 (s.lapNo + 1) (s.stamp frac))

/-- The port whose markers are the FABRIC reference: PARENT_PORT, or while it is out of service its rail partner (R31, R265). -/
def State.parentPort (s : State) : Nat :=
  let n := s.rd LAP_CTRL.PARENT_PORT
  if ¬ s.inService n ∧ s.inService (partner n) then partner n else n

/-- A lap marker from the parent: lap number, departure time in 1/256 stride, and the arrival stamp in 1/256 clk. The parent's edge lies the
link delay and the time since that edge before the arrival. In LOCKED a marker of another lap is discarded (R44). A marker that a replay
brought gives no edge, since the link delay does not tell when it arrived (DEDUCED from R235). -/
def State.takeMarker (s : State) (n lap depart : Nat) (resent : Bool) (stamp : Int) : State :=
  if s.rd LAP_STATUS.STATE = LapSt.locked ∧ lap ≠ s.lapNo then (s.addSat LAP_COUNT.MARKER_BAD 1).report F_LAP_MARKER 2 0
  else if resent then s
  else
    let inc := s.rd LAP_LOOP.PHASE_INC
    let away : Nat := if inc = 0 then 0 else depart * 2 ^ 44 / inc
    s.reference Src.fabric 0 lap (stamp - s.rd (PORT_DELAY.DELAY n) - away)

/-- LAP_MARKER_RX: a lap marker, which left its synchroniser `frac`/256 clk before this clk. It is a packet to this chip like any other;
one from a port that is not the parent's is consumed without effect. -/
def execLapMarkerRx (m : MarkerArrival) (s : State) : Res := s.live <|
  let n := m.port
  let p := m.packet
  .next (if pkClass p ≠ Cls.ctl ∨ pkOpc p ≠ 2 then s
    else s.receive n p true (fun s q =>
      let s := s.leave q
      let lap := leNat (p.payload.take 8)
      let ct := leNat ((p.payload.drop 8).take 8)
      let f := leNat ((p.payload.drop 16).take 1)
      if n.val ≠ s.parentPort then s
      else s.takeMarker n lap ((ct - lap * 2 ^ 20) * 256 + f) m.resent (s.stamp m.frac)))

/-! The PTP clock (R33). Its messages are those of IEEE 1588-2019, whose layouts the spec does not repeat: PRESUMED. -/

def State.ptpClock (s : State) (n : Nat) : PtpClock := tget (fun _ => {}) s.lap.ptp n
def State.setPtpClock (s : State) (n : Nat) (c : PtpClock) : State := s.updLap (fun x => { x with ptp := tset (fun _ => {}) x.ptp n c })

/-- The clk in which the PTP clock of a port reaches the time `t` in ns, and the part of that clk that has then passed, in 1/256:
its local time is t plus its offset, and a clk lasts 50/47 ns (R9). -/
def PtpClock.when (c : PtpClock) (t : Nat) : Nat × Nat :=
  let local256 := ((t : Int) + c.offset).toNat * 47 * 256 / 50
  (local256 / 256, local256 % 256)

/-- PTP_LAP_EDGE: the PTP clock reaches, in this clk, an instant at which a lap begins (R31, R34). -/
def execPtpLapEdge (port : Fin 2) (sec : BitVec 48) (ns : BitVec 32) (s : State) : Res := s.live <|
  let t := sec.toNat * 1000000000 + ns.toNat
  let period := s.rd LAP_CFG.PERIOD_US * 1000
  let since := (BitVec.ofNat 64 t - s.reg LAP_PTP.ORIGIN.off).toNat
  let w := (s.ptpClock port).when t
  .next (if ¬ s.bit (HP_CTL.PTP port) ∨ period = 0 ∨ since % period ≠ 0 ∨ w.1 ≠ s.clk then s
    else s.reference Src.ptp port (since / period) (s.lcc * 256 + w.2))

/-- A message type of IEEE 1588: Sync, Delay_Req, Follow_Up, Delay_Resp. -/
def Ptp.sync : Nat := 0
def Ptp.delayReq : Nat := 1
def Ptp.followUp : Nat := 8
def Ptp.delayResp : Nat := 9

/-- Fields of a PTP message, in network byte order (R8): type, two-step flag, correction in ns, sequence number, and the timestamp
of its body in ns. -/
def ptpType (l : List Byte) : Nat := beNat (l.take 1) % 16
def ptpTwoStep (l : List Byte) : Bool := (beNat ((l.drop 6).take 1)).testBit 1
def ptpCorr (l : List Byte) : Int := (BitVec.ofNat 64 (beNat ((l.drop 8).take 8))).toInt / 65536
def ptpSeq (l : List Byte) : Nat := beNat ((l.drop 30).take 2)
def ptpStamp (l : List Byte) : Nat := beNat ((l.drop 34).take 6) * 1000000000 + beNat ((l.drop 40).take 4)

/-- A PTP timestamp: 48 bits of seconds and 32 bits of ns. -/
def ptpTime (t : Nat) : List Byte := beBytes 6 (t / 1000000000) ++ beBytes 4 (t % 1000000000)

/-- The source port identity: the EUI-64 of the port's MAC address, and port number 1. -/
def State.ptpIdentity (s : State) (n : Nat) : List Byte :=
  let m := s.rd (HP_MAC.MAC n)
  beBytes 3 (m / 2 ^ 24) ++ beBytes 2 0xFFFE ++ beBytes 3 (m % 2 ^ 24) ++ beBytes 2 1

/-- A Delay_Req message. -/
def State.ptpDelayReq (s : State) (n seq : Nat) : List Byte :=
  beBytes 1 Ptp.delayReq ++ beBytes 1 2 ++ beBytes 2 44 ++ List.replicate 16 0 ++ s.ptpIdentity n ++ beBytes 2 seq ++ beBytes 1 1 ++
    beBytes 1 0x7F ++ ptpTime 0

/-- The offset follows the master: `ms` is arrival less origin, of which the path delay is no part (R33). A Delay_Req is sent for
each Sync: DESIGN CHOICE, the spec gives no rate. -/
def State.ptpSynced (s : State) (n : Nat) (v6 : Bool) (ms : Int) : State :=
  let c := s.ptpClock n
  let seq := (c.reqSeq + 1) % 2 ^ 16
  (s.setPtpClock n { c with offset := ms - c.delay, reqAt := s.localNs, reqSeq := seq }).sendUdp n
    ⟨v6, ptpGroup v6, 319, 319, s.ptpDelayReq n seq⟩

/-- A PTP message reaches the slave-only ordinary clock of a port (R33). With t1 to t4 the instants of IEEE 1588, the path delay is
((t2 - t1) + (t4 - t3)) / 2 and the offset (t2 - t1) less the path delay. -/
def State.ptpMessage (s : State) (n : Nat) (d : Dgram) : State :=
  let c := s.ptpClock n
  let l := d.data
  if l.length < 44 then s
  else if ptpType l = Ptp.sync then
    let s := s.setPtpClock n { c with syncAt := s.localNs, syncSeq := ptpSeq l, syncCorr := ptpCorr l }
    if ptpTwoStep l then s else s.ptpSynced n d.v6 ((s.localNs : Int) - ptpStamp l - ptpCorr l)
  else if ptpType l = Ptp.followUp then
    if ptpSeq l ≠ c.syncSeq then s else s.ptpSynced n d.v6 ((c.syncAt : Int) - ptpStamp l - c.syncCorr - ptpCorr l)
  else if ptpType l = Ptp.delayResp then
    if ptpSeq l ≠ c.reqSeq ∨ (l.drop 44).take 10 ≠ s.ptpIdentity n then s
    else
      let ms := c.offset + c.delay
      let delay := (ms + ((ptpStamp l : Int) - ptpCorr l - c.reqAt)) / 2
      s.setPtpClock n { c with delay := delay, offset := ms - delay }
  else s

/-- PTP_MESSAGE_RX: a frame with a PTP message on UDP port 319 or 320 of a host port (R33, R361). -/
def execPtpMessageRx (port : Fin 2) (f : Frame) (s : State) : Res := s.live <|
  .next (s.onFrame port f (fun s => match s.dgramOf port f with
    | none => s.hostDrop port
    | some d =>
      if (d.near = 319 ∨ d.near = 320) ∧ s.bit (HP_CTL.PTP port) ∧ s.hostState port = HpSt.up then s.ptpMessage port d
      else s.hostDrop port))

/-- LAP_HOLDEXP: the holdover has lasted HOLD_MAX laps, reported once (R41). -/
def execLapHoldexp (s : State) : Res := s.live <|
  .next (if s.rd LAP_STATUS.STATE = LapSt.holdover ∧ s.rd LAP_CFG.HOLD_MAX ≤ s.rd LAP_STATUS.HOLD_LAPS ∧ ¬ s.lap.holdexp then
      (s.updLap (fun x => { x with holdexp := true })).report F_LAP_HOLDEXP 2 0
    else s)

/-! Control and configuration (R31, R38, R39, R54). -/

/-- The state of a loop that starts: nominal increment, no integral, no history. -/
def State.startLoop (s : State) : State :=
  let s := s.updLap (fun x => { ptp := x.ptp, nEff := s.nNom * lapUnit, refDone := true })
  ((s.wr LAP_LOOP.PHASE_INC (incOf (s.nNom * lapUnit))).wr LAP_STATUS.LOCK_RUN 0).wr LAP_STATUS.HOLD_LAPS 0

/-- ENABLE is set in STOPPED: lap LAP_CT.LAP begins (R38, R43). -/
def State.startLap (s : State) : State :=
  let src := s.rd LAP_CTRL.SRC_PRI
  let s := ((s.startLoop.setBit LAP_CTRL.ENABLE true).setReg LAP_LCC.LCC.off 0).wr LAP_STATUS.SRC_ACTIVE src
  (s.setBit LAP_STATUS.CTX_SEEN false).wr LAP_STATUS.STATE (if src = Src.freerun then LapSt.freerun else LapSt.acquire)

/-- The unit returns to STOPPED. DESIGN CHOICE: SRC_ACTIVE, CTX_SEEN, LOCK_RUN and HOLD_LAPS then read 0; R38 does not say. -/
def State.stopLap (s : State) : State :=
  let s := ((s.setBit LAP_CTRL.ENABLE false).wr LAP_STATUS.STATE LapSt.stopped).wr LAP_STATUS.SRC_ACTIVE 0
  ((s.setBit LAP_STATUS.CTX_SEEN false).wr LAP_STATUS.LOCK_RUN 0).wr LAP_STATUS.HOLD_LAPS 0

/-- RELOCK: back to ACQUIRE on the primary source, while no context has been started since ACQUIRE (R38, R39). -/
def State.relock (s : State) : State :=
  let st := s.rd LAP_STATUS.STATE
  if (st = LapSt.locked ∨ st = LapSt.holdover) ∧ ¬ s.bit LAP_STATUS.CTX_SEEN then
    let s := (((s.wr LAP_STATUS.STATE LapSt.acquire).wr LAP_STATUS.LOCK_RUN 0).wr LAP_STATUS.HOLD_LAPS 0).wr LAP_STATUS.SRC_ACTIVE (s.rd LAP_CTRL.SRC_PRI)
    s.updLap (fun x => { x with
      stepped := false, integ := 0, onBackup := false, missRun := 0, clampRun := 0, refEarly := none, bakErr := none, bakEarly := none,
      bakRun := 0 })
  else s

/-- A write of LAP_CTRL: the source fields, then ENABLE, then RELOCK. -/
def State.lapCtrl (s : State) (v : Word) : State :=
  let on := s.rd LAP_CTRL.ENABLE
  let s := (s.applySetting LAP_CTRL.ENABLE.off v).wr LAP_CTRL.ENABLE on
  let want := fieldOf v LAP_CTRL.ENABLE
  let src := s.rd LAP_CTRL.SRC_PRI
  let s := if want = 1 ∧ on = 0 then
      if src = 0 ∨ 5 ≤ src then s.report F_LAP_CFG 2 0 else s.startLap
    else if want = 0 ∧ on = 1 then
      if s.ctxExists 0 ∨ s.ctxExists 1 then s.report F_LAP_CFG 2 0 else s.stopLap
    else s
  if fieldOf v LAP_CTRL.RELOCK = 1 then s.relock else s

/-- LAP_ENABLE. -/
def execLapEnable (v : Word) (s : State) : Res := s.live <|
  .next (s.lapCtrl (BitVec.ofNat 64 (withBits v.toNat 1 0 1)))

/-- LAP_DISABLE. -/
def execLapDisable (v : Word) (s : State) : Res := s.live <|
  .next (s.lapCtrl (BitVec.ofNat 64 (withBits v.toNat 1 0 0)))

/-- LAP_RELOCK: ENABLE as it stands. -/
def execLapRelock (v : Word) (s : State) : Res := s.live <|
  .next (s.lapCtrl (BitVec.ofNat 64 (withBits v.toNat 1 0 (2 + s.rd LAP_CTRL.ENABLE))))

/-- LAP_CFG_WRITE (R54): HOLD_MAX in every state, the other fields only in STOPPED, PERIOD_US only from 2,000 to 40,000. -/
def execLapCfgWrite (v : Word) (s : State) : Res := s.live <|
  let p := fieldOf v LAP_CFG.PERIOD_US
  let good : Bool := decide (2000 ≤ p) && decide (p ≤ 40000)
  let still := [LAP_CFG.PERIOD_US, LAP_CFG.LOCK_TOL, LAP_CFG.SLEW, LAP_CFG.MISS_MAX].all (fun f => fieldOf v f == s.rd f)
  let t := s.wr LAP_CFG.HOLD_MAX (fieldOf v LAP_CFG.HOLD_MAX)
  .next (if s.lapRuns then (if still ∧ good then t else t.report F_LAP_CFG 2 0)
    else
      let t := ((t.wr LAP_CFG.LOCK_TOL (fieldOf v LAP_CFG.LOCK_TOL)).wr LAP_CFG.SLEW (fieldOf v LAP_CFG.SLEW)).wr LAP_CFG.MISS_MAX
        (fieldOf v LAP_CFG.MISS_MAX)
      if good then t.wr LAP_CFG.PERIOD_US p else t.report F_LAP_CFG 2 0)

end Sys2Proof.Machine
end

