-- ==== Sys2Proof/Machine/RegSpace.lean ====
section
/-!
DEFINITION. Control space: every read and write of a register or window over its four paths (R4, R7, R414, R424, R434,
R469 to R478).
-/

namespace Sys2Proof.Machine

/-- The state a command of the block leads to. -/
def after (s : State) (r : Res) : State :=
  match r with
  | .next t => t
  | _ => s

/-- Number of a path (R470). -/
def pathNum : Path → Nat
  | .sequencer => 0
  | .management => 1
  | .i3c => 2
  | .jtag => 3

/-- An access to a hole or to reserved space is recorded, unless its block is switched off (R472, R473). -/
def State.hole (s : State) (path : Path) (write : Bool) (off : Nat) : State :=
  if s.domainOn (domainOf off) then
    (((s.addSat CS_HOLE.COUNT 1).wr CS_HOLE.PATH (pathNum path)).setBit CS_HOLE.WRITE write).wr CS_HOLE.OFFSET off
  else s

/-! Settings that wait for a step boundary (R478). -/

/-- Every bit of a register. -/
def allBits : Word := BitVec.allOnes 64

/-- The contexts for which a setting waits, with the bits that wait for each; none for any other register. -/
def State.settingParts (s : State) (off : Nat) : List (Nat × Word) :=
  if 0x010040 ≤ off ∧ off < 0x010050 then [((off - 0x010040) / 8, allBits)]
  else if off = 0x020020 ∨ off = 0x020028 then
    (List.range 4).map (fun i => (s.ctxOf (32 + 4 * ((off - 0x020020) / 8) + i), BitVec.ofNat 64 (4095 * 2 ^ (12 * i))))
  else if 0x040100 ≤ off ∧ off < 0x0402D8 then [(s.rd (LKR_REQ.CTX ((off - 0x040100) / 8)), allBits)]
  else if 0x100000 ≤ off ∧ off < 0x140000 ∧ (off % 0x8000 = 0x108 ∨ off % 0x8000 = 0x110) then
    [(s.ctxOf (32 + (off - 0x100000) / 0x8000), allBits)]
  else if 0x038100 ≤ off ∧ off < 0x038500 then [((off - 0x038100) / 0x200, allBits)]
  else if 0x038600 ≤ off ∧ off < 0x038A00 then [((off - 0x038600) / 0x200, allBits)]
  else if off = 0x168000 ∨ off = 0x168008 then [((off - 0x168000) / 8, allBits)]
  else if 0x168500 ≤ off ∧ off < 0x168900 then [((off - 0x168500) / 0x200, allBits)]
  else if 0x241000 ≤ off ∧ off < 0x241800 ∧ (off % 0x40 = 0 ∨ off % 0x40 = 8) then [((off - 0x241000) / 0x400, allBits)]
  else []

/-- Bits of a register that no field covers are zero in a word. -/
def reservedClear (fs : List Fld) (v : Word) : Bool :=
  fs.foldl (fun w f => withBits w f.hi f.lo 0) v.toNat == 0

/-- A write of a setting: one whose write is checked goes to its check; the remote memory registers refuse a non-zero reserved field
(R190, R287). -/
def State.settingWrite (s : State) (r : RegRow) (off : Nat) (v : Word) : State :=
  if 0x041000 ≤ off ∧ off < 0x042000 then s.quotaWrite ((off - 0x041000) / 0x40) (off % 0x40 / 8) v
  else if off = 0x038000 ∨ off = 0x038008 then after s (execRmemCtlWrite (Fin.ofNat 2 (off % 16 / 8)) v s)
  else if 0x100000 ≤ off ∧ off < 0x140000 ∧ off % 0x8000 = 0x100 then
    after s (execGeLedgerWrite (Fin.ofNat 8 ((off - 0x100000) / 0x8000)) v s)
  else if 0x038100 ≤ off ∧ off < 0x038A00 ∧ ¬ reservedClear r.fields v then s.report F_RMEM_CFG 2 0
  else (s.settingParts off).foldl (fun s x => s.writeBits x.1 off v x.2) s

/-- DEFERRED_SETTING_WRITE: at once, or held until the owning context's next step boundary or its exit from RUN, SAVING or
SAVED. -/
def execDeferredSettingWrite (_path : Path) (off : BitVec 24) (v : Word) (s : State) : Res := s.live <|
  .next (match findRow off.toNat with
    | none => s
    | some r => if s.domainOn (domainOf off.toNat) then s.settingWrite r off.toNat v else s)

/-! Writes (R4). -/

/-- The lock bit that makes a register's RWL fields read-only. -/
def State.lockedAt (s : State) (off : Nat) : Bool :=
  if 0x040000 ≤ off ∧ off < 0x050000 then s.bit LKR_CTL.LOCK else if off = 0x050000 then s.bit RINK_CFG.LOCK else false

/-- A write under the access codes alone. -/
def State.plainWrite (s : State) (r : RegRow) (off : Nat) (v : Word) : State :=
  s.setReg off (writeWord r.fields (s.lockedAt off) (s.reg off) v)

/-- A write of CTX_CMD: code 0 keeps only the lap, and an undefined code is a command that no state allows (R327). -/
def State.writeCtxCmd (s : State) (c : Nat) (v : Word) : State :=
  let i := Fin.ofNat 2 c
  let cmd := fieldOf v (CTX_CMD.CMD c)
  after s (if cmd = 1 then execCreate i v s else if cmd = 2 then execPreempt i v s else if cmd = 3 then execResume i v s
    else if cmd = 4 then execHalt i v s else if cmd = 5 then execDestroy i v s else if cmd = 6 then execTeardown i v s
    else if cmd = 0 then .next (s.putCmdLap c v) else .next ((s.putCmdLap c v).cmdIgnored c))

/-- A write of SEC_CMD. -/
def State.writeSecCmd (s : State) (v : Word) : State :=
  let a := BitVec.ofNat 8 (fieldOf v SEC_CMD.ARG)
  let cmd := fieldOf v SEC_CMD.CMD
  after s (if cmd = 1 then execLcAdvance a s else if cmd = 2 then execDbgSet a s else if cmd = 3 then execCredInstall a s
    else if cmd = 4 then execCredRevoke a s else if cmd = 5 then execCertInstall a s else if cmd = 6 then execAttest a s
    else if cmd = 7 then execSvnCommit s else .next s)

/-- A write of SS_CMD. -/
def State.writeSsCmd (s : State) (v : Word) : State :=
  let slot := fieldOf v SS_CMD.SLOT = 1
  let cmd := fieldOf v SS_CMD.CMD
  after s (if cmd = 1 then execSsWrite slot (BitVec.ofNat 10 (fieldOf v SS_CMD.OFFSET)) s else if cmd = 2 then execSsVerify slot s
    else if cmd = 3 then execSsActivate slot s else if cmd = 4 then execSsStore s else .next s)

/-- A write of a register of the snapshot block. -/
def State.writeSnap (s : State) (r : RegRow) (off : Nat) (v : Word) : State :=
  if off = 0x200408 ∨ off = 0x200410 then
    let c := (off - 0x200408) / 8
    let i := Fin.ofNat 2 c
    if fieldOf v (SNP_CKPT.RELEASE c) = 1 then after s (execCkptRelease i v s)
    else if fieldOf v (SNP_CKPT.REQ c) = 1 then after s (execCkptRequest i v s) else s.plainWrite r off v
  else if off = 0x200440 then
    let cmd := fieldOf v SNP_RSTCTL.CMD
    if cmd = 1 then after s (execRestoreStart v s) else if cmd = 2 then after s (execRestoreCommit v s)
    else if cmd = 3 then after s (execRestoreAbandon v s) else s.plainWrite r off v
  else if off = 0x200458 then after s (execRestoreFeed v s)
  else if off = 0x200400 ∨ (regionCtx off).isSome then after s (execSnpCfgWrite (BitVec.ofNat 24 off) v s)
  else s.plainWrite r off v

/-- A write of a register of the host block: the addresses change only while the port is not UP (R379). -/
def State.writeHost (s : State) (r : RegRow) (off : Nat) (v : Word) : State :=
  let n := (off - 0x210000) / 0x100
  let i := Fin.ofNat 2 n
  if off = 0x210000 ∨ off = 0x210100 then
    if fieldOf v (HP_CTL.EN n) = 1 then after s (execHostPortEnable i v s) else after s (execHostPortDisable i v s)
  else if n < 2 ∧ 0x10 ≤ off % 0x100 ∧ off % 0x100 ≤ 0x30 ∧ s.hostState n = HpSt.up then
    (s.wr (HP_STATUS.LAST_CODE n) F_HOST_CFG).report F_HOST_CFG 2 n
  else if 0x210800 ≤ off ∧ off < 0x210900 ∧ off % 16 = 0 then
    let x := (off - 0x210800) / 16
    if fieldOf v (WCP_SESS.KILL x) = 1 then after s (execSessionKill (Fin.ofNat 16 x) s) else s
  else s.plainWrite r off v

/-- A write of a register of the router block. -/
def State.writeRouter (s : State) (r : RegRow) (off : Nat) (v : Word) : State :=
  if off = 0x140000 then after s (execFabCfgWrite v s)
  else if off = 0x140028 then
    let g := BitVec.ofNat 12 (fieldOf v FAB_MGSEL.INDEX)
    if fieldOf v FAB_MGSEL.WRITE = 1 then after s (execMgroupWrite g s)
    else if fieldOf v FAB_MGSEL.READ = 1 then after s (execMgroupRead g s) else s.plainWrite r off v
  else if 0x144000 ≤ off ∧ off < 0x144800 then after s (execFenceTableWrite (BitVec.ofNat 8 ((off - 0x144000) / 8)) v s)
  else if off = 0x148000 then after s (execRsCfgWrite v s)
  else s.plainWrite r off v

/-- A write of a register of a memory controller (R222, R223). -/
def State.writeMemReg (s : State) (r : RegRow) (off : Nat) (v : Word) : State :=
  let m := (off - 0x1C0000) / 0x4000
  if off % 0x4000 = 0 then after s (execMemCtlWrite (Fin.ofNat 12 m) v s)
  else if s.memState m = MemSt.run then s.plainWrite r off v
  else s.memReport m F_MEM_CFG

/-- A write of a register of the context block (R323, R327, R328); VALID of ACCT_ID63 stays 1 (R343). -/
def State.writeContext (s : State) (r : RegRow) (off : Nat) (v : Word) : State :=
  let c := off % 16 / 8
  let i := Fin.ofNat 2 c
  if off = 0x030000 then after s (execCtxRsetWrite v s)
  else if off = 0x030010 ∨ off = 0x030018 then s.writeCtxCmd c v
  else if off = 0x030030 ∨ off = 0x030038 then after s (execCtxJobWrite i v s)
  else if off = 0x030040 ∨ off = 0x030048 then s.writeJdig c v
  else if off = 0x030050 ∨ off = 0x030058 then after s (execCtxPisteWrite i v s)
  else if 0x030100 ≤ off ∧ off < 0x030200 then s.writeWindow ((off - 0x030100) % 0x80 / 0x40) off v
  else if off = 0x030200 ∧ fieldOf v JOB_LEAD.START = 1 then after s (execJobLeadStart v s)
  else if off = 0x038000 ∨ off = 0x038008 then after s (execRmemCtlWrite i v s)
  else if off = 0x038010 ∧ ¬ reservedClear r.fields v then s.report F_RMEM_CFG 2 0
  else if off = 0x0313F0 then s.plainWrite r off (v ||| 0x8000000000000000)
  else s.plainWrite r off v

/-- A write of trouble counters: what this clk has counted is added after it (R426). -/
def State.writeTrouble (s : State) (r : RegRow) (off : Nat) (v : Word) : State :=
  (List.range 4).foldl (fun t j =>
    let i := (off - 0x243000) / 8 * 4 + j
    t.addSat (troubleFld i) (tget (fun _ => 0) s.thisClk.troubles i)) (s.plainWrite r off v)

/-- A write of a register of the security, power, telemetry and debug blocks. -/
def State.writeSystem (s : State) (path : Path) (sec : Bool) (r : RegRow) (off : Nat) (v : Word) : State :=
  if off = 0x220010 then s.writeSecCmd v
  else if off = 0x220100 ∨ off = 0x220108 then { s with lapDeferred := s.lapDeferred ++ [(off, v)] }
  else if off = 0x220118 ∧ fieldOf v CFG_CENSUS.START = 1 then after s (execCensusStart v s)
  else if off = 0x230000 then s.writePwrCmd path (fieldOf v PWR_CMD.CMD) sec
  else if off = 0x230010 ∨ off = 0x230018 then after s (execPwrDomWrite (Fin.ofNat 2 ((off - 0x230010) / 8)) v s)
  else if off = 0x240000 then s.telCtl v
  else if off = 0x242008 then s.ssControl v (fieldOf v DBG_SSCTL.NOW = 1)
  else if off = 0x242200 then s.dbgStream v (fieldOf v DBG_STREAM.CMD)
  else if off = 0x250000 then s.writeSsCmd v
  else if 0x243000 ≤ off ∧ off < 0x243040 then s.writeTrouble r off v
  else s.plainWrite r off v

/-- A write of a register of the Lap Unit, the Lap Sequencer, the Locker, the Rink, a Gate Engine or a port. LKR_REQ59 to 63 are RO. -/
def State.writeUnit (s : State) (r : RegRow) (off : Nat) (v : Word) : State :=
  if off = 0x010000 then s.lapCtrl v
  else if off = 0x010008 then after s (execLapCfgWrite v s)
  else if off = 0x010018 ∨ off = 0x010038 then (if s.lapRuns then s else s.plainWrite r off v)
  else if off = 0x020008 ∧ fieldOf v COURSE_ACT.LOAD = 1 then after s (execCourseLoad v s)
  else if off = 0x024000 then
    let s := if fieldOf v LS_TCTL.COMMIT_GEN = 1 then s.commitTemplates 0 else s
    if fieldOf v LS_TCTL.COMMIT_RT = 1 then s.commitTemplates 1 else s
  else if off = 0x040000 ∧ fieldOf v LKR_CTL.LOCK = 1 then after s (execLockerLock v s)
  else if 0x041000 ≤ off ∧ off < 0x042000 then
    after s (execLkrQuotaWrite (Fin.ofNat 64 ((off - 0x041000) / 0x40)) (Fin.ofNat 6 (off % 0x40 / 8)) v s)
  else if 0x0402D8 ≤ off ∧ off < 0x040300 then s
  else if off = 0x050000 ∧ fieldOf v RINK_CFG.LOCK = 1 then after s (execRinkLock v s)
  else if 0x100000 ≤ off ∧ off < 0x140000 ∧ off % 0x8000 = 0x100 then
    after s (execGeLedgerWrite (Fin.ofNat 8 ((off - 0x100000) / 0x8000)) v s)
  else if 0x180000 ≤ off ∧ off < 0x198000 ∧ off % 0x2000 = 0 then
    let n := Fin.ofNat 12 ((off - 0x180000) / 0x2000)
    if fieldOf v (PORT_CTL.EN n) = 1 then after s (execPortEnable n v s) else after s (execPortDisable n v s)
  else s.plainWrite r off v

/-- A write of a register that its block receives. -/
def State.writeRegister (s : State) (path : Path) (sec : Bool) (r : RegRow) (off : Nat) (v : Word) : State :=
  if s.settingParts off ≠ [] then s.settingWrite r off v
  else if 0x030000 ≤ off ∧ off < 0x040000 then s.writeContext r off v
  else if 0x140000 ≤ off ∧ off < 0x160000 then s.writeRouter r off v
  else if 0x1C0000 ≤ off ∧ off < 0x1F0000 then s.writeMemReg r off v
  else if 0x200000 ≤ off ∧ off < 0x210000 then s.writeSnap r off v
  else if 0x210000 ≤ off ∧ off < 0x220000 then s.writeHost r off v
  else if 0x220000 ≤ off then s.writeSystem path sec r off v
  else s.writeUnit r off v

/-- Templates' shadow window (R82). -/
def tmplWindow (off : Nat) : Bool := decide (0x028000 ≤ off) && decide (off < 0x030000)

/-- Key of the word that the shadow window shows at an offset. -/
def State.shadowKey (s : State) (off : Nat) : Nat :=
  let e := (off - 0x028000) / 64
  tmplKey (s.shadowBank e) e (off % 64 / 8)

/-- The read window of R419. -/
def readWindow (off : Nat) : Bool := decide (0x248000 ≤ off) && decide (off < 0x250000)

/-- A write of 8 bytes to control space over a path; `sec` says that the writer holds SEC. -/
def State.csWrite (s : State) (path : Path) (sec : Bool) (off : Nat) (v : Word) : State :=
  if off % 8 ≠ 0 ∨ 0x1000000 ≤ off then s
  else match findRow off with
    | some r => if s.domainOn (domainOf off) then s.writeRegister path sec r off v else s
    | none =>
      if tmplWindow off then { s with tmpl := tset zeroWord s.tmpl (s.shadowKey off) v }
      else if plainWindow off then s.setWindow off (leBytes 8 v.toNat)
      else if certAt off ∨ readWindow off then s
      else s.hole path true off

/-- REG_WRITE. -/
def execRegWrite (path : Path) (off : BitVec 24) (v : Word) (s : State) : Res :=
  .next (if s.stopped ∧ path ≠ .i3c ∧ path ≠ .jtag then s else s.csWrite path true off.toNat v)

/-! Reads (R4, R414). -/

/-- A read clears a register's RC fields; what they showed is kept for a sample of the same clk (R4, R415). -/
def State.noteClear (s : State) (r : RegRow) (off : Nat) : State :=
  let x := s.thisClk
  let t := s.setReg off (readClear r.fields (s.reg off))
  if r.fields.all (fun f => f.acc != .rc) ∨ x.cleared.any (fun e => e.1 == off) then t
  else { t with clkLog := { x with cleared := (off, s.regView off) :: x.cleared } }

/-- A read of a register: below D1 a management read shows RC fields as 0 and clears nothing (R414). A memory controller that
is not in RUN gives only MEM_STATUS and MEM_CH (R223). -/
def State.readRegister (s : State) (path : Path) (r : RegRow) (off : Nat) : Word × State :=
  if ¬ s.domainOn (domainOf off) then (0, s)
  else if 0x1C0000 ≤ off ∧ off < 0x1F0000 ∧ s.memState ((off - 0x1C0000) / 0x4000) ≠ MemSt.run ∧
      ¬ (off % 0x4000 = 8 ∨ 0x100 ≤ off % 0x4000) then (0, s)
  else if path = .management ∧ s.dbg = 0 then (readClear r.fields (s.regView off), s)
  else (s.regView off, s.noteClear r off)

/-- A read of 8 bytes of control space over a path. -/
def State.csRead (s : State) (path : Path) (off : Nat) : Word × State :=
  if off % 8 ≠ 0 ∨ 0x1000000 ≤ off then (0, s)
  else match findRow off with
    | some r => s.readRegister path r off
    | none =>
      if tmplWindow off then (tget zeroWord s.tmpl (s.shadowKey off), s)
      else if plainWindow off ∨ certAt off then (s.peek off, s)
      else if readWindow off then
        if s.windowAllowed off then s.windowRead off else (0, s)
      else (0, s.hole path false off)

/-! JTAG (R424) and I3C (R434). -/

/-- Registers whose RO fields JTAG does not change. -/
def guardedReg (off : Nat) : Bool :=
  off == 0 || off == 0x220000 || off == 0x220008 || (decide (0x220020 ≤ off) && decide (off ≤ 0x220040))

/-- RO fields take their bits of a word. -/
def forceRo (fs : List Fld) (old v : Word) : Word :=
  fs.foldl (fun w f => if f.acc = .ro then BitVec.ofNat 64 (withBits w.toNat f.hi f.lo (bitsOf v.toNat f.hi f.lo)) else w) old

/-- A memory controller refuses a register's write: before RUN, all but that of MEM_CTL in OFF (R223). -/
def State.memRefuses (s : State) (off : Nat) : Bool :=
  let st := s.memState ((off - 0x1C0000) / 0x4000)
  decide (0x1C0000 ≤ off) && decide (off < 0x1F0000) && st != MemSt.run && ! (st == MemSt.off && off % 0x4000 == 0)

/-- CSPACE: accepted while frozen or at D3; a write reaches RO fields too. -/
def execCspace (write : Bool) (off : BitVec 24) (v : Word) (s : State) : Res :=
  let o := off.toNat
  .next (if ¬ (s.frozen ∨ s.dbg = 3) ∨ ¬ s.mayScan then s.tapBypass
    else
      let s := s.tapIr 0x20
      if write then
        let t := s.csWrite .jtag true o v
        match findRow o with
        | some r => if guardedReg o ∨ ¬ t.domainOn (domainOf o) ∨ s.memRefuses o then t else t.setReg o (forceRo r.fields (t.reg o) v)
        | none => t
      else
        let r := s.csRead .jtag o
        (r.2.updPower (fun p => { p with shiftData := r.1 })).emit (.shift "TDO" [r.1]))

/-- The BMC may write an offset: the power block. After a failed boot the device answers only reads of SEC_BOOT (R384). -/
def bmcWrites (off : Nat) : Bool := decide (0x230000 ≤ off) && decide (off < 0x240000)

/-- The BMC may read an offset: besides those it writes, CSV_STATUS, SEC_BOOT, SEC_STATE and TRB_n; after a failed boot only
SEC_BOOT (R384). -/
def State.bmcReads (s : State) (off : Nat) : Bool :=
  if s.rd SEC_BOOT.STATE = 2 then off == 0x220000
  else bmcWrites off || off == 0x000100 || off == 0x220000 || off == 0x220008 || (decide (0x243000 ≤ off) && decide (off < 0x243040))

/-- I3C works while VDD_AON and VDD_IO18 are up. -/
def State.i3cUp (s : State) : Bool := s.supplyIn 0 && s.supplyIn 1

/-- I3C_PRIVATE_WRITE. -/
def execI3cPrivateWrite (off : BitVec 24) (v : Word) (s : State) : Res :=
  .next (if s.i3cUp ∧ bmcWrites off.toNat ∧ s.rd SEC_BOOT.STATE ≠ 2 then s.csWrite .i3c true off.toNat v else s)

/-- I3C_PRIVATE_READ. -/
def execI3cPrivateRead (off : BitVec 24) (s : State) : Res :=
  .next (if ¬ s.i3cUp then s
    else
      let r := if s.bmcReads off.toNat then s.csRead .i3c off.toNat else (0, s)
      r.2.emit (.shift "I3C" [r.1]))

/-- SETDASA: the target at the static address takes a dynamic address. -/
def execSetdasa (addr : BitVec 7) (s : State) : Res :=
  .next (if s.i3cUp then s.updPower (fun p => { p with i3cAddr := some addr.toNat }) else s)

/-- ENTDAA: a target without a dynamic address takes one. -/
def execEntdaa (addr : BitVec 7) (s : State) : Res :=
  .next (if s.i3cUp ∧ s.power.i3cAddr = none then s.updPower (fun p => { p with i3cAddr := some addr.toNat }) else s)

end Sys2Proof.Machine
end

