-- ==== Sys2Proof/Machine/Host.lean ====
section
/-!
DEFINITION. Management capsules: reads and writes of control space by a host session (R369, R374, R392, R393, R414, R419).
-/

namespace Sys2Proof.Machine

def AccCap.regOffset (c : AccCap) : Nat := c.word 1 23 0

/-- Offsets of the registers a management capsule names, in the order of its accesses. -/
def AccCap.regOffsets (c : AccCap) : List Nat := (List.range c.count).map (fun i => c.regOffset + 8 * i)

/-- The values of an MWRITE. -/
def AccCap.values (c : AccCap) : List Word := (List.range c.count).map (fun i => BitVec.ofNat 64 (c.word (4 + i) 63 0))

/-- STATUS of an MRSP (R374). -/
def stOk : Nat := 0
def stDenied : Nat := 1
def stRange : Nat := 2

/-- The range is misaligned or passes the end of control space. -/
def AccCap.outOfRange (c : AccCap) : Bool := c.regOffset % 8 != 0 || decide (0x1000000 < c.regOffset + 8 * c.count)

/-- The security block and the Setting Store block, whose registers only a holder of SEC writes (R393). -/
def secBlock (off : Nat) : Bool := off / 0x10000 == 0x22 || off / 0x10000 == 0x25

/-- The matrix allows a management write: the sampler needs T, trace and standstill S, and DBG_STREAM I (R392). -/
def State.writeAllowed (s : State) (sec : Bool) (off : Nat) (v : Word) : Bool :=
  (! secBlock off || sec) &&
    (off != 0x240000 || ((fieldOf v TEL_CTL.EN == 0 || s.mayCount) && (fieldOf v TEL_CTL.TRACE == 0 || s.mayTrace))) &&
    (off != 0x242008 || (fieldOf v DBG_SSCTL.ARM == 0 && fieldOf v DBG_SSCTL.NOW == 0) || s.mayTrace) &&
    (off != 0x242200 || fieldOf v DBG_STREAM.CMD == 0 || s.mayScan)

/-- The matrix allows a management read: of the read window by level (R419), of registers always (R393). -/
def State.readAllowed (s : State) (off : Nat) : Bool := ! readWindow off || s.windowAllowed off

/-- The plaintext of an MRSP. -/
def AccCap.response (c : AccCap) (status : Nat) (vals : List Word) : List Byte :=
  innerHeader 3 0 (8 * vals.length) (c.regOffset + (c.count - 1) * 2 ^ 24 + status * 2 ^ 32) c.tag 0 ++
    vals.flatMap (fun v => leBytes 8 v.toNat)

/-- The executed capsule is answered in the opening of its session that sent it, and its buffer is freed. -/
def State.mgmtAnswer (s : State) (x : Nat) (c : AccCap) (status : Nat) (vals : List Word) : State :=
  let t := if c.gen = (s.sess x).gen then s.sendCapsule x (c.response status vals) none else s
  t.popCap x c true

/-- Read registers one after the other. -/
def State.readAll (s : State) : List Nat → List Word × State
  | [] => ([], s)
  | o :: l =>
    let r := s.csRead .management o
    let q := r.2.readAll l
    (r.1 :: q.1, q.2)

/-- Write registers one after the other. -/
def State.writeAll (s : State) (sec : Bool) : List (Nat × Word) → State
  | [] => s
  | p :: l => (s.csWrite .management sec p.1 p.2).writeAll sec l

/-- Session `x` has a management capsule to execute. -/
def State.mgmtReady (s : State) (x : Nat) : Bool := (s.headCap x).any (fun c => c.kind == 1 || c.kind == 2)

/-- It is the turn of session `x`: of those with one to execute it comes first in the order of R182 (R371). -/
def State.mgmtTurn (s : State) (x : Nat) : Bool :=
  (List.range 16).all (fun y => ! s.mgmtReady y || decide (s.rank 16 x ≤ s.rank 16 y))

/-- MREAD. -/
def execMread (x : Fin 16) (s : State) : Res := s.live <|
  .next (if ¬ s.mgmtTurn x then s else s.runCapsule x 1 0 (fun s c =>
    if c.outOfRange then s.mgmtAnswer x c stRange []
    else if ¬ s.mayManage ∨ c.regOffsets.any (fun o => ! s.readAllowed o) then s.mgmtAnswer x c stDenied []
    else
      let r := s.readAll c.regOffsets
      r.2.mgmtAnswer x c stOk r.1))

/-- MWRITE. -/
def execMwrite (x : Fin 16) (s : State) : Res := s.live <|
  .next (if ¬ s.mgmtTurn x then s else s.runCapsule x 2 0 (fun s c =>
    let sec := c.rights.testBit 4
    let w := c.regOffsets.zip c.values
    if c.outOfRange then s.mgmtAnswer x c stRange []
    else if ¬ s.mayManage ∨ w.any (fun p => ! s.writeAllowed sec p.1 p.2) then s.mgmtAnswer x c stDenied []
    else
      let n := (c.regOffsets.filter (fun o => o / 0x10000 != 0x24 && o / 0x10000 != 0)).length
      ((s.writeAll sec w).repeatEvent 5 (if n = 0 then 0 else 1)).mgmtAnswer x c stOk []))

end Sys2Proof.Machine
end

