-- ==== Sys2Proof/Machine/Dispatch.lean ====
section
/-!
DEFINITION. One arm per command: each calls its meaning (R1 to R478 by the row's rule).
-/

namespace Sys2Proof.Machine

/-- A command's effect on everything but the queue. -/
def exec (i : Instr) (s : State) : Host.Outcome State Fault Refusal :=
  match i with
  | .regWrite path off v => Sys2Proof.Machine.execRegWrite path off v s
  | .deferredSettingWrite path off v => Sys2Proof.Machine.execDeferredSettingWrite path off v s
  | .bufferAudit => Sys2Proof.Machine.execBufferAudit s
  | .lapEnable v => Sys2Proof.Machine.execLapEnable v s
  | .lapDisable v => Sys2Proof.Machine.execLapDisable v s
  | .lapRelock v => Sys2Proof.Machine.execLapRelock v s
  | .lapCfgWrite v => Sys2Proof.Machine.execLapCfgWrite v s
  | .lapEdge => Sys2Proof.Machine.execLapEdge s
  | .lapInEdge frac => Sys2Proof.Machine.execLapInEdge frac s
  | .ptpLapEdge port sec ns => Sys2Proof.Machine.execPtpLapEdge port sec ns s
  | .lapMarkerRx m => Sys2Proof.Machine.execLapMarkerRx m s
  | .ptpMessageRx port f => Sys2Proof.Machine.execPtpMessageRx port f s
  | .lapHoldexp => Sys2Proof.Machine.execLapHoldexp s
  | .overrunSend c => Sys2Proof.Machine.execOverrunSend c s
  | .overrunRx n p => Sys2Proof.Machine.execOverrunRx n p s
  | .templateRelease => Sys2Proof.Machine.execTemplateRelease s
  | .instanceStart k => Sys2Proof.Machine.execInstanceStart k s
  | .commitGen => Sys2Proof.Machine.execCommitGen s
  | .commitRt => Sys2Proof.Machine.execCommitRt s
  | .nop k b => Sys2Proof.Machine.execNop k b s
  | .endInstance k b => Sys2Proof.Machine.execEndInstance k b s
  | .trap k b => Sys2Proof.Machine.execTrap k b s
  | .brk k b => Sys2Proof.Machine.execBrk k b s
  | .fence k b => Sys2Proof.Machine.execFence k b s
  | .mfsr k b => Sys2Proof.Machine.execMfsr k b s
  | .mtsr k b => Sys2Proof.Machine.execMtsr k b s
  | .add k imm b => Sys2Proof.Machine.execAdd k imm b s
  | .sub k imm b => Sys2Proof.Machine.execSub k imm b s
  | .and k imm b => Sys2Proof.Machine.execAnd k imm b s
  | .or k imm b => Sys2Proof.Machine.execOr k imm b s
  | .xor k imm b => Sys2Proof.Machine.execXor k imm b s
  | .shl k imm b => Sys2Proof.Machine.execShl k imm b s
  | .shr k imm b => Sys2Proof.Machine.execShr k imm b s
  | .sra k imm b => Sys2Proof.Machine.execSra k imm b s
  | .mul k imm b => Sys2Proof.Machine.execMul k imm b s
  | .mulhu k b => Sys2Proof.Machine.execMulhu k b s
  | .mulhs k b => Sys2Proof.Machine.execMulhs k b s
  | .min k imm b => Sys2Proof.Machine.execMin k imm b s
  | .minu k imm b => Sys2Proof.Machine.execMinu k imm b s
  | .max k imm b => Sys2Proof.Machine.execMax k imm b s
  | .maxu k imm b => Sys2Proof.Machine.execMaxu k imm b s
  | .clz k b => Sys2Proof.Machine.execClz k b s
  | .popc k b => Sys2Proof.Machine.execPopc k b s
  | .sel k b => Sys2Proof.Machine.execSel k b s
  | .movi k b => Sys2Proof.Machine.execMovi k b s
  | .movhi k b => Sys2Proof.Machine.execMovhi k b s
  | .cmpEq k imm b => Sys2Proof.Machine.execCmpEq k imm b s
  | .cmpNe k imm b => Sys2Proof.Machine.execCmpNe k imm b s
  | .cmpLt k imm b => Sys2Proof.Machine.execCmpLt k imm b s
  | .cmpGe k imm b => Sys2Proof.Machine.execCmpGe k imm b s
  | .cmpLtu k imm b => Sys2Proof.Machine.execCmpLtu k imm b s
  | .cmpGeu k imm b => Sys2Proof.Machine.execCmpGeu k imm b s
  | .pand k b => Sys2Proof.Machine.execPand k b s
  | .por k b => Sys2Proof.Machine.execPor k b s
  | .pxor k b => Sys2Proof.Machine.execPxor k b s
  | .pandn k b => Sys2Proof.Machine.execPandn k b s
  | .amov k b => Sys2Proof.Machine.execAmov k b s
  | .smov k b => Sys2Proof.Machine.execSmov k b s
  | .aadd k b => Sys2Proof.Machine.execAadd k b s
  | .aaddi k b => Sys2Proof.Machine.execAaddi k b s
  | .ld k b => Sys2Proof.Machine.execLd k b s
  | .st k b => Sys2Proof.Machine.execSt k b s
  | .ldComplete k op upsets => Sys2Proof.Machine.execLdComplete k op upsets s
  | .xmov k b => Sys2Proof.Machine.execXmov k b s
  | .xmovComplete k op upsets => Sys2Proof.Machine.execXmovComplete k op upsets s
  | .br k b => Sys2Proof.Machine.execBr k b s
  | .call k b => Sys2Proof.Machine.execCall k b s
  | .ret k b => Sys2Proof.Machine.execRet k b s
  | .loop k b => Sys2Proof.Machine.execLoop k b s
  | .ccSet k b => Sys2Proof.Machine.execCcSet k b s
  | .ccAdd k b => Sys2Proof.Machine.execCcAdd k b s
  | .ccRd k b => Sys2Proof.Machine.execCcRd k b s
  | .ccSetr k b => Sys2Proof.Machine.execCcSetr k b s
  | .waitCc k b => Sys2Proof.Machine.execWaitCc k b s
  | .waitCcr k b => Sys2Proof.Machine.execWaitCcr k b s
  | .waitSt k b => Sys2Proof.Machine.execWaitSt k b s
  | .waitCt k b => Sys2Proof.Machine.execWaitCt k b s
  | .waitSatisfied k => Sys2Proof.Machine.execWaitSatisfied k s
  | .waitLimitExpiry k => Sys2Proof.Machine.execWaitLimitExpiry k s
  | .bufAlloc k b => Sys2Proof.Machine.execBufAlloc k b s
  | .bufTry k b => Sys2Proof.Machine.execBufTry k b s
  | .bufRef k b => Sys2Proof.Machine.execBufRef k b s
  | .bufFree k b => Sys2Proof.Machine.execBufFree k b s
  | .bufAddr k b => Sys2Proof.Machine.execBufAddr k b s
  | .bufSize k b => Sys2Proof.Machine.execBufSize k b s
  | .vadd k b => Sys2Proof.Machine.execVadd k b s
  | .vsub k b => Sys2Proof.Machine.execVsub k b s
  | .vmul k b => Sys2Proof.Machine.execVmul k b s
  | .vfma k b => Sys2Proof.Machine.execVfma k b s
  | .vmin k b => Sys2Proof.Machine.execVmin k b s
  | .vmax k b => Sys2Proof.Machine.execVmax k b s
  | .vabs k b => Sys2Proof.Machine.execVabs k b s
  | .vneg k b => Sys2Proof.Machine.execVneg k b s
  | .vmov k b => Sys2Proof.Machine.execVmov k b s
  | .vbcast k b => Sys2Proof.Machine.execVbcast k b s
  | .viota k b => Sys2Proof.Machine.execViota k b s
  | .viadd k b => Sys2Proof.Machine.execViadd k b s
  | .visub k b => Sys2Proof.Machine.execVisub k b s
  | .vand k b => Sys2Proof.Machine.execVand k b s
  | .vor k b => Sys2Proof.Machine.execVor k b s
  | .vxor k b => Sys2Proof.Machine.execVxor k b s
  | .vshl k b => Sys2Proof.Machine.execVshl k b s
  | .vshr k b => Sys2Proof.Machine.execVshr k b s
  | .vcmpEq k b => Sys2Proof.Machine.execVcmpEq k b s
  | .vcmpLt k b => Sys2Proof.Machine.execVcmpLt k b s
  | .vcmpLe k b => Sys2Proof.Machine.execVcmpLe k b s
  | .vcmpUn k b => Sys2Proof.Machine.execVcmpUn k b s
  | .vicmpEq k b => Sys2Proof.Machine.execVicmpEq k b s
  | .vicmpLt k b => Sys2Proof.Machine.execVicmpLt k b s
  | .vsel k b => Sys2Proof.Machine.execVsel k b s
  | .vcvt k b => Sys2Proof.Machine.execVcvt k b s
  | .vext k b => Sys2Proof.Machine.execVext k b s
  | .vld k b => Sys2Proof.Machine.execVld k b s
  | .vst k b => Sys2Proof.Machine.execVst k b s
  | .vrsum k b => Sys2Proof.Machine.execVrsum k b s
  | .vrmax k b => Sys2Proof.Machine.execVrmax k b s
  | .vrmin k b => Sys2Proof.Machine.execVrmin k b s
  | .vexp2 k b => Sys2Proof.Machine.execVexp2 k b s
  | .vlog2 k b => Sys2Proof.Machine.execVlog2 k b s
  | .vrcp k b => Sys2Proof.Machine.execVrcp k b s
  | .vrsqrt k b => Sys2Proof.Machine.execVrsqrt k b s
  | .vsqrt k b => Sys2Proof.Machine.execVsqrt k b s
  | .gmm k b => Sys2Proof.Machine.execGmm k b s
  | .gmmEntryDone u upsets => Sys2Proof.Machine.execGmmEntryDone u upsets s
  | .groute k b => Sys2Proof.Machine.execGroute k b s
  | .gselect k b => Sys2Proof.Machine.execGselect k b s
  | .gclose k b => Sys2Proof.Machine.execGclose k b s
  | .gateDispatchChoice g => Sys2Proof.Machine.execGateDispatchChoice g s
  | .gateInstrComplete g => Sys2Proof.Machine.execGateInstrComplete g s
  | .intakeTokenRx g => Sys2Proof.Machine.execIntakeTokenRx g s
  | .intakeTallyRx g => Sys2Proof.Machine.execIntakeTallyRx g s
  | .geLedgerWrite g v => Sys2Proof.Machine.execGeLedgerWrite g v s
  | .courseLoad v => Sys2Proof.Machine.execCourseLoad v s
  | .courseLoadDone => Sys2Proof.Machine.execCourseLoadDone s
  | .slotStart n => Sys2Proof.Machine.execSlotStart n s
  | .slotEnd n => Sys2Proof.Machine.execSlotEnd n s
  | .dspPacketRx n p => Sys2Proof.Machine.execDspPacketRx n p s
  | .retPacketRx n p => Sys2Proof.Machine.execRetPacketRx n p s
  | .packetTransit n p => Sys2Proof.Machine.execPacketTransit n p s
  | .cancelListExpiry c => Sys2Proof.Machine.execCancelListExpiry c s
  | .rinkScrub errs => Sys2Proof.Machine.execRinkScrub errs s
  | .rinkLock v => Sys2Proof.Machine.execRinkLock v s
  | .lockerLock v => Sys2Proof.Machine.execLockerLock v s
  | .lkrQuotaWrite r p v => Sys2Proof.Machine.execLkrQuotaWrite r p v s
  | .lockerGrant => Sys2Proof.Machine.execLockerGrant s
  | .bufferZeroDone => Sys2Proof.Machine.execBufferZeroDone s
  | .memStart m => Sys2Proof.Machine.execMemStart m s
  | .memCtlWrite m v => Sys2Proof.Machine.execMemCtlWrite m v s
  | .memTrainingDone m failed p => Sys2Proof.Machine.execMemTrainingDone m failed p s
  | .memZeroingDone m => Sys2Proof.Machine.execMemZeroingDone m s
  | .memRequestServed m r => Sys2Proof.Machine.execMemRequestServed m r s
  | .memBaseRefresh m ch => Sys2Proof.Machine.execMemBaseRefresh m ch s
  | .memExtraRefresh m ch => Sys2Proof.Machine.execMemExtraRefresh m ch s
  | .mr4Poll m rates => Sys2Proof.Machine.execMr4Poll m rates s
  | .memRfm m ch bank => Sys2Proof.Machine.execMemRfm m ch bank s
  | .memPatrolScrub m ch upsets => Sys2Proof.Machine.execMemPatrolScrub m ch upsets s
  | .memRetrainStep m ch drift ok => Sys2Proof.Machine.execMemRetrainStep m ch drift ok s
  | .memTrainlate m ch => Sys2Proof.Machine.execMemTrainlate m ch s
  | .portEnable n v => Sys2Proof.Machine.execPortEnable n v s
  | .portDisable n v => Sys2Proof.Machine.execPortDisable n v s
  | .portTrainingDone n => Sys2Proof.Machine.execPortTrainingDone n s
  | .portTrainTimeout n lane => Sys2Proof.Machine.execPortTrainTimeout n lane s
  | .helloRx n h => Sys2Proof.Machine.execHelloRx n h s
  | .helloRecheck n => Sys2Proof.Machine.execHelloRecheck n s
  | .lcfGroupRx n g => Sys2Proof.Machine.execLcfGroupRx n g s
  | .nakRx n g => Sys2Proof.Machine.execNakRx n g s
  | .retryTimeout n => Sys2Proof.Machine.execRetryTimeout n s
  | .laneLockLoss n lane => Sys2Proof.Machine.execLaneLockLoss n lane s
  | .laneCodewordLimit n lane => Sys2Proof.Machine.execLaneCodewordLimit n lane s
  | .failoverHelloRx n g => Sys2Proof.Machine.execFailoverHelloRx n g s
  | .heartbeatSend n => Sys2Proof.Machine.execHeartbeatSend n s
  | .heartbeatRx n p => Sys2Proof.Machine.execHeartbeatRx n p s
  | .heartbeatLoss n => Sys2Proof.Machine.execHeartbeatLoss n s
  | .ctlDataRx n p => Sys2Proof.Machine.execCtlDataRx n p s
  | .fenceRx n p => Sys2Proof.Machine.execFenceRx n p s
  | .fenceTableWrite entry v => Sys2Proof.Machine.execFenceTableWrite entry v s
  | .mgroupWrite idx => Sys2Proof.Machine.execMgroupWrite idx s
  | .mgroupRead idx => Sys2Proof.Machine.execMgroupRead idx s
  | .fabCfgWrite v => Sys2Proof.Machine.execFabCfgWrite v s
  | .radd k b => Sys2Proof.Machine.execRadd k b s
  | .rmin k b => Sys2Proof.Machine.execRmin k b s
  | .rminu k b => Sys2Proof.Machine.execRminu k b s
  | .rmax k b => Sys2Proof.Machine.execRmax k b s
  | .rmaxu k b => Sys2Proof.Machine.execRmaxu k b s
  | .rswp k b => Sys2Proof.Machine.execRswp k b s
  | .rcas k b => Sys2Proof.Machine.execRcas k b s
  | .rstn k b => Sys2Proof.Machine.execRstn k b s
  | .reqRx n p => Sys2Proof.Machine.execReqRx n p s
  | .reqServed op upsets => Sys2Proof.Machine.execReqServed op upsets s
  | .rspRx n p => Sys2Proof.Machine.execRspRx n p s
  | .remoteTimeout op => Sys2Proof.Machine.execRemoteTimeout op s
  | .rmemCtlWrite c v => Sys2Proof.Machine.execRmemCtlWrite c v s
  | .rpost k b => Sys2Proof.Machine.execRpost k b s
  | .rcancel k b => Sys2Proof.Machine.execRcancel k b s
  | .radmit k b => Sys2Proof.Machine.execRadmit k b s
  | .rfree k b => Sys2Proof.Machine.execRfree k b s
  | .triggerFire e c => Sys2Proof.Machine.execTriggerFire e c s
  | .relayPut x => Sys2Proof.Machine.execRelayPut x s
  | .relayRput x => Sys2Proof.Machine.execRelayRput x s
  | .relayGather e => Sys2Proof.Machine.execRelayGather e s
  | .relayScatter e => Sys2Proof.Machine.execRelayScatter e s
  | .relayOpEnd e => Sys2Proof.Machine.execRelayOpEnd e s
  | .rsAdmitGrant c => Sys2Proof.Machine.execRsAdmitGrant c s
  | .colPutRx n p => Sys2Proof.Machine.execColPutRx n p s
  | .colRputRx n p => Sys2Proof.Machine.execColRputRx n p s
  | .rsCombineDone faults => Sys2Proof.Machine.execRsCombineDone faults s
  | .poisonNoticeRx n p => Sys2Proof.Machine.execPoisonNoticeRx n p s
  | .rsCfgWrite v => Sys2Proof.Machine.execRsCfgWrite v s
  | .create c v => Sys2Proof.Machine.execCreate c v s
  | .preempt c v => Sys2Proof.Machine.execPreempt c v s
  | .saveComplete upsets => Sys2Proof.Machine.execSaveComplete upsets s
  | .resume c v => Sys2Proof.Machine.execResume c v s
  | .halt c v => Sys2Proof.Machine.execHalt c v s
  | .destroy c v => Sys2Proof.Machine.execDestroy c v s
  | .teardown c v => Sys2Proof.Machine.execTeardown c v s
  | .ctxRsetWrite v => Sys2Proof.Machine.execCtxRsetWrite v s
  | .ctxJobWrite c v => Sys2Proof.Machine.execCtxJobWrite c v s
  | .ctxPisteWrite c v => Sys2Proof.Machine.execCtxPisteWrite c v s
  | .deliverRx n p => Sys2Proof.Machine.execDeliverRx n p s
  | .commitRx n p => Sys2Proof.Machine.execCommitRx n p s
  | .jobLeadStart v => Sys2Proof.Machine.execJobLeadStart v s
  | .leadPhaseComplete => Sys2Proof.Machine.execLeadPhaseComplete s
  | .leadPhaseTimeout => Sys2Proof.Machine.execLeadPhaseTimeout s
  | .snpCfgWrite off v => Sys2Proof.Machine.execSnpCfgWrite off v s
  | .snpSweepPage c upsets => Sys2Proof.Machine.execSnpSweepPage c upsets s
  | .writePreserveDone c page upsets => Sys2Proof.Machine.execWritePreserveDone c page upsets s
  | .rollbackCopyDone c upsets => Sys2Proof.Machine.execRollbackCopyDone c upsets s
  | .ckptRequest c v => Sys2Proof.Machine.execCkptRequest c v s
  | .ckptRelease c v => Sys2Proof.Machine.execCkptRelease c v s
  | .drainCopyPage c upsets => Sys2Proof.Machine.execDrainCopyPage c upsets s
  | .srd k b => Sys2Proof.Machine.execSrd k b s
  | .sdig k b => Sys2Proof.Machine.execSdig k b s
  | .sman k b => Sys2Proof.Machine.execSman k b s
  | .snapshotInstrComplete c => Sys2Proof.Machine.execSnapshotInstrComplete c s
  | .restoreStart v => Sys2Proof.Machine.execRestoreStart v s
  | .restoreCheckDone => Sys2Proof.Machine.execRestoreCheckDone s
  | .restoreFeed v => Sys2Proof.Machine.execRestoreFeed v s
  | .restoreCommit v => Sys2Proof.Machine.execRestoreCommit v s
  | .restoreCopyDone => Sys2Proof.Machine.execRestoreCopyDone s
  | .restoreAbandon v => Sys2Proof.Machine.execRestoreAbandon v s
  | .hostPortEnable n v => Sys2Proof.Machine.execHostPortEnable n v s
  | .hostTrainingDone n => Sys2Proof.Machine.execHostTrainingDone n s
  | .hostLinkLoss n => Sys2Proof.Machine.execHostLinkLoss n s
  | .arpRx n f => Sys2Proof.Machine.execArpRx n f s
  | .neighbourSolicitationRx n f => Sys2Proof.Machine.execNeighbourSolicitationRx n f s
  | .frameDiscard d => Sys2Proof.Machine.execFrameDiscard d s
  | .initRx n f => Sys2Proof.Machine.execInitRx n f s
  | .finRx n f => Sys2Proof.Machine.execFinRx n f s
  | .handshakeTimeout x => Sys2Proof.Machine.execHandshakeTimeout x s
  | .capsuleRx n f => Sys2Proof.Machine.execCapsuleRx n f s
  | .wcpAckSend x => Sys2Proof.Machine.execWcpAckSend x s
  | .ackRx n f => Sys2Proof.Machine.execAckRx n f s
  | .closeRx n f => Sys2Proof.Machine.execCloseRx n f s
  | .sessionIdleTimeout x => Sys2Proof.Machine.execSessionIdleTimeout x s
  | .wcpRetransmit x => Sys2Proof.Machine.execWcpRetransmit x s
  | .sessionKill x => Sys2Proof.Machine.execSessionKill x s
  | .mread x => Sys2Proof.Machine.execMread x s
  | .mwrite x => Sys2Proof.Machine.execMwrite x s
  | .put x => Sys2Proof.Machine.execPut x s
  | .wcpNop x => Sys2Proof.Machine.execWcpNop x s
  | .bootSlotVerified => Sys2Proof.Machine.execBootSlotVerified s
  | .lcAdvance arg => Sys2Proof.Machine.execLcAdvance arg s
  | .dbgSet arg => Sys2Proof.Machine.execDbgSet arg s
  | .credInstall arg => Sys2Proof.Machine.execCredInstall arg s
  | .credRevoke arg => Sys2Proof.Machine.execCredRevoke arg s
  | .certInstall arg => Sys2Proof.Machine.execCertInstall arg s
  | .attest arg => Sys2Proof.Machine.execAttest arg s
  | .svnCommit => Sys2Proof.Machine.execSvnCommit s
  | .ssWrite slot off => Sys2Proof.Machine.execSsWrite slot off s
  | .ssVerify slot => Sys2Proof.Machine.execSsVerify slot s
  | .ssActivate slot => Sys2Proof.Machine.execSsActivate slot s
  | .ssStore => Sys2Proof.Machine.execSsStore s
  | .ssWearScan block uncorrectable => Sys2Proof.Machine.execSsWearScan block uncorrectable s
  | .censusStart v => Sys2Proof.Machine.execCensusStart v s
  | .censusRx n p => Sys2Proof.Machine.execCensusRx n p s
  | .censusLcfRx n r => Sys2Proof.Machine.execCensusLcfRx n r s
  | .censusTimeout => Sys2Proof.Machine.execCensusTimeout s
  | .telemetrySample => Sys2Proof.Machine.execTelemetrySample s
  | .telemetryRecordWrite => Sys2Proof.Machine.execTelemetryRecordWrite s
  | .telCtlWrite v => Sys2Proof.Machine.execTelCtlWrite v s
  | .readWindowRead off => Sys2Proof.Machine.execReadWindowRead off s
  | .standstillArmed => Sys2Proof.Machine.execStandstillArmed s
  | .standstillNow v => Sys2Proof.Machine.execStandstillNow v s
  | .standstillWriteDone => Sys2Proof.Machine.execStandstillWriteDone s
  | .dbgResume v => Sys2Proof.Machine.execDbgResume v s
  | .dbgStep v => Sys2Proof.Machine.execDbgStep v s
  | .freezeAssert => Sys2Proof.Machine.execFreezeAssert s
  | .freezeMemStop => Sys2Proof.Machine.execFreezeMemStop s
  | .freezeClockStop => Sys2Proof.Machine.execFreezeClockStop s
  | .cspace write off v => Sys2Proof.Machine.execCspace write off v s
  | .scanDump => Sys2Proof.Machine.execScanDump s
  | .roStart mask => Sys2Proof.Machine.execRoStart mask s
  | .idcode => Sys2Proof.Machine.execIdcode s
  | .bypass => Sys2Proof.Machine.execBypass s
  | .samplePreload => Sys2Proof.Machine.execSamplePreload s
  | .extest pins => Sys2Proof.Machine.execExtest pins s
  | .tapReset => Sys2Proof.Machine.execTapReset s
  | .supplyExcursion n now => Sys2Proof.Machine.execSupplyExcursion n now s
  | .powerAverage10ms w => Sys2Proof.Machine.execPowerAverage10ms w s
  | .powerAverage1s w => Sys2Proof.Machine.execPowerAverage1s w s
  | .thermalSample temps => Sys2Proof.Machine.execThermalSample temps s
  | .pwrDomWrite dom v => Sys2Proof.Machine.execPwrDomWrite dom v s
  | .domainSwitch => Sys2Proof.Machine.execDomainSwitch s
  | .p0 path => Sys2Proof.Machine.execP0 path s
  | .p1 path => Sys2Proof.Machine.execP1 path s
  | .p2 path => Sys2Proof.Machine.execP2 path s
  | .warm path => Sys2Proof.Machine.execWarm path s
  | .p2EntryDone => Sys2Proof.Machine.execP2EntryDone s
  | .refclkLoss => Sys2Proof.Machine.execRefclkLoss s
  | .refclkBothLost => Sys2Proof.Machine.execRefclkBothLost s
  | .srefclkLoss die => Sys2Proof.Machine.execSrefclkLoss die s
  | .coldReset => Sys2Proof.Machine.execColdReset s
  | .warmReset => Sys2Proof.Machine.execWarmReset s
  | .resetRelease => Sys2Proof.Machine.execResetRelease s
  | .i3cPrivateWrite off v => Sys2Proof.Machine.execI3cPrivateWrite off v s
  | .i3cPrivateRead off => Sys2Proof.Machine.execI3cPrivateRead off s
  | .setdasa addr => Sys2Proof.Machine.execSetdasa addr s
  | .entdaa addr => Sys2Proof.Machine.execEntdaa addr s
  | .hostPortDisable n v => Sys2Proof.Machine.execHostPortDisable n v s
  | .refclkReturn => Sys2Proof.Machine.execRefclkReturn s
  | .supplyInBand n => Sys2Proof.Machine.execSupplyInBand n s
  | .ledgerZeroingDone g => Sys2Proof.Machine.execLedgerZeroingDone g s
  | .saveImageReadbackDone upsets => Sys2Proof.Machine.execSaveImageReadbackDone upsets s
  | .retentionRestoreDone => Sys2Proof.Machine.execRetentionRestoreDone s
  | .storeComplete k op => Sys2Proof.Machine.execStoreComplete k op s
  | .packetLastFlitSent n => Sys2Proof.Machine.execPacketLastFlitSent n s
  | .ssCommandDone => Sys2Proof.Machine.execSsCommandDone s
  | .secCommandDone => Sys2Proof.Machine.execSecCommandDone s

end Sys2Proof.Machine
end

