-- ==== Sys2Proof/Machine/Tick.lean ====
section
/-!
DEFINITION. The passing of time while no command waits (R36, R37).
-/

namespace Sys2Proof.Machine

/-- One clk passes. The clk in which the accumulator carries is the LAP_EDGE command's, which the block gives itself. While the
clocks are stopped nothing passes. DESIGN CHOICE: the spec has no queue of commands, so it says nothing of an empty one. -/
def State.tick (s : State) : State :=
  if s.stopped then s
  else if s.clkToCarry = some 1 then { s with pending := [.lapEdge] }
  else s.advance 1

end Sys2Proof.Machine
end

