-- ==== Sys2Proof/Safety.lean ====
section
/-!
DEFINITION. What the statements count as a sound state of the block, and the runs that lead from one state to another.
-/

namespace Sys2Proof.Machine

/-- Every register table and every memory is in its one canonical form, so that equal contents are equal data. -/
structure State.Ok (s : State) : Prop where
  regs : twf resetWord s.regs = true
  rink : twf zeroByte s.rink = true
  lpddr : twf zeroByte s.lpddr = true
  store : twf zeroByte s.store = true
  gsram : twf zeroByte s.gsram = true
  rstore : twf zeroByte s.rstore = true
  guard : twf zeroByte s.guard = true
  tmpl : twf zeroWord s.tmpl = true

/-- `t` follows from `s` by steps that each answer a next state, commands arriving in between. -/
inductive State.Reaches : State → State → Prop where
  | refl (s : State) : s.Reaches s
  | step {s t u : State} : s.Reaches t → step t = .next u → s.Reaches u
  | arrive {s t : State} (c : Instr) : s.Reaches t → s.Reaches { t with pending := t.pending ++ [c] }

end Sys2Proof.Machine
end

