-- ==== Sys2Proof/Certificates/Slice0/Obligations.lean ====
section
/-!
DEFINITION. The statements about the block, for the provers.
-/

open Sys2Proof Sys2Proof.Machine
/-! ## Terms of the statements -/

namespace Sys2Proof.Claims

/-- Stream `k` may issue an instruction with bits `b`: it is in RUN with no FENCE or END waiting, its pc lies in a Rink window of
its context, its clocks run and no freeze is in force, its guard field is legal, no stepped instruction of it is in flight and no
admission that it asked for is still to be granted (R60, R71, R78, R298, R422, R423). -/
abbrev CanIssue (s : State) (k : Nat) (b : BitVec 52) : Prop :=
  s.stopped = false ∧ s.frozen = false ∧ s.engState k = EngSt.run ∧ (s.stream k).fenceWait = none ∧
    s.inRinkWindow (s.ctxOf k) (s.rd (ENG_PC.PC k)) 8 = true ∧ bitsOf b.toNat 51 48 ≠ 1 ∧ (s.stream k).stepOp = none ∧
    ∀ a ∈ s.col.asked, a.stream ≠ k

/-- Every earlier instruction of the stream has retired, so that a fault found at issue is raised now (R80). -/
abbrev Precise (s : State) (k : Nat) : Prop := s.unretired k = []

/-- It may issue and its guard is true (R60). -/
abbrev Runs (s : State) (k : Nat) (b : BitVec 52) : Prop := CanIssue s k b ∧ s.guardOf k b.toNat = true

/-- No load that is in flight is still to write one of these scalar registers (R78). -/
abbrev Settled (s : State) (k : Nat) (l : List Nat) : Prop := ∀ r ∈ l, r ∉ (s.stream k).pendS

/-- No load that is in flight is still to write one of these vector registers (R78). -/
abbrev VSettled (s : State) (k : Nat) (l : List Nat) : Prop := ∀ r ∈ l, r ∉ (s.stream k).pendV

/-- The command answers a next state, and that state is `t`. -/
abbrev Gives (i : Instr) (s t : State) : Prop := exec i s = .next t

/-- The same of a command that brings upsets of the arrays, whatever they are, sent to any state whose arrays they leave as `s` has them. -/
abbrev GivesWith (i : Upsets → Instr) (s t : State) : Prop := ∀ (u : Upsets) (z : State), z.upset u = s → exec (i u) z = .next t

/-- A scalar instruction with a register and an immediate form, and its function (R64). -/
structure AluRow where
  cmd : Fin 50 → Bool → BitVec 52 → Instr
  op : Word → Word → Word

/-- ADD to MAXU of R64 that have both forms. -/
def aluRows : List AluRow := [
  ⟨.add, fun x y => x + y⟩, ⟨.sub, fun x y => x - y⟩, ⟨.and, fun x y => x &&& y⟩, ⟨.or, fun x y => x ||| y⟩,
  ⟨.xor, fun x y => x ^^^ y⟩, ⟨.shl, fun x y => x <<< (y.toNat % 64)⟩, ⟨.shr, fun x y => x >>> (y.toNat % 64)⟩,
  ⟨.sra, fun x y => x.sshiftRight (y.toNat % 64)⟩, ⟨.mul, fun x y => x * y⟩,
  ⟨.min, fun x y => if x.toInt < y.toInt then x else y⟩, ⟨.minu, fun x y => if x.toNat < y.toNat then x else y⟩,
  ⟨.max, fun x y => if x.toInt < y.toInt then y else x⟩, ⟨.maxu, fun x y => if x.toNat < y.toNat then y else x⟩,
  ⟨fun k _ b => .mulhu k b, fun x y => BitVec.ofNat 64 (x.toNat * y.toNat / 2 ^ 64)⟩,
  ⟨fun k _ b => .mulhs k b, fun x y => BitVec.ofInt 64 (x.toInt * y.toInt / 2 ^ 64)⟩]

/-- MULHU and MULHS have no immediate form. -/
def registerOnly (c : Fin 50 → Bool → BitVec 52 → Instr) : Bool := c 0 true 0 == c 0 false 0

/-- A scalar instruction with a register and an immediate compare form, and its relation (R65). -/
structure CmpRow where
  cmd : Fin 50 → Bool → BitVec 52 → Instr
  rel : Word → Word → Bool

def cmpRows : List CmpRow := [
  ⟨.cmpEq, fun x y => decide (x = y)⟩, ⟨.cmpNe, fun x y => decide (x ≠ y)⟩, ⟨.cmpLt, fun x y => decide (x.toInt < y.toInt)⟩,
  ⟨.cmpGe, fun x y => decide (y.toInt ≤ x.toInt)⟩, ⟨.cmpLtu, fun x y => decide (x.toNat < y.toNat)⟩,
  ⟨.cmpGeu, fun x y => decide (y.toNat ≤ x.toNat)⟩]

/-- Predicate logic on all 512 bits (R65). -/
def predRows : List ((Fin 50 → BitVec 52 → Instr) × (Pred → Pred → Pred)) := [
  (.pand, fun x y => x &&& y), (.por, fun x y => x ||| y), (.pxor, fun x y => x ^^^ y), (.pandn, fun x y => x &&& ~~~y)]

/-- The second operand of an instruction with both forms. -/
def operandB (s : State) (k : Nat) (imm : Bool) (b : BitVec 52) : Word :=
  if imm then simm b.toNat 37 0 else s.sreg k (fb b.toNat)

/-- Vector instructions that act lane by lane on va and vb, with the function of the rounding mode and the two lanes and
whether the instruction has a rounding field (R100, R105). -/
structure LaneRow where
  cmd : Fin 50 → BitVec 52 → Instr
  two : Bool
  rounds : Bool
  op : Nat → Nat → Nat → Nat × Nat

def laneRows : List LaneRow := [
  ⟨.vadd, true, true, f32Add⟩, ⟨.vsub, true, true, f32Sub⟩, ⟨.vmul, true, true, f32Mul⟩,
  ⟨.vmin, true, false, fun _ x y => f32Min x y⟩, ⟨.vmax, true, false, fun _ x y => f32Max x y⟩,
  ⟨.vabs, false, false, fun _ x _ => (f32Abs x, 0)⟩, ⟨.vneg, false, false, fun _ x _ => (f32Neg x, 0)⟩,
  ⟨.vmov, false, false, fun _ x _ => (x, 0)⟩,
  ⟨.viadd, true, false, fun _ x y => ((x + y) % 2 ^ 32, 0)⟩, ⟨.visub, true, false, fun _ x y => ((x + 2 ^ 32 - y) % 2 ^ 32, 0)⟩,
  ⟨.vand, true, false, fun _ x y => (x &&& y, 0)⟩, ⟨.vor, true, false, fun _ x y => (x ||| y, 0)⟩,
  ⟨.vxor, true, false, fun _ x y => (x ^^^ y, 0)⟩, ⟨.vshl, true, false, fun _ x y => (x * 2 ^ (y % 32) % 2 ^ 32, 0)⟩,
  ⟨.vshr, true, false, fun _ x y => (x / 2 ^ (y % 32), 0)⟩,
  ⟨.vexp2, false, true, fun r x _ => f32Exp2 r x⟩, ⟨.vlog2, false, true, fun r x _ => f32Log2 r x⟩,
  ⟨.vrcp, false, true, fun r x _ => f32Rcp r x⟩, ⟨.vrsqrt, false, true, fun r x _ => f32Rsqrt r x⟩,
  ⟨.vsqrt, false, true, fun r x _ => f32Sqrt r x⟩]

/-- Vector compares, with the relation of the two lanes (R101). -/
def vcmpRows : List ((Fin 50 → BitVec 52 → Instr) × (Nat → Nat → Bool)) := [
  (.vcmpEq, f32Eq), (.vcmpLt, f32Lt), (.vcmpLe, f32Le), (.vcmpUn, fun x y => ! f32Ordered x y), (.vicmpEq, fun x y => decide (x = y)),
  (.vicmpLt, fun x y => decide (signed 32 x < signed 32 y))]

/-- Lane reductions: the instruction, whether it rounds, the lane that an inactive one counts as, and the function (R104). -/
structure SumRow where
  cmd : Fin 50 → BitVec 52 → Instr
  rounds : Bool
  idn : Nat
  op : Nat → Nat → Nat → Nat × Nat

def sumRows : List SumRow := [⟨.vrsum, true, 0x80000000, f32Add⟩, ⟨.vrmax, false, 0xFF800000, fun _ x y => f32Max x y⟩,
  ⟨.vrmin, false, 0x7F800000, fun _ x y => f32Min x y⟩]

/-- The mask field at bit 24 is legal (R98). -/
abbrev MaskOk (b : BitVec 52) : Prop := ¬ (bitsOf b.toNat 27 25 = 0 ∧ bitsOf b.toNat 24 24 = 1)

/-- The stream has a vector unit (R91). -/
abbrev Vectorial (k : Nat) : Prop := k < 40

/-- The stream of a Velim instruction. -/
def velimStream : Instr → Option (Fin 50)
  | .nop k _ | .endInstance k _ | .trap k _ | .brk k _ | .fence k _ | .mfsr k _ | .mtsr k _ | .mulhu k _ | .mulhs k _ | .clz k _
  | .popc k _ | .sel k _ | .movi k _ | .movhi k _ | .pand k _ | .por k _ | .pxor k _ | .pandn k _ | .amov k _ | .smov k _
  | .aadd k _ | .aaddi k _ | .ld k _ | .st k _ | .xmov k _ | .br k _ | .call k _ | .ret k _ | .loop k _ | .ccSet k _ | .ccAdd k _
  | .ccRd k _ | .ccSetr k _ | .waitCc k _ | .waitCcr k _ | .waitSt k _ | .waitCt k _ | .bufAlloc k _ | .bufTry k _ | .bufRef k _
  | .bufFree k _ | .bufAddr k _ | .bufSize k _ | .vadd k _ | .vsub k _ | .vmul k _ | .vfma k _ | .vmin k _ | .vmax k _ | .vabs k _
  | .vneg k _ | .vmov k _ | .vbcast k _ | .viota k _ | .viadd k _ | .visub k _ | .vand k _ | .vor k _ | .vxor k _ | .vshl k _
  | .vshr k _ | .vcmpEq k _ | .vcmpLt k _ | .vcmpLe k _ | .vcmpUn k _ | .vicmpEq k _ | .vicmpLt k _ | .vsel k _ | .vcvt k _
  | .vext k _ | .vld k _ | .vst k _ | .vrsum k _ | .vrmax k _ | .vrmin k _ | .vexp2 k _ | .vlog2 k _ | .vrcp k _ | .vrsqrt k _
  | .vsqrt k _ | .gmm k _ | .groute k _ | .gselect k _ | .gclose k _ | .radd k _ | .rmin k _ | .rminu k _ | .rmax k _ | .rmaxu k _
  | .rswp k _ | .rcas k _ | .rstn k _ | .rpost k _ | .rcancel k _ | .radmit k _ | .rfree k _ | .srd k _ | .sdig k _ | .sman k _ => some k
  | .add k _ _ | .sub k _ _ | .and k _ _ | .or k _ _ | .xor k _ _ | .shl k _ _ | .shr k _ _ | .sra k _ _ | .mul k _ _ | .min k _ _
  | .minu k _ _ | .max k _ _ | .maxu k _ _ | .cmpEq k _ _ | .cmpNe k _ _ | .cmpLt k _ _ | .cmpGe k _ _ | .cmpLtu k _ _
  | .cmpGeu k _ _ => some k
  | _ => none

end Sys2Proof.Claims

open Sys2Proof Sys2Proof.Machine Sys2Proof.Claims

/-! ## The queue and time -/

/-- A step takes the command at the front of the queue and runs it on the state with the rest of the queue (the queue is the model's own, log entry 1). -/
def Obligations.StepRunsTheFrontCommand : Prop :=
  ∀ (s : State) (c : Instr) (rest : List Instr), s.pending = c :: rest → step s = exec c { s with pending := rest }

/-- With no command waiting one clk passes (the model's own rule, log entry 9): nothing happens while the clocks are stopped, the
clk of a carry becomes the LAP_EDGE command, and any other clk advances the time. -/
def Obligations.EmptyQueueTicks : Prop :=
  ∀ s : State, s.pending = [] →
    (s.stopped = true → step s = .next s) ∧
    (s.stopped = false → s.clkToCarry = some 1 → step s = .next { s with pending := [.lapEdge] }) ∧
    (s.stopped = false → s.clkToCarry ≠ some 1 → step s = .next (s.advance 1))

/-! ## Velim: scalar instructions -/

/-- Register writes of a stream: s0 reads 0 whatever is written, another register reads what was written, and every other register of every
stream is as before (R57, R58). Predicate writes of a stream: p0 reads all ones whatever is written, another register reads what was
written, and every other predicate register is as before (R58). -/
def Obligations.RegisterFileWrites : Prop :=
  (∀ (s : State) (k r : Nat) (v : Word),
    (s.setS k r v).sreg k 0 = 0 ∧ (r ≠ 0 → (s.setS k r v).sreg k r = v) ∧
      (∀ j q, ¬ (j = k ∧ q = r) → (s.setS k r v).sreg j q = s.sreg j q) ∧
      (∀ j q, (s.setS k r v).areg j q = s.areg j q ∧ (s.setS k r v).preg j q = s.preg j q ∧ (s.setS k r v).vreg j q = s.vreg j q) ∧
      (s.setS k r v).regs = s.regs ∧ (s.setS k r v).rink = s.rink ∧ (s.setS k r v).lpddr = s.lpddr ∧ (s.setS k r v).store = s.store ∧
      (s.setS k r v).gsram = s.gsram) ∧
  (∀ (s : State) (k r : Nat) (v : Pred),
    (s.setP k r v).preg k 0 = BitVec.allOnes 512 ∧ (r ≠ 0 → (s.setP k r v).preg k r = v) ∧
      (∀ j q, ¬ (j = k ∧ q = r) → (s.setP k r v).preg j q = s.preg j q) ∧
      (∀ j q, (s.setP k r v).sreg j q = s.sreg j q))

/-- Retiring moves the pc on and counts the instruction, and changes no other register of control space, no register of the
streams and no memory (R57, R78); a stream under a debugger's step returns to BRK. -/
def Obligations.RetireFrame : Prop :=
  ∀ (s : State) (k : Nat), k < 50 → (s.stream k).stepOne = false →
    (s.retire k).rd (ENG_PC.PC k) = (s.rd (ENG_PC.PC k) + 8) % 2 ^ 29 ∧
    (s.retire k).rd (ENG_COUNT.RETIRED k) = (s.rd (ENG_COUNT.RETIRED k) + 1) % 2 ^ (ENG_COUNT.RETIRED k).width ∧
    (∀ off, off ≠ (ENG_PC.PC k).off → off ≠ (ENG_COUNT.RETIRED k).off → (s.retire k).reg off = s.reg off) ∧
    (∀ j r, (s.retire k).sreg j r = s.sreg j r ∧ (s.retire k).areg j r = s.areg j r ∧ (s.retire k).preg j r = s.preg j r ∧
      (s.retire k).vreg j r = s.vreg j r) ∧
    (s.retire k).rink = s.rink ∧ (s.retire k).lpddr = s.lpddr ∧ (s.retire k).store = s.store ∧ (s.retire k).gsram = s.gsram ∧
    (s.retire k).rstore = s.rstore

/-- ADD, SUB, AND, OR, XOR, SHL, SHR, SRA, MUL, MULHU, MULHS, MIN, MINU, MAX and MAXU: the destination takes the function of the two
operands, the instruction retires, and nothing else changes (R64). CLZ, POPC, SEL, MOVI and MOVHI (R64): leading zeros and set bits of the
operand, a choice by the guard, which does not suppress SEL, an immediate sign-extended from 43 bits, and an immediate above the 43 low bits
of the destination. A register b of CLZ and POPC that is not 0, and an immediate of MOVHI above its 21 bits, raise F_ISA_ENC (R64). -/
def Obligations.ScalarResults : Prop :=
  (∀ r ∈ aluRows, ∀ (k : Fin 50) (imm : Bool) (b : BitVec 52) (s : State),
    (registerOnly r.cmd = true → imm = false) → Runs s k b → (imm = false → bitsOf b.toNat 32 0 = 0) →
    Settled s k [fd b.toNat, fa b.toNat] → (imm = false → Settled s k [fb b.toNat]) →
    Gives (r.cmd k imm b) s ((s.setS k (fd b.toNat) (r.op (s.sreg k (fa b.toNat)) (operandB s k imm b))).retire k)) ∧
  (∀ (k : Fin 50) (b : BitVec 52) (s : State),
    (Runs s k b → bitsOf b.toNat 37 0 = 0 → Settled s k [fd b.toNat, fa b.toNat] →
      Gives (.clz k b) s ((s.setS k (fd b.toNat) (clz64 (s.sreg k (fa b.toNat)))).retire k) ∧
      Gives (.popc k b) s ((s.setS k (fd b.toNat) (popc64 (s.sreg k (fa b.toNat)))).retire k)) ∧
    (CanIssue s k b → bitsOf b.toNat 32 0 = 0 → Settled s k [fd b.toNat, fa b.toNat, fb b.toNat] →
      Gives (.sel k b) s ((s.setS k (fd b.toNat)
        (if s.guardOf k b.toNat then s.sreg k (fa b.toNat) else s.sreg k (fb b.toNat))).retire k)) ∧
    (Runs s k b → Settled s k [fd b.toNat] →
      Gives (.movi k b) s ((s.setS k (fd b.toNat) (simm b.toNat 42 0)).retire k)) ∧
    (Runs s k b → bitsOf b.toNat 42 21 = 0 → Settled s k [fd b.toNat] →
      Gives (.movhi k b) s ((s.setS k (fd b.toNat)
        (BitVec.ofNat 64 (bitsOf b.toNat 20 0 * 2 ^ 43 + (s.sreg k (fd b.toNat)).toNat % 2 ^ 43))).retire k)) ∧
    (CanIssue s k b → Precise s k → bitsOf b.toNat 32 0 = 0 → bitsOf b.toNat 37 33 ≠ 0 →
      Gives (.clz k b) s (s.streamFault k F_ISA_ENC 33 (s.rd (ENG_PC.PC k))) ∧
      Gives (.popc k b) s (s.streamFault k F_ISA_ENC 33 (s.rd (ENG_PC.PC k)))) ∧
    (CanIssue s k b → Precise s k → bitsOf b.toNat 42 21 ≠ 0 → Gives (.movhi k b) s (s.streamFault k F_ISA_ENC 0 (s.rd (ENG_PC.PC k)))))

/-- The six compares put the truth of their relation into all 512 bits of the destination predicate, and PAND, POR, PXOR and PANDN
combine two predicates bit by bit (R65). -/
def Obligations.CompareAndPredicateResults : Prop :=
  (∀ r ∈ cmpRows, ∀ (k : Fin 50) (imm : Bool) (b : BitVec 52) (s : State),
    Runs s k b → bitsOf b.toNat 47 46 = 0 → (imm = false → bitsOf b.toNat 32 0 = 0) →
    Settled s k [fa b.toNat] → (imm = false → Settled s k [fb b.toNat]) →
    Gives (r.cmd k imm b) s ((s.setP k (fd b.toNat) (predOf (r.rel (s.sreg k (fa b.toNat)) (operandB s k imm b)))).retire k)) ∧
  (∀ r ∈ predRows, ∀ (k : Fin 50) (b : BitVec 52) (s : State),
    Runs s k b → bitsOf b.toNat 47 46 = 0 → bitsOf b.toNat 42 41 = 0 → bitsOf b.toNat 37 36 = 0 → bitsOf b.toNat 32 0 = 0 →
    Gives (r.1 k b) s ((s.setP k (fd b.toNat) (r.2 (s.preg k (fa b.toNat)) (s.preg k (fb b.toNat)))).retire k))

/-- AMOV, SMOV, AADD and AADDI: copies between the address and the scalar registers, and a signed sum that keeps the space code
where it stays within 0 to 2^60 - 1 and raises F_ISA_AOVF, with the pc of the instruction, where it does not (R66). -/
def Obligations.AddressResults : Prop :=
  ∀ (k : Fin 50) (b : BitVec 52) (s : State), Runs s k b →
    (bitsOf b.toNat 47 47 = 0 → bitsOf b.toNat 37 0 = 0 → Settled s k [fa b.toNat] →
      Gives (.amov k b) s ((s.setA k (fd b.toNat) (s.sreg k (fa b.toNat))).retire k)) ∧
    (bitsOf b.toNat 42 42 = 0 → bitsOf b.toNat 37 0 = 0 → Settled s k [fd b.toNat] →
      Gives (.smov k b) s ((s.setS k (fd b.toNat) (s.areg k (fa b.toNat))).retire k)) ∧
    (∀ n : Nat, bitsOf b.toNat 47 47 = 0 → bitsOf b.toNat 42 42 = 0 → bitsOf b.toNat 32 0 = 0 → Settled s k [fb b.toNat] →
      effOff (s.areg k (fa b.toNat)) (s.sreg k (fb b.toNat)).toInt = some n →
      Gives (.aadd k b) s ((s.setA k (fd b.toNat)
        (BitVec.ofNat 64 (spaceOf (s.areg k (fa b.toNat)).toNat * 2 ^ 60 + n))).retire k)) ∧
    (∀ n : Nat, bitsOf b.toNat 47 47 = 0 → bitsOf b.toNat 42 42 = 0 → effOff (s.areg k (fa b.toNat)) (sfield b.toNat 37 0) = some n →
      Gives (.aaddi k b) s ((s.setA k (fd b.toNat)
        (BitVec.ofNat 64 (spaceOf (s.areg k (fa b.toNat)).toNat * 2 ^ 60 + n))).retire k)) ∧
    (Precise s k → bitsOf b.toNat 47 47 = 0 → bitsOf b.toNat 42 42 = 0 → bitsOf b.toNat 32 0 = 0 → Settled s k [fb b.toNat] →
      effOff (s.areg k (fa b.toNat)) (s.sreg k (fb b.toNat)).toInt = none →
      Gives (.aadd k b) s (s.streamFault k F_ISA_AOVF 38 (s.rd (ENG_PC.PC k)))) ∧
    (Precise s k → bitsOf b.toNat 47 47 = 0 → bitsOf b.toNat 42 42 = 0 → effOff (s.areg k (fa b.toNat)) (sfield b.toNat 37 0) = none →
      Gives (.aaddi k b) s (s.streamFault k F_ISA_AOVF 38 (s.rd (ENG_PC.PC k))))

/-- BR, CALL and RET move the pc to their target, CALL leaves the next instruction's address in a15, and LOOP counts its register down
and branches while it is not 0. A target outside 0 to 2^29 - 1 raises F_ISA_FETCH at the branch, and so does a RET through a register that
names another space and the fetch of any of the four outside the context's Rink window; a fault is raised once every earlier instruction
has retired (R71, R80). -/
def Obligations.BranchResults : Prop :=
  ∀ (k : Fin 50) (b : BitVec 52) (s : State),
    (s.stopped = false → s.frozen = false → s.engState k = EngSt.run → (s.stream k).fenceWait = none →
      s.inRinkWindow (s.ctxOf k) (s.rd (ENG_PC.PC k)) 8 = false → Precise s k → ∀ i ∈ [Instr.br k b, .call k b, .ret k b, .loop k b],
      Gives i s (s.streamFault k F_ISA_FETCH 0 (s.rd (ENG_PC.PC k)))) ∧
    (Runs s k b →
      (∀ t : Int, bitsOf b.toNat 47 46 = 0 → t = (s.rd (ENG_PC.PC k) : Nat) + 8 * sfield b.toNat 45 0 →
        (0 ≤ t → t < 2 ^ 29 →
          Gives (.br k b) s (s.retireTo k t.toNat) ∧
          Gives (.call k b) s ((s.setA k 15 (BitVec.ofNat 64 (2 ^ 60 + (s.rd (ENG_PC.PC k) + 8)))).retireTo k t.toNat)) ∧
        (t < 0 ∨ 2 ^ 29 ≤ t → Precise s k →
          Gives (.br k b) s (s.streamFault k F_ISA_FETCH 0 (s.rd (ENG_PC.PC k))) ∧
          Gives (.call k b) s (s.streamFault k F_ISA_FETCH 0 (s.rd (ENG_PC.PC k))))) ∧
      (bitsOf b.toNat 47 46 = 0 →
        (bitsOf b.toNat 45 0 = 0 → spaceOf (s.areg k 15).toNat = 1 →
          Gives (.ret k b) s (s.retireTo k ((s.areg k 15).toNat % 2 ^ 29))) ∧
        (bitsOf b.toNat 45 0 = 0 → spaceOf (s.areg k 15).toNat ≠ 1 → Precise s k →
          Gives (.ret k b) s (s.streamFault k F_ISA_FETCH 0 (s.rd (ENG_PC.PC k)))) ∧
        (bitsOf b.toNat 45 0 ≠ 0 → Precise s k → Gives (.ret k b) s (s.streamFault k F_ISA_ENC 0 (s.rd (ENG_PC.PC k))))) ∧
      (∀ (n : Word) (t : Int), Settled s k [fd b.toNat] → n = s.sreg k (fd b.toNat) - 1 →
        t = (s.rd (ENG_PC.PC k) : Nat) + 8 * sfield b.toNat 42 0 →
        (n = 0 → Gives (.loop k b) s ((s.setS k (fd b.toNat) 0).retire k)) ∧
        (n ≠ 0 → 0 ≤ t → t < 2 ^ 29 → Gives (.loop k b) s ((s.setS k (fd b.toNat) n).retireTo k t.toNat)) ∧
        (n ≠ 0 → t < 0 ∨ 2 ^ 29 ≤ t → Precise s k → Gives (.loop k b) s (s.streamFault k F_ISA_FETCH 0 (s.rd (ENG_PC.PC k))))))

/-- NOP retires; FENCE retires and END ends the instance where no memory operation of the stream is in flight, and both wait where one is;
TRAP raises F_ISA_TRAP with its code; BRK stops the stream after it at D3 and raises F_ISA_BRK below; MFSR reads the special registers 0 to 9
and MTSR writes WAITLIM and SCRATCH, and both raise F_ISA_SPR for any other number (R67, R70, R72). -/
def Obligations.ControlResults : Prop :=
  ∀ (k : Fin 50) (b : BitVec 52) (s : State), Runs s k b →
    (bitsOf b.toNat 47 0 = 0 →
      Gives (.nop k b) s (s.retire k) ∧
      ((s.stream k).ops ≠ [] → Gives (.fence k b) s (s.updStream k (fun x => { x with fenceWait := some .fence })) ∧
        Gives (.endInstance k b) s (s.updStream k (fun x => { x with fenceWait := some .endInst }))) ∧
      ((s.stream k).ops = [] → Gives (.fence k b) s
        (((s.updStream k (fun x => { x with fenceWait := some .fence })).updStream k (fun x => { x with fenceWait := none })).retire k)) ∧
      ((s.stream k).ops = [] → Gives (.endInstance k b) s
        ((s.updStream k (fun x => { x with fenceWait := some .endInst })).endInstance k)) ∧
      (s.dbg = 3 → Gives (.brk k b) s ((s.retire k).setEngState k EngSt.brk)) ∧
      (s.dbg ≠ 3 → Precise s k → Gives (.brk k b) s (s.streamFault k F_ISA_BRK 0 (s.rd (ENG_PC.PC k))))) ∧
    (bitsOf b.toNat 47 16 = 0 → Precise s k → Gives (.trap k b) s (s.streamFault k F_ISA_TRAP (bitsOf b.toNat 15 0) (s.rd (ENG_PC.PC k)))) ∧
    (bitsOf b.toNat 42 38 = 0 → bitsOf b.toNat 37 0 ≤ 9 → Settled s k [fd b.toNat] →
      Gives (.mfsr k b) s ((s.setS k (fd b.toNat) (BitVec.ofNat 64 (s.special k (bitsOf b.toNat 37 0)))).retire k)) ∧
    (bitsOf b.toNat 42 38 = 0 → 9 < bitsOf b.toNat 37 0 → Settled s k [fd b.toNat] → Precise s k →
      Gives (.mfsr k b) s (s.streamFault k F_ISA_SPR 0 (s.rd (ENG_PC.PC k)))) ∧
    (bitsOf b.toNat 47 43 = 0 → Settled s k [fa b.toNat] →
      (bitsOf b.toNat 37 0 = 8 → Gives (.mtsr k b) s ((s.wr (ENG_CTL.WAITLIM k) (s.sreg k (fa b.toNat)).toNat).retire k)) ∧
      (bitsOf b.toNat 37 0 = 9 → Gives (.mtsr k b) s
        ((s.updStream k (fun x => { x with scratch := s.sreg k (fa b.toNat) })).retire k)) ∧
      (bitsOf b.toNat 37 0 ≠ 8 → bitsOf b.toNat 37 0 ≠ 9 → Precise s k → Gives (.mtsr k b) s (s.streamFault k F_ISA_SPR 0 (s.rd (ENG_PC.PC k)))))

/-- No Velim instruction issues while the clocks are stopped or a freeze is in force, while its stream is not in RUN or while a FENCE or END
of it waits. Of the register forms of R64, one whose guard is false retires with no other effect, and a non-zero bit in the field that must
be 0 raises F_ISA_ENC with the field's lowest bit (R60, R63, R70, R78, R423). -/
def Obligations.GuardAndEncoding : Prop :=
  (∀ (i : Instr) (k : Fin 50) (s : State), velimStream i = some k →
    s.stopped = true ∨ s.frozen = true ∨ s.engState k ≠ EngSt.run ∨ (s.stream k).fenceWait ≠ none → Gives i s s) ∧
  (∀ r ∈ aluRows, ∀ (k : Fin 50) (b : BitVec 52) (s : State),
    (CanIssue s k b → bitsOf b.toNat 32 0 = 0 → s.guardOf k b.toNat = false → Gives (r.cmd k false b) s (s.retire k)) ∧
    (CanIssue s k b → Precise s k → bitsOf b.toNat 32 0 ≠ 0 → Gives (r.cmd k false b) s (s.streamFault k F_ISA_ENC 0 (s.rd (ENG_PC.PC k)))))

/-! ## Velim: counters, waits, buffers, memory -/

/-- CC.SET, CC.ADD, CC.RD and CC.SETR act on the completion counter that their field names, at once where no store of the stream is in
flight and no earlier counter write of it waits, and wait behind those stores otherwise. An increment adds modulo 2^32 to its counter and to
no other; of several writes of a counter in one clk that of the stream with the highest priority stands, with the clk's increments added
(R70, R73, R74). -/
def Obligations.CounterResults : Prop :=
  (∀ (k : Fin 50) (b : BitVec 52) (s : State), Runs s k b → bitsOf b.toNat 35 32 = 0 →
    (s.storesInFlight k = [] → (s.stream k).heldCc = [] →
      Gives (.ccSet k b) s ((s.writeCc k (s.ctxOf k) (fcc b.toNat) (bitsOf b.toNat 31 0)).retire k) ∧
      Gives (.ccAdd k b) s ((s.addCc (s.ctxOf k) (fcc b.toNat) (bitsOf b.toNat 31 0)).retire k) ∧
      (bitsOf b.toNat 26 0 = 0 → Settled s k [fsr b.toNat] →
        Gives (.ccSetr k b) s ((s.writeCc k (s.ctxOf k) (fcc b.toNat) ((s.sreg k (fsr b.toNat)).toNat % 2 ^ 32)).retire k))) ∧
    (s.storesInFlight k ≠ [] ∨ (s.stream k).heldCc ≠ [] →
      Gives (.ccSet k b) s ((s.updStream k (fun x => { x with
        heldCc := x.heldCc ++ [⟨s.storesInFlight k, fcc b.toNat, bitsOf b.toNat 31 0, true⟩] })).retire k) ∧
      Gives (.ccAdd k b) s ((s.updStream k (fun x => { x with
        heldCc := x.heldCc ++ [⟨s.storesInFlight k, fcc b.toNat, bitsOf b.toNat 31 0, false⟩] })).retire k)) ∧
    (bitsOf b.toNat 26 0 = 0 → Settled s k [fsr b.toNat] →
      Gives (.ccRd k b) s ((s.setS k (fsr b.toNat) (BitVec.ofNat 64 (s.cc (s.ctxOf k) (fcc b.toNat)))).retire k))) ∧
  (∀ (s : State) (c i n : Nat), (s.addCc c i n).cc c i = (s.cc c i + n) % 2 ^ 32 ∧
    (∀ d j, ¬ (d = c ∧ j = i) → (s.addCc c i n).cc d j = s.cc d j) ∧ (s.addCc c i n).regs = s.regs ∧ (s.addCc c i n).streams = s.streams) ∧
  (∀ (s : State) (k : Fin 50) (c i v : Nat),
    ((s.ccClk c i).2 = none → (s.writeCc k c i v).cc c i = (v + (s.ccClk c i).1) % 2 ^ 32) ∧
    (∀ r : Nat, (s.ccClk c i).2 = some r → r < s.rank 50 k → s.writeCc k c i v = s) ∧
    (∀ r : Nat, (s.ccClk c i).2 = some r → s.rank 50 k ≤ r → (s.writeCc k c i v).cc c i = (v + (s.ccClk c i).1) % 2 ^ 32))

/-- WAIT.CC and WAIT.CCR go on at once when the counter has reached the target modulo 2^32 and otherwise enter WAIT_CC; WAIT.ST and WAIT.CT
go on at once when their course time has come and otherwise enter WAIT_LAP; WAIT_SATISFIED ends a wait that is met, and WAIT_LIMIT_EXPIRY
raises F_ISA_WAITLIM for a counter or buffer wait that has lasted WAITLIM strides and is not met (R73 to R75). A counter has reached a
target when their difference modulo 2^32 is below 2^31, so a wait that is met retires and one that is not leaves the stream in WAIT_CC with
the counter and the target in ENG_WAIT. A lap-phase wait whose course time has come retires, after the LATE_WAIT count where it came
earlier, and one whose time is ahead leaves the stream in WAIT_LAP at its pc (R48, R73, R74). -/
def Obligations.WaitResults : Prop :=
  (∀ (k : Fin 50) (b : BitVec 52) (s : State),
    (Runs s k b → bitsOf b.toNat 35 32 = 0 →
      Gives (.waitCc k b) s (s.waitCounter k (fcc b.toNat) (bitsOf b.toNat 31 0)) ∧
      (bitsOf b.toNat 26 0 = 0 → Settled s k [fsr b.toNat] →
        Gives (.waitCcr k b) s (s.waitCounter k (fcc b.toNat) ((s.sreg k (fsr b.toNat)).toNat % 2 ^ 32)))) ∧
    (Runs s k b → bitsOf b.toNat 47 21 = 0 →
      Gives (.waitSt k b) s (s.waitLap k ((s.lapNo + bitsOf b.toNat 20 20) * 2 ^ 20 + bitsOf b.toNat 19 0))) ∧
    (Runs s k b → bitsOf b.toNat 26 0 = 0 → bitsOf b.toNat 47 32 = 0 → Settled s k [fsr b.toNat] →
      Gives (.waitCt k b) s (s.waitLap k (s.sreg k (fsr b.toNat)).toNat)) ∧
    (s.stopped = false → s.frozen = false → s.waitMet k = true →
      Gives (.waitSatisfied k) s (((s.setEngState k EngSt.run).setReg (engBase k + 0x18) 0).retire k)) ∧
    (s.stopped = false → s.frozen = false → s.engState k = EngSt.waitCc ∨ s.engState k = EngSt.waitBuf → s.waitMet k = false → s.rd (ENG_CTL.WAITLIM k) ≠ 0 →
      (s.stream k).waitFrom + s.rd (ENG_CTL.WAITLIM k) ≤ s.ct →
      Gives (.waitLimitExpiry k) s (s.streamFault k F_ISA_WAITLIM 0 (s.rd (ENG_PC.PC k))))) ∧
  (∀ (s : State) (k cc t : Nat), k < 50 →
    (cc < 4096 → t < 2 ^ 32 →
      ((s.cc (s.ctxOf k) cc + 2 ^ 32 - t) % 2 ^ 32 < 2 ^ 31 → s.waitCounter k cc t = s.retire k) ∧
      (2 ^ 31 ≤ (s.cc (s.ctxOf k) cc + 2 ^ 32 - t) % 2 ^ 32 →
        (s.waitCounter k cc t).engState k = EngSt.waitCc ∧ (s.waitCounter k cc t).rd (ENG_WAIT.INDEX k) = cc ∧
        (s.waitCounter k cc t).rd (ENG_WAIT.TARGET k) = t ∧ (s.waitCounter k cc t).rd (ENG_PC.PC k) = s.rd (ENG_PC.PC k))) ∧
    (t ≤ s.ct → s.waitLap k t = (s.armAt t).retire k) ∧
    (s.ct < t → (s.waitLap k t).engState k = EngSt.waitLap ∧ ((s.waitLap k t).stream k).waitCt = t ∧
      (s.waitLap k t).rd (ENG_PC.PC k) = s.rd (ENG_PC.PC k)))

/-- BUF.ALLOC and BUF.TRY of an allowed requester join their pool's queue, and a TRY that is not granted at once leaves it again with 0;
BUF.REF and BUF.FREE of a good handle ask for a change of its references at the end of the clk and retire; BUF.ADDR and BUF.SIZE give the address
and size of a handle's buffer; a request that may not be made and a bad handle raise their code (R76, R189 to R197). -/
def Obligations.BufferResults : Prop :=
  ∀ (k : Fin 50) (b : BitVec 52) (s : State), Runs s k b → bitsOf b.toNat 37 0 = 0 → Settled s k [fd b.toNat, fa b.toNat] →
    (∀ (n : Nat) (t : State), n = (s.sreg k (fa b.toNat)).toNat → t = s.requestBuf k n (fd b.toNat) → s.requestFault k n = [] →
      Gives (.bufAlloc k b) s t ∧
      (t.engState k ≠ EngSt.waitBuf → Gives (.bufTry k b) s t) ∧
      (t.engState k = EngSt.waitBuf → Gives (.bufTry k b) s
        ((((((t.dropWaits (fun u => u == k.val)).addSat LKR_COUNT.TRY_FAIL 1).setEngState k EngSt.run).setReg (engBase k + 0x18) 0).setS k
          (fd b.toNat) 0).retire k))) ∧
    (∀ code : Nat, Precise s k → s.requestFault k (s.sreg k (fa b.toNat)).toNat = [(code, 0)] →
      ∀ i ∈ [Instr.bufAlloc k b, .bufTry k b], Gives i s (s.streamFault k code 0 (s.rd (ENG_PC.PC k)))) ∧
    (∀ key : Nat, s.checkHandle (s.ctxOf k) (s.sreg k (fa b.toNat)) = .inl key →
      (bitsOf b.toNat 47 43 = 0 →
        Gives (.bufRef k b) s ((s.changeRef ⟨key, some (k.val, s.rd (ENG_PC.PC k)), true⟩).retire k) ∧
        Gives (.bufFree k b) s ((s.changeRef ⟨key, some (k.val, s.rd (ENG_PC.PC k)), false⟩).retire k)) ∧
      (bitsOf b.toNat 47 47 = 0 →
        Gives (.bufAddr k b) s ((s.setA k (fd b.toNat) (BitVec.ofNat 64 (2 ^ 60 + s.bufBase key))).retire k)) ∧
      Gives (.bufSize k b) s ((s.setS k (fd b.toNat) (BitVec.ofNat 64 (poolSize (keyPool key)))).retire k)) ∧
    (∀ code : Nat, Precise s k → s.checkHandle (s.ctxOf k) (s.sreg k (fa b.toNat)) = .inr code → bitsOf b.toNat 47 43 = 0 →
      ∀ i ∈ [Instr.bufRef k b, .bufFree k b, .bufAddr k b, .bufSize k b], Gives i s (s.streamFault k code 0 (s.rd (ENG_PC.PC k))))

/-! ## Velim: loads, stores and copies -/

namespace Sys2Proof.Claims

/-- The address register and the signed offset of an MS-format instruction (R66, R68). -/
def msAddr (s : State) (k : Nat) (b : BitVec 52) : Word := s.areg k (bitsOf b.toNat 42 39)

/-- The byte an access of stream `k` reads at an offset of a space (R59). -/
def byteAt (s : State) (k sp a : Nat) : List Byte := s.spaceBytes k sp a 1

/-- Room for one more memory operation (R78). -/
abbrev OpsFree (s : State) (k : Nat) : Prop := (s.stream k).ops.length < 16

/-- The controllers of a range of LPDDR are in RUN and no REQ to its blocks is queued before it (R211, R212, R222, R277). -/
abbrev LpddrReady (s : State) (a n : Nat) : Prop :=
  (linesOf a n).all (fun i => s.channelReady (1984 * i)) = true ∧ s.reqAhead a n = false

/-- Time goes on: the clocks run and no freeze is in force (R422, R423). -/
abbrev Grants (s : State) : Prop := s.stopped = false ∧ s.frozen = false

/-- A remote operation of stream `k` can be sent: no earlier one of the stream to the same 64-byte block is outstanding, and the queue that
its request enters has room (R70, R185, R272). -/
abbrev RemoteFree (s : State) (k off : Nat) (o : RemoteOp) : Prop :=
  s.sameBlock k (s.rd (RMEM_DMAP.CHIPID (s.ctxOf k) (domIndex off))) (domLocal off / 64) = false ∧
    s.reqQueueFull (s.reqPacket (s.ctxOf k) (s.rd (RMEM_DMAP.CHIPID (s.ctxOf k) (domIndex off))) (domLocal off) 0 o) = false

/-- The state after a remote operation is sent: a sequence number of the REQ class, an entry of outstanding operations, a memory operation of
the stream, the destination waiting where there is one, the pc moved on, and the request packet at the chip that the segment map names, this
chip's own queue included (R272 to R279). -/
def remoteSent (s : State) (k off : Nat) (o : RemoteOp) : State :=
  let c := s.ctxOf k
  let chip := s.rd (RMEM_DMAP.CHIPID c (domIndex off))
  let loc := domLocal off
  let s1 := (s.nextSeq Cls.req).2
  let seq := (s.nextSeq Cls.req).1
  let entry : Remote := ⟨seq, k, (s1.stream k).nextOp, s1.rd (ENG_PC.PC k), o.opc, o.dst, o.sx, chip, loc / 64, s1.ct⟩
  let s2 := ({ s1 with remotes := s1.remotes ++ [entry] } : State).beginOp k (.remote seq) 3 off
  let s3 := if o.opc % 16 ≠ 1 ∧ o.opc % 16 ≠ 9 ∧ o.dst ≠ 0 then s2.updStream k (fun x => { x with pendS := o.dst :: x.pendS }) else s2
  let s4 := (s3.sendOn k).queued 3 s3.remotes.length
  let p := s1.reqPacket c chip loc seq o
  if chip = s.chipId then s4.enterReq { pkt := p, buf := none, fromPort := none, own := true, since := s4.clk }
  else (s4.addMod RMEM_COUNT0.REQ_TX 1).inject c p

end Sys2Proof.Claims

/-- LD takes its value at issue: the bytes of the access, those that a running GMM also writes being undefined. Its register waits for it,
the pc goes on, and a load from LPDDR takes a place in its channel's queue; a load from another chip's memory is sent. A sum outside 0 to
2^60 - 1 raises F_ISA_AOVF. LD_COMPLETE writes the register, ends the operation and lets the register be read again, or raises the error
that the read met (R66, R68, R78, R119, R177, R209, R211). XMOV of no bytes counts at once. Any other reads its source, whose bytes are
undefined where the ranges overlap or a running GMM writes them, and writes them at its destination, unless the source is uncorrectable.
XMOV_COMPLETE increments the counter and ends the copy, its bytes undefined if a buffer that it uses was freed, or raises the error that the
read met (R69, R70, R119, R177, R194, R209). -/
def Obligations.LoadAndCopyResults : Prop :=
  ((∀ (k : Fin 50) (b : BitVec 52) (s : State) (sp off n : Nat), Runs s k b → Settled s k [fd b.toNat] → OpsFree s k →
    sp = spaceOf (msAddr s k b).toNat → n = msBytes b.toNat →
    (effOff (msAddr s k b) (sfield b.toNat 35 0) = some off →
      (sp ≠ 3 → s.accessFault k (s.ctxOf k) sp off n n true = none →
        ∀ (r : List Byte × State) (t u : State),
        r = (s.checkRead (rinkPort k) sp off n false).besideRead k (sp * 2 ^ 60 + off) (s.streamRead k sp off n) →
        t = r.2.beginOp k (.ld (fd b.toNat) (if bitsOf b.toNat 36 36 = 1 then BitVec.ofInt 64 (signed (8 * n) (leNat r.1))
          else BitVec.ofNat 64 (leNat r.1)) n (bitsOf b.toNat 36 36 == 1)) sp off (s.badCode sp off n) →
        u = (if fd b.toNat = 0 then t else t.updStream k (fun x => { x with pendS := fd b.toNat :: x.pendS })).sendOn k →
        (s.gmu k = [] → r.1 = s.streamRead k sp off n) ∧
        (sp ≠ 2 → Gives (.ld k b) s u) ∧
        (sp = 2 → LpddrReady s off n → Gives (.ld k b) s ((u.overflow (channelOf off)).chEntered (channelOf off)))) ∧
      (sp = 3 → s.remoteFault (s.ctxOf k) off n 0 false = none → ∀ o : RemoteOp,
        o = { opc := 16 * bitsOf b.toNat 38 37, dst := fd b.toNat, sx := bitsOf b.toNat 36 36 == 1 } → RemoteFree s k off o →
        Gives (.ld k b) s (remoteSent s k off o))) ∧
    (effOff (msAddr s k b) (sfield b.toNat 35 0) = none → Precise s k →
      Gives (.ld k b) s (s.streamFault k F_ISA_AOVF 39 (s.rd (ENG_PC.PC k))))) ∧
  (∀ (k : Fin 50) (op : Nat) (s : State) (o : MemOp) (t n : Nat) (v : Word) (sx : Bool), Grants s →
    s.findOp k op = some o → o.kind = .ld t v n sx → s.memReady o = true →
    (o.err = none → GivesWith (.ldComplete k op) s
      ((((s.served o).setS k t v).updStream k (fun x => { x with pendS := x.pendS.erase t })).endOp k op)) ∧
    (∀ code, o.err = some code → GivesWith (.ldComplete k op) s ((s.served o).streamFault k code 0 o.pc)))) ∧
  ((∀ (k : Fin 50) (b : BitVec 52) (s : State), Runs s k b → bitsOf b.toNat 22 0 = 0 → Settled s k [bitsOf b.toNat 39 35] → OpsFree s k →
    ∀ ad as n : Nat, ad = (s.areg k (bitsOf b.toNat 47 44)).toNat → as = (s.areg k (bitsOf b.toNat 43 40)).toNat →
    n = (s.sreg k (bitsOf b.toNat 39 35)).toNat → n % 16 = 0 →
    s.accessFault k (s.ctxOf k) (spaceOf ad) (offOf ad) n 16 (spaceOf ad != 3) = none →
    s.accessFault k (s.ctxOf k) (spaceOf as) (offOf as) n 16 (spaceOf as != 3) = none →
    (n = 0 → Gives (.xmov k b) s ((s.addCc (s.ctxOf k) (bitsOf b.toNat 34 23) 1).retire k)) ∧
    (n ≠ 0 → (spaceOf as = 2 → LpddrReady s (offOf as) n) → (spaceOf ad = 2 → LpddrReady s (offOf ad) n) →
      ∀ (r : State) (p q : List Byte × State) (t : State), r = s.checkRead (rinkPort k) (spaceOf as) (offOf as) n false →
      ((spaceOf ad ≠ spaceOf as ∨ offOf as + n ≤ offOf ad ∨ offOf ad + n ≤ offOf as) →
        p = r.besideRead k as (r.streamRead k (spaceOf as) (offOf as) n)) →
      (spaceOf ad = spaceOf as → offOf ad < offOf as + n → offOf as < offOf ad + n → p = r.freeBytes n) →
      q = p.2.besideWrite k ad (fun _ => true) p.1 →
      t = q.2.beginOp k (.xmov (bitsOf b.toNat 34 23) ad n) (spaceOf as) (offOf as) (s.badCode (spaceOf as) (offOf as) n) →
      (s.badCode (spaceOf as) (offOf as) n = none → Gives (.xmov k b) s
        ((t.streamWrite (s.ctxOf k) k (s.stream k).nextOp (spaceOf ad) (offOf ad) q.1).sendOn k)) ∧
      (s.badCode (spaceOf as) (offOf as) n ≠ none → Gives (.xmov k b) s (t.sendOn k)))) ∧
  (∀ (k : Fin 50) (op : Nat) (s : State) (o : MemOp) (cc dst n : Nat), Grants s → s.findOp k op = some o →
    o.kind = .xmov cc dst n → s.memReady o = true → s.writeHeld k op = false →
    (o.err = none → o.loose = false → GivesWith (.xmovComplete k op) s (((s.served o).addCc ((s.served o).ctxOf k) cc 1).endOp k op)) ∧
    (o.err = none → o.loose = true → GivesWith (.xmovComplete k op) s
      (((((s.served o).freeBytes n).2.setSpace k (spaceOf dst) (offOf dst) ((s.served o).freeBytes n).1).addCc (s.ctxOf k) cc 1).endOp
        k op)) ∧
    (∀ code, o.err = some code → GivesWith (.xmovComplete k op) s ((s.served o).streamFault k code 0 o.pc))))

/-! ## Velim: vectors -/

/-- VADD to VSHR and the functions of R105: each lane where the mask is 1 takes the function of the lanes of va and vb, every other lane
keeps its value, and the flags of the active lanes are ORed into NUM_FLAGS (R98 to R100, R105, R107). A vector write under a mask: an active
lane takes its new value modulo 2^32, an inactive lane keeps its old one, no other vector register changes, and no scalar, address or
predicate register (R98). -/
def Obligations.VectorLaneResults : Prop :=
  (∀ r ∈ laneRows, ∀ (k : Fin 50) (b : BitVec 52) (s : State), Vectorial k → Runs s k b → MaskOk b →
    (r.two = false → bitsOf b.toNat 37 33 = 0) → bitsOf b.toNat 32 28 = 0 → (r.rounds = false → bitsOf b.toNat 23 22 = 0) →
    bitsOf b.toNat 21 0 = 0 → VSettled s k [fd b.toNat, fva b.toNat] → (r.two = true → VSettled s k [fvb b.toNat]) →
    Gives (r.cmd k b) s ((s.writeLanes k b.toNat (fun i =>
      r.op (frnd b.toNat) (lane (s.vreg k (fva b.toNat)) i) (lane (s.vreg k (fvb b.toNat)) i))).retire k)) ∧
  (∀ (s : State) (k w : Nat) (f : Nat → Nat × Nat),
    (∀ i, i < 512 → s.active k w 24 i = true → lane ((s.writeLanes k w f).vreg k (fd w)) i = (f i).1 % 2 ^ 32) ∧
    (∀ i, i < 512 → s.active k w 24 i = false → lane ((s.writeLanes k w f).vreg k (fd w)) i = lane (s.vreg k (fd w)) i) ∧
    (∀ j r, ¬ (j = k ∧ r = fd w) → (s.writeLanes k w f).vreg j r = s.vreg j r) ∧
    (∀ j r, (s.writeLanes k w f).sreg j r = s.sreg j r ∧ (s.writeLanes k w f).areg j r = s.areg j r ∧
      (s.writeLanes k w f).preg j r = s.preg j r))

/-- VFMA rounds once; VBCAST puts the low word of a scalar register in every lane and VIOTA its index; VEXT puts one lane into a scalar
register; VSEL writes every lane, chosen by the mask; a VCVT whose formats are illegal raises F_ISA_FMT, and one from FP32 to a packed
format without scales packs part q (R100 to R102). -/
def Obligations.VectorOtherResults : Prop :=
  ∀ (k : Fin 50) (b : BitVec 52) (s : State), Vectorial k → Runs s k b →
    (MaskOk b → bitsOf b.toNat 21 0 = 0 → VSettled s k [fd b.toNat, fva b.toNat, fvb b.toNat, fvc b.toNat] →
      Gives (.vfma k b) s ((s.writeLanes k b.toNat (fun i => f32Fma (frnd b.toNat) (lane (s.vreg k (fva b.toNat)) i)
        (lane (s.vreg k (fvb b.toNat)) i) (lane (s.vreg k (fvc b.toNat)) i))).retire k)) ∧
    (MaskOk b → bitsOf b.toNat 42 38 = 0 → bitsOf b.toNat 32 28 = 0 → bitsOf b.toNat 23 0 = 0 → VSettled s k [fd b.toNat] →
      (Settled s k [fvb b.toNat] → Gives (.vbcast k b) s
        ((s.writeLanes k b.toNat (fun _ => ((s.sreg k (fvb b.toNat)).toNat % 2 ^ 32, 0))).retire k)) ∧
      (bitsOf b.toNat 37 33 = 0 → Gives (.viota k b) s ((s.writeLanes k b.toNat (fun i => (i, 0))).retire k))) ∧
    (bitsOf b.toNat 37 9 = 0 → VSettled s k [fva b.toNat] → Settled s k [fd b.toNat] →
      Gives (.vext k b) s ((s.setS k (fd b.toNat) (BitVec.ofNat 64 (lane (s.vreg k (fva b.toNat)) (bitsOf b.toNat 8 0)))).retire k)) ∧
    (MaskOk b → bitsOf b.toNat 32 28 = 0 → bitsOf b.toNat 23 0 = 0 → VSettled s k [fd b.toNat, fva b.toNat, fvb b.toNat] →
      Gives (.vsel k b) s ((s.setV k (fd b.toNat) (vecOf (laneList.map (fun i =>
        if s.active k b.toNat 24 i then lane (s.vreg k (fva b.toNat)) i else lane (s.vreg k (fvb b.toNat)) i)))).retire k)) ∧
    (MaskOk b → bitsOf b.toNat 37 28 = 0 → bitsOf b.toNat 9 0 = 0 → ffs b.toNat = 0 → packed (ffd b.toNat) = true →
      isMx (ffd b.toNat) = false → fq b.toNat < parts (ffd b.toNat) →
      VSettled s k [fd b.toNat, fva b.toNat] →
      Gives (.vcvt k b) s (((s.setV k (fd b.toNat) (vecBytes (s.vreg k (fd b.toNat)) (partBytes (ffd b.toNat) * fq b.toNat)
        (partBytes (ffd b.toNat)) (packElems (ffd b.toNat)
          ((packLanes (ffd b.toNat) (frnd b.toNat) (fsat b.toNat) (s.vreg k (fva b.toNat))).1.map (fun x => x.1))))).orFlags k
        (flagsOf (packLanes (ffd b.toNat) (frnd b.toNat) (fsat b.toNat) (s.vreg k (fva b.toNat))).1)).retire k)) ∧
    (MaskOk b → bitsOf b.toNat 37 28 = 0 → bitsOf b.toNat 23 21 = 0 → bitsOf b.toNat 12 0 = 0 → ffs b.toNat = 0 → ffd b.toNat = 0 →
      VSettled s k [fd b.toNat, fva b.toNat] → Precise s k → Gives (.vcvt k b) s (s.streamFault k F_ISA_FMT 13 (s.rd (ENG_PC.PC k))))

/-- The vector compares write the truth of their relation into the predicate bit of each active lane and keep the others (R101); the
reductions put the result of the fixed tree of 9 levels into every lane, inactive lanes counting as the identity (R104). -/
def Obligations.VectorCompareAndReduce : Prop :=
  (∀ r ∈ vcmpRows, ∀ (k : Fin 50) (b : BitVec 52) (s : State), Vectorial k → Runs s k b → MaskOk b → bitsOf b.toNat 47 46 = 0 →
    bitsOf b.toNat 32 28 = 0 → bitsOf b.toNat 23 0 = 0 → VSettled s k [fva b.toNat, fvb b.toNat] →
    Gives (r.1 k b) s ((s.setP k (fd b.toNat) (BitVec.ofNat 512 ((laneList.map (fun i =>
      if s.active k b.toNat 24 i then r.2 (lane (s.vreg k (fva b.toNat)) i) (lane (s.vreg k (fvb b.toNat)) i)
      else (s.preg k (fd b.toNat)).getLsbD i)).foldr (fun x acc => 2 * acc + if x then 1 else 0) 0))).retire k)) ∧
  (∀ r ∈ sumRows, ∀ (k : Fin 50) (b : BitVec 52) (s : State), Vectorial k → Runs s k b → MaskOk b → bitsOf b.toNat 37 28 = 0 →
    (r.rounds = false → bitsOf b.toNat 23 22 = 0) → bitsOf b.toNat 21 0 = 0 → VSettled s k [fd b.toNat, fva b.toNat] →
    ∀ x : Nat × Nat, x = treeReduce (r.op (frnd b.toNat)) 9
      (laneList.map (fun i => if s.active k b.toNat 24 i then lane (s.vreg k (fva b.toNat)) i else r.idn)) 0 →
    Gives (r.cmd k b) s (((s.setV k (fd b.toNat) (vecOf (List.replicate 512 x.1))).orFlags k x.2).retire k))

/-- VLD takes the active lanes at issue, its register waits for them, and LD_COMPLETE writes it or raises the error that the read met; VST
writes the active lanes; bytes that a running GMM of the cluster also uses are undefined (R98, R103, R119, R177). -/
def Obligations.VectorMemoryResults : Prop :=
  (∀ (k : Fin 50) (b : BitVec 52) (s : State), Vectorial k → Runs s k b →
    ¬ (bitsOf b.toNat 38 36 = 0 ∧ bitsOf b.toNat 35 35 = 1) → VSettled s k [fd b.toNat] → OpsFree s k → s.vmFaults k b.toNat = [] →
    ∀ (sp off : Nat) (on : Pred), sp = spaceOf (msAddr s k b).toNat → off = s.vmOff k b.toNat → on = s.activeLanes k b.toNat →
    (∀ i, i < 512 → on.getLsbD i = s.active k b.toNat 35 i) ∧
    (∀ r : List Byte × State,
      r = (s.checkRead (rinkPort k) sp off 2048 false).besideRead k (sp * 2 ^ 60 + off) (s.streamRead k sp off 2048) →
      (s.gmu k = [] → r.1 = s.streamRead k sp off 2048) ∧
      Gives (.vld k b) s (((r.2.beginOp k (.vld (fd b.toNat) (vecOf (laneList.map (fun i =>
          if on.getLsbD i then lane (BitVec.ofNat 16384 (leNat r.1)) i else lane (r.2.vreg k (fd b.toNat)) i))) on) sp off
          (s.badCode sp off 2048)).updStream k (fun x => { x with pendV := fd b.toNat :: x.pendV })).sendOn k)) ∧
    (∀ l r, l = leBytes 2048 (s.vreg k (fd b.toNat)).toNat →
      r = s.besideWrite k (sp * 2 ^ 60 + off) (fun i => on.getLsbD (i / 4)) l → (s.gmu k = [] → r = (l, s)) ∧
      Gives (.vst k b) s (((r.2.beginOp k (.vst on) sp off).vecStore k sp off (BitVec.ofNat 16384 (leNat r.1))
        (fun i => on.getLsbD i)).sendOn k))) ∧
  (∀ (k : Fin 50) (op : Nat) (s : State) (o : MemOp) (t : Nat) (v : Vec) (on : Pred), Grants s →
    s.findOp k op = some o → o.kind = .vld t v on → s.memReady o = true →
    (o.err = none → GivesWith (.ldComplete k op) s
      (((s.setV k t v).updStream k (fun x => { x with pendV := x.pendV.erase t })).endOp k op)) ∧
    (∀ code, o.err = some code → GivesWith (.ldComplete k op) s (s.streamFault k code 0 o.pc)))

/-! ## Velim: the engines' own instructions -/

namespace Sys2Proof.Claims

/-- What a GMU reads for the running entry: its descriptor, and its operands where it is valid, has rows and meets no fault (R110, R177). -/
def entryReads (s : State) (u : Nat) (x : GmmOp) : List (Nat × Nat × Nat) :=
  (spaceOf x.addr, offOf x.addr + 64 * x.entry, 64) ::
    if (Gdt.mk x.desc).valid = false ∨ (Gdt.mk x.desc).rows = 0 ∨ x.fault.isSome then []
    else (s.gdtReads u ⟨x.desc⟩).map (fun r => (spaceOf r.1, offOf r.1, r.2))

end Sys2Proof.Claims

/-- GMM of no entries counts at once, unless it counts only entries, and otherwise joins its GMU's list of at most two and retires.
GMM_ENTRY_DONE passes an entry that is not valid, counts one of no rows, writes the result of a good one and counts it, raises the code of
one that faults with the entry's index, and raises F_LKR_RINKUE or F_MEM_UE where a word that the entry reads is uncorrectable (R108, R109,
R111, R112, R177, R209). GROUTE, GSELECT and GCLOSE of a Gate Engine with room join its list of at most two, with their count of tokens and
their counter, and retire; GCLOSE is no memory operation (R125, R126). -/
def Obligations.GmmAndGateIssueResults : Prop :=
  ((∀ (k : Fin 50) (b : BitVec 52) (s : State), k.val < 32 → Runs s k b → bitsOf b.toNat 25 0 = 0 → Settled s k [bitsOf b.toNat 43 39] →
    OpsFree s k → ∀ a n : Nat, a = (s.areg k (bitsOf b.toNat 47 44)).toNat → n = (s.sreg k (bitsOf b.toNat 43 39)).toNat → n ≤ 65535 →
    s.accessFault k (s.ctxOf k) (spaceOf a) (offOf a) (64 * n) 64 (decide (spaceOf a < 2)) = none →
    (n = 0 → bitsOf b.toNat 26 26 = 0 → Gives (.gmm k b) s ((s.addCc (s.ctxOf k) (bitsOf b.toNat 38 27) 1).retire k)) ∧
    (n = 0 → bitsOf b.toNat 26 26 = 1 → Gives (.gmm k b) s (s.retire k)) ∧
    (n ≠ 0 → (s.gmu k).length < 2 → Gives (.gmm k b) s (((s.beginOp k .gmm (spaceOf a) (offOf a)).gmuAdd k
      { stream := k, op := (s.stream k).nextOp, pc := s.rd (ENG_PC.PC k), addr := a, count := n, entry := 0, cc := bitsOf b.toNat 38 27,
        ce := bitsOf b.toNat 26 26 }).retire k))) ∧
  (∀ (u : Fin 32) (s r : State) (x : GmmOp) (l : List GmmOp), Grants s →
    s.ctxState (s.ctxOf u) = CtxSt.run ∨ s.ctxState (s.ctxOf u) = CtxSt.saving → s.gmu u = x :: l → x.desc ≠ [] →
    s.servesAll (entryReads s u x) = true → r = s.readRanges (rinkPort u) (entryReads s u x) false →
    (∀ code, s.badAll (entryReads s u x) = some code → GivesWith (.gmmEntryDone u) s (r.streamFault u code 0 x.pc)) ∧
    (s.badAll (entryReads s u x) = none →
      ((Gdt.mk x.desc).valid = false → GivesWith (.gmmEntryDone u) s (r.entryOver u x l)) ∧
      ((Gdt.mk x.desc).valid = true → (Gdt.mk x.desc).rows = 0 → GivesWith (.gmmEntryDone u) s ((r.countEntry u ⟨x.desc⟩).entryOver u x l)) ∧
      ((Gdt.mk x.desc).valid = true → (Gdt.mk x.desc).rows ≠ 0 →
        (x.fault = none → GivesWith (.gmmEntryDone u) s
          (((r.gmmWrite u x.op ⟨x.desc⟩ (x.loose.contains x.entry)).countEntry u ⟨x.desc⟩).entryOver u x l)) ∧
        (∀ f, x.fault = some f → GivesWith (.gmmEntryDone u) s (r.streamFault u f x.entry x.pc)))))) ∧
  (∀ (k : Fin 50) (b : BitVec 52) (s : State) (a n : Nat), 32 ≤ k.val → k.val < 40 → Runs s k b → bitsOf b.toNat 26 0 = 0 →
    Settled s k [bitsOf b.toNat 43 39] → (s.gate (k.val - 32)).ops.length < 2 → a = (s.areg k (bitsOf b.toNat 47 44)).toNat →
    s.accessFault k (s.ctxOf k) (spaceOf a) (offOf a) 64 1 (decide (spaceOf a = 1 ∨ spaceOf a = 4)) = none → offOf a % 64 = 0 →
    (∀ (i : Instr) (kind : Nat), (i = .groute k b ∧ kind = 0) ∨ (i = .gselect k b ∧ kind = 1) →
      n = (s.sreg k (bitsOf b.toNat 43 39)).toNat → n ≤ 65535 → OpsFree s k →
      ∀ t : State, t = (((s.beginOp k .gate (spaceOf a) (offOf a)).updGate (k.val - 32) (fun y => { y with ops := y.ops ++
        [{ kind := kind, op := (s.stream k).nextOp, pc := s.rd (ENG_PC.PC k), addr := a, count := n, cc := bitsOf b.toNat 38 27,
           desc := [] }] })).retire k) →
      Gives i s ((t.wr (GE_STATUS.QUEUED (k.val - 32)) (t.gate (k.val - 32)).ops.length).gateReach (k.val - 32) 2)) ∧
    (bitsOf b.toNat 43 39 = 0 →
      ∀ t : State, t = ((s.updGate (k.val - 32) (fun y => { y with ops := y.ops ++
        [{ kind := 2, op := (s.stream k).nextOp, pc := s.rd (ENG_PC.PC k), addr := a, count := 0, cc := bitsOf b.toNat 38 27,
           desc := [] }] })).retire k) →
      Gives (.gclose k b) s ((t.wr (GE_STATUS.QUEUED (k.val - 32)) (t.gate (k.val - 32)).ops.length).gateReach (k.val - 32) 2)))

namespace Sys2Proof.Claims

/-- The remote atomics and RSTN with the operation code of R276 and R278. -/
def atomicRows : List ((Fin 50 → BitVec 52 → Instr) × Nat) := [
  (.radd, 2), (.rmin, 3), (.rminu, 4), (.rmax, 5), (.rmaxu, 6), (.rswp, 7), (.rcas, 8), (.rstn, 9)]

/-- Bytes of a remote operation. -/
def atomicBytes (b : BitVec 52) : Nat := if bitsOf b.toNat 28 28 = 1 then 8 else 4

end Sys2Proof.Claims

/-- RADD, RMIN, RMINU, RMAX, RMAXU, RSWP, RCAS and RSTN whose address a segment grants are sent with their operands and their operation
code; an address outside space 0x3 raises F_ISA_SPACE (R272 to R278). -/
def Obligations.RemoteAtomicResults : Prop :=
  ∀ r ∈ atomicRows, ∀ (k : Fin 50) (b : BitVec 52) (s : State), Runs s k b →
    (r.2 ≠ 8 → bitsOf b.toNat 33 29 = 0) → (bitsOf b.toNat 27 27 = 0 → bitsOf b.toNat 26 15 = 0) → (r.2 = 9 → bitsOf b.toNat 47 43 = 0) →
    Settled s k [fd b.toNat, bitsOf b.toNat 38 34, bitsOf b.toNat 33 29] → OpsFree s k →
    (∀ (off : Nat) (o : RemoteOp), spaceOf (msAddr s k b).toNat = 3 → effOff (msAddr s k b) (sfield b.toNat 14 0) = some off →
      s.remoteFault (s.ctxOf k) off (atomicBytes b) (if r.2 = 9 then 1 else 2) (bitsOf b.toNat 27 27 == 1) = none →
      o = {
        opc := r.2 + 16 * (if atomicBytes b = 8 then 3 else 2) + 128 * bitsOf b.toNat 27 27
        val := (s.sreg k (bitsOf b.toNat 38 34)).toNat % 2 ^ (8 * atomicBytes b)
        cmp := (s.sreg k (bitsOf b.toNat 33 29)).toNat % 2 ^ (8 * atomicBytes b)
        cc := bitsOf b.toNat 26 15, dst := fd b.toNat } → RemoteFree s k off o →
      Gives (r.1 k b) s (remoteSent s k off o)) ∧
    (spaceOf (msAddr s k b).toNat ≠ 3 → Precise s k → Gives (r.1 k b) s (s.streamFault k F_ISA_SPACE 39 (s.rd (ENG_PC.PC k))))

namespace Sys2Proof.Claims

/-- The snapshot instructions with their kind and the bytes of their descriptor (R352). -/
def snapRows : List ((Fin 50 → BitVec 52 → Instr) × Nat × Nat) := [(.srd, 0, 32), (.sdig, 1, 16), (.sman, 2, 24)]

end Sys2Proof.Claims

/-- RPOST appends a good descriptor to its engine's posted operations, and raises F_COL_DESC for a bad one and F_LKR_RINKUE for one that
cannot be read, in every case after retiring; RCANCEL drops the operations that have not fired and counts; RADMIT asks for its admission at
the end of the clk, which raises F_COL_ORDER for a collective that is not later than the last, and otherwise retires and queues a good
descriptor, keeps its collective's number and raises F_COL_DESC for a bad one; RFREE frees a collective's entries and raises F_COL_FREEBUSY
while one is filling (R288, R289, R290, R298 to R300, R305). SRD, SDIG and SMAN of a Snapshot Engine start as memory operations and retire;
SNAPSHOT_INSTR_COMPLETE reads the descriptor of the oldest of them and runs it, an SRD only while no sweep or drain copy comes before it; a
descriptor that cannot be read raises F_LKR_RINKUE (R177, R349, R352 to R354). -/
def Obligations.RelayAndSnapshotIssueResults : Prop :=
  ((∀ (k : Fin 50) (b : BitVec 52) (s : State), 40 ≤ k.val → k.val < 48 → Runs s k b →
    (∀ (a : Nat) (t : State), a = (s.areg k (bitsOf b.toNat 47 44)).toNat → bitsOf b.toNat 43 0 = 0 →
      s.accessFault k (s.ctxOf k) (spaceOf a) (offOf a) 64 64 (decide (spaceOf a = 1)) = none →
      ((s.relay (k.val - 40)).posted.filter (fun o => ! o.fired)).length < 256 →
      t = (s.retire k).checkRead (rinkPort k) 1 (offOf a) 64 false →
      (s.rinkBad (offOf a) 64 = true → Gives (.rpost k b) s (t.streamFault k F_LKR_RINKUE 0 (s.rd (ENG_PC.PC k)))) ∧
      (s.rinkBad (offOf a) 64 = false →
        (odOk (s.rinkWords (offOf a) 8) = true → Gives (.rpost k b) s (t.setRelay (k.val - 40) { s.relay (k.val - 40) with
          posted := (s.relay (k.val - 40)).posted ++ [{ desc := s.rinkWords (offOf a) 8, pc := s.rd (ENG_PC.PC k) }] })) ∧
        (odOk (s.rinkWords (offOf a) 8) = false → Gives (.rpost k b) s (t.streamFault k F_COL_DESC 0 (s.rd (ENG_PC.PC k)))))) ∧
    (bitsOf b.toNat 47 34 = 0 → bitsOf b.toNat 21 0 = 0 →
      Gives (.rcancel k b) s (((s.setRelay (k.val - 40) { s.relay (k.val - 40) with
        posted := (s.relay (k.val - 40)).posted.filter (fun o => o.fired) }).addCc (s.ctxOf k) (bitsOf b.toNat 33 22) 1).retire k)) ∧
    (∀ a n id : Nat, a = (s.areg k (bitsOf b.toNat 47 44)).toNat → n = (s.sreg k (bitsOf b.toNat 43 39)).toNat →
      id = (s.sreg k (bitsOf b.toNat 38 34)).toNat % 2 ^ 32 → bitsOf b.toNat 33 0 = 0 → Settled s k [bitsOf b.toNat 43 39, bitsOf b.toNat 38 34] →
      s.accessFault k (s.ctxOf k) (spaceOf a) (offOf a) 32 32 (decide (spaceOf a = 1)) = none → n ≠ 0 → n ≤ 512 →
      n ≤ (s.partition (s.ctxOf k)).length →
      Gives (.radmit k b) s (s.updCol (fun x => { x with
        asked := x.asked ++ [⟨n, id, s.rinkWords (offOf a) 4, s.rd (ENG_PC.PC k), k.val, a⟩] }))) ∧
    (∀ l : List Nat, l = s.colEntries (s.ctxOf k) ((s.sreg k (bitsOf b.toNat 38 34)).toNat % 2 ^ 32) → bitsOf b.toNat 47 39 = 0 →
      bitsOf b.toNat 33 0 = 0 → Settled s k [bitsOf b.toNat 38 34] →
      (l.all (fun i => (s.rsEntry i).st != 2) = true → Gives (.rfree k b) s ((l.foldl (fun s i => s.freeEntry i) s).retire k)) ∧
      (l.any (fun i => (s.rsEntry i).st == 2) = true → Precise s k →
        Gives (.rfree k b) s (s.streamFault k F_COL_FREEBUSY 0 (s.rd (ENG_PC.PC k)))))) ∧
  (∀ (s : State) (r : Admit), s.col.asked = [r] → ∀ (u t : State) (k c : Nat), u = s.updCol (fun x => { x with asked := [] }) → k = r.stream →
    c = s.ctxOf k → s.engState k = EngSt.run →
    (∀ last, (s.ctx c).lastCol = some last → laterCol r.colid last = false → Precise s k →
      s.settleAdmits = u.streamFault k F_COL_ORDER 0 (s.rd (ENG_PC.PC k))) ∧
    ((∀ last, (s.ctx c).lastCol = some last → laterCol r.colid last = true) → (s.admits c).length < 16 → s.rinkBad (offOf r.addr) 32 = false →
      t = ((((u.updCtx c (fun x => { x with lastCol := some r.colid })).wr (if c = 0 then COL_LASTID.GEN else COL_LASTID.RT) r.colid).retire
        k).checkRead (rinkPort k) 1 (offOf r.addr) 32 false) →
      (adOk r.desc = true → s.settleAdmits = t.setAdmits c (t.admits c ++ [r])) ∧
      (adOk r.desc = false → s.settleAdmits = t.streamFault k F_COL_DESC 0 r.pc)))) ∧
  ((∀ r ∈ snapRows, ∀ (k : Fin 50) (b : BitVec 52) (s : State) (a : Nat), 48 ≤ k.val → Runs s k b → bitsOf b.toNat 31 0 = 0 → OpsFree s k →
    a = (s.areg k (bitsOf b.toNat 47 44)).toNat →
    s.accessFault k (s.ctxOf k) (spaceOf a) (offOf a) r.2.2 64 (spaceOf a == 1) = none →
    Gives (r.1 k b) s ((s.beginOp k (.snap r.2.1 (bitsOf b.toNat 43 32)) 1 (offOf a)).retire k)) ∧
  (∀ (c : Fin 2) (s u : State) (o : MemOp) (l : List MemOp) (m cc n : Nat), Grants s → s.host.lost = [] →
    (s.stream (48 + c.val)).ops = o :: l → o.kind = .snap m cc → m < 3 → (m = 0 → s.readsYield = false) →
    n = (if m = 0 then 32 else if m = 1 then 16 else 24) → u = s.readRanges 44 [(1, o.addr, n)] false →
    (s.rinkBad o.addr n = true → Gives (.snapshotInstrComplete c) s (u.streamFault (48 + c.val) F_LKR_RINKUE 0 o.pc)) ∧
    (s.rinkBad o.addr n = false → Gives (.snapshotInstrComplete c) s
      (if m = 0 then u.runSrd (48 + c.val) o cc else if m = 1 then u.runSdig (48 + c.val) o cc else u.runSman (48 + c.val) o cc))))

/-! ## Control space -/

namespace Sys2Proof.Claims

/-- The clocks outside the always-on domain run. -/
abbrev Up (s : State) : Prop := s.stopped = false

end Sys2Proof.Claims

/-- REG_WRITE to a register whose block keeps it as plain fields (COURSE_CTL and TEL_RING) changes that register alone, under its access
codes; one to a trouble counter does so too, the troubles of the same clk being added to what was written (R4, R426); one to a hole is
ignored and recorded in CS_HOLE with its path and offset, unless the block is off (R472); a misaligned one has no effect. An access to a
hole counts in CS_HOLE and leaves its path, direction and offset there (R472). DEFERRED_SETTING_WRITE of a context's own setting: while the
context is in RUN, SAVING or SAVED the register keeps its value and the written bits wait with the context; in any other state they take
effect at once (R478). -/
def Obligations.RegisterWriteResults : Prop :=
  (∀ (path : Path) (off : BitVec 24) (v : Word) (s : State), Up s →
    (∀ r : RegRow, findRow off.toNat = some r → off.toNat % 8 = 0 → s.domainOn (domainOf off.toNat) = true →
      s.settingParts off.toNat = [] → ∀ t : State, t = s.setReg off.toNat (writeWord r.fields false (s.reg off.toNat) v) →
      (off.toNat = 0x020010 ∨ off.toNat = 0x240008 → Gives (.regWrite path off v) s t) ∧
      (0x243000 ≤ off.toNat → off.toNat < 0x243040 → Gives (.regWrite path off v) s ((List.range 4).foldl (fun u j =>
        u.addSat (troubleFld ((off.toNat - 0x243000) / 8 * 4 + j)) (tget (fun _ => 0) s.thisClk.troubles ((off.toNat - 0x243000) / 8 * 4 + j))) t))) ∧
    (findRow off.toNat = none → off.toNat % 8 = 0 → tmplWindow off.toNat = false → plainWindow off.toNat = false → certAt off.toNat = false →
      readWindow off.toNat = false → Gives (.regWrite path off v) s (s.hole path true off.toNat)) ∧
    (off.toNat % 8 ≠ 0 → Gives (.regWrite path off v) s s)) ∧
  (∀ (s : State) (path : Path) (write : Bool) (off : Nat), off < 2 ^ 24 → s.domainOn (domainOf off) = true →
    (s.hole path write off).rd CS_HOLE.OFFSET = off ∧ (s.hole path write off).bit CS_HOLE.WRITE = write ∧
    (s.hole path write off).rd CS_HOLE.PATH = pathNum path ∧
    (s.hole path write off).rd CS_HOLE.COUNT = min (s.rd CS_HOLE.COUNT + 1) (2 ^ CS_HOLE.COUNT.width - 1) ∧
    (∀ o, o ≠ CS_HOLE.OFFSET.off → (s.hole path write off).reg o = s.reg o)) ∧
  (∀ (path : Path) (v : Word) (s : State) (c : Fin 2), Up s → s.domainOn (domainOf (0x010040 + 8 * c.val)) = true →
    (s.ctxBusy c = false → Gives (.deferredSettingWrite path (BitVec.ofNat 24 (0x010040 + 8 * c.val)) v) s
      (s.applyBits (0x010040 + 8 * c.val) v allBits)) ∧
    (s.ctxBusy c = true → Gives (.deferredSettingWrite path (BitVec.ofNat 24 (0x010040 + 8 * c.val)) v) s
      (s.updCtx c (fun x => { x with deferred := x.deferred ++ [(0x010040 + 8 * c.val, v, allBits)] }))))

/-! ## Lap time -/

namespace Sys2Proof.Claims

/-- The state with the fields of LAP_CTRL that a write of `v` sets, ENABLE as it was (R55). -/
def lapFields (s : State) (v : Nat) : State := (s.applySetting LAP_CTRL.ENABLE.off (BitVec.ofNat 64 v)).wr LAP_CTRL.ENABLE (s.rd LAP_CTRL.ENABLE)

/-- The bits of LAP_CTRL that are not ENABLE and RELOCK. -/
abbrev lapSrc (v : Word) (low : Nat) : Nat := withBits v.toNat 1 0 low

end Sys2Proof.Claims

/-- LAP_EDGE brings the carry: the clk until it pass, the next lap begins with LCC 0, the loop is disciplined, markers leave and the
lap-edge actions are taken. LAP_CFG takes every field of a write while the unit is STOPPED and only HOLD_MAX, with F_LAP_CFG, where a write
would change PERIOD_US while it runs. F_LAP_HOLDEXP is reported once in a holdover. ENABLE in STOPPED starts the unit on a source of R38 and
reports F_LAP_CFG for another; DISABLE stops it while no context exists and reports F_LAP_CFG otherwise; RELOCK of a locked unit that no context
has seen acquires again (R38 to R41, R43, R54, R55). -/
def Obligations.LapUnitResults : Prop :=
  ∀ s : State, Up s →
    (∀ n : Nat, s.clkToCarry = some n → Gives .lapEdge s
      (((((s.advance n).beginLap (s.lapNo + 1) (s.lcc + n)).wr LAP_LCC.LCC 0).disciplineEdge).sendMarkers.lapEdgeActions
        (s.rd LAP_LCC.LAST_LAP_CLK))) ∧
    (∀ v : Word, s.lapRuns = false → 2000 ≤ fieldOf v LAP_CFG.PERIOD_US → fieldOf v LAP_CFG.PERIOD_US ≤ 40000 →
      ∃ t : State, Gives (.lapCfgWrite v) s t ∧
        (∀ f ∈ [LAP_CFG.HOLD_MAX, LAP_CFG.PERIOD_US, LAP_CFG.LOCK_TOL, LAP_CFG.SLEW, LAP_CFG.MISS_MAX], t.rd f = fieldOf v f) ∧
        (∀ off, off ≠ LAP_CFG.HOLD_MAX.off → t.reg off = s.reg off) ∧ t.rink = s.rink ∧ t.lpddr = s.lpddr ∧ t.streams = s.streams ∧
        t.ctxs = s.ctxs ∧ t.lap = s.lap) ∧
    (∀ v : Word, s.lapRuns = true → fieldOf v LAP_CFG.PERIOD_US ≠ s.rd LAP_CFG.PERIOD_US →
      Gives (.lapCfgWrite v) s ((s.wr LAP_CFG.HOLD_MAX (fieldOf v LAP_CFG.HOLD_MAX)).report F_LAP_CFG 2 0)) ∧
    (s.rd LAP_STATUS.STATE = LapSt.holdover → s.rd LAP_CFG.HOLD_MAX ≤ s.rd LAP_STATUS.HOLD_LAPS → s.lap.holdexp = false →
      Gives .lapHoldexp s ((s.updLap (fun x => { x with holdexp := true })).report F_LAP_HOLDEXP 2 0)) ∧
    (∀ (v : Word) (t : State), t = lapFields s (lapSrc v 1) → s.rd LAP_CTRL.ENABLE = 0 →
      (0 < t.rd LAP_CTRL.SRC_PRI → t.rd LAP_CTRL.SRC_PRI < 5 → Gives (.lapEnable v) s t.startLap) ∧
      (t.rd LAP_CTRL.SRC_PRI = 0 ∨ 5 ≤ t.rd LAP_CTRL.SRC_PRI → Gives (.lapEnable v) s (t.report F_LAP_CFG 2 0))) ∧
    (∀ (v : Word) (t : State), t = lapFields s (lapSrc v 0) → s.rd LAP_CTRL.ENABLE = 1 →
      (t.ctxExists 0 = false → t.ctxExists 1 = false → Gives (.lapDisable v) s t.stopLap) ∧
      (∀ c : Fin 2, t.ctxExists c = true → Gives (.lapDisable v) s (t.report F_LAP_CFG 2 0))) ∧
    (∀ v : Word, Gives (.lapRelock v) s (lapFields s (lapSrc v (2 + s.rd LAP_CTRL.ENABLE))).relock) ∧
    s.startLap.rd LAP_STATUS.STATE = (if s.rd LAP_CTRL.SRC_PRI = Src.freerun then LapSt.freerun else LapSt.acquire) ∧
    s.startLap.rd LAP_LCC.LCC = 0 ∧ s.stopLap.rd LAP_STATUS.STATE = LapSt.stopped ∧
    (s.rd LAP_STATUS.STATE = LapSt.locked → s.bit LAP_STATUS.CTX_SEEN = false → s.relock.rd LAP_STATUS.STATE = LapSt.acquire)

/-- A LAP_IN edge, an instant at which the PTP clock begins a lap and a lap marker each give the loop a reference edge: its source, the lap that
begins there and its place. A marker is a packet received like another; one that is not from the parent has no more effect, one of another lap in
LOCKED counts as bad with F_LAP_MARKER, and one that a replay brought gives no edge. Of the PTP messages, Sync keeps its arrival or, of one
step, moves the clock's offset and sends a Delay_Req; Follow_Up does the same for its Sync; Delay_Resp sets delay and offset (R31, R33, R34, R44,
R47, R235). -/
def Obligations.LapReferenceResults : Prop :=
  ∀ s : State, Up s →
    (∀ frac : BitVec 8, Gives (.lapInEdge frac) s (s.reference Src.lapIn 0 (s.lapNo + 1) (s.lcc * 256 - frac.toNat))) ∧
    (∀ (port : Fin 2) (sec : BitVec 48) (ns : BitVec 32) (t period since : Nat), t = sec.toNat * 1000000000 + ns.toNat →
      period = s.rd LAP_CFG.PERIOD_US * 1000 → since = (BitVec.ofNat 64 t - s.reg LAP_PTP.ORIGIN.off).toNat → s.bit (HP_CTL.PTP port) = true → period ≠ 0 → since % period = 0 →
      ((s.ptpClock port).when t).1 = s.clk →
      Gives (.ptpLapEdge port sec ns) s (s.reference Src.ptp port (since / period) (s.lcc * 256 + ((s.ptpClock port).when t).2))) ∧
    (∀ (n : Fin 12) (p : Packet) (resent : Bool) (frac : BitVec 8), pkClass p = Cls.ctl → pkOpc p = 2 →
      ∀ lap f : Nat, lap = leNat (p.payload.take 8) →
      f = (leNat ((p.payload.drop 8).take 8) - lap * 2 ^ 20) * 256 + leNat ((p.payload.drop 16).take 1) →
      Gives (.lapMarkerRx ⟨n, p, resent, frac⟩) s (s.receive n p true (fun u q =>
        if n.val ≠ (u.leave q).parentPort then u.leave q
        else (u.leave q).takeMarker n lap f resent ((u.leave q).lcc * 256 - frac.toNat)))) ∧
    (∀ (n lap f : Nat) (resent : Bool) (stamp : Int),
      (s.rd LAP_STATUS.STATE = LapSt.locked → lap ≠ s.lapNo →
        s.takeMarker n lap f resent stamp = (s.addSat LAP_COUNT.MARKER_BAD 1).report F_LAP_MARKER 2 0) ∧
      (s.rd LAP_STATUS.STATE ≠ LapSt.locked ∨ lap = s.lapNo → s.takeMarker n lap f true stamp = s) ∧
      (s.rd LAP_STATUS.STATE ≠ LapSt.locked ∨ lap = s.lapNo → s.rd LAP_LOOP.PHASE_INC ≠ 0 →
        s.takeMarker n lap f false stamp =
          s.reference Src.fabric 0 lap (stamp - s.rd (PORT_DELAY.DELAY n) - (f * 2 ^ 44 / s.rd LAP_LOOP.PHASE_INC : Nat)))) ∧
    (∀ (port : Fin 2) (f : Frame) (d : Dgram), s.hostLinked port = true → ∀ t : State, t = s.addSat (HP_COUNT.FEC_CORR port) f.corrected →
      t.dgramOf port f = some d → d.near = 319 ∨ d.near = 320 → t.bit (HP_CTL.PTP port) = true → t.hostState port = HpSt.up →
      Gives (.ptpMessageRx port f) s (t.ptpMessage port d)) ∧
    (∀ (n : Nat) (d : Dgram) (c : PtpClock), c = s.ptpClock n → 44 ≤ d.data.length →
      (ptpType d.data = 0 → ∀ t : State, t = s.setPtpClock n { c with syncAt := s.localNs, syncSeq := ptpSeq d.data, syncCorr := ptpCorr d.data } →
        (ptpTwoStep d.data = true → s.ptpMessage n d = t) ∧
        (ptpTwoStep d.data = false → s.ptpMessage n d = t.ptpSynced n d.v6 ((s.localNs : Int) - ptpStamp d.data - ptpCorr d.data))) ∧
      (ptpType d.data = 8 → ptpSeq d.data = c.syncSeq →
        s.ptpMessage n d = s.ptpSynced n d.v6 ((c.syncAt : Int) - ptpStamp d.data - c.syncCorr - ptpCorr d.data)) ∧
      (ptpType d.data = 9 → ptpSeq d.data = c.reqSeq → (d.data.drop 44).take 10 = s.ptpIdentity n → ∀ delay : Int,
        delay = (c.offset + c.delay + ((ptpStamp d.data : Int) - ptpCorr d.data - c.reqAt)) / 2 →
        s.ptpMessage n d = s.setPtpClock n { c with delay := delay, offset := c.offset + c.delay - delay }) ∧
      (∀ (v6 : Bool) (ms : Int) (seq : Nat), seq = (c.reqSeq + 1) % 2 ^ 16 →
        s.ptpSynced n v6 ms = (s.setPtpClock n { c with offset := ms - c.delay, reqAt := s.localNs, reqSeq := seq }).sendUdp n
          ⟨v6, ptpGroup v6, 319, 319, s.ptpDelayReq n seq⟩))

namespace Sys2Proof.Claims

/-- The OVERRUN notice of a context's step (R51). -/
def noticePacket (s : State) (c : Nat) (x : Step) : Packet :=
  mkPacket
    { cls := Cls.ctl, mode := 1, src := s.chipId, job := s.rd (CTX_JOB.JOB c), mgroup := s.rd (LAP_OVR.GROUP c), opc := 5, epoch := x.epoch } []

end Sys2Proof.Claims

/-- OVERRUN_SEND at the deadline of a step that is not complete sends the notice on GROUP once, and the chip's own step is marked when the
notice leaves; OVERRUN_RX marks the running step of its epoch, and a notice of another epoch raises F_LAP_LATEOVR where the step of the lap
after it has begun here (R50 to R53). -/
def Obligations.OverrunResults : Prop :=
  (∀ (s : State) (c : Fin 2) (x : Step), Up s → (s.ctx c).step = some x → s.ctxState c = CtxSt.run → x.ovrSent = false →
    x.doneCt = none → x.lap * 2 ^ 20 + s.rd (LAP_OVR.DEADLINE c) ≤ s.ct →
    ∀ leaves : Bool, leaves = (s.mgValid (s.rd (LAP_OVR.GROUP c)) (s.rd (CTX_JOB.JOB c)) && s.mgRoot (s.rd (LAP_OVR.GROUP c)) && ! s.selfFenced) →
    ∀ t : State, t = s.updCtx c (fun y => { y with step := some { x with ovrSent := true, overrun := x.overrun || leaves } }) →
    Gives (.overrunSend c) s ((t.originateTree c (noticePacket s c x)).trace 6 255 c x.epoch)) ∧
  (∀ (s : State) (n : Fin 13) (p : Packet), Up s → pkClass p = Cls.ctl → pkOpc p = 5 → ∃ act : State → QPkt → State,
    Gives (.overrunRx n p) s (s.receive n p true act) ∧
    (∀ (u t : State) (q : QPkt) (c : Nat), (u.leave q).ctxOfJob (pkJob p) = some c → t = (u.leave q).acceptPoison c p →
      t.ctxState c = CtxSt.run → ∀ late : Bool, late = (t.ctx c).begun.contains (t.lapOfEpoch (pkEpoch p) + 1) →
      (∀ x : Step, (t.ctx c).step = some x → x.epoch = pkEpoch p →
        act u q = t.updCtx c (fun y => { y with step := some { x with overrun := true } })) ∧
      ((∀ x : Step, (t.ctx c).step = some x → x.epoch ≠ pkEpoch p) →
        act u q = if late then t.contextFault c F_LAP_LATEOVR else t)) ∧
    (∀ (u : State) (q : QPkt), (u.leave q).ctxOfJob (pkJob p) = none → act u q = u.leave q))

namespace Sys2Proof.Claims

/-- The instance that a template entry makes for the step of lap `lap` (R84, R85). -/
def instanceOf (s : State) (c e : Nat) (lap : Nat) : Inst :=
  ⟨e, bitsOf (s.tmplWord (s.activeBank e) e 1) 28 0,
    (List.range 8).map (fun i => BitVec.ofNat 64 (s.argValue c (s.activeBank e) e (s.argSel (s.activeBank e) e i))), lap⟩

end Sys2Proof.Claims

/-- COMMIT_GEN and COMMIT_RT swap the template banks of a context that is not busy, mark the commit as pending for one that is, and report
F_ISA_TMPL for a bank that is not good. TEMPLATE_RELEASE gives the lowest releasable entry to its engine's queue of eight, the ninth raising
F_ISA_TQOVF. INSTANCE_START starts the oldest queued instance on a stream in IDLE or FAULT with no operation in
flight, of a running context with no fault to report: s24 to s31 hold its arguments, every other scalar and address register, the predicates p1 to p7 and
SCRATCH 0, the vector registers as they were, the pc is at ENTRY, the stream is in RUN and ENG_WAIT is clear (R82 to R87, R90). -/
def Obligations.SequencerResults : Prop :=
  ∀ s : State, Up s →
    (∀ (c : Nat) (i : Instr), (i = .commitGen ∧ c = 0) ∨ (i = .commitRt ∧ c = 1) →
      (s.bankOk c = false → Gives i s (s.report F_ISA_TMPL c 0)) ∧
      (s.bankOk c = true → s.ctxBusy c = true → Gives i s (s.setBit (pendFld c) true)) ∧
      (s.bankOk c = true → s.ctxBusy c = false → Gives i s (s.wr (bankFld c) (1 - s.rd (bankFld c))))) ∧
    (∀ (c e k : Nat) (t : State) (x : Step), s.nextRelease = some (c, e) → (s.ctx c).step = some x →
      k = streamFor c (tmplEngine (s.tmplWord (s.activeBank e) e 0)) →
      t = (((s.updCtx c (fun x => { x with armed := x.armed.erase e })).addMod (relFld c) 1).trace 1 k c e) →
      (8 ≤ (t.stream k).queue.length → Gives .templateRelease s (t.issueFault k (F_ISA_TQOVF, 0))) ∧
      ((t.stream k).queue.length < 8 → Gives .templateRelease s
        (t.updStream k (fun y => { y with queue := y.queue ++ [instanceOf s c e x.lap] })))) ∧
    (∀ (k : Fin 50) (i : Inst) (q : List Inst) (t : State), s.ctxState (s.ctxOf k) = CtxSt.run → s.engState k = EngSt.idle ∨ s.engState k = EngSt.fault →
      (s.ctx (s.ctxOf k)).faults = [] → (s.stream k).ops = [] → (s.stream k).queue = i :: q → t = (s.updStream k (fun x => { x with queue := q })).startInstance k i →
      Gives (.instanceStart k) s t ∧
      (∀ r, r < 24 → t.sreg k r = 0) ∧ (i.args.length = 8 → ∀ j, j < 8 → t.sreg k (24 + j) = (i.args[j]?).getD 0) ∧
      (∀ r, t.areg k r = 0) ∧ (∀ r, 0 < r → t.preg k r = 0) ∧ (∀ r, t.vreg k r = s.vreg k r) ∧ (t.stream k).scratch = 0 ∧
      (i.entry < 2 ^ 29 → t.rd (ENG_PC.PC k) = i.entry) ∧ t.engState k = EngSt.run ∧
      t.reg (engBase k + 0x18) = 0 ∧ t.rink = s.rink ∧ t.lpddr = s.lpddr ∧ (∀ j, j ≠ k.val → t.stream j = s.stream j))

/-! ## Gate Engines and the Course -/

/-- GATE_DISPATCH_CHOICE makes the fate of the next choice of the GROUTE at the head, after scoring its token where this is the token's first;
GATE_INSTR_COMPLETE ends a GROUTE whose tokens are all done, and writes the choices of a GSELECT's tokens before it ends that; the oldest token or
tally record of an intake queue enters its group; a ledger that leaves the gate SRAM is refused with F_GATE_LEDGER and any other write of
GE_LEDGER is a setting of the engine's context; ledger zeroing ends (R126, R137, R139, R142, R144, R145, R148). -/
def Obligations.GateEventResults : Prop :=
  ∀ (g : Fin 8) (s : State), Grants s →
    (∀ (u : State) (x : GateOp) (l : List GateOp), u = s.gateReach g 2 → (u.gate g).ops = x :: l → x.kind = 0 → x.desc ≠ [] → x.tok < x.count →
      u.gateMay (s.ctxOf (32 + g)) g x = true →
      (x.sel ≠ [] → Gives (.gateDispatchChoice g) s (u.dispatchChoice (s.ctxOf (32 + g)) g x)) ∧
      (x.sel = [] → Gives (.gateDispatchChoice g) s (u.scoreToken g x (fun t =>
        ((t.beginToken g x).2.setHead g (t.beginToken g x).1).dispatchChoice (s.ctxOf (32 + g)) g (t.beginToken g x).1)))) ∧
    (∀ (u : State) (x : GateOp) (l : List GateOp), u = s.gateReach g 2 → (u.gate g).ops = x :: l → x.desc ≠ [] →
      u.ctxState (s.ctxOf (32 + g)) = CtxSt.run →
      (x.kind = 0 → x.tok = x.count →
        Gives (.gateInstrComplete g) s (((u.gateDone (s.ctxOf (32 + g)) g x).gateReach g 2).gateShow g)) ∧
      (x.kind = 1 → Gives (.gateInstrComplete g) s (u.selectOnly (s.ctxOf (32 + g)) g x
        (fun t y => ((t.gateDone (s.ctxOf (32 + g)) g y).gateReach g 2).gateShow g) (x.count - x.tok)))) ∧
    (∀ (i : Instr) (ty c m : Nat) (r : HeldRec) (t t' u : State), (i = .intakeTokenRx g ∧ ty = 1) ∨ (i = .intakeTallyRx g ∧ ty = 2) →
      c = s.ctxOf (32 + g) → s.ctxExists c = true → (s.ctx c).step ≠ none → (s.gate g).inbox.find? (fun r => s.rType r == ty) = some r →
      t = s.updGate g (fun y => { y with inbox := y.inbox.erase r }) → m = (if r.buf.isSome then (if ty = 1 then 32 else 160) else 0) →
      t.rinkBad r.addr m = false → t' = t.checkRead (rinkPort (32 + g)) 1 r.addr m true → t'.intakeShut g (t.rGroup r) = false →
      t'.useGroup c g (t.rGroup r) = .inr u →
      Gives i s ((if ty = 1 then u.takeToken c g (t.rGroup r) r else u.takeTally c g (t.rGroup r) r).intakeStat g)) ∧
    (∀ v : Word, sramSize < fieldOf v (GE_LEDGER.BASE g) + 32 * (fieldOf v (GE_LEDGER.SIZE_M1 g) + 1) →
      Gives (.geLedgerWrite g v) s (s.report F_GATE_LEDGER 2 0)) ∧
    (∀ v : Word, fieldOf v (GE_LEDGER.BASE g) + 32 * (fieldOf v (GE_LEDGER.SIZE_M1 g) + 1) ≤ sramSize →
      Gives (.geLedgerWrite g v) s (s.writeSetting (s.ctxOf (32 + g)) (GE_LEDGER.BASE g).off v)) ∧
    Gives (.ledgerZeroingDone g) s (s.updGate g (fun y => { y with zeroing := false }))

/-- COURSE_LOAD starts loading the inactive bank and drops what it held, and reports F_DSP_COURSE while a load runs; COURSE_LOAD_DONE takes a good
image as staged, pending where its lap has come, and reports F_DSP_COURSE for a bad one and F_DSP_DEPTH for one whose flows need more than the
ports hold; CANCEL_LIST_EXPIRY drops the entries of a context's cancel list that are 1,024 laps old (R152, R153, R155, R171). -/
def Obligations.CourseLoadResults : Prop :=
  ∀ s : State, Up s →
    (∀ (v : Word) (t : State), t = s.wr COURSE_ACT.ACT_LAP (fieldOf v COURSE_ACT.ACT_LAP) →
      (t.bit COURSE_STATUS.LOADING = true → Gives (.courseLoad v) s (t.report F_DSP_COURSE 2 0)) ∧
      (t.bit COURSE_STATUS.LOADING = false → ∀ u : State,
        u = (((t.setBit COURSE_STATUS.STAGED false).setBit COURSE_STATUS.PENDING false).setCourse (1 - t.rd COURSE_STATUS.BANK) {}) →
        Gives (.courseLoad v) s { u.setBit COURSE_STATUS.LOADING true with loading := some (u.rd COURSE_SRC.ADDR) })) ∧
    (∀ (a n : Nat) (u t : State), Grants s → s.loading = some a → u = { s.setBit COURSE_STATUS.LOADING false with loading := none } →
      n = courseShares + 8 * u.imgShares a → u.rinkBad a n = false → t = u.checkRead 49 1 a n true → t.rinkBad a n = false →
      (t.courseOk a = false → Gives .courseLoadDone s (t.report F_DSP_COURSE 2 0)) ∧
      (t.courseOk a = true → t.depthOk a = false → Gives .courseLoadDone s (t.report F_DSP_DEPTH 2 0)) ∧
      (t.courseOk a = true → t.depthOk a = true →
        ∀ w : State, w = (t.setCourse (1 - t.rd COURSE_STATUS.BANK) (t.parseCourse a)).setBit COURSE_STATUS.STAGED true →
        Gives .courseLoadDone s (w.setBit COURSE_STATUS.PENDING (decide (w.rd COURSE_ACT.ACT_LAP ≤ w.lapNo))))) ∧
    (∀ c : Fin 2, Gives (.cancelListExpiry c) s
      (s.updCtx c (fun x => { x with cxl := x.cxl.filter (fun e => decide (s.lapNo < e.2 + 1024)) })))

/-- SLOT_START, on a port alone at its slot, ends the slot before and decides the slot of the present stride: FILLED, IDLE or OPEN, counted as such,
with its next packet chosen; SLOT_END ends a slot that is over. A DSP record for this chip whose ECRC is good is landed, a RET for this chip
is accepted after its buffer is drawn and given back, a packet for another chip goes on, and one whose ECRC is wrong is dropped.
PACKET_LAST_FLIT_SENT gives back what the packet held, puts its flits into groups and chooses the next (R154, R156, R158, R159, R165, R167, R233,
R244). -/
def Obligations.SlotAndPacketResults : Prop :=
  (∀ (n : Fin 12) (s : State), Up s → s.rd LAP_STATUS.STATE ≠ LapSt.stopped →
    (n.val < 6 ∨ slotValid (s.servedSlot n s.slotIdx) = false ∨ slotValid (s.servedSlot (partner n) s.slotIdx) = false) →
    (s.port n).slot.any (fun r => r.index == s.slotNo) = false →
    ∀ (u : State) (i k : Nat), u = s.endSlot n → i = u.slotIdx → k = u.slotKind n (u.servedSlot n i) →
    Gives (.slotStart n) s ((u.updPort n (fun x => { x with
      slot := some { index := u.slotNo, kind := k, since := u.clk, waiting := u.slotWaiting n i }
      doubled := x.doubled || (k == 1 && x.seen.contains i)
      seen := i :: x.seen
      filled := x.filled + b01 (k == 1)
      idle := x.idle + b01 (k == 2)
      opened := x.opened + b01 (k == 3) })).chooseNext n)) ∧
  (∀ (n : Fin 12) (s : State) (r : SlotRun), Up s → (s.port n).slot = some r → r.index ≠ s.slotNo ∨ s.stride % 64 = 63 →
    Gives (.slotEnd n) s ((s.endSlot n).chooseNext n)) ∧
  (∀ (n : Fin 12) (p : Packet) (s : State), Grants s → pkMode p = 0 → pkDest p = s.chipId →
    (pkClass p = Cls.dsp → Gives (.dspPacketRx n p) s (s.arrive n p (fun s => if ¬ ecrcGood p then s.ecrcDrop else s.landRecord p p.payload))) ∧
    (pkClass p = Cls.ret → ecrcGood p = false → Gives (.retPacketRx n p) s (s.arrive n p (fun s => s.ecrcDrop))) ∧
    (pkClass p = Cls.ret → ecrcGood p = true → Gives (.retPacketRx n p) s (s.arrive n p (fun s =>
      match s.epochCheck (s.ctxOfJob (pkJob p)) (pkEpoch p) 0 with
      | .inr t => t.latePoison (s.ctxOfJob (pkJob p)) p
      | .inl _ => match s.ingressTake 63 (packetBytes p) with
        | none => s.noQuota
        | some (k, t) => (t.devRelease k).acceptReturn (fabricPort n) (s.ctxOfJob (pkJob p)) (pkEpoch p) p.payload
            (fun t => t.acceptPoison ((s.ctxOfJob (pkJob p)).getD 2) p))))) ∧
  (∀ (n : Fin 12) (p : Packet) (s : State), Grants s → pkMode p = 0 → pkDest p ≠ s.chipId →
    Gives (.packetTransit n p) s (s.arrive n p (fun s => s.transit n p))) ∧
  (∀ (n : Fin 12) (s : State) (q : QPkt), Up s → (s.port n).sending = some q →
    Gives (.packetLastFlitSent n) s
      ((((s.updPort n (fun x => { x with sending := none })).leave q).formPacket n q.pkt).chooseNext n))

/-! ## The Rink, the Locker and LPDDR -/

/-- RINK_LOCK fixes the Rink's FWRES once. LOCKER_LOCK with pools and fixed requesters that are legal makes every pool's buffers free and fixes
them, reports F_LKR_CFG where they are not, and has no effect a second time. A quota that would promise more buffers than its pool has is
refused with F_LKR_CFG, one of the fixed requesters is ignored after the lock and taken at once before it, and another's is a setting of its
context (R179, R180, R187, R190, R200). -/
def Obligations.LockerConfigResults : Prop :=
  ∀ (v : Word) (s : State), Up s →
    (s.bit RINK_CFG.LOCK = false → Gives (.rinkLock v) s ((s.wr RINK_CFG.FWRES (fieldOf v RINK_CFG.FWRES)).wr RINK_CFG.LOCK 1)) ∧
    (s.bit RINK_CFG.LOCK = true → Gives (.rinkLock v) s s) ∧
    (s.bit LKR_CTL.LOCK = true → Gives (.lockerLock v) s s) ∧
    (s.bit LKR_CTL.LOCK = false → ∀ t : State, t = s.wr LKR_CTL.ZERO (fieldOf v LKR_CTL.ZERO) →
      (t.poolsOk = true → t.fixedOk = true → Gives (.lockerLock v) s
        (((List.range 6).foldl (fun (s : State) p => s.setFreeQ p (List.range (s.poolCount p))) { t with locker := {} }).wr LKR_CTL.LOCK 1)) ∧
      (t.poolsOk = false ∨ t.fixedOk = false → Gives (.lockerLock v) s (t.report F_LKR_CFG 2 0))) ∧
    (∀ (r : Fin 64) (p : Fin 6) (need : Nat),
      need = s.resvSum p (fun x => x != r.val) + max (s.resvMax r p) (fieldOf v (LKR_QUOTA.RESV r p)) →
      (59 ≤ r.val → s.bit LKR_CTL.LOCK = true → Gives (.lkrQuotaWrite r p v) s s) ∧
      (r.val < 59 ∨ s.bit LKR_CTL.LOCK = false → s.poolCount p < need → Gives (.lkrQuotaWrite r p v) s (s.report F_LKR_CFG 2 0)) ∧
      (59 ≤ r.val → s.bit LKR_CTL.LOCK = false → need ≤ s.poolCount p →
        Gives (.lkrQuotaWrite r p v) s (s.applySetting (LKR_QUOTA.RESV r p).off v)) ∧
      (r.val < 59 → need ≤ s.poolCount p →
        Gives (.lkrQuotaWrite r p v) s (s.writeSetting (s.rd (LKR_REQ.CTX r)) (LKR_QUOTA.RESV r p).off v)))

/-- LOCKER_GRANT makes the grant that is due; BUFFER_ZERO_DONE clears the oldest buffer that is being zeroed and puts it back on its free list.
BUFFER_AUDIT at LCC 1,023 mod 1,024 settles the clk's reference changes, forgets the limits that are met again, counts a pass, and records a
breach where the counts disagree or a breach was noted since the pass before. RINK_SCRUB at LCC 65,535 mod 65,536 reads and corrects its row of
every bank, reports what cannot be corrected and moves on to the next row, counting a pass at the last (R176 to R178, R192, R195, R198). -/
def Obligations.LockerEventResults : Prop :=
  ∀ s : State, Up s →
    (∀ t : State, s.frozen = false → s.grantOne = some t → Gives .lockerGrant s t) ∧
    (∀ (k : Nat) (rest : List Nat), s.frozen = false → s.locker.zero = k :: rest →
      ∀ t : State, t = (s.updLocker (fun l => { l with zero := rest })) →
      Gives .bufferZeroDone s
        (((t.clearRink (t.bufBase k) (t.bufBase k + poolSize (keyPool k))).wr LKR_STATUS.ZEROING rest.length).joinFree k)) ∧
    (s.lcc % 1024 = 1023 → ∀ u t : State, u = s.settleRefs →
      t = { (u.updLocker (fun l => { l with lowered := u.locker.lowered.filter (fun i =>
        decide (u.rd (LKR_QUOTA.LIMIT (i / 8) (i % 8)) < u.rd (LKR_QUOTA.ALLOC (i / 8) (i % 8)))) })).addMod CSV_STATUS.PASSES 1 with
        bufBreach := false } →
      (u.buffersOk = true → u.bufBreach = false → Gives .bufferAudit s t) ∧
      (u.buffersOk = false ∨ u.bufBreach = true → Gives .bufferAudit s (t.auditBreach 1))) ∧
    (s.lcc % 1024 ≠ 1023 → Gives .bufferAudit s s) ∧
    (s.frozen = false → s.lcc % 65536 = 65535 → ∀ (errs : List RinkError) (u t : State),
      u = errs.foldl (fun s e => s.rinkUpset e) s → u.scrubLine = s.scrubLine → ∀ r : State, r = u.rinkRead (16384 * s.scrubLine) 16384 true →
      t = { r with rinkErr := r.rinkErr.filter (fun e => e.1 / 1024 != s.scrubLine || e.2 == 2) } →
      (s.scrubLine + 1 = 24576 → Gives (.rinkScrub errs) s { t.addMod RINK_ECC.PASSES 1 with scrubLine := 0 }) ∧
      (s.scrubLine + 1 ≠ 24576 → Gives (.rinkScrub errs) s { t with scrubLine := s.scrubLine + 1 })) ∧
    (s.frozen = false → s.lcc % 65536 ≠ 65535 → ∀ errs : List RinkError, Gives (.rinkScrub errs) s s)

/-- MEM_START trains a controller that is OFF and reports F_MEM_CFG elsewhere. A write of MEM_CTL sets an OFF controller's fields and trains it
with START, waits for the lap edge in RUN, and reports F_MEM_CFG elsewhere. Training ends in FAILED with F_MEM_PKG for an unlisted package and
with F_MEM_TRAINFAIL where a channel failed, and otherwise keeps the package's refresh-management threshold and goes to ZEROING, or to HELD or
RUN where the contents were kept. MEM_ZEROING_DONE clears the controller's memory and its errors (R203, R204, R222, R227). -/
def Obligations.MemoryStartResults : Prop :=
  ∀ (m : Fin 12) (s : State), Up s →
    (s.memState m = MemSt.off → Gives (.memStart m) s (s.memTrain m false)) ∧
    (s.memState m ≠ MemSt.off → Gives (.memStart m) s (s.memReport m F_MEM_CFG)) ∧
    (∀ v w : Word, w = s.memCtlValue m v →
      (s.memState m = MemSt.off → fieldOf w (MEM_CTL.START m) ≠ 1 →
        Gives (.memCtlWrite m v) s (s.applySetting (MEM_CTL.START m).off w)) ∧
      (s.memState m = MemSt.off → fieldOf w (MEM_CTL.START m) = 1 →
        Gives (.memCtlWrite m v) s ((s.applySetting (MEM_CTL.START m).off w).memTrain m false)) ∧
      (s.memState m = MemSt.run → fieldOf w (MEM_CTL.START m) ≠ 1 →
        Gives (.memCtlWrite m v) s { s with lapDeferred := s.lapDeferred ++ [((MEM_CTL.START m).off, w)] }) ∧
      (s.memState m ≠ MemSt.off → s.memState m ≠ MemSt.run ∨ fieldOf w (MEM_CTL.START m) = 1 →
        Gives (.memCtlWrite m v) s (s.memReport m F_MEM_CFG))) ∧
    (s.memState m = MemSt.training →
      (∀ (failed : BitVec 16) (p : Package), p.listed = false →
        Gives (.memTrainingDone m failed p) s ((s.memReport m F_MEM_PKG).setMemState m MemSt.failed)) ∧
      (∀ (failed : BitVec 16) (p : Package), p.listed = true → failed ≠ 0 →
        Gives (.memTrainingDone m failed p) s ((s.memReport m F_MEM_TRAINFAIL).setMemState m MemSt.failed)) ∧
      (∀ (p : Package) (t : State), p.listed = true → t = s.updMem m (fun x => { x with rfm := p.rfm.map (fun n => n.toNat) }) →
        ((s.mem m).kept = true → Gives (.memTrainingDone m 0 p) s (t.memHold m)) ∧
        ((s.mem m).kept = false → Gives (.memTrainingDone m 0 p) s (t.setMemState m MemSt.zeroing)))) ∧
    (s.memState m = MemSt.zeroing →
      Gives (.memZeroingDone m) s ({ s with
        lpddr := s.lpddr.filter (fun e => channelOf e.1 / 16 != m.val)
        flips := s.flips.filter (fun e => channelOf (64 * e.1) / 16 != m.val) }.memHold m))

/-- Of a controller in RUN and a channel that serves: MEM_REQUEST_SERVED puts the errors that it is given into the arrays, carries the request
and counts and reports what its blocks' check bits show. MEM_BASE_REFRESH at a bank's due stride refreshes it and counts in BASE;
MEM_EXTRA_REFRESH does so at the offsets of the channel's rate and counts in EXTRA, with the lap's flag and DBG_REPEAT; MEM_RFM of a bank whose
activations have reached the package's threshold takes that many off, counts and issues RFMpb. MEM_PATROL_SCRUB scrubs the 31 blocks of the
channel's line and moves the position on with the last serving channel. MR4_POLL sets the channels' rates, those before it standing for this
stride, and fails a channel that is too hot. The last step of a pass records its drift and lap, or fails the channel with F_MEM_DRIFT for a drift
beyond 24; a channel without a pass for two periods reports F_MEM_TRAINLATE once (R205 to R209, R213 to R220). -/
def Obligations.MemoryEventResults : Prop :=
  ∀ (m : Fin 12) (ch : Fin 16) (s : State), Up s →
    (∀ (r : MemService) (a n : Nat) (t : State), a = r.addr.toNat → n = 16 * r.granules.toNat → channelOf a / 16 = m.val →
      a + n ≤ memBytesUsable → t = (r.upsets.filter (fun u => channelOf u.addr.toNat / 16 == m.val)).foldl (fun s u => s.memUpset u) s →
      t.channelOpen a = true → Gives (.memRequestServed m r) s ((t.demand false a n).memRead a n true)) ∧
    (s.channelOn m ch = true →
      (s.refreshDue m ch = true → Gives (.memBaseRefresh m ch) s ((s.addMod (MEM_REFCNT.BASE m) 1).refreshBank m ch)) ∧
      ((extraOffsets s.refreshRs (s.rateOf m ch)).contains (s.sinceRefresh ch) = true → tget (fun _ => 0) (s.mem m).refreshed ch ≠ s.ct + 1 →
        Gives (.memExtraRefresh m ch) s ((((s.addSat (MEM_REFCNT.EXTRA m) 1).lapFlag 11).repeatEvent 0 1).refreshBank m ch)) ∧
      (∀ (bank : Fin 16) (n : Nat), s.rfmDue m ch bank = true →
        n = tget (fun _ => 0) (s.mem m).acts (16 * ch.val + bank.val) - (s.rfmAt m).getD 0 →
        Gives (.memRfm m ch bank) s ((((s.updMem m (fun x => { x with
          acts := tset (fun _ => 0) x.acts (16 * ch.val + bank.val) n })).addSat (MEM_REFCNT.RFM m) 1).repeatEvent 0 1).emit
          (.mem m ch bank "RFMpb"))) ∧
      (s.scrubDue m ch = true → s.refreshDue m ch = false → s.stepHolds m ch = false → ∀ (pos : Nat) (t u : State),
        pos = s.rd (MEM_SCRUB.POS m) → t = s.carry (16 * m.val + ch.val) (scrubBursts pos ((List.range 31).filter (fun b =>
          (s.flipsOf (addrOf (16 * m.val + ch.val) pos b / 64)).length == 1))) →
        u = ((List.range 31).foldl (fun s b => s.scrubBlock m (addrOf (16 * m.val + ch.val) pos b / 64)) t).updMem m (fun x => { x with
          scrubbed := tset (fun _ => 0) x.scrubbed ch
            (((List.range 31).foldl (fun s b => s.scrubBlock m (addrOf (16 * m.val + ch.val) pos b / 64)) t).ct + 1) }) →
        ((List.range 16).all (fun k => decide (k ≤ ch.val) || ! u.channelOn m k) = false → GivesWith (.memPatrolScrub m ch) s u) ∧
        ((List.range 16).all (fun k => decide (k ≤ ch.val) || ! u.channelOn m k) = true → pos + 1 ≠ 2 ^ 21 →
          GivesWith (.memPatrolScrub m ch) s (u.wr (MEM_SCRUB.POS m) (pos + 1)))) ∧
      (∀ (drift : BitVec 8) (ok : Bool) (u t : State), s.bit (MEM_CTL.TRAIN_EN m) = true → (s.mem m).rotCh = ch.val → s.usableSlot m = 1 →
        s.passDue m = true → s.stepTime m ch = true → 112 ≤ s.clkBefore (64 * (s.stride / 64 + 1)) → (s.mem m).rotStep = 7 →
        u = ((s.addSat (MEM_TRAIN.STEPS_CAL m) 1).updMem m (fun y => { y with stepEnd := s.clk + 112, stepSlot := s.slotNo, stepCh := ch.val })) →
        t = (((u.emit (.mem m ch 0 (stepName 7))).updMem m (fun y => { y with rotStep := 0, rotCh := (ch.val + 1) % 16 })).wr
          (MEM_CH.DRIFT m ch) drift.toNat) →
        (ok = true → drift.toInt.natAbs ≤ 24 → Gives (.memRetrainStep m ch drift ok) s
          (((t.wr (MEM_CH.LAST_PASS m ch) t.lapNo).addSat (MEM_TRAIN.PASSES m) 1).updMem m (fun y => { y with late := y.late.erase ch.val }))) ∧
        (ok = false ∨ 24 < drift.toInt.natAbs → Gives (.memRetrainStep m ch drift ok) s (t.channelFail m ch F_MEM_DRIFT))) ∧
      ((s.mem m).late.contains ch.val = false → 2 * s.rd (MEM_CTL.PERIOD_MS m) * 1000 <
          (s.lapNo + 2 ^ 32 - s.rd (MEM_CH.LAST_PASS m ch)) % 2 ^ 32 * s.rd LAP_CFG.PERIOD_US →
        Gives (.memTrainlate m ch) s ((s.updMem m (fun x => { x with late := ch.val :: x.late })).memReport m F_MEM_TRAINLATE))) ∧
    (∀ (rates : List (BitVec 3)) (rs : List Nat) (t u : State), s.memState m = MemSt.run → s.stride % 65536 = 0 →
      rs = (List.range 16).map (fun k => min 3 ((rates[k]?).getD 0).toNat) →
      t = s.updMem m (fun x => { x with rates := some (s.ct, (List.range 16).map (fun k => s.rateOf m k)) }) →
      u = ((List.range 16).foldl (fun s k => s.wr (MEM_CH.RATE m k) ((rs[k]?).getD 0)) t).wr (MEM_STATUS.RATE m) (rs.foldl max 0) →
      (rs.all (fun r => r != 3) = true → Gives (.mr4Poll m rates) s u) ∧
      (Gives (.mr4Poll m rates) s ((List.range 16).foldl (fun s k =>
        if (rs[k]?).getD 0 = 3 ∧ ¬ s.bit (MEM_CH.FAILED m k) then s.channelFail m k F_MEM_TEMP else s) u)))

/-! ## The fabric -/

/-- PORT_ENABLE takes a port from DOWN into TRAIN and reports F_FAB_CFG where its ring has size 1; PORT_DISABLE takes it down.
PORT_TRAINING_DONE leads from TRAIN to HELLO with all lanes locked, and a HELLO is sent; PORT_TRAIN_TIMEOUT fails the port with F_FAB_TRAIN and
the lane. HELLO_RECHECK in HELLO sends a HELLO and checks the peer again. A good HELLO in HELLO or HELD is recorded: the peer's chip, port,
feature level and firmware version, a delay measurement, its group number and credit totals; then a HELLO is sent and the peer is checked (R229,
R232, R234, R237 to R239). -/
def Obligations.PortTrainingResults : Prop :=
  ∀ (n : Fin 12) (s : State), Up s →
    (∀ v : Word, s.ring (n % 6 / 2) ≠ 1 → s.portState n = PortSt.down →
      Gives (.portEnable n v) s ((s.setReg (PORT_CTL.EN n).off (v &&& 1#64 ||| 1#64)).enterTrain n)) ∧
    (∀ v : Word, s.ring (n % 6 / 2) = 1 → Gives (.portEnable n v) s (s.fabReport F_FAB_CFG 2)) ∧
    (∀ v : Word, Gives (.portDisable n v) s (s.portDown n)) ∧
    (s.portState n = PortSt.train →
      Gives (.portTrainingDone n) s (((s.wr (PORT_STATUS.LANES_OK n) 0xFF).setPortState n PortSt.hello).sendHello n) ∧
      (∀ lane : BitVec 3, Gives (.portTrainTimeout n lane) s ((s.wr (PORT_STATUS.LANES_OK n)
        (s.rd (PORT_STATUS.LANES_OK n) &&& (255 - 2 ^ lane.toNat))).portFail n F_FAB_TRAIN))) ∧
    (s.portState n = PortSt.hello → Gives (.helloRecheck n) s ((s.sendHello n).helloAdvance n)) ∧
    (∀ (g : LcfGroup) (frac : BitVec 8) (t4 : Nat), s.portState n = PortSt.hello ∨ s.portState n = PortSt.held → groupGood g = true →
      lcfType g.lcf = 2 → bitsOf g.lcf.w4.toNat 22 22 = 0 → t4 = (s.clk * 256 + 2 ^ 32 - frac.toNat) % 2 ^ 32 →
      ∃ u : State, Gives (.helloRx n ⟨g, frac⟩) s ((u.sendHello n).helloAdvance n) ∧
        u.rd (PORT_PEER.CHIPID n) = bitsOf g.lcf.w4.toNat 63 50 ∧ u.rd (PORT_PEER.PORT n) = bitsOf g.lcf.w4.toNat 49 46 ∧
        u.rd (PORT_PEER.FEATURE n) = bitsOf g.lcf.w4.toNat 45 38 ∧ u.rd (PORT_PEER.FWVER n) = bitsOf g.lcf.w5.toNat 31 0 ∧
        (u.port n).helloPeer = some (g.lcf.w4, g.lcf.w5) ∧ (u.port n).helloAt = t4 ∧ (u.port n).gseqRx = (lcfGseq g.lcf + 1) % 4096 ∧
        (u.port n).delays = ((s.port n).measure g.lcf.w6.toNat t4).delays)

/-- Of a port in service: a good group in order is counted, acknowledges and credits, its aggregation records are taken, and the next packet is
chosen; a group that is not good is answered with a NAK that asks for a replay, once. A good NAK in order replays the groups it asks for, the
eighth in a row for one group failing the port. A retry timeout replays. A lane that loses lock or passes the codeword limit fails the port; a
failover HELLO passes on what its sender had delivered of the other rail's packets (R234 to R237, R260, R265). -/
def Obligations.LinkResults : Prop :=
  ∀ (n : Fin 12) (s : State), Up s →
    (s.inService n = true → ∀ (g : LcfGroup) (t : State), t = s.countFec n g →
      (groupGood g = false → (s.port n).nakSent = false ∨ lcfGseq g.lcf = (s.port n).gseqRx →
        Gives (.lcfGroupRx n g) s ((t.updPort n (fun y => { y with nakSent := true })).lcfDue n 3 [])) ∧
      (groupGood g = true → lcfGseq g.lcf = (s.port n).gseqRx → ∀ u : State,
        u = (((t.updPort n (fun y => { y with gseqRx := (y.gseqRx + 1) % 4096, nakSent := false })).takeAck n (lcfAck g.lcf)).takeCredits n
          g.lcf) →
        (lcfType g.lcf = 0 → Gives (.lcfGroupRx n g) s (u.chooseNext n)) ∧
        (lcfType g.lcf = 1 → Gives (.lcfGroupRx n g) s (((u.aggRecord n g.lcf.w4.toNat).aggRecord n g.lcf.w5.toNat).chooseNext n)) ∧
        (lcfType g.lcf = 3 → ∀ (w : State) (run : Nat), w = (u.aggRecord n g.lcf.w4.toNat).aggRecord n g.lcf.w5.toNat →
          run = (if (w.port n).nakRun ≠ 0 ∧ (w.port n).nakSeq = lcfAck g.lcf then (w.port n).nakRun + 1 else 1) →
          ∀ x : State, x = w.updPort n (fun y => { y with nakRun := run, nakSeq := lcfAck g.lcf }) →
          (8 ≤ run → Gives (.nakRx n g) s ((x.portFail n F_FAB_RETRY).chooseNext n)) ∧
          (run < 8 → Gives (.nakRx n g) s ((x.replayGroups n).chooseNext n))) ∧
        (lcfType g.lcf = 2 → bitsOf g.lcf.w4.toNat 22 22 = 1 → bitsOf g.lcf.w4.toNat 21 18 < 12 →
          bitsOf g.lcf.w4.toNat 21 18 % 6 = opposite (n % 6) → Gives (.failoverHelloRx n g) s ((u.takeDelivered n
            (n % 6 + 6 * (bitsOf g.lcf.w4.toNat 21 18 / 6)) (bitsOf g.lcf.w6.toNat 63 52)).chooseNext n)))) ∧
    (s.inService n = true → (s.port n).retry ≠ [] → (s.port n).ackAt + 9400 ≤ s.clk → Gives (.retryTimeout n) s (s.replayGroups n)) ∧
    (∀ lane : BitVec 3, Gives (.laneLockLoss n lane) s ((s.wr (PORT_STATUS.LANES_OK n)
      (s.rd (PORT_STATUS.LANES_OK n) &&& (255 - 2 ^ lane.toNat))).laneFail n lane.toNat)) ∧
    (∀ lane : BitVec 3, Gives (.laneCodewordLimit n lane) s (s.laneFail n lane.toNat))

namespace Sys2Proof.Claims

/-- A heartbeat of this chip to the neighbour of a port (R250); its payload is filled in when its first flit leaves. -/
def heartbeatOf (s : State) (n : Nat) : Packet :=
  mkPacket { cls := Cls.ctl, dest := s.neighbour (n % 6), src := s.chipId, job := 0, opc := 1 } (List.replicate 112 0)

/-- The epoch and the digest in a heartbeat's payload. -/
abbrev hbEpoch (p : Packet) : Nat := leNat (p.payload.take 4)
abbrev hbDigest (p : Packet) : Nat := leNat ((p.payload.drop 4).take 8)

end Sys2Proof.Claims

/-- HEARTBEAT_SEND at a slot that HB_SLOTS divides, on a port in service toward a chip that is not fenced, queues a heartbeat once;
HEARTBEAT_LOSS after HB_MISS periods of silence sets HBLOST and reports F_FAB_HBLOSS once; a received heartbeat leaves its epoch and digest
in PORT_PEERCFG and PORT_PEERDIG, and one with the chip's own ends the silence and any difference (R250, R398). A CTL data packet for a
context of this chip increments its completion counter, poisons its step where it carries POISON, and counts as real for its group; one for
no context counts as stray. A FENCE that the router takes, of a newer epoch and of 1 to 32 entries, sets or clears the bit of each chip that
it names and the fence epoch, beside its way through the tree; one of the epoch in force, or with no entry, only passes on (R243, R261 to
R263, R310). -/
def Obligations.ControlPacketResults : Prop :=
  (∀ (n : Fin 12) (s : State), Up s →
    (s.inService n = true → s.silenced = false → s.fenced (s.neighbour (n % 6)) = false → s.rd LAP_STATUS.STATE ≠ LapSt.stopped →
      s.slotIdx % s.rd FAB_CFG.HB_SLOTS = 0 → (s.port n).hbSent ≠ some s.slotNo →
      Gives (.heartbeatSend n) s ((s.updPort n (fun x => { x with hbSent := some s.slotNo })).queuePort n
        { pkt := s.outgoing (heartbeatOf s n) none (n % 6) })) ∧
    (s.inService n = true → s.bit (PORT_STATUS.HBLOST n) = false →
      (s.port n).hbSeen + s.rd FAB_CFG.HB_MISS * s.rd FAB_CFG.HB_SLOTS * 64 ≤ s.ct →
      Gives (.heartbeatLoss n) s ((s.setBit (PORT_STATUS.HBLOST n) true).portReport n F_FAB_HBLOSS)) ∧
    (∀ p : Packet, ∃ k : State → QPkt → State, Gives (.heartbeatRx n p) s (s.receive n p true k) ∧
      (∀ (u v : State) (q : QPkt), u.bit (PORT_STATUS.AUDIT n) = false → hbEpoch p = u.rd CFG_EPOCH.EPOCH → hbDigest p = u.rd CFG_DIGEST.VALUE →
        v = (u.wr (PORT_PEERCFG.EPOCH n) (hbEpoch p)).wr (PORT_PEERDIG.DIGEST n) (hbDigest p) →
        k u q = (v.updPort n (fun x => { x with hbSeen := v.ct, diffSeen := none })).leave q))) ∧
  ((∀ (n : Fin 13) (p : Packet) (s : State), Up s → pkClass p = Cls.ctl → pkOpc p = 4 → isPoisonNotice p = false →
    Gives (.ctlDataRx n p) s (s.receive n p true (fun s q =>
      match s.ctxOfJob (pkJob p) with
      | some c => (((s.leave q).addCc c (pkCc p) 1).aggLocal p true).acceptPoison c p
      | none => ((((s.leave q).addSat COL_COUNT.STRAY 1).lapFlag 18).report F_COL_STRAY 2 0).aggLocal p false))) ∧
  (∀ (n : Fin 12) (p : Packet) (s t : State) (d cnt : Nat), Up s → pkClass p = Cls.ctl → pkOpc p = 3 → pkMode p = 1 → ecrcGood p = true →
    s.treeTaken n p = true → d = (leNat (p.payload.take 4) + 2 ^ 32 - s.rd FAB_FENCE_EPOCH.EPOCH) % 2 ^ 32 →
    cnt = leNat ((p.payload.drop 4).take 4) → t = s.receive n p true (fun s q => (s.leave q).aggLocal q.pkt true) →
    (d ≠ 0 → d < 2 ^ 31 → 1 ≤ cnt → cnt ≤ 32 →
      Gives (.fenceRx n p) s (((List.range cnt).foldl (fun t i =>
        t.setFence (leNat ((p.payload.drop (8 + 2 * i)).take 2) % 2 ^ 14) ((leNat ((p.payload.drop (8 + 2 * i)).take 2)).testBit 15)) t).wr
        FAB_FENCE_EPOCH.EPOCH (leNat (p.payload.take 4)))) ∧
    (d = 0 ∨ cnt = 0 → Gives (.fenceRx n p) s t)))

/-- Tables of the router. A fence word is written for the decisions from the next clk on. A mask group entry that is good is written where its
place holds no valid one, and a bad one is refused with F_FAB_MGROUP; MGROUP_READ shows the four words of an entry. FAB_CFG with a chip inside the
torus is written only while no port is in service or HELD, and refused with F_FAB_CFG otherwise; RS_CFG is written while no entry is in use and
refused with F_COL_CFG otherwise (R257, R262, R269, R298, R317). -/
def Obligations.RouterTableResults : Prop :=
  ∀ s : State, Up s →
    (∀ (i : BitVec 8) (v : Word), Gives (.fenceTableWrite i v) s (s.setFenceReg (FAB_FENCE.FENCED i.toNat).off v) ∧
      (s.setFenceReg (FAB_FENCE.FENCED i.toNat).off v).reg (FAB_FENCE.FENCED i.toNat).off = v) ∧
    (∀ (g : BitVec 12) (t : State), t = s.wr FAB_MGSEL.INDEX g.toNat →
      (mgEntryOk (t.mgData 0) (fun p => bitsOf (s.mgData (1 + p / 4)) (16 * (p % 4) + 15) (16 * (p % 4))) = false →
        Gives (.mgroupWrite g) s (t.fabReport F_FAB_MGROUP 2)) ∧
      (mgEntryOk (t.mgData 0) (fun p => bitsOf (s.mgData (1 + p / 4)) (16 * (p % 4) + 15) (16 * (p % 4))) = true →
        bitsOf (t.mgWord g.toNat 0) 63 63 = 0 → Gives (.mgroupWrite g) s (t.updRouter (fun r => { r with
          mgroups := tsetMany zeroWord r.mgroups (4 * g.toNat) ((List.range 4).map (fun n => BitVec.ofNat 64 (t.mgData n))) }))) ∧
      Gives (.mgroupRead g) s ((List.range 4).foldl (fun u n => u.wr (FAB_MGDATA.DATA n) (t.mgWord g.toNat n)) t)) ∧
    (∀ (v : Word) (n : Fin 12), s.inService n = true ∨ s.portState n = PortSt.held → Gives (.fabCfgWrite v) s (s.fabReport F_FAB_CFG 2)) ∧
    (∀ v : Word, (∀ n : Fin 12, s.inService n = false ∧ s.portState n ≠ PortSt.held) →
      coordOf (fieldOf v FAB_CFG.CHIPID) 0 ≤ fieldOf v FAB_CFG.XS_M1 → coordOf (fieldOf v FAB_CFG.CHIPID) 1 ≤ fieldOf v FAB_CFG.YS_M1 →
      coordOf (fieldOf v FAB_CFG.CHIPID) 2 ≤ fieldOf v FAB_CFG.ZS_M1 →
      Gives (.fabCfgWrite v) s (s.setReg FAB_CFG.XS_M1.off (BitVec.ofNat 64
        ([FAB_CFG.XS_M1, FAB_CFG.YS_M1, FAB_CFG.ZS_M1, FAB_CFG.CHIPID, FAB_CFG.HB_SLOTS, FAB_CFG.HB_MISS].foldl
          (fun w f => withBits w f.hi f.lo (fieldOf v f)) 0))).fenceChanged) ∧
    (∀ v : Word, (∀ i, i < 512 → (s.rsEntry i).st = 0) → fieldOf v RS_CFG.RT_ENTRIES ≤ 256 →
      Gives (.rsCfgWrite v) s (s.wr RS_CFG.RT_ENTRIES (fieldOf v RS_CFG.RT_ENTRIES))) ∧
    (∀ (v : Word) (i : Nat), i < 512 → (s.rsEntry i).st ≠ 0 → Gives (.rsCfgWrite v) s (s.report F_COL_CFG 2 0))

/-! ## Remote memory and collectives -/

/-- A REQ that is received joins the requests of its channel, and poisons the step of its context where it carries POISON; REQ_SERVED of one that no
earlier one to its block precedes and that its channel and its page let go serves it; an RSP is accepted by its requester. REMOTE_TIMEOUT of an
operation that has waited TIMEOUT strides drops it, counts and raises F_RMEM_DEAD with the chip. A write of RMEM_CTL with a timeout and no reserved
bit is a setting, and any other is refused with F_RMEM_CFG (R211, R277, R278, R282, R284 to R288, R310). -/
def Obligations.RemoteTargetResults : Prop :=
  ∀ s : State, Up s →
    (∀ (n : Fin 12) (p : Packet), pkClass p = Cls.req → ∃ k : State → QPkt → State, Gives (.reqRx n p) s (s.receive n p true k) ∧
      ∀ (u t : State) (q : QPkt), t = u.enterReq { pkt := q.pkt, buf := q.buf, fromPort := q.fromPort, own := false, since := u.clk } →
        (∀ c : Nat, t.ctxOfJob (pkJob p) = some c → k u q = t.acceptPoison c p) ∧ (t.ctxOfJob (pkJob p) = none → k u q = t)) ∧
    (∀ (op : Nat) (r : Request), s.frozen = false → s.requests[op]? = some r →
      (s.requests.take op).any (fun x => reqAddr x.pkt / 64 == reqAddr r.pkt / 64) = false →
      s.reqMustWait r = false ∨ (s.reqStatus r.pkt ≠ RspSt.ok ∧ s.reqStatus r.pkt ≠ RspSt.ue) → GivesWith (.reqServed op) s (s.serve r)) ∧
    (∀ (n : Fin 12) (p : Packet), pkClass p = Cls.rsp → Gives (.rspRx n p) s
      (s.receive n p false (fun s q => (s.leave q).rspAccept q.pkt))) ∧
    (∀ (op : Nat) (r : Remote), s.remotes.find? (fun x => x.seq == op) = some r →
      r.ct + s.rd (RMEM_CTL.TIMEOUT (s.ctxOf r.stream)) ≤ s.ct →
      Gives (.remoteTimeout op) s (({ s with remotes := s.remotes.erase r }.addSat RMEM_COUNT0.TIMEOUT 1).streamFault r.stream F_RMEM_DEAD
        r.chip r.pc)) ∧
    (∀ (c : Fin 2) (v : Word),
      (fieldOf v (RMEM_CTL.TIMEOUT c) ≠ 0 → bitsOf v.toNat 31 8 = 0 → bitsOf v.toNat 1 1 = 0 →
        Gives (.rmemCtlWrite c v) s (s.writeSetting c (0x038000 + 8 * c) v)) ∧
      (fieldOf v (RMEM_CTL.TIMEOUT c) = 0 ∨ bitsOf v.toNat 31 8 ≠ 0 ∨ bitsOf v.toNat 1 1 ≠ 0 →
        Gives (.rmemCtlWrite c v) s (s.report F_RMEM_CFG 2 0)))

namespace Sys2Proof.Claims

/-- The operation that an engine runs once it has taken one where it was idle: its context and its descriptor with its progress (R290). -/
abbrev RunsOp (s u : State) (e op c : Nat) (o : Posted) : Prop := u = s.relayTake e op ∧ u.running e op = some (c, o)

/-- The engine has read Rink ranges for its operation, and none of their words was uncorrectable (R177). -/
abbrev RelayReads (u v : State) (e : Nat) (l : List (Nat × Nat)) : Prop :=
  l.any (fun x => u.rinkBad (offOf x.1) x.2) = false ∧ v = u.readRanges (40 + e) (l.map (fun x => (1, offOf x.1, x.2))) false

end Sys2Proof.Claims

/-- TRIGGER_FIRE gives the step's epoch to each posted operation whose counter has reached its threshold, and raises F_COL_NOTREADY where the
chunk of one is not ready. RELAY_PUT and RELAY_GATHER send the next packet of at most 16,384 bytes, RELAY_RPUT its one contribution, and
RELAY_SCATTER the next row or the next 16,384 bytes of one; a source that faults raises its code. A failed check of an export poisons what is sent.
RELAY_OP_END counts an operation whose packets have all left in its counter and in REL_COUNT, and frees its chunk where it says so (R289 to R295,
R302, R308, R309). -/
def Obligations.RelayEventResults : Prop :=
  ∀ (e : Fin 4) (s : State), Grants s →
    (∀ c : Fin 2, s.ctxState c = CtxSt.run →
      ((∀ o ∈ (s.relay (2 * e + c)).posted, o.fired = false → reaches (s.cc c (odTcc o.desc)) (odThresh o.desc) = true →
          s.chunkReady c o.desc = true) →
        Gives (.triggerFire e c) s (s.setRelay (2 * e + c) { s.relay (2 * e + c) with
          posted := (s.relay (2 * e + c)).posted.map (fun o =>
            if o.fired = false ∧ reaches (s.cc c (odTcc o.desc)) (odThresh o.desc) = true then
              { o with fired := true, epoch := (s.epoch c).getD 0 } else o) })) ∧
      (∀ o l, (s.relay (2 * e + c)).posted = o :: l → o.fired = false → reaches (s.cc c (odTcc o.desc)) (odThresh o.desc) = true →
        s.chunkReady c o.desc = false → Gives (.triggerFire e c) s (s.streamFault (40 + 2 * e + c) F_COL_NOTREADY 0 o.pc))) ∧
    (∀ (u v : State) (c n : Nat) (o : Posted) (l : List Byte) (poison disagree : Bool) (fl : Nat) (r : List Byte × State)
      (x : List Byte × Bool × State), RunsOp s u e 1 c o → u.relaySource c o.desc (o.next == 0) = .inr (l, poison, fl) → o.next < l.length →
      n = min 16384 (l.length - o.next) → RelayReads u v e (if odRs o.desc then [] else [(odSrc o.desc + o.next, n)]) →
      r = v.relayBytes o ((l.drop o.next).take n) → x = (r.2.orCol c fl).exportChecked c o.desc disagree poison r.1 →
      Gives (.relayPut ⟨e, disagree⟩) s
        (x.2.2.relayData e c { o with next := o.next + n } (odDest o.desc) (odLz o.desc) (odDoff o.desc + o.next) x.2.1 x.1)) ∧
    (∀ (u : State) (c f : Nat) (o : Posted) (disagree : Bool), RunsOp s u e 1 c o → u.relaySource c o.desc (o.next == 0) = .inl f →
      Gives (.relayPut ⟨e, disagree⟩) s (u.relayFault e c f o.pc)) ∧
    (∀ (u v : State) (c : Nat) (o : Posted) (l : List Byte) (poison disagree : Bool) (fl : Nat) (r : List Byte × State)
      (x : List Byte × Bool × State), RunsOp s u e 2 c o → o.next = 0 → u.relaySource c o.desc true = .inr (l, poison, fl) →
      RelayReads u v e (if odRs o.desc then [] else [(odSrc o.desc, odLen o.desc)]) → r = v.relayBytes o l →
      x = (r.2.orCol c fl).exportChecked c o.desc disagree poison r.1 →
      Gives (.relayRput ⟨e, disagree⟩) s (x.2.2.relayContribute e c o x.2.1 x.1)) ∧
    (∀ (u : State) (c f : Nat) (o : Posted) (disagree : Bool), RunsOp s u e 2 c o → o.next = 0 → u.relaySource c o.desc true = .inl f →
      Gives (.relayRput ⟨e, disagree⟩) s (u.relayFault e c f o.pc)) ∧
    (∀ (u v : State) (c n : Nat) (o : Posted) (ps : List (Nat × Nat)), RunsOp s u e 3 c o → ps = u.pieces o.desc →
      (o.next = 0 → u.rinkOwned c (offOf (odList o.desc)) (16 * odCount o.desc) = true ∧
        u.rinkBad (offOf (odList o.desc)) (16 * odCount o.desc) = false ∧ ps.all pieceOk = true ∧
        ∀ x ∈ ps, u.rinkOwned c (offOf x.1) x.2 = true) → o.next < (ps.map (fun x => x.2)).sum →
      n = min 16384 ((ps.map (fun x => x.2)).sum - o.next) →
      RelayReads u v e ((if o.next = 0 then [(odList o.desc, 16 * odCount o.desc)] else []) ++ pieceRanges ps o.next n) →
      ∀ r : List Byte × State, r = v.relayBytes o (v.pieceBytes ps o.next n) →
      Gives (.relayGather e) s
        (r.2.relayData e c { o with next := o.next + n } (odDest o.desc) (odLz o.desc) (odDoff o.desc + o.next) false r.1)) ∧
    (∀ (u : State) (c a : Nat) (o : Posted) (ent : List Byte), RunsOp s u e 4 c o → o.next < odCount o.desc →
      (o.next = 0 → o.sub = 0 → u.scatterOwned c o.desc = true ∧ u.rinkBad (offOf (odList o.desc)) (16 * odCount o.desc) = false ∧
        u.scatterFlows c o.desc = true) →
      a = odSrc o.desc + o.next * odStride o.desc → ent = u.rinkBytes (offOf (odList o.desc) + 16 * o.next) 16 →
      (odRetc o.desc = true → ∀ (v : State) (r : List Byte × State),
        RelayReads u v e [(odList o.desc + 16 * o.next, 16), (a, odLen o.desc)] → r = v.relayBytes o (v.rinkBytes (offOf a) (odLen o.desc)) →
        Gives (.relayScatter e) s (r.2.relayReturn e c { o with next := o.next + 1 } ent r.1)) ∧
      (odRetc o.desc = false → bitsOf (leNat (ent.take 8)) 30 0 = 0 → leNat (ent.drop 8) % 16 = 0 →
        ∀ (n : Nat) (v : State) (r : List Byte × State), n = min 16384 (odLen o.desc - o.sub) →
        RelayReads u v e [(odList o.desc + 16 * o.next, 16), (a + o.sub, n)] → r = v.relayBytes o (v.rinkBytes (offOf a + o.sub) n) →
        Gives (.relayScatter e) s (r.2.relayData e c
          (if odLen o.desc ≤ o.sub + n then { o with next := o.next + 1, sub := 0 } else { o with sub := o.sub + n })
          ⟨0, bitsOf (leNat (ent.take 8)) 63 50, 0, bitsOf (leNat (ent.take 8)) 43 31⟩ (bitsOf (leNat (ent.take 8)) 49 44)
          (leNat (ent.drop 8) + o.sub) false r.1))) ∧
    (∀ (c : Nat) (o : Posted) (t : State), s.relayOwner e = some c → (s.relay (2 * e + c)).run = some o → s.relayMade c o = true →
      o.sent.any (fun x => s.inQueues x.1 x.2) = false → s.col.combine = [] →
      t = (((s.setRelay (2 * e + c) { s.relay (2 * e + c) with run := none }).addSat (REL_COUNT.OPS e) 1).addCc c (odDcc o.desc) 1) →
      (odFree o.desc = false → Gives (.relayOpEnd e) s t) ∧
      (∀ i : Nat, odFree o.desc = true → t.sourceChunk c o.desc = some i → Gives (.relayOpEnd e) s (t.freeEntry i)))

namespace Sys2Proof.Claims

/-- An entry after a contribution: its member has arrived, the first one has stamped it, a poisoned one has poisoned it, and it is
COMPLETE once every member has arrived and FILLING before (R302). -/
def entryAfter (e : RsEntry) (x : Contribution) (stride : Nat) (full : Bool) : RsEntry :=
  { e with
    arrived := e.arrived ||| BitVec.ofNat 64 (2 ^ x.midx)
    first := if e.st = 1 then stride else e.first
    poison := e.poison || x.poison
    st := if full then 3 else 2 }

end Sys2Proof.Claims

/-- RS_ADMIT_GRANT gives the oldest request its entries where its context exists and enough of its partition is free, and counts. A COL PUT for the
context's epoch lands its bytes in its zone and counts, and raises F_COL_LAND outside a zone; an RPUT queues its contribution for its entry.
RS_COMBINE_DONE combines the contribution queued first, element by element, updates its entry and counts; a failed check of an adder is a residue
fault; the last contribution completes the chunk; one without an entry raises F_COL_NOENTRY. A poison notice of the running epoch poisons it
(R296, R297, R301 to R303, R308 to R310, R313). -/
def Obligations.CollectiveResults : Prop :=
  ∀ s : State, Grants s →
    (∀ (c : Fin 2) (u : State) (r : Admit) (l : List Admit), u = s.settleAdmits → u.admits c = r :: l → u.ctxExists c = true →
      r.count ≤ (u.freeEntries c).length → odF r.desc 1 15 15 = 0 →
      Gives (.rsAdmitGrant c) s (((((u.freeEntries c).take r.count).zipIdx.foldl (fun s e => s.admitEntry c r e.1 e.2) (u.setAdmits c l)).addCc c
        (odF r.desc 1 51 40) 1).addSat RS_COUNT.ADMITS 1)) ∧
    (∀ (n : Fin 13) (p : Packet), pkClass p = Cls.col → pkOpc p = 1 → ∃ k : State → QPkt → State,
      Gives (.colPutRx n p) s (s.receive n p true k) ∧
      ∀ (u : State) (q : QPkt) (c : Nat), (u.leave q).colCheck p = .inl c →
        (∀ t : State, (u.leave q).colLand (fabricPort n) c (leNat (p.payload.take 8)) (leNat ((p.payload.drop 8).take 1)) (pkCc p)
          (p.payload.drop 16) = some t → k u q = (t.aggLocal p true).acceptPoison c p) ∧
        ((u.leave q).colLand (fabricPort n) c (leNat (p.payload.take 8)) (leNat ((p.payload.drop 8).take 1)) (pkCc p)
          (p.payload.drop 16) = none → k u q = ((u.leave q).aggLocal p false).contextFault c F_COL_LAND)) ∧
    (∀ (n : Fin 13) (p : Packet), pkClass p = Cls.col → pkOpc p = 2 → ∃ k : State → QPkt → State,
      Gives (.colRputRx n p) s (s.receive n p true k) ∧
      ∀ (u : State) (q : QPkt) (c i w : Nat), u.colCheck p = .inl c → w = leNat (p.payload.take 8) →
        u.contribution c (bitsOf w 63 32) (bitsOf w 31 16) (bitsOf w 15 8) (p.payload.drop 16).length = .inr i →
        k u q = (((u.aggLocal p true).queueCombine ⟨c, bitsOf w 63 32, bitsOf w 31 16, bitsOf w 15 8, pkPoison p, pkSrc p, pkCc p, pkEpoch p,
          p.payload.drop 16, q.buf, q.fromPort, true, 0⟩).acceptPoison c p)) ∧
    (∀ (x : Contribution) (l : List Contribution) (faults : List AdderFault) (t : State), s.col.combine = x :: l →
      t = (s.updCol (fun y => { y with combine := l })).endContribution x → t.chunkEntry x.ctx x.colid x.chunk = none →
      Gives (.rsCombineDone faults) s (t.contextFault x.ctx F_COL_NOENTRY)) ∧
    (∀ (x : Contribution) (l : List Contribution) (faults : List AdderFault) (t : State) (i : Nat), s.col.combine = x :: l →
      t = (s.updCol (fun y => { y with combine := l })).endContribution x → t.chunkEntry x.ctx x.colid x.chunk = some i →
      ∀ (r : Bool × State) (e : RsEntry) (w : State) (full : Bool), r = t.combineAll i x.data faults →
        full = decide (((List.range 64).filter (fun m => ((t.rsEntry i).arrived ||| BitVec.ofNat 64 (2 ^ x.midx)).getLsbD m)).length =
          (t.rsEntry i).expectM1 + 1) →
        e = entryAfter (t.rsEntry i) x t.stride full →
        w = ((r.2.setRsEntry i e).addMod RS_COUNT.COMBINES 1).addCc x.ctx x.rcc 1 →
        (r.1 = true → full = false → Gives (.rsCombineDone faults) s w) ∧
        (r.1 = true → full = true → Gives (.rsCombineDone faults) s (w.chunkDone x.ctx e x)) ∧
        (r.1 = false → full = false → Gives (.rsCombineDone faults) s (w.residueFault x.ctx i)) ∧
        (r.1 = false → full = true → Gives (.rsCombineDone faults) s ((w.residueFault x.ctx i).chunkDone x.ctx e x))) ∧
    (∀ (n : Fin 13) (p : Packet), isPoisonNotice p = true → ∃ k : State → QPkt → State, Gives (.poisonNoticeRx n p) s (s.receive n p true k) ∧
      ∀ (u : State) (q : QPkt) (c e : Nat), (u.leave q).ctxOfJob (pkJob p) = some c → e = bitsOf (leNat (p.payload.take 8)) 47 32 →
        (u.leave q).cancelled c e = false → (u.leave q).epoch c = some e → k u q = ((u.leave q).aggLocal p true).poison c e)

/-! ## Contexts and jobs -/

namespace Sys2Proof.Claims

/-- The state in which a command of CTX_CMD acts: what came before in its clk is settled, and its lap is kept in the register (R327, R339). -/
def commanded (s : State) (c : Nat) (v : Word) : State := s.putCmdLap c v

/-- Pre-emption stops the general context's streams and waits and puts back each relay operation that runs (R334). -/
def preempted (s : State) : State :=
  (((s.streamsOf 0).foldl (fun s k => s.suspend k) s).dropWaits (fun u => decide (u < 64) && s.ctxOf u == 0)).updCol (fun x =>
    { x with relays := x.relays.map (fun e => if e.1 % 2 = 0 then (e.1, { posted := e.2.run.toList ++ e.2.posted, run := none }) else e) })

end Sys2Proof.Claims

/-- CREATE in NONE prepares a context that the checks allow and is refused with F_CTX_CFG otherwise; PREEMPT of a running general context
begins SAVING; RESUME of a saved one at least one whole lap ahead sets the lap of its return; HALT of a busy one sets the lap of its stop; DESTROY
frees one that is prepared, delivered or halted, and one that was torn down is NONE again; TEARDOWN raises F_CTX_TEARDOWN in one that is neither
NONE nor TORN; CREATE and HALT in another state are ignored (R325, R327, R328, R334, R336, R338). -/
def Obligations.ContextCommandResults : Prop :=
  ∀ (c : Fin 2) (v : Word) (s t : State), Up s → t = commanded s c v →
    (t.ctxState c = CtxSt.none → t.mayManage = true → t.createOk c = true → Gives (.create c v) s (t.prepare c)) ∧
    (t.ctxState c = CtxSt.none → t.createOk c = false → Gives (.create c v) s (t.report F_CTX_CFG c 0)) ∧
    (t.ctxState c = CtxSt.none → t.mayManage = false → Gives (.create c v) s (t.report F_CTX_CFG c 0)) ∧
    (t.ctxState c ≠ CtxSt.none → Gives (.create c v) s (t.cmdIgnored c)) ∧
    (∀ u : State, c.val = 0 → t.ctxState 0 = CtxSt.run → u = preempted t →
      Gives (.preempt c v) s ((u.addSat (ACCT_CNT.PREEMPTS (u.acctEntry 0)) 1).setCtxState 0 CtxSt.saving)) ∧
    (t.ctxState c = CtxSt.saved → t.lapNo + 2 ≤ t.rd (CTX_CMD.LAP c) → (t.ctx c).needRetain = false →
      Gives (.resume c v) s (t.updCtx c (fun x => { x with resumeLap := some (t.rd (CTX_CMD.LAP c)), readBack := false })).wake) ∧
    (t.ctxBusy c = true → Gives (.halt c v) s (t.updCtx c (fun x => { x with haltLap := some (t.rd (CTX_CMD.LAP c)) }))) ∧
    (t.ctxBusy c = false → Gives (.halt c v) s (t.cmdIgnored c)) ∧
    (t.ctxState c = CtxSt.torn → Gives (.destroy c v) s (t.setCtxState c CtxSt.none)) ∧
    (t.ctxState c = CtxSt.prepared ∨ t.ctxState c = CtxSt.delivered ∨ t.ctxState c = CtxSt.halted →
      Gives (.destroy c v) s ((t.release c).setCtxState c CtxSt.none)) ∧
    (t.ctxState c ≠ CtxSt.none → t.ctxState c ≠ CtxSt.torn → Gives (.teardown c v) s (t.contextFault c F_CTX_TEARDOWN))

/-- SAVE_COMPLETE of a settled context that is SAVING writes its image and leaves it SAVED. SAVE_IMAGE_READBACK_DONE of one that is to resume reads
the image back once, and raises F_CTX_SAVE where a block of it is uncorrectable. CTX_RSET is written while both contexts are NONE. CTX_JOB and
CTX_PISTE are written before DELIVER; between DELIVER and RUN, a new SEPOCH of the same job returns a delivered context to PREPARED with its counters,
cancel list and collective numbers clear, and a piste map is taken where it is good. Any other write reports F_CTX_CFG (R319, R323, R325, R333
to R336, R340, R343). -/
def Obligations.ContextRegisterResults : Prop :=
  ∀ s : State, Up s →
    (s.frozen = false → s.ctxState 0 = CtxSt.saving → s.settled = true → GivesWith .saveComplete s (s.writeImage.setCtxState 0 CtxSt.saved)) ∧
    (s.frozen = false → s.ctxState 0 = CtxSt.saved → (s.ctx 0).resumeLap ≠ none → (s.ctx 0).readBack = false →
      ∀ t : State, t = s.imageRanges.foldl (fun s x => s.memRead x.1 x.2 false) s →
      (s.imageRanges.any (fun x => s.memBad x.1 x.2) = false →
        GivesWith .saveImageReadbackDone s (t.readImage.updCtx 0 (fun x => { x with readBack := true }))) ∧
      (s.imageRanges.any (fun x => s.memBad x.1 x.2) = true → GivesWith .saveImageReadbackDone s (t.contextFault 0 F_CTX_SAVE))) ∧
    (∀ v : Word, s.bothNone = true → Gives (.ctxRsetWrite v) s (s.applySetting 0x030000 v)) ∧
    (∀ v : Word, s.bothNone = false → Gives (.ctxRsetWrite v) s (s.report F_CTX_CFG 2 0)) ∧
    (∀ (c : Fin 2) (v : Word),
      (s.ctxOpen c = true →
        Gives (.ctxJobWrite c v) s (s.setReg (0x030030 + 8 * c.val) v) ∧
        Gives (.ctxPisteWrite c v) s (s.applySetting (0x030050 + 8 * c.val) v)) ∧
      (s.ctxOpen c = false → s.ctxStarting c = false →
        Gives (.ctxJobWrite c v) s (s.report F_CTX_CFG c 0) ∧ Gives (.ctxPisteWrite c v) s (s.report F_CTX_CFG c 0)) ∧
      (s.ctxOpen c = false → s.ctxStarting c = true →
        (s.pisteOk c (fieldOf v (CTX_PISTE.PMAP c)) (fieldOf v (CTX_PISTE.LCHIP c)) = true →
          Gives (.ctxPisteWrite c v) s (s.applySetting (0x030050 + 8 * c.val) v)) ∧
        (fieldOf v (CTX_JOB.JOB c) ≠ s.rd (CTX_JOB.JOB c) → Gives (.ctxJobWrite c v) s (s.report F_CTX_CFG c 0)) ∧
        (∀ t : State, fieldOf v (CTX_JOB.JOB c) = s.rd (CTX_JOB.JOB c) → t = s.setReg (0x030030 + 8 * c.val) v →
          (s.ctxState c ≠ CtxSt.delivered ∨ t.rd (CTX_JOB.SEPOCH c) = s.rd (CTX_JOB.SEPOCH c) → Gives (.ctxJobWrite c v) s t) ∧
          (s.ctxState c = CtxSt.delivered → t.rd (CTX_JOB.SEPOCH c) ≠ s.rd (CTX_JOB.SEPOCH c) → Gives (.ctxJobWrite c v) s
            (((((t.updCtx c (fun x => { x with startLap := none, cc := [], cxl := [], replays := 0, lastCol := none })).wr
              (if c = 0 then COL_LASTID.GEN else COL_LASTID.RT) 0).allPending c).setCtxState c CtxSt.prepared))))))

/-- A DELIVER of the context's epoch and digest takes a prepared context to DELIVERED, and a COMMIT of its epoch gives a delivered one its start
lap, a late one reporting F_JOB_LATECOMMIT. JOB_LEAD_START begins the DELIVER phase where the leader's conditions hold and reports F_JOB_LEAD
where the context is not PREPARED. LEAD_PHASE_COMPLETE, once every member has answered, goes on to COMMIT or ends in DONE where no member was pruned,
and ends with F_JOB_STARTFAIL or F_JOB_SHORT where some were. LEAD_PHASE_TIMEOUT ends a phase that has waited TIMEOUT with F_JOB_STARTTMO (R330 to
R333). -/
def Obligations.JobStartResults : Prop :=
  ∀ s : State, Up s →
    (∀ (n : Fin 13) (p : Packet), pkClass p = Cls.ctl → pkOpc p = 0x10 → ∃ k : State → QPkt → State,
      Gives (.deliverRx n p) s (s.receive n p true k) ∧ ∃ f : State → Nat → Option (State × Bool),
      (∀ u q, k u q = ((u.leave q).member p f).1.aggLocal p ((u.leave q).member p f).2) ∧
      (∀ u c, u.ctxState c = CtxSt.prepared → payWord p 0 % 2 ^ 32 = u.rd (CTX_JOB.SEPOCH c) → payWord p 1 = u.rd (CTX_JDIG.DIGEST c) →
        f u c = some (u.setCtxState c CtxSt.delivered, true))) ∧
    (∀ (n : Fin 13) (p : Packet), pkClass p = Cls.ctl → pkOpc p = 0x11 → ∃ k : State → QPkt → State,
      Gives (.commitRx n p) s (s.receive n p true k) ∧ ∃ f : State → Nat → Option (State × Bool),
      (∀ u q, k u q = ((u.leave q).member p f).1.aggLocal p ((u.leave q).member p f).2) ∧
      (∀ u c, u.ctxState c = CtxSt.delivered → payWord p 0 % 2 ^ 32 = u.rd (CTX_JOB.SEPOCH c) →
        (u.lapNo < payWord p 1 / 2 ^ 20 →
          f u c = some ((u.updCtx c (fun x => { x with startLap := some (payWord p 1 / 2 ^ 20) })).wake, true)) ∧
        (payWord p 1 / 2 ^ 20 ≤ u.lapNo → f u c = some (u.report F_JOB_LATECOMMIT c 0, false)))) ∧
    (∀ (v : Word) (t : State), t = s.applySetting 0x030200 v → t.ctxState (t.rd JOB_LEAD.CTX) ≠ CtxSt.prepared →
      Gives (.jobLeadStart v) s (t.report F_JOB_LEAD (t.rd JOB_LEAD.CTX) 0)) ∧
    (∀ (v : Word) (t : State) (c g : Nat), t = s.applySetting 0x030200 v → c = t.rd JOB_LEAD.CTX → g = t.rd JOB_LEAD.MGROUP →
      t.ctxState c = CtxSt.prepared → t.mgValid g (t.rd (CTX_JOB.JOB c)) = true → t.mgRoot g = true → t.mgLocal g = true →
      t.mgMembers g = t.rd JOB_LEAD.MEMBERS → t.lapNo + 2 ≤ t.rd JOB_LEADT.START_LAP → t.rd JOB_LSTAT.PHASE = 0 →
      ∃ u : State, Gives (.jobLeadStart v) s (u.leadPhase LeadPh.deliver) ∧ u.lead.ctx = c ∧ u.lead.members = t.rd JOB_LEAD.MEMBERS ∧
        u.lead.startLap = t.rd JOB_LEADT.START_LAP ∧ u.regs = t.regs) ∧
    (∀ (pruned : Nat) (u : State), s.lead.active = true →
      (s.cc s.lead.ctx s.lead.ackcc + 2 ^ 32 - s.lead.ackBase) % 2 ^ 32 = s.lead.members →
      pruned = (s.cc s.lead.ctx s.lead.pcc + 2 ^ 32 - s.lead.pBase) % 2 ^ 32 →
      u = (s.wr JOB_LSTAT.PRUNED pruned).wr JOB_LSTAT.REAL (s.lead.members - pruned) →
      (s.rd JOB_LSTAT.PHASE = LeadPh.deliver → pruned = 0 → Gives .leadPhaseComplete s (u.leadPhase LeadPh.commit)) ∧
      (s.rd JOB_LSTAT.PHASE = LeadPh.deliver → pruned ≠ 0 → Gives .leadPhaseComplete s (u.leadEnd LeadPh.failed (some F_JOB_STARTFAIL))) ∧
      (s.rd JOB_LSTAT.PHASE ≠ LeadPh.deliver → pruned = 0 → Gives .leadPhaseComplete s (u.leadEnd LeadPh.done none)) ∧
      (s.rd JOB_LSTAT.PHASE ≠ LeadPh.deliver → pruned ≠ 0 → Gives .leadPhaseComplete s (u.leadEnd LeadPh.short (some F_JOB_SHORT)))) ∧
    (s.lead.active = true → s.lead.since + s.lead.timeout ≤ s.ct →
      (s.cc s.lead.ctx s.lead.ackcc + 2 ^ 32 - s.lead.ackBase) % 2 ^ 32 ≠ s.lead.members →
      Gives .leadPhaseTimeout s (s.leadEnd (if s.rd JOB_LSTAT.PHASE = LeadPh.deliver then LeadPh.failed else LeadPh.short) (some F_JOB_STARTTMO)))

/-! ## Snapshot and restore -/

namespace Sys2Proof.Claims

/-- A Snapshot Engine copy of a page can go: the channels of both ends serve, and the page can be read (R209, R212, R351). -/
abbrev CopyReady (s : State) (a b : Nat) : Prop :=
  s.rangeOpen a 4096 = true ∧ s.rangeOpen b 4096 = true ∧ s.memBad a 4096 = false

/-- The state after a page is copied: both channels carry it, and the page is read and written (R351). -/
def copied (s : State) (a b : Nat) : State := (((s.demand false a 4096).memRead a 4096 false).demand true b 4096).copyMem a b 4096

end Sys2Proof.Claims

/-- SNP_AREA is written while both contexts are NONE, and so is a region, or one of a HALTED context, whose pages are then pending;
F_SNP_CFG is reported otherwise. SNP_SWEEP_PAGE copies the next page of its sweep to the rolling image and makes it clean;
WRITE_PRESERVE_DONE preserves a page that a write waits on and lets the write go; ROLLBACK_COPY_DONE copies the dirty pages back and ends
the rollback. Each raises F_SNP_UE where a page cannot be read (R344 to R351). CKPT_REQUEST asks for a checkpoint where no drain is at work
and a region is valid, and reports F_SNP_CKPTBUSY otherwise; CKPT_RELEASE drops the drain image. DRAIN_COPY_PAGE, once nothing comes before
it, copies the next page to the drain image, raises F_SNP_UE where the page cannot be read, and seals an image whose pages are all copied
(R349, R351, R352). -/
def Obligations.SnapshotPageResults : Prop :=
  (∀ s : State, Up s →
    (∀ v : Word, s.bothNone = true → Gives (.snpCfgWrite 0x200400#24 v) s (s.applySetting 0x200400 v)) ∧
    (∀ v : Word, s.bothNone = false → Gives (.snpCfgWrite 0x200400#24 v) s (s.report F_SNP_CFG 2 0)) ∧
    (∀ (off : BitVec 24) (v : Word) (c : Nat), off.toNat ≠ 0x200400 → regionCtx off.toNat = some c →
      (s.bothNone = true → Gives (.snpCfgWrite off v) s (s.applySetting off.toNat v)) ∧
      (s.bothNone = false → s.ctxState c = CtxSt.halted → Gives (.snpCfgWrite off v) s ((s.applySetting off.toNat v).allPending c)) ∧
      (s.bothNone = false → s.ctxState c ≠ CtxSt.halted → Gives (.snpCfgWrite off v) s (s.report F_SNP_CFG 2 0))) ∧
    (∀ (c : Fin 2) (p o : Nat), s.frozen = false → s.sweepYields = false → s.nextSweep c = some p → s.imageOffset c p = some o →
      (CopyReady s (p * 4096) (s.imageBase c false + o) →
        GivesWith (.snpSweepPage c) s ((copied s (p * 4096) (s.imageBase c false + o)).setPage c p PageSt.clean).retryHeld) ∧
      (s.rangeOpen (p * 4096) 4096 = true → s.rangeOpen (s.imageBase c false + o) 4096 = true → s.memBad (p * 4096) 4096 = true →
        GivesWith (.snpSweepPage c) s (((s.demand false (p * 4096) 4096).memRead (p * 4096) 4096 false).contextFault c F_SNP_UE))) ∧
    (∀ (c : Fin 2) (page : Nat) (t : State), s.frozen = false → s.isProtected c page = true → s.needsCopy page = true → s.waitsOn page = true →
      s.rangeOpen (page * 4096) 4096 = true → t = (s.demand false (page * 4096) 4096).memRead (page * 4096) 4096 false →
      (s.memBad (page * 4096) 4096 = false → GivesWith (.writePreserveDone c page) s (t.preservePage page).retryHeld) ∧
      (s.memBad (page * 4096) 4096 = true → GivesWith (.writePreserveDone c page) s (t.contextFault c F_SNP_UE))) ∧
    (∀ (c : Fin 2) (l : List (Nat × Nat × Nat)) (t : State), s.frozen = false → (s.snap c).copyBack = true → s.preserveDue = false →
      l = (s.dirtyImages c).map (fun a => (2, a, 4096)) → t = s.readRanges 44 l false →
      (s.badAll l = none → GivesWith (.rollbackCopyDone c) s
        (((t.copyBackPages c).updSnap c (fun x => { x with copyBack := false })).updCtx c (fun x => { x with rollback := false })).retryHeld) ∧
      (s.badAll l ≠ none → GivesWith (.rollbackCopyDone c) s (t.contextFault c F_SNP_UE))) ∧
    (∀ c : Fin 2, (s.snap c).copyBack = false → GivesWith (.rollbackCopyDone c) s s)) ∧
  (∀ (c : Fin 2) (s : State), Up s →
    (∀ (v : Word) (t : State), t = s.wr (SNP_CKPT.LAP c) (fieldOf v (SNP_CKPT.LAP c)) →
      (t.rd (drainFld c) = DrainSt.idle → t.validRegions c ≠ [] →
        Gives (.ckptRequest c v) s (t.updSnap c (fun x => { x with ckptReq := some (fieldOf v (SNP_CKPT.LAP c)) }))) ∧
      (t.rd (drainFld c) ≠ DrainSt.idle ∨ t.validRegions c = [] → Gives (.ckptRequest c v) s (t.report F_SNP_CKPTBUSY 2 c)) ∧
      Gives (.ckptRelease c v) s (t.dropDrain c).retryHeld) ∧
    (s.frozen = false → s.rd (drainFld c) = DrainSt.copying → s.drainYields = false →
      (s.nextDrain c = none → GivesWith (.drainCopyPage c) s (s.wr (drainFld c) DrainSt.sealed)) ∧
      (∀ p o : Nat, s.nextDrain c = some p → s.imageOffset c p = some o →
        (CopyReady s (p * 4096) (s.imageBase c true + o) →
          GivesWith (.drainCopyPage c) s ((copied s (p * 4096) (s.imageBase c true + o)).drained c p).retryHeld) ∧
        (s.rangeOpen (p * 4096) 4096 = true → s.rangeOpen (s.imageBase c true + o) 4096 = true → s.memBad (p * 4096) 4096 = true →
          GivesWith (.drainCopyPage c) s (((s.demand false (p * 4096) 4096).memRead (p * 4096) 4096 false).contextFault c F_SNP_UE)))))

namespace Sys2Proof.Claims

/-- The pieces of a restore of context `c` in the drain image: where each lies, where it goes, and its length (R356, R357). -/
def stagedPieces (s : State) (c : Nat) : List (Nat × Nat × Nat) :=
  s.restore.entries.filterMap (fun e => (s.regionOfId c (entRegion e)).map (fun n =>
    (s.imageBase c true + s.regionImage c n + entDoff e, s.regionBase c n + entDoff e, entLen e)))

/-- Pages of a context that an image still needs. -/
def neededPages (s : State) (c : Nat) : List (Nat × Nat × Nat) :=
  ((s.livePages c).filter (fun g => s.needsCopy g)).map (fun g => (2, g * 4096, 4096))

/-- The valid regions of a context read as zero. -/
def regionsCleared (s : State) (c : Nat) : State :=
  (s.validRegions c).foldl (fun t n =>
    { t with lpddr := tclear (s.regionBase c n) (s.regionBase c n + s.regionSize c n) t.lpddr
             flips := tclear (s.regionBase c n / 64) ((s.regionBase c n + s.regionSize c n) / 64) t.flips }) s

end Sys2Proof.Claims

/-- RESTORE_START on an allowed context begins CHECKING with a clear record, and is refused with F_RST_STATE on another. RESTORE_CHECK_DONE rejects a
list that cannot be read or fails a check, and one whose manifest is not signed, of another step or of another job, each with its code, and
otherwise goes on to FEEDING. RESTORE_FEED outside FEEDING is refused; a good piece, not the last of its shard, is staged. RESTORE_COMMIT with every
shard closed begins COMMITTING, and with one missing rejects with F_RST_MISSING. RESTORE_COPY_DONE preserves the pages that an image still
needs, clears the regions, puts the staged pieces in place and ends in DONE. RESTORE_ABANDON of a restore in FEEDING returns to IDLE (R348, R356 to
R360). -/
def Obligations.RestoreResults : Prop :=
  ∀ s : State, Up s →
    (∀ (v : Word) (c : Nat) (t u : State), c = fieldOf v SNP_RSTCTL.CTX → t = s.putRstCtl v →
      (t.rstCtxOk c = true → t.rstState < RstSt.checking ∨ RstSt.committing < t.rstState →
        u = ((t.dropDrain c).setRst RstSt.checking).wr SNP_RSTSTAT.LAST_CODE 0 → Gives (.restoreStart v) s
          { u.wr SNP_RSTSTAT.CLOSED 0 with restore := { ctx := c, step := fieldOf v SNP_RSTCTL.STEP } }) ∧
      (t.rstCtxOk c = false → Gives (.restoreStart v) s t.rstRefuse)) ∧
    (s.frozen = false → s.rstState = RstSt.checking → ∀ (a nm ne b : Nat) (r : List Byte × State), a = s.rd SNP_RSTLIST.ADDR →
      nm = s.rd SNP_RSTLIST.NMAN_M1 + 1 → ne = s.rd SNP_RSTLIST.NENT_M1 + 1 → b = (8 * nm + 31) / 32 * 32 → r = s.blockRead 44 a (b + 32 * ne) →
      (r.1 = [] → Gives .restoreCheckDone s (r.2.rstReject F_RST_LIST)) ∧
      (r.1 ≠ [] → ∀ (m : List (List Byte) × State) (es : List (List Nat)),
        m = r.2.readManifests ((List.range nm).map (fun i => wordOf r.1 i)) →
        es = (List.range ne).map (fun i => (List.range 4).map (fun j => wordOf r.1 (b / 8 + 4 * i + j))) →
        (m.2.listOk s.restore.ctx m.1 es = false → Gives .restoreCheckDone s (m.2.rstReject F_RST_LIST)) ∧
        (m.2.listOk s.restore.ctx m.1 es = true →
          (m.1.all (fun x => m.2.manSigned x) = false → Gives .restoreCheckDone s (m.2.rstReject F_RST_SIG)) ∧
          (m.1.all (fun x => m.2.manSigned x) = true →
            (m.1.all (fun x => manStep x == m.2.restore.step) = false → Gives .restoreCheckDone s (m.2.rstReject F_RST_STEPMIX)) ∧
            (m.1.all (fun x => manStep x == m.2.restore.step) = true →
              (m.1.all (fun x => manJob x == m.2.rd (CTX_JOB.JOB s.restore.ctx)) = false →
                Gives .restoreCheckDone s (m.2.rstReject F_RST_COORD)) ∧
              (m.1.all (fun x => manJob x == m.2.rd (CTX_JOB.JOB s.restore.ctx)) = true → Gives .restoreCheckDone s
                { m.2.setRst RstSt.feeding with restore := { m.2.restore with mans := m.1, entries := es } })))))) ∧
    (s.frozen = false → ∀ v : Word, s.rstState ≠ RstSt.feeding → Gives (.restoreFeed v) s s.rstRefuse) ∧
    (s.frozen = false → ∀ (v : Word) (k : Nat × Nat) (pos : Nat) (m : List Byte) (r : List Byte × State) (t : State), s.rstState = RstSt.feeding →
      k = (fieldOf v SNP_RSTFEED1.MIDX, fieldOf v SNP_RSTFEED1.SIDX) → s.restore.mans[k.1]? = some m → k.2 < manShards m →
      s.restore.closed.contains k = false → pos = (s.restore.fedOf k).length → 0 < s.rd SNP_RSTFEED0.LEN →
      s.rd SNP_RSTFEED0.LEN ≤ 32768 → s.rd SNP_RSTFEED0.ADDR % 16 = 0 → pos + 16 * s.rd SNP_RSTFEED0.LEN < hdrLen (manHeader m k.2) →
      r = s.blockRead 44 (s.rd SNP_RSTFEED0.ADDR) (16 * s.rd SNP_RSTFEED0.LEN) → r.1 ≠ [] →
      t = { r.2 with restore := { r.2.restore with
        fed := (k, r.2.restore.fedOf k ++ r.1) :: r.2.restore.fed.filter (fun e => e.1 != k) } } →
      Gives (.restoreFeed v) s ((t.restore.entries.filter (fun e => (entMidx e, entSidx e) == k)).foldl
        (fun u e => u.stagePiece s.restore.ctx pos r.1 e) t)) ∧
    (∀ (v : Word) (t : State), t = s.putRstCtl v → t.rstState = RstSt.feeding → fieldOf v SNP_RSTCTL.CTX = t.restore.ctx →
      t.rstCtxOk t.restore.ctx = true →
      (t.restore.entries.any (fun e => ! t.restore.closed.contains (entMidx e, entSidx e)) = false →
        Gives (.restoreCommit v) s (t.setRst RstSt.committing)) ∧
      (t.restore.entries.any (fun e => ! t.restore.closed.contains (entMidx e, entSidx e)) = true →
        Gives (.restoreCommit v) s (t.rstReject F_RST_MISSING))) ∧
    (∀ (c : Nat) (l : List (Nat × Nat × Nat)) (r t u : State), s.frozen = false → s.rstState = RstSt.committing → c = s.restore.ctx →
      (s.snap c).copyBack = false → l = neededPages s c → r = s.readRanges 44 l false →
      (s.badAll l ≠ none → Gives .restoreCopyDone s (r.contextFault c F_SNP_UE)) ∧
      (s.badAll l = none → t = l.foldl (fun s x => s.preservePage (x.2.1 / 4096)) r →
        u = ((stagedPieces t c).filter (fun e => ! t.memBad e.1 e.2.2)).foldl (fun w e => (w.demand true e.2.1 e.2.2).copyMem e.1 e.2.1 e.2.2)
          (regionsCleared (t.readRanges 44 ((stagedPieces t c).map (fun e => (2, e.1, e.2.2))) true) c) →
        Gives .restoreCopyDone s ((((u.allPending c).wr (drainFld c) DrainSt.idle).setRst RstSt.done).clearRestore))) ∧
    (∀ (v : Word) (t : State), t = s.putRstCtl v → t.rstState = RstSt.feeding → fieldOf v SNP_RSTCTL.CTX = t.restore.ctx →
      Gives (.restoreAbandon v) s (t.setRst RstSt.idle).clearRestore)

/-! ## The host -/

namespace Sys2Proof.Claims

/-- The state in which a frame on a linked host port is taken: the symbols that its FEC corrected are counted (R361, R379). -/
def framed (s : State) (n : Nat) (f : Frame) : State := s.addSat (HP_COUNT.FEC_CORR n) f.corrected

end Sys2Proof.Claims

/-- HOST_PORT_ENABLE leads from DOWN into TRAIN, HOST_TRAINING_DONE from there to UP once the block is released and to HELD before, and
HOST_PORT_DISABLE to DOWN; HOST_LINK_LOSS of an UP port reports F_HOST_LINK and trains again. An ARP request for the port's own IPv4 address and a
neighbour solicitation for its own IPv6 address are answered, any other such frame of a linked port is dropped and counted, and FRAME_DISCARD counts
a frame that FEC could not correct (R361, R362, R379). -/
def Obligations.HostPortResults : Prop :=
  ∀ (n : Fin 2) (s : State), Up s →
    (∀ v : Word, (s.writeHpCtl n v true).hostState n = HpSt.down →
      Gives (.hostPortEnable n v) s ((s.writeHpCtl n v true).setHostState n HpSt.train)) ∧
    (∀ v : Word, (s.writeHpCtl n v false).hostState n ≠ HpSt.discarded →
      Gives (.hostPortDisable n v) s ((s.writeHpCtl n v false).setHostState n HpSt.down)) ∧
    (s.hostState n = HpSt.train → s.discarded = false →
      (s.released = true → Gives (.hostTrainingDone n) s (s.setHostState n HpSt.up)) ∧
      (s.released = false → Gives (.hostTrainingDone n) s (s.setHostState n HpSt.held))) ∧
    (s.hostState n = HpSt.up → Gives (.hostLinkLoss n) s
      (((s.wr (HP_STATUS.LAST_CODE n) F_HOST_LINK).setHostState n HpSt.train).report F_HOST_LINK 2 n)) ∧
    (∀ (f : Frame) (t : State), s.hostLinked n = true → t = framed s n f →
      (∀ a : ArpRequest, (t.etherOf n f).bind (fun e => arpOf e.1 e.2) = some a →
        (t.bit (HP_IPV4.VALID n) = true → a.target = t.rd (HP_IPV4.ADDR n) →
          Gives (.arpRx n f) s (t.emit (.frame n (t.etherFrame n 0x0806 (arpReply (t.rd (HP_MAC.MAC n)) a.target a))))) ∧
        (t.bit (HP_IPV4.VALID n) = false ∨ a.target ≠ t.rd (HP_IPV4.ADDR n) → Gives (.arpRx n f) s (t.hostDrop n))) ∧
      ((t.etherOf n f).bind (fun e => arpOf e.1 e.2) = none → Gives (.arpRx n f) s (t.hostDrop n)) ∧
      (∀ a, (t.etherOf n f).bind (fun e => solicitationOf e.1 e.2) = some a →
        (t.ipv6 n ≠ 0 → a.target = t.ipv6 n → Gives (.neighbourSolicitationRx n f) s
          (t.emit (.frame n (t.etherFrame n 0x86DD (advertisement (t.rd (HP_MAC.MAC n)) a.target a))))) ∧
        (t.ipv6 n = 0 ∨ a.target ≠ t.ipv6 n → Gives (.neighbourSolicitationRx n f) s (t.hostDrop n))) ∧
      ((t.etherOf n f).bind (fun e => solicitationOf e.1 e.2) = none → Gives (.neighbourSolicitationRx n f) s (t.hostDrop n))) ∧
    (∀ bad good : Nat, s.hostLinked n = true → Gives (.frameDiscard ⟨n, good, bad⟩) s
      (((s.addSat (HP_COUNT.FEC_CORR n) good).addSat (HP_COUNT.FEC_UNCORR n) bad).hostDrop n))

namespace Sys2Proof.Claims

/-- A frame on an UP port of a security block that answers carries a WCP datagram, which is taken in state `t` (R361, R363). -/
abbrev WcpOn (s : State) (n : Nat) (f : Frame) (t : State) (d : Dgram) : Prop :=
  s.hostLinked n = true ∧ t = framed s n f ∧ t.sec.closed = false ∧ t.hostState n = HpSt.up ∧ t.dgramOf n f = some d ∧
    d.near = t.rd WCP_CFG.UDP_PORT

/-- The ACK `f` acknowledges a capsule: below CUM or in SACK (R370). -/
def ackedBy (f : Dgram) (c : TxCap) : Bool :=
  decide (c.seq < frCum f) || (decide (frCum f < c.seq) && decide (c.seq ≤ frCum f + 64) && (frSack f).testBit (c.seq - frCum f - 1))

/-- The session after an ACK: the acknowledged capsules have left, and a CUM that moved clears the periods and restarts the timer (R372). -/
def afterAck (s : State) (x : Nat) (f : Dgram) : State :=
  s.setSess x { s.sess x with
    unacked := (s.sess x).unacked.filter (fun c => ! ackedBy f c)
    periods := if (s.sess x).unacked.any (fun c => decide (c.seq < frCum f)) then 0 else (s.sess x).periods
    sentAt := if (s.sess x).unacked.any (fun c => decide (c.seq < frCum f)) then s.clk else (s.sess x).sentAt }

end Sys2Proof.Claims

/-- Of WCP frames on an UP port: one whose header is not good counts in MALFORMED. A CLOSE that verifies closes its session; a capsule that verifies is
accepted into its session's buffers, or counted as a duplicate or as outside the window; an ACK takes away the capsules that it acknowledges and lets
waiting ones leave. An INIT on a free slot with a known credential is answered and leaves the slot in RESP_SENT, and one that no credential fits
reports F_WCP_AUTH; a good FIN opens the session, and a bad one closes it with F_WCP_AUTH. A handshake older than 5 ms and a session idle for IDLE
are closed, KILL closes at once, an ACK that is due is sent, and capsules that stay unacknowledged are sent again after RTO until RETRY_MAX closes the
session with F_WCP_TIMEOUT (R363 to R373). -/
def Obligations.SessionResults : Prop :=
  (∀ (n : Fin 2) (f : Frame) (d : Dgram) (s t : State), Up s → WcpOn s n f t d →
    (frGood d 0x12 = true → Gives (.closeRx n f) s (t.verified n d (fun s x _ => s.closeSession x))) ∧
    (frGood d 0x12 = false → Gives (.closeRx n f) s (t.addSat WCP_COUNT.MALFORMED 1)) ∧
    (frGood d 0x10 = true → ∃ k : State → Nat → List Byte → State, Gives (.capsuleRx n f) s (t.verified n d k) ∧
      (∀ u x p, frSeq d < u.rd (WCP_SSEQ.RXCUM x) ∨ (u.sess x).rxAbove.contains (frSeq d) = true →
        k u x p = (u.addSat WCP_COUNT.DUP 1).updSess x (fun z => { z with ackDue := true })) ∧
      (∀ u x p, u.rd (WCP_SSEQ.RXCUM x) + 64 ≤ frSeq d → (u.sess x).rxAbove.contains (frSeq d) = false →
        k u x p = u.addSat WCP_COUNT.WINDOW 1) ∧
      (∀ (u v : State) (x b : Nat) (p : List Byte) (c : AccCap) (r : Nat × List Nat), u.rd (WCP_SSEQ.RXCUM x) ≤ frSeq d →
        frSeq d < u.rd (WCP_SSEQ.RXCUM x) + 64 → (u.sess x).rxAbove.contains (frSeq d) = false →
        c = ⟨(u.sess x).gen, u.rd (WCP_SESS.RIGHTS x) + (if (u.credOf (u.rd (WCP_SESS.CRED x))).any Cred.holdsSec then 16 else 0), frSeq d, p,
          none⟩ → ¬ (c.kind = 0x10 ∧ c.hold = true ∧ 1024 ≤ (u.ctx (c.word 0 55 55)).held.length) → u.ingressTake 59 p.length = some (b, v) →
        r = advanceCum 65 (u.rd (WCP_SSEQ.RXCUM x)) (frSeq d :: (u.sess x).rxAbove) → ∀ w : State, w = v.setRink (v.bufBase b) p →
        k u x p = (((w.setSess x { w.sess x with
          rxAbove := r.2, ackDue := true, accepted := insertCap { c with buf := some b } (w.sess x).accepted }).wr
          (WCP_SSEQ.RXCUM x) r.1).skipBad x 65))) ∧
    (frGood d 0x11 = true → Gives (.ackRx n f) s (t.verified n d (fun u x _ =>
      (((((u.sess x).unacked.filter (ackedBy d)).foldl (fun s c => s.drainAcked c.drain) (afterAck u x d)).pumpCapsules x
        (u.sess x).queue.length).closeExhausted)))) ∧
    (frGood d 3 = true → t.sessState (frSess d) = SessSt.respSent →
      ((t.sess (frSess d)).unseal d = none → Gives (.finRx n f) s ((t.closeSession (frSess d)).report F_WCP_AUTH 2 (frSess d))) ∧
      (∀ (c : Cred) (p : List Byte) (x : Nat) (y : Sess), x = frSess d → y = t.sess x →
        t.credOf (t.rd (WCP_SESS.CRED x)) = some c → y.unseal d = some p → p.length = 64 + mldsaLen →
        bothVerify c.ed c.mldsa (Config.sha3_384 (y.h1 ++ label "wcp fin")) (p.take 64) (p.drop 64) = true →
        ∀ (u w : State), u = (t.setSess x { y with
            since := t.clk, peer := d.peer, rto := t.rd WCP_CFG.RTO, retryMax := t.rd WCP_CFG.RETRY_MAX, idle := t.rd WCP_CFG.IDLE }) →
        w = ((((u.wr (WCP_SESS.STATE x) SessSt.opened).wr (WCP_SSEQ.RXCUM x) 1).wr (WCP_SSEQ.TXNEXT x) 1).wr (WCP_SESS.PORT x) n) →
        ∀ z : State, z = w.wr WCP_STATUS.OPEN (w.rd WCP_STATUS.OPEN ||| 2 ^ x) →
        ((z.rd (WCP_SESS.RIGHTS x)).testBit 3 = false → Gives (.finRx n f) s z) ∧
        ((z.rd (WCP_SESS.RIGHTS x)).testBit 3 = true → Gives (.finRx n f) s (z.drainRing x)))) ∧
    (frGood d 1 = true → t.sessState (frSess d) ≠ SessSt.free → Gives (.initRx n f) s (t.addSat WCP_COUNT.MALFORMED 1)) ∧
    (frGood d 1 = true → t.sessState (frSess d) = SessSt.free → (frBody d).length = initLen → leNat (((frBody d).drop 3).take 1) = 0 →
      (t.credOf (leNat ((frBody d).take 2)) = none → Gives (.initRx n f) s (t.report F_WCP_AUTH 2 (frSess d))) ∧
      (t.mayManage = true → (t.credOf (leNat ((frBody d).take 2))).isSome = true → (t.handshakeSeeds (leNat ((frBody d).take 2))).isSome = true →
        ∃ (u : State) (body : List Byte), Gives (.initRx n f) s
          (u.sendUdp n ⟨d.v6, d.addr, d.far, d.near, wcpHeader 2 (frSess d) 1 0 0 0 body.length ++ body⟩) ∧
          u.rd (WCP_SESS.STATE (frSess d)) = SessSt.respSent))) ∧
  (∀ (x : Fin 16) (s : State), Up s →
    (s.sessState x = SessSt.respSent → (s.sess x).since + 5 * clkPerMs ≤ s.clk →
      Gives (.handshakeTimeout x) s ((s.closeSession x).report F_WCP_AUTH 2 x)) ∧
    (s.sessState x = SessSt.opened → (s.sess x).since + (s.sess x).idle * clkPerMs ≤ s.clk →
      Gives (.sessionIdleTimeout x) s (s.closeSession x)) ∧
    Gives (.sessionKill x) s (s.closeSession x) ∧
    (s.sessState x = SessSt.opened → (s.sess x).ackDue = true → ∀ (cum : Nat) (f : List Byte), cum = s.rd (WCP_SSEQ.RXCUM x) →
      f = (s.sess x).seal 0x11 x (s.sess x).ackNext cum
        (((List.range 64).map (fun i => if (s.sess x).rxAbove.contains (cum + 1 + i) then 2 ^ i else 0)).sum) [] →
      Gives (.wcpAckSend x) s (((s.setSess x { s.sess x with ackDue := false, ackNext := (s.sess x).ackNext + 1 }).sendWcp x
        f).closeExhausted)) ∧
    (s.sessState x = SessSt.opened → (s.sess x).unacked ≠ [] → (s.sess x).sentAt + (s.sess x).rto * clkPerUs ≤ s.clk →
      ((s.sess x).retryMax ≤ (s.sess x).periods + 1 → Gives (.wcpRetransmit x) s ((s.closeSession x).report F_WCP_TIMEOUT 2 x)) ∧
      ((s.sess x).periods + 1 < (s.sess x).retryMax → Gives (.wcpRetransmit x) s ((s.sess x).unacked.foldl
        (fun (s : State) c => s.sendWcp x c.frame)
        (s.setSess x { s.sess x with periods := (s.sess x).periods + 1, sentAt := s.clk })))))

/-- The capsule at the head of a session. A management capsule runs when its session has the turn: an MREAD or MWRITE that is misaligned or passes the
end answers RANGE; an MREAD that the matrix allows reads its registers in order and answers OK with their values; an MWRITE that the matrix allows
writes them in order and answers OK, and counts as an event that breaks repeatability; one to the security or Setting Store block without SEC answers
DENIED and writes nothing. A PUT that passes its checks is written and counted, or waits while its page or channel holds it back, or is held for the
step boundary, and one that does not pass reports F_WCP_DATA; a NOP has no effect. An MREAD, MWRITE or PUT without its right reports F_WCP_DENIED
(R369, R371, R373 to R376, R392, R393, R409). -/
def Obligations.CapsuleResults : Prop :=
  ∀ (x : Fin 16) (s : State) (c : AccCap), Grants s → s.headCap x = some c →
    (s.mgmtTurn x = true →
      (c.kind = 1 → c.rights.testBit 0 = true →
        (c.outOfRange = true → Gives (.mread x) s ((s.mgmtAnswer x c stRange []).skipBad x 65)) ∧
        (c.outOfRange = false → s.mayManage = true → c.regOffsets.all (fun o => s.readAllowed o) = true →
          Gives (.mread x) s (((s.readAll c.regOffsets).2.mgmtAnswer x c stOk (s.readAll c.regOffsets).1).skipBad x 65))) ∧
      (c.rights.testBit 0 = false →
        (c.kind = 1 → Gives (.mread x) s (((s.popCap x c true).report F_WCP_DENIED 2 c.tag).skipBad x 65)) ∧
        (c.kind = 2 → Gives (.mwrite x) s (((s.popCap x c true).report F_WCP_DENIED 2 c.tag).skipBad x 65))) ∧
      (c.kind = 2 → c.rights.testBit 0 = true →
        (c.outOfRange = true → Gives (.mwrite x) s ((s.mgmtAnswer x c stRange []).skipBad x 65)) ∧
        (c.outOfRange = false → c.rights.testBit 4 = false → (∃ p ∈ c.regOffsets.zip c.values, secBlock p.1 = true) →
          Gives (.mwrite x) s ((s.mgmtAnswer x c stDenied []).skipBad x 65)) ∧
        (c.outOfRange = false → s.mayManage = true →
          (∀ p ∈ c.regOffsets.zip c.values, s.writeAllowed (c.rights.testBit 4) p.1 p.2 = true) →
          (∀ o ∈ c.regOffsets, o / 0x10000 ≠ 0x24 ∧ o / 0x10000 ≠ 0) → c.regOffsets ≠ [] →
          Gives (.mwrite x) s
            ((((s.writeAll (c.rights.testBit 4) (c.regOffsets.zip c.values)).repeatEvent 5 1).mgmtAnswer x c stOk []).skipBad x 65)))) ∧
    (c.kind = 0x10 → c.rights.testBit 1 = false →
      Gives (.put x) s (((s.popCap x c true).report F_WCP_DENIED 2 c.tag).skipBad x 65)) ∧
    (c.kind = 0x10 → c.rights.testBit 1 = true → s.putOk c = false →
      Gives (.put x) s (((s.popCap x c true).report F_WCP_DATA 2 c.tag).skipBad x 65)) ∧
    (c.kind = 0x10 → c.rights.testBit 1 = true → s.putOk c = true → c.hold = false →
      (s.rangeBlocked c.space c.offset c.len = true → Gives (.put x) s ((s.saturate 2).skipBad x 65)) ∧
      (s.rangeBlocked c.space c.offset c.len = false → Gives (.put x) s
        (((((s.putWrite c.ctx c.space c.offset c.payload).addCc c.ctx (c.word 2 63 52) (c.word 2 31 0)).repeatEvent 5 1).popCap x c
          true).skipBad x 65))) ∧
    (c.kind = 0x10 → c.rights.testBit 1 = true → s.putOk c = true → c.hold = true → (s.ctx c.ctx).held.length < 1024 →
      Gives (.put x) s (((s.popCap x c false).updCtx c.ctx (fun y => { y with held := y.held ++
        [⟨x, c.seq, c.space, c.offset, c.payload, c.word 2 63 52, c.word 2 31 0, c.buf⟩] })).skipBad x 65)) ∧
    (c.kind = 0x30 → Gives (.wcpNop x) s ((s.popCap x c true).skipBad x 65))

/-- A write under the access codes: an RW field takes the written value, RO, RC and WO fields keep theirs, a W1C field loses the bits
written 1, an RWL field takes the value unless it is locked, and a bit that no field covers keeps its value (R4, R7). Counter read-out:
below D1 a management read of a register gives its RC fields as 0 and clears nothing; at D1 and above it gives the register and clears its
RC fields; a read of a hole gives 0 (R4, R414, R472). -/
def Obligations.RegisterAccess : Prop :=
  (∀ (fs : List Fld) (locked : Bool) (old v : Word),
    (∀ f ∈ fs, f.lo ≤ f.hi ∧ f.hi < 64) → fs.Pairwise (fun f g => f.hi < g.lo ∨ g.hi < f.lo) →
    (∀ f ∈ fs, bitsOf (writeWord fs locked old v).toNat f.hi f.lo =
      (match f.acc with
        | .rw | .rws => bitsOf v.toNat f.hi f.lo
        | .ro | .rc | .wo => bitsOf old.toNat f.hi f.lo
        | .w1c => bitsOf old.toNat f.hi f.lo - (bitsOf old.toNat f.hi f.lo &&& bitsOf v.toNat f.hi f.lo)
        | .rwl => if locked then bitsOf old.toNat f.hi f.lo else bitsOf v.toNat f.hi f.lo)) ∧
    (∀ i, i < 64 → (∀ f ∈ fs, ¬ (f.lo ≤ i ∧ i ≤ f.hi)) → (writeWord fs locked old v).getLsbD i = old.getLsbD i)) ∧
  (∀ (s : State) (r : RegRow) (off : Nat), off < 0x1C0000 → s.domainOn (domainOf off) = true →
    (s.dbg = 0 → s.readRegister .management r off = (readClear r.fields (s.regView off), s)) ∧
    (s.dbg ≠ 0 → ∃ t : State, s.readRegister .management r off = (s.regView off, t) ∧ t.reg off = readClear r.fields (s.reg off) ∧
      (∀ o, o ≠ off → t.reg o = s.reg o) ∧ t.rink = s.rink ∧ t.lpddr = s.lpddr ∧ t.streams = s.streams) ∧
    (∀ path : Path, findRow off = none → off % 8 = 0 → tmplWindow off = false → plainWindow off = false → (s.csRead path off).1 = 0))

/-! ## Security and configuration -/

namespace Sys2Proof.Claims

/-- The credential that the window of the security processor holds: its rights and its two keys (R390). -/
def credFromWindow (s : State) : Cred :=
  ⟨true, leNat (s.windowBytes credWindow 1) % 32, s.windowBytes (credWindow + 8) 32, s.windowBytes (credWindow + 40) 1952⟩

/-- The state with a credential in an entry of the table. -/
def withCred (s : State) (n : Nat) (c : Cred) : State := s.updSec (fun x => { x with creds := tset (fun _ => {}) x.creds n c })

end Sys2Proof.Claims

/-- While a command runs another is refused with F_SEC_BUSY. LC_ADVANCE makes a legal step with its token, tears the contexts down and closes the
sessions and the security block; a step that is not legal reports F_SEC_LC and one without token F_SEC_TOKEN. DBG_SET grants a lower level, and a
higher one where no token is needed; above D3 it reports F_SEC_DBG. CRED_INSTALL and CRED_REVOKE act on entries 1 to 15 and report F_SEC_CRED for any
other; a revoked credential's sessions close. CERT_INSTALL keeps a certificate of the device's own keys that the root signed, and reports F_SEC_TOKEN
without a token. ATTEST of a device that may attest starts, and reports F_SEC_LC without an identity; SEC_COMMAND_DONE ends it with the quote.
SVN_COMMIT raises the fused SVN to the running image's in DEPLOYED and reports F_SEC_LC elsewhere (R386 to R391, R394, R405). -/
def Obligations.SecurityCommandResults : Prop :=
  ∀ (s : State) (arg : BitVec 8), Up s → s.sec.closed = false →
    (s.bit SEC_STATUS.BUSY = true → Gives (.lcAdvance arg) s (s.secReport F_SEC_BUSY) ∧ Gives (.dbgSet arg) s (s.secReport F_SEC_BUSY) ∧
      Gives (.credInstall arg) s (s.secReport F_SEC_BUSY) ∧ Gives (.attest arg) s (s.secReport F_SEC_BUSY)) ∧
    (s.bit SEC_STATUS.BUSY = false →
      (s.transitionOk arg.toNat = false → Gives (.lcAdvance arg) s (s.secReport F_SEC_LC).newNonce) ∧
      (s.transitionOk arg.toNat = true → s.tokenSigner 1 arg.toNat = none → Gives (.lcAdvance arg) s (s.secReport F_SEC_TOKEN).newNonce) ∧
      (s.transitionOk arg.toNat = true → s.tokenSigner 1 arg.toNat = some 0 →
        ∀ u : State, u = ((s.makeTransition arg.toNat).teardown 0 F_CTX_TEARDOWN 0).teardown 1 F_CTX_TEARDOWN 0 → Gives (.lcAdvance arg) s
        (((u.closeSessions (fun _ => true)).settleLost).updSec (fun x => { x with closed := true })).newNonce) ∧
      (arg.toNat ≤ s.dbg → arg.toNat ≤ 3 → s.powered = true → Gives (.dbgSet arg) s (s.setDebug arg.toNat)) ∧
      (s.dbg < arg.toNat → arg.toNat ≤ 3 → s.powered = true → s.lc < 4 → s.needsToken arg.toNat = false →
        Gives (.dbgSet arg) s (s.setDebug arg.toNat)) ∧
      (3 < arg.toNat → Gives (.dbgSet arg) s (s.secReport F_SEC_DBG)) ∧
      (arg.toNat = 0 ∨ 16 ≤ arg.toNat → Gives (.credInstall arg) s (s.secReport F_SEC_CRED) ∧ Gives (.credRevoke arg) s (s.secReport F_SEC_CRED)) ∧
      (0 < arg.toNat → arg.toNat < 16 →
        Gives (.credInstall arg) s (withCred s arg.toNat (credFromWindow s)) ∧
        ∀ t : State, t = withCred s arg.toNat {} →
          Gives (.credRevoke arg) s ((t.closeSessions (fun x => t.rd (WCP_SESS.CRED x) == arg.toNat)).settleLost)) ∧
      (s.tokenSigner 3 0 = none → Gives (.certInstall arg) s (s.secReport F_SEC_TOKEN).newNonce) ∧
      (∀ ed ml cert : List Byte, s.tokenSigner 3 0 = some 0 → s.sec.identity = some (ed, ml) →
        cert = s.windowBytes (tokenWindow + 3456) certLen → (cert.drop 8).take 32 = Config.ed25519Public ed →
        (cert.drop 40).take 1952 = Config.mldsaPublic ml →
        s.rootsVerify 0 (cert.take 2000) ((cert.drop 2000).take 64) ((cert.drop 2064).take mldsaLen) = true →
        Gives (.certInstall arg) s (s.updSec (fun x => { x with certificate := cert })).newNonce) ∧
      (s.sec.identity = none → Gives (.attest arg) s (s.secReport F_SEC_LC)) ∧
      (s.sec.identity ≠ none → s.mayAttest = true →
        Gives (.attest arg) s ((s.updSec (fun x => { x with attesting := true })).wr SEC_STATUS.BUSY 1)) ∧
      (s.lc ≠ 2 → Gives .svnCommit s (s.secReport F_SEC_LC)) ∧
      (s.lc = 2 → ∀ n : Nat, n = max s.sec.fuseSvn (min 64 s.sec.running.svn) →
        Gives .svnCommit s ((s.updSec (fun x => { x with fuseSvn := n })).wr SEC_BOOT.SVN n))) ∧
    Gives .secCommandDone s s.finishAttest

namespace Sys2Proof.Claims

/-- The packet of a census down the tree of a group: its CID and its lap (R399). -/
def censusPacket (s : State) (g cid : Nat) : Packet :=
  mkPacket { cls := Cls.ctl, mode := 1, src := s.chipId, job := bitsOf (s.mgWord g 0) 49 34, mgroup := g, opc := 0x12 }
    (leBytes 8 (cid * 2 ^ 48) ++ leBytes 8 (s.rd CFG_CENLAP.LAP * 2 ^ 20))

end Sys2Proof.Claims

/-- A Setting Store command starts while none runs and is refused with F_SEC_BUSY otherwise; a WRITE to the running slot or beyond its 768
blocks and an ACTIVATE of a slot that is not verified report F_SEC_IMG. SS_COMMAND_DONE makes the change of the command that ran: the image
buffer written, the slot read and its verification shown, the preferred slot changed, or the settings stored. SS_WEAR_SCAN records and
reports a block that is uncorrectable or was before, and has no effect on another (R395 to R397, R404, R406). CENSUS_START at a root records
the census and sends its packet down the tree; a received one of a CID that is not under way is taken up where the tree takes the packet,
and each is counted here once it arrives. A pair of CENSUS LCFs in good groups in order is acknowledged like any other and reported to the
census. At the root a census that has waited TIMEOUT ends with F_SEC_CENSUS (R399 to R401). -/
def Obligations.SettingStoreAndCensusResults : Prop :=
  (∀ (s : State) (slot : Bool) (off : BitVec 10), Up s →
    (s.sec.closed = false → s.bit SS_STATUS.BUSY = true → ∀ i ∈ [Instr.ssWrite slot off, .ssVerify slot, .ssActivate slot, .ssStore],
      Gives i s (s.ssReport F_SEC_BUSY)) ∧
    (s.sec.closed = false → s.bit SS_STATUS.BUSY = false →
      (s.runningSlot (b01 slot) = false → off.toNat < 768 → Gives (.ssWrite slot off) s (s.ssStart (.write slot off.toNat))) ∧
      (s.runningSlot (b01 slot) = true ∨ 768 ≤ off.toNat → Gives (.ssWrite slot off) s (s.ssReport F_SEC_IMG)) ∧
      Gives (.ssVerify slot) s (s.ssStart (.verify slot)) ∧
      (s.bit (slotOkFld (b01 slot)) = true → Gives (.ssActivate slot) s (s.ssStart (.activate slot))) ∧
      (s.bit (slotOkFld (b01 slot)) = false → Gives (.ssActivate slot) s (s.ssReport F_SEC_IMG)) ∧
      Gives .ssStore s (s.ssStart .store)) ∧
    (∀ t u : State, t = (s.updSec (fun x => { x with ssJob := none })).wr SS_STATUS.BUSY 0 → u = t.readSlot (b01 slot) →
      (s.sec.ssJob = some (.write slot off.toNat) → Gives .ssCommandDone s
        (t.setMram (slotBase (b01 slot) + 0x8000 * off.toNat) (t.windowBytes imageWindow 0x8000))) ∧
      (s.sec.ssJob = some (.activate slot) → Gives .ssCommandDone s
        ((t.updSec (fun x => { x with preferred := b01 slot })).wr SS_STATUS.PREFERRED (b01 slot))) ∧
      (s.sec.ssJob = some (.verify slot) → u.verifySlot (b01 slot) = none → Gives .ssCommandDone s (u.wr (slotOkFld (b01 slot)) 1)) ∧
      (∀ code : Nat, s.sec.ssJob = some (.verify slot) → u.verifySlot (b01 slot) = some code →
        Gives .ssCommandDone s ((u.wr (slotOkFld (b01 slot)) 0).ssReport F_SEC_IMG)) ∧
      (s.sec.ssJob = some .store → Gives .ssCommandDone s t.storeSettings)) ∧
    (∀ (block : Nat) (bad : Bool), block < 2 ^ 20 →
      (bad = false → s.sec.badBlocks.contains block = false → Gives (.ssWearScan block bad) s s) ∧
      (bad = true ∨ s.sec.badBlocks.contains block = true → Gives (.ssWearScan block bad) s
        ((s.updSec (fun x => { x with badBlocks := block :: x.badBlocks.erase block })).ssReport F_SEC_SS)))) ∧
  (∀ s : State, Up s →
    (∀ (v : Word) (g : Nat) (u : State) (p : Packet), g = fieldOf v CFG_CENSUS.GROUP →
      u = ((s.wr CFG_CENSUS.CID (fieldOf v CFG_CENSUS.CID)).wr CFG_CENSUS.GROUP g).wr CFG_CENSUS.TIMEOUT (fieldOf v CFG_CENSUS.TIMEOUT) →
      p = censusPacket u g (fieldOf v CFG_CENSUS.CID) →
      bitsOf (u.mgWord g 0) 63 63 = 1 → u.mgRoot g = true → u.selfFenced = false →
      ∀ x : CenState, x = ⟨fieldOf v CFG_CENSUS.CID, u.rd CFG_CENLAP.LAP, none, u.censusExpect p g, false, {}, u.ct⟩ →
      Gives (.censusStart v) s ((((u.updSec (fun y => { y with census := some x })).censusRecord x 1).originateTree 2 p).censusClose)) ∧
    (∀ (n : Fin 13) (p : Packet) (t : State), pkClass p = Cls.ctl → pkOpc p = 0x12 → pkMode p = 1 →
      (s.sec.census.any (fun x => x.cid == censusCid p) = true → t = s) →
      (s.sec.census.any (fun x => x.cid == censusCid p) = false →
        ∀ x : CenState, x = ⟨censusCid p, censusLap p, some n.val, s.censusExpect p (pkMgroup p), false, {}, s.ct⟩ →
        (n.val = 12 ∨ s.treeTaken n p = true) ∧ t = s.updSec (fun y => { y with census := some x })) →
      Gives (.censusRx n p) s (t.receive n p true (fun s q => (s.leave q).censusLocal (censusCid p) (censusLap p))).censusClose) ∧
    (∀ (n : Fin 12) (g0 g1 : LcfGroup), lcfType g0.lcf = 4 → lcfType g1.lcf = 4 → s.inService n = true → groupGood g0 = true →
      lcfGseq g0.lcf = (s.port n).gseqRx → groupGood g1 = true → lcfGseq g1.lcf = (lcfGseq g0.lcf + 1) % 4096 →
      Gives (.censusLcfRx n ⟨g0, g1⟩) s (((s.takeGroup n g0 id).takeGroup n g1 id).censusReport n g0.lcf g1.lcf)) ∧
    (∀ x : CenState, s.sec.census = some x → x.arrival = none → x.since + s.rd CFG_CENSUS.TIMEOUT ≤ s.ct →
      Gives .censusTimeout s (((s.updSec (fun y => { y with census := none })).censusRecord x 3).secReport F_SEC_CENSUS)))

/-! ## Telemetry and debug -/

/-- A sample that is due joins the records with the next SEQ; the oldest record is written to a good ring and counts as LOST with a bad one. TEL_CTL
takes PHASE, PEXP and TRACE, the last at D2 and above only, and its EN only with a good ring, a PEXP of 6 to 20 and at D1 and above, setting
CFGERR for a bad ring or PEXP. STANDSTILL_NOW at D2 and above takes a capture. A read of the window is one Rink access where the level allows it and is
answered DENIED where not. An armed capture is taken at its target, and its write-out puts the capture into the Rink and ends in DONE (R415 to
R421). -/
def Obligations.TelemetryResults : Prop :=
  ∀ s : State, Grants s →
    (s.sampleDue = true → Gives .telemetrySample s { s.telPush s.sampleRecord with
      telSeq := (s.telSeq + 1) % 2 ^ 32, telLast := some s.ct }) ∧
    (∀ (r : List Byte) (q : List (List Byte)) (t : State), s.telQueue = r :: q → t = { s with telQueue := q } →
      (t.ringOk = true → Gives .telemetryRecordWrite s (t.ringPut r)) ∧
      (t.ringOk = false → Gives .telemetryRecordWrite s (t.addSat TEL_STATUS.LOST 1))) ∧
    (∀ (v : Word) (t : State), t = ((s.wr TEL_CTL.PHASE (fieldOf v TEL_CTL.PHASE)).wr TEL_CTL.PEXP (fieldOf v TEL_CTL.PEXP)).setBit TEL_CTL.TRACE
        (decide (fieldOf v TEL_CTL.TRACE = 1 ∧ 2 ≤ s.dbg)) →
      (fieldOf v TEL_CTL.EN = 0 → Gives (.telCtlWrite v) s (t.setBit TEL_CTL.EN false)) ∧
      (fieldOf v TEL_CTL.EN = 1 → t.ringOk = false ∨ t.rd TEL_CTL.PEXP < 6 ∨ 20 < t.rd TEL_CTL.PEXP → Gives (.telCtlWrite v) s (t.setBit TEL_STATUS.CFGERR true)) ∧
      (fieldOf v TEL_CTL.EN = 1 → t.ringOk = true → 6 ≤ t.rd TEL_CTL.PEXP → t.rd TEL_CTL.PEXP ≤ 20 → 1 ≤ t.dbg →
        Gives (.telCtlWrite v) s (t.setBit TEL_CTL.EN true))) ∧
    (∀ (v : Word) (t : State), t = s.setBit DBG_SSCTL.ONFAULT (decide (fieldOf v DBG_SSCTL.ONFAULT = 1)) → fieldOf v DBG_SSCTL.ARM = 0 →
      2 ≤ (t.setBit DBG_SSCTL.ARM false).dbg → Gives (.standstillNow v) s ((t.setBit DBG_SSCTL.ARM false).standstill 2)) ∧
    (∀ off : BitVec 24, 0x248000 ≤ off.toNat → off.toNat < 0x250000 → off.toNat % 8 = 0 →
      (s.windowAllowed off.toNat = true → Gives (.readWindowRead off) s
        ((s.windowRead off.toNat).2.emit (.shift "READ_WINDOW" [(s.windowRead off.toNat).1]))) ∧
      (s.windowAllowed off.toNat = false → Gives (.readWindowRead off) s (s.emit (.shift "READ_WINDOW DENIED" [])))) ∧
    (s.bit DBG_SSCTL.ARM = true → 2 ≤ s.dbg → s.rd DBG_SSCT.TARGET ≤ s.ct → Gives .standstillArmed s (s.standstill 0)) ∧
    (s.bit DBG_SSSTAT.WRITING = true → ∀ t : State,
      t = ((s.present 50 (s.rd DBG_SSBUF.BASE) s.capture.length).setRink (s.rd DBG_SSBUF.BASE) s.capture).repeatEvent 4
        ((s.capture.length + 511) / 512) →
      Gives .standstillWriteDone s { (t.setBit DBG_SSSTAT.WRITING false).setBit DBG_SSSTAT.DONE true with capture := [] })

/-- DBG_RESUME and DBG_STEP at D3 let a stream in BRK run on, and DBG_STEP for one instruction. FREEZE_ASSERT where scan is allowed takes a capture and
stops issue and grants; FREEZE_MEM_STOP puts each controller in RUN into self-refresh, every channel of it, and FREEZE_CLOCK_STOP stops the clocks.
The TAP gives IDCODE and BYPASS always; SAMPLE_PRELOAD and EXTEST act where scan is allowed and select BYPASS elsewhere; SCAN_DUMP and RO_START
act while frozen, and CSPACE while frozen or at D3, each where scan is allowed, and select BYPASS elsewhere; a CSPACE access to a place with no
register goes its way as a hole; TAP_RESET selects IDCODE (R392, R422 to R425, R465, R472). -/
def Obligations.DebugResults : Prop :=
  ∀ s : State,
    (∀ (v : Word) (t : State), Up s → t = s.wr DBG_STREAM.NUM (fieldOf v DBG_STREAM.NUM) → fieldOf v DBG_STREAM.NUM < 50 → 3 ≤ t.dbg →
      t.engState (fieldOf v DBG_STREAM.NUM) = EngSt.brk →
      Gives (.dbgResume v) s (t.setEngState (fieldOf v DBG_STREAM.NUM) EngSt.run) ∧
      Gives (.dbgStep v) s ((t.updStream (fieldOf v DBG_STREAM.NUM) (fun x => { x with stepOne := true })).setEngState
        (fieldOf v DBG_STREAM.NUM) EngSt.run)) ∧
    (s.mayScan = true → s.frozen = false → ∀ (u : State), u = (s.setBit CSV_STATUS.FRZSEEN true).trouble 24 →
      Gives .freezeAssert s { u.free.2 with frozen := true, shadow := u.free.2.ssCapture u.free.1 }) ∧
    (s.mayScan = false → Gives .freezeAssert s s) ∧
    (s.frozen = true → Gives .freezeMemStop s ((List.range 12).foldl (fun (s : State) m =>
      if s.rd (MEM_STATUS.STATE m) = MemSt.run then (List.range 16).foldl (fun (s : State) k => s.emit (.mem m k 0 "SRE"))
        (s.wr (MEM_STATUS.STATE m) MemSt.selfref) else s) s)) ∧
    (s.frozen = true → Gives .freezeClockStop s { s with stopped := true }) ∧
    (s.frozen = true → s.mayScan = true → Gives .scanDump s ((s.tapIr 0x21).emit (.shift "TDO" (leWords (s.readOut 0xFF)))) ∧
      (∀ mask : BitVec 16, Gives (.roStart mask) s ((s.tapIr 0x22).emit (.shift "DBG_RO" (leWords (s.readOut mask.toNat)))))) ∧
    (s.frozen = false → Gives .scanDump s s.tapBypass ∧ ∀ mask : BitVec 16, Gives (.roStart mask) s s.tapBypass) ∧
    Gives .idcode s ((s.tapIr 0x01).emit (.shift "TDO" [0x19416D6B])) ∧ Gives .bypass s (s.tapIr 0xFF) ∧
    (s.mayScan = false → Gives .samplePreload s s.tapBypass ∧ ∀ pins : Word, Gives (.extest pins) s s.tapBypass) ∧
    (s.mayScan = true →
      Gives .samplePreload s (((s.free.2.tapIr 0x02).updPower (fun p => { p with cells := BitVec.ofNat 64 s.free.1 })).emit
        (.shift "TDO" [BitVec.ofNat 64 s.free.1])) ∧
      ∀ pins : Word, Gives (.extest pins) s (((s.tapIr 0x03).updPower (fun p => { p with cells := pins })).emit (.shift "PINS" [pins]))) ∧
    Gives .tapReset s ((s.tapIr 0x01).updPower (fun p => { p with shiftData := 0, cells := 0 })) ∧
    (∀ (off : BitVec 24) (v : Word), s.frozen = true ∨ s.dbg = 3 → s.mayScan = true → findRow off.toNat = none →
      Gives (.cspace true off v) s ((s.tapIr 0x20).csWrite .jtag true off.toNat v) ∧
      ∀ (r : Word × State), r = (s.tapIr 0x20).csRead .jtag off.toNat →
        Gives (.cspace false off v) s ((r.2.updPower (fun p => { p with shiftData := r.1 })).emit (.shift "TDO" [r.1]))) ∧
    (∀ (write : Bool) (off : BitVec 24) (v : Word), s.mayScan = false ∨ (s.frozen = false ∧ s.dbg ≠ 3) →
      Gives (.cspace write off v) s s.tapBypass)

/-! ## Power, clocks, resets and I3C -/

namespace Sys2Proof.Claims

/-- The Rink bytes, the buffers and the counters that the retention part held are back in their places (R444, R445). -/
def broughtBack (s : State) (r : Retention) : State :=
  r.counts.foldl (fun s e => s.setReg e.1 e.2) (r.bufs.foldl (fun s e => s.restoreBuf e.1 e.2) (r.cells.foldl (fun s x => s.setRink x.1 [x.2]) s))

end Sys2Proof.Claims

/-- A supply reading inside its band ends its excursion and one outside sets ALARM and LIMIT and reports F_PWR_SUPPLY once; a 10 ms average
above 1,500 W sets LIMIT and reports F_PWR_POWER, and a 1 s average above 1,350 W reports it. A temperature sample below 80 degrees records
the hottest junction and its maximum, and one from there on sets ALARM and LIMIT and reports F_PWR_THERM once, and trips at 92. A supply
that comes in before its predecessor is kept as an error of the sequence (R429, R431, R436, R437). The loss of the active clock reference
counts a switch, takes the other one where it runs and reports F_PWR_REFCLK; the loss of both is a device fault F_PWR_CLKLOSS and raises the
BMC's interrupt; a returned reference shows. A lost SerDes reference clears its bit, fails every fabric port of its die that is not down,
failed or discarded, and trains its host port again with F_HOST_LINK (R447, R448). -/
def Obligations.SupplyAndClockResults : Prop :=
  (∀ s : State,
    (∀ (n : Fin 9) (mv : BitVec 16) (t : State), s.supplyUsed n = true → t = s.supplyReading n mv.toNat →
      ((s.band n).1 ≤ 1000 * mv.toNat → 1000 * mv.toNat ≤ (s.band n).2 →
        Gives (.supplyExcursion n mv) s (t.updPower (fun p => { p with outside := p.outside.filter (fun i => i != n.val) }))) ∧
      (∀ u : State, 1000 * mv.toNat < (s.band n).1 ∨ (s.band n).2 < 1000 * mv.toNat → u = (t.setBit (PWR_SUP.ALARM n) true).setLimit →
        u.power.outside.contains n.val = false →
        Gives (.supplyExcursion n mv) s ((u.updPower (fun p => { p with outside := n.val :: p.outside })).pwrReport F_PWR_SUPPLY n))) ∧
    (∀ (w : BitVec 16) (t : State), t = s.wr PWR_METER.PEAK10MS (max (s.rd PWR_METER.PEAK10MS) w.toNat) →
      (1500 < w.toNat → Gives (.powerAverage10ms w) s (t.setLimit.pwrReport F_PWR_POWER 0)) ∧
      (w.toNat ≤ 1500 → Gives (.powerAverage10ms w) s t)) ∧
    (∀ (w : BitVec 16) (t : State), t = s.wr PWR_METER.AVG1S w.toNat →
      (1350 < w.toNat → Gives (.powerAverage1s w) s (t.pwrReport F_PWR_POWER 0)) ∧ (w.toNat ≤ 1350 → Gives (.powerAverage1s w) s t)) ∧
    (∀ (temps : List (BitVec 16)) (i : Nat) (h m : BitVec 16) (t u : State), hottest temps 0 = some (i, h) →
      m = BitVec.ofNat 16 (s.rd PWR_THERM.TJ_MAX) → t = ((s.wr PWR_THERM.HOT i).wr PWR_THERM.TJ_NOW h.toNat).wr PWR_THERM.TJ_MAX
        (if m = 0 ∨ celsius8 m < celsius8 h then h else m).toNat →
      (celsius8 h < 800 → celsius8 h < 920 → Gives (.thermalSample temps) s (t.updPower (fun p => { p with hot := [] }))) ∧
      (800 ≤ celsius8 h → (t.setBit PWR_THERM.ALARM true).setLimit.power.hot = [] →
        u = (((t.setBit PWR_THERM.ALARM true).setLimit.updPower (fun p => { p with hot := [i] })).pwrReport F_PWR_THERM i) →
        (celsius8 h < 920 → Gives (.thermalSample temps) s u) ∧ (920 ≤ celsius8 h → Gives (.thermalSample temps) s u.thermalTrip))) ∧
    (∀ n : Fin 9, ∃ t : State, Gives (.supplyInBand n) s t ∧ t.supplyIn n = true ∧
      (n.val ≠ 0 → s.supplyIn (n.val - 1) = false → t.power.seqBad = true))) ∧
  (∀ s : State,
    (∀ (a : Nat) (t : State), a = s.rd CLK_STATUS.ACTIVE → t = (s.setBit (refFld a) false).addSat CLK_STATUS.SWITCHES 1 →
      (t.bit (refFld (1 - a)) = true → Gives .refclkLoss s ((t.wr CLK_STATUS.ACTIVE (1 - a)).pwrReport F_PWR_REFCLK a)) ∧
      (t.bit (refFld (1 - a)) = false → Gives .refclkLoss s (t.pwrReport F_PWR_REFCLK a))) ∧
    Gives .refclkBothLost s (((s.setBit CLK_STATUS.REF0 false).setBit CLK_STATUS.REF1 false).deviceFault F_PWR_CLKLOSS).interrupt ∧
    (∀ a : Nat, a = s.rd CLK_STATUS.ACTIVE →
      (s.bit (refFld (1 - a)) = false → Gives .refclkReturn s (s.setBit (refFld (1 - a)) true)) ∧
      (s.bit (refFld (1 - a)) = true → Gives .refclkReturn s (s.setBit (refFld a) true))) ∧
    (∀ (die : Fin 2) (t u : State), t = s.setBit (if die.val = 0 then CLK_STATUS.SREF_N else CLK_STATUS.SREF_S) false →
      u = ((List.range 6).map (fun d => d + 6 * die.val)).foldl (fun s n =>
        if s.portState n = PortSt.down ∨ s.portState n = PortSt.failed ∨ s.portState n = PortSt.discarded then s
        else s.portFail n F_FAB_LANE) t →
      (u.hostState die = HpSt.down ∨ u.hostState die = HpSt.discarded → Gives (.srefclkLoss die) s u) ∧
      (u.hostState die ≠ HpSt.down → u.hostState die ≠ HpSt.discarded → Gives (.srefclkLoss die) s
        (((u.wr (HP_STATUS.LAST_CODE die) F_HOST_LINK).setHostState die HpSt.train).report F_HOST_LINK 2 die))))

/-- A cold reset puts the block into its cold state with the memory packages reset and THERMTRIP_N released; a warm reset puts it into its
warm state, unless a cold start is held or the power unit holds it; RESET_RELEASE runs the start where a reset is held. BOOT_SLOT_VERIFIED
boots a slot that verifies; a failed preferred slot records its code and the other slot is tried, and a second failure fails the boot (R383,
R384, R430, R450 to R453). A cold reset returns every register to its reset value and empties the Rink, the stores, the gate SRAM and the
Reduction Store, while the fuses stay (R450, R475). -/
def Obligations.ResetResults : Prop :=
  (∀ s : State,
    Gives .coldReset s ((s.coldState 1).packagesReset.emit (.pin "THERMTRIP_N" true)) ∧
    (s.stopped = false ∨ s.power.held = false ∨ 1 < s.power.cause → s.pwrState ≠ PwrSt.hold → Gives .warmReset s (s.warmState 2)) ∧
    (s.power.held = true → Gives .resetRelease s s.startUp) ∧ (s.power.held = false → Gives .resetRelease s s) ∧
    (s.sec.verdict = 0 → Up s → s.power.held = false →
      (s.verifySlot s.sec.tried = none → Gives .bootSlotVerified s (s.bootPass s.sec.tried)) ∧
      (∀ (code : Nat) (t : State), s.verifySlot s.sec.tried = some code →
        t = ((((s.readSlot s.sec.tried).trouble 22).wr (slotOkFld s.sec.tried) 0).wr SEC_BOOT.CODE code).secReport code →
        (s.sec.tried = t.sec.preferred → Gives .bootSlotVerified s (t.copyImage (1 - s.sec.tried))) ∧
        (s.sec.tried ≠ t.sec.preferred → Gives .bootSlotVerified s t.bootFail)))) ∧
  (∀ s : State, ∃ t : State, Gives .coldReset s t ∧ t.rink = [] ∧ t.store = [] ∧ t.gsram = [] ∧ t.rstore = [] ∧ t.streams = [] ∧ t.ctxs = [] ∧
    t.reg DBG_SSCTL.ARM.off = resetWord DBG_SSCTL.ARM.off ∧ t.sec.fuseSerial = s.sec.fuseSerial ∧ t.sec.fuseSvn = s.sec.fuseSvn ∧
    t.sec.rootHashes = s.sec.rootHashes)

/-- P0, P1, P2 and WARM from the BMC or the management port wait for the lap edge in P0 and P1 with the path that they came on. In P2 the
BMC's P0 starts the exit at once where the supplies are in band; any other, and any of them on another path, raises F_PWR_CMD. PWR_DOM is a
request that the lap edge takes; DOMAIN_SWITCH makes the oldest switch that waits. P2_ENTRY_DONE ends the entry into P2 from its
preparation, unless the temperature tripped: the retention part is written, every port is down, every controller in self-refresh, every
domain and the Lap Unit off and the clocks stopped. A restore of the retention part ends once the Locker is locked with the same pools, and
other pools raise F_CTX_RETAIN (R337, R439 to R445). With VDD_AON and VDD_IO18 up, the BMC writes the registers that are its to write,
unless the boot failed, and reads those that it may, any other as 0; SETDASA gives the target its address, and ENTDAA where it has none
(R384, R434). -/
def Obligations.PowerCommandResults : Prop :=
  (∀ s : State,
    (∀ (path : Path) (cmd : Nat) (i : Instr), (i = .p0 path ∧ cmd = 1) ∨ (i = .p1 path ∧ cmd = 2) ∨ (i = .p2 path ∧ cmd = 3) ∨
        (i = .warm path ∧ cmd = 4) →
      (path = .sequencer ∨ path = .jtag → Gives i s (s.pwrReport F_PWR_CMD cmd)) ∧
      (path = .i3c ∨ path = .management → s.pwrState = PwrSt.p0 ∨ s.pwrState = PwrSt.p1 →
        Gives i s (s.updPower (fun p => { p with commands := p.commands ++ [(cmd, true, path == .i3c)] }))) ∧
      (path = .i3c ∨ path = .management → s.pwrState ≠ PwrSt.p0 → s.pwrState ≠ PwrSt.p1 →
        (s.pwrState = PwrSt.p2 → cmd = 1 → path = .i3c → s.exitSupplies = true → Gives i s s.exitState) ∧
        (s.pwrState ≠ PwrSt.p2 ∨ cmd ≠ 1 ∨ path ≠ .i3c ∨ s.exitSupplies = false → Gives i s (s.pwrReport F_PWR_CMD cmd)))) ∧
    (∀ (i : Fin 2) (v : Word), Gives (.pwrDomWrite i v) s (s.updPower (fun p => { p with domains := p.domains ++ [(i.val, v)] }))) ∧
    (∀ (d : Nat) (l : List (Nat × Bool)) (t : State), t = s.updPower (fun p => { p with switches := l, usable := p.usable.filter (fun e => e.1 != d) }) →
      (s.power.switches = (d, true) :: l → Gives .domainSwitch s
        ((t.setDomain d true).updPower (fun p => { p with usable := (d, t.clk + domainSettle) :: p.usable }))) ∧
      (s.power.switches = (d, false) :: l → Gives .domainSwitch s ((t.loseDomain d).setDomain d false))) ∧
    (s.pwrState = PwrSt.p2prep → s.power.tripped = false → ∀ u v w x : State,
      u = (List.range 12).foldl (fun s n => s.portDown n) s.writeRetention →
      v = [0, 1].foldl (fun s n => (s.setBit (HP_CTL.EN n) false).setHostState n HpSt.down) u →
      w = (List.range 12).foldl (fun s m => s.enterSelfRefresh m) v.finishRequests →
      x = ((((w.setReg PWR_DSTAT0.DOM.off 0).setReg PWR_DSTAT1.DOM.off 0).setBit PWR_STATUS.READY false).wr LAP_STATUS.STATE
        LapSt.stopped).setPwrState PwrSt.p2 →
      Gives .p2EntryDone s { x.updPower (fun p => { p with
        inBand := p.inBand.filter (fun e => e.1 ≤ 1 || 7 ≤ e.1), switches := [], usable := [] }) with stopped := true }) ∧
    (s.pwrState ≠ PwrSt.p2prep ∨ s.power.tripped = true → Gives .p2EntryDone s s) ∧
    (∀ r : Retention, Grants s → (s.ctx 0).retained = some r → (s.ctx 0).needRetain = true → s.bit LKR_CTL.LOCK = true →
      (r.pools ≠ s.poolRegs → Gives .retentionRestoreDone s (s.contextFault 0 F_CTX_RETAIN)) ∧
      (r.pools = s.poolRegs → Gives .retentionRestoreDone s ((broughtBack s r).updCtx 0 (fun x =>
        { x with retained := none, needRetain := false }))))) ∧
  (∀ s : State, s.i3cUp = true →
    (∀ (off : BitVec 24) (v : Word), bmcWrites off.toNat = true → s.rd SEC_BOOT.STATE ≠ 2 → Gives (.i3cPrivateWrite off v) s (s.csWrite .i3c true off.toNat v)) ∧
    (∀ (off : BitVec 24) (v : Word), bmcWrites off.toNat = false ∨ s.rd SEC_BOOT.STATE = 2 → Gives (.i3cPrivateWrite off v) s s) ∧
    (∀ off : BitVec 24, s.bmcReads off.toNat = true → ∀ r : Word × State, r = s.csRead .i3c off.toNat →
      Gives (.i3cPrivateRead off) s (r.2.emit (.shift "I3C" [r.1]))) ∧
    (∀ off : BitVec 24, s.bmcReads off.toNat = false → Gives (.i3cPrivateRead off) s (s.emit (.shift "I3C" [0]))) ∧
    (∀ addr : BitVec 7, Gives (.setdasa addr) s (s.updPower (fun p => { p with i3cAddr := some addr.toNat }))) ∧
    (∀ addr : BitVec 7, s.power.i3cAddr = none → Gives (.entdaa addr) s (s.updPower (fun p => { p with i3cAddr := some addr.toNat }))) ∧
    (∀ (addr : BitVec 7) (a : Nat), s.power.i3cAddr = some a → Gives (.entdaa addr) s s))

/-! ## The whole machine -/

/-- Every step keeps every register table and every memory in its one canonical form (the form is the model's own choice, log entry 2). -/
def Obligations.StepKeepsCanonicalForm : Prop := ∀ s t : State, s.Ok → step s = .next t → t.Ok

namespace Sys2Proof.Claims

/-- R475's registers that are not 0 after cold reset: offset and value. SEC_NONCE and SEC_SERIAL, for which it gives no number, are not
among them. -/
def resetRows : List (Nat × Word) := [
  (0x000000, 0x0000000159119416), (0x010008, 0x0BB84E2008140300), (0x010040, 0x000FFF0000000000), (0x010048, 0x000FFF0000000000),
  (0x030000, 0x00000000000001F8), (0x030208, 0x0000000000000800), (0x0313F0, 0x8000000000000000), (0x038000, 0x0001000000000000),
  (0x038008, 0x0001000000000000), (0x040000, 0x0000000000000002), (0x0402D8, 0x0000000000000005), (0x0402E0, 0x0000000000000005),
  (0x0402E8, 0x0000000000000005), (0x0402F0, 0x0000000000000005), (0x0402F8, 0x0000000000000005), (0x050000, 0x0000000000000008),
  (0x140000, 0x0000000000400800), (0x148008, 0x8000000000000000), (0x168000, 0x0000002000000000), (0x168008, 0x0000002000000000),
  (0x210000, 0x0000000000000002), (0x210100, 0x0000000000000002), (0x210400, 0xCA1200641003E800), (0x220118, 0x0000000040000000),
  (0x230010, 0xFFFFFFFFFFFFFFFF), (0x230018, 0x00000000000003FF), (0x230020, 0xFFFFFFFFFFFFFFFF), (0x230028, 0x00000000000003FF),
  (0x240000, 0x0000000000000E00)] ++ (List.range 12).map (fun m => (0x1C0000 + 0x4000 * m, 0x4000006401000006))

/-- SEC_SERIAL and SEC_NONCE. -/
def ownValue (off : Nat) : Bool := 0x220020 ≤ off && off ≤ 0x220040

end Sys2Proof.Claims

/-- The reset state has the canonical form, an empty queue, empty memories and every stream's registers 0 with p0 all ones; each register of
R475's table holds its value there and every other register 0 (SEC_SERIAL and SEC_NONCE apart) (R475). -/
def Obligations.ResetState : Prop :=
  State.reset.Ok ∧ State.reset.pending = [] ∧ State.reset.rink = [] ∧ State.reset.lpddr = [] ∧ State.reset.store = [] ∧
    State.reset.gsram = [] ∧ (∀ r ∈ resetRows, State.reset.reg r.1 = r.2) ∧
    (∀ off, (∀ r ∈ resetRows, off ≠ r.1) → ownValue off = false → State.reset.reg off = 0) ∧
    (∀ k : Fin 50, ∀ r : Fin 32, State.reset.sreg k r = 0 ∧ State.reset.preg k 0 = BitVec.allOnes 512)

/-- ST writes the low bytes of its register at the address it computes, those that a running GMM also uses being undefined, and the pc goes
on; a store to LPDDR takes a place in its channel's queue unless its page holds it back, and one to another chip's memory is sent.
STORE_COMPLETE ends a store that its controller can serve and that no page holds back (R68, R70, R78, R119, R211, R348). A write of a stream
to its cluster store, the Rink or its gate SRAM puts the bytes at the address and leaves every other byte of every memory, and every
register of the streams, as before (R59, R68). Bytes written to the Rink, and to channels of LPDDR that have not failed, read back, and
every other byte, those of a failed channel among them, reads as before (R177, R208, R221). -/
def Obligations.StoreResults : Prop :=
  ((∀ (k : Fin 50) (b : BitVec 52) (s : State) (sp off n id : Nat), Runs s k b → bitsOf b.toNat 36 36 = 0 → Settled s k [fd b.toNat] →
    OpsFree s k → sp = spaceOf (msAddr s k b).toNat → n = msBytes b.toNat → id = (s.stream k).nextOp →
    effOff (msAddr s k b) (sfield b.toNat 35 0) = some off →
    (sp ≠ 3 → s.accessFault k (s.ctxOf k) sp off n n true = none →
      ∀ (r : List Byte × State) (t u : State),
      r = s.besideWrite k (sp * 2 ^ 60 + off) (fun _ => true) (leBytes n ((s.sreg k (fd b.toNat)).toNat % 2 ^ (8 * n))) →
      t = (r.2.beginOp k (.st n) sp off).streamWrite (r.2.ctxOf k) k id sp off r.1 →
      u = (if t.writeHeld k id then t.unplace k id else t).sendOn k →
      (s.gmu k = [] → r = (leBytes n ((s.sreg k (fd b.toNat)).toNat % 2 ^ (8 * n)), s)) ∧
      (sp ≠ 2 → Gives (.st k b) s u) ∧
      (sp = 2 → LpddrReady s off n → Gives (.st k b) s ((u.overflow (channelOf off)).chEntered (channelOf off)))) ∧
    (sp = 3 → s.remoteFault (s.ctxOf k) off n 1 false = none → ∀ o : RemoteOp,
      o = { opc := 1 + 16 * bitsOf b.toNat 38 37, val := (s.sreg k (fd b.toNat)).toNat % 2 ^ (8 * n) } → RemoteFree s k off o →
      Gives (.st k b) s (remoteSent s k off o))) ∧
  (∀ (k : Fin 50) (op : Nat) (s : State) (o : MemOp), Grants s → s.findOp k op = some o →
    ((∃ n, o.kind = .st n) ∨ ∃ on, o.kind = .vst on) → s.memReady o = true → s.writeHeld k op = false →
    Gives (.storeComplete k op) s ((s.served o).endOp k op))) ∧
  (∀ (s : State) (c k op sp a : Nat) (l : List Byte), sp ≠ 2 →
    (s.streamWrite c k op sp a l).spaceBytes k sp a l.length = l ∧
    (∀ x, x < a ∨ a + l.length ≤ x → byteAt (s.streamWrite c k op sp a l) k sp x = byteAt s k sp x) ∧
    (sp ≠ 0 → (s.streamWrite c k op sp a l).store = s.store) ∧ (sp ≠ 1 → (s.streamWrite c k op sp a l).rink = s.rink) ∧
    (sp = 0 ∨ sp = 1 → (s.streamWrite c k op sp a l).gsram = s.gsram) ∧ (s.streamWrite c k op sp a l).lpddr = s.lpddr ∧
    (∀ j r, (s.streamWrite c k op sp a l).sreg j r = s.sreg j r ∧ (s.streamWrite c k op sp a l).areg j r = s.areg j r)) ∧
  (∀ (s : State) (a : Nat) (l : List Byte),
    (s.setRink a l).rinkBytes a l.length = l ∧ (∀ x, x < a ∨ a + l.length ≤ x → (s.setRink a l).rinkBytes x 1 = s.rinkBytes x 1) ∧
    ((∀ i, i < l.length → s.channelFailed (a + i) = false) → (s.setMem a l).memBytes a l.length = l) ∧
    (∀ x, x < a ∨ a + l.length ≤ x ∨ s.channelFailed x = true → (s.setMem a l).memBytes x 1 = s.memBytes x 1) ∧
    (s.setRink a l).lpddr = s.lpddr ∧ (s.setMem a l).rink = s.rink ∧ (s.setRink a l).regs = s.regs ∧ (s.setMem a l).regs = s.regs)

namespace Sys2Proof.Claims

/-- The commands that act without the clocks outside the always-on domain: the test access port, I3C, supplies, power, clocks and resets. -/
def actsWithoutClocks : Instr → Bool
  | .cspace _ _ _ | .i3cPrivateWrite _ _ | .i3cPrivateRead _ | .setdasa _ | .entdaa _ | .freezeAssert | .freezeMemStop |
  .freezeClockStop | .scanDump | .roStart _ | .idcode | .bypass | .samplePreload | .extest _ | .tapReset | .supplyExcursion _ _ |
  .supplyInBand _ | .powerAverage10ms _ | .powerAverage1s _ | .thermalSample _ | .pwrDomWrite _ _ | .domainSwitch | .coldReset |
  .warmReset | .p2EntryDone | .p0 _ | .p1 _ | .p2 _ | .warm _ | .refclkLoss | .refclkBothLost | .refclkReturn | .srefclkLoss _ |
  .resetRelease => true
  | _ => false

end Sys2Proof.Claims

/-- Every command answers a next state in every state (the model has no stop). While the clocks outside the always-on domain are stopped, every command
but those of the always-on domain leaves the state as it is; of the register writes only those over I3C and JTAG act (R423, R440). -/
def Obligations.StoppedClocksHold : Prop :=
  (∀ (i : Instr) (s : State), ∃ t : State, Gives i s t) ∧
  ∀ s : State, s.stopped = true →
    (∀ i : Instr, actsWithoutClocks i = false → (∀ (path : Path) (off : BitVec 24) (v : Word), i ≠ .regWrite path off v) → Gives i s s) ∧
    (∀ (path : Path) (off : BitVec 24) (v : Word), path ≠ .i3c → path ≠ .jtag → Gives (.regWrite path off v) s s)
end

