-- ==== Sys2Proof/Laws/Tbl.lean ====
section
/-!
SUPPORT. Sparse tables: what a read after a write gives, and that every write keeps the canonical form.
-/

namespace Sys2Proof.Machine

variable {α : Type}

theorem tget_filter_ne (d : Nat → α) (t : List (Nat × α)) (k j : Nat) (h : j ≠ k) : tget d (tdel k t) j = tget d t j := by
  induction t with
  | nil => rfl
  | cons e t ih =>
    unfold tdel at *
    by_cases he : e.1 = k
    · rw [List.filter_cons_of_neg (by simp [he]), ih]
      simp only [tget]; rw [if_neg (by omega)]
    · rw [List.filter_cons_of_pos (by simp [he])]
      simp only [tget, ih]

theorem tget_tdel_same (d : Nat → α) (t : List (Nat × α)) (k : Nat) : tget d (tdel k t) k = d k := by
  induction t with
  | nil => rfl
  | cons e t ih =>
    unfold tdel at *
    by_cases he : e.1 = k
    · rw [List.filter_cons_of_neg (by simp [he]), ih]
    · rw [List.filter_cons_of_pos (by simp [he])]
      simp only [tget, ih, if_neg he]

theorem tget_tput_same (d : Nat → α) (t : List (Nat × α)) (k : Nat) (v : α) (h : ∀ e ∈ t, e.1 ≠ k) : tget d (tput k v t) k = v := by
  induction t with
  | nil => simp [tput, tget]
  | cons e t ih =>
    simp only [tput]
    split
    · simp [tget]
    · simp only [tget, if_neg (h e (by simp))]; exact ih (fun x hx => h x (by simp [hx]))

theorem tget_tput_ne (d : Nat → α) (t : List (Nat × α)) (k j : Nat) (v : α) (h : j ≠ k) : tget d (tput k v t) j = tget d t j := by
  induction t with
  | nil => simp only [tput, tget]; rw [if_neg (by omega)]
  | cons e t ih =>
    simp only [tput]
    split
    · simp only [tget]; rw [if_neg (by omega)]
    · simp only [tget, ih]

/-- Reading several keys is reading each. -/
theorem tgetMany_eq (d : Nat → α) (t : List (Nat × α)) (k n : Nat) : tgetMany d t k n = (List.range n).map (fun i => tget d t (k + i)) := by
  induction n generalizing k with
  | zero => rfl
  | succ n ih =>
    rw [List.range_succ_eq_map]
    simp only [tgetMany, ih, List.map_cons, List.map_map, Nat.add_zero]
    congr 1
    apply List.map_congr_left
    intro i _
    simp only [Function.comp]; congr 1; omega

variable [DecidableEq α]

/-- A read after a write gives the value written at its key and leaves every other key as it was. -/
theorem tget_tset (d : Nat → α) (t : List (Nat × α)) (k j : Nat) (v : α) :
    tget d (tset d t k v) j = if j = k then v else tget d t j := by
  unfold tset
  by_cases hj : j = k
  · subst hj
    rw [if_pos rfl]
    split
    · rename_i hv; rw [tget_tdel_same, hv]
    · exact tget_tput_same d _ j v (by simp [tdel])
  · rw [if_neg hj]
    split
    · exact tget_filter_ne d t k j hj
    · rw [tget_tput_ne d _ k j v hj, tget_filter_ne d t k j hj]

@[simp] theorem tget_tset_same (d : Nat → α) (t : List (Nat × α)) (k : Nat) (v : α) : tget d (tset d t k v) k = v := by
  rw [tget_tset, if_pos rfl]

theorem tget_tset_ne (d : Nat → α) (t : List (Nat × α)) (k j : Nat) (v : α) (h : j ≠ k) : tget d (tset d t k v) j = tget d t j := by
  rw [tget_tset, if_neg h]

/-- A read after several writes. -/
theorem tget_tsetMany (d : Nat → α) (l : List α) (t : List (Nat × α)) (k j : Nat) :
    tget d (tsetMany d t k l) j = if k ≤ j ∧ j < k + l.length then (l[j - k]?).getD (d j) else tget d t j := by
  induction l generalizing t k with
  | nil => simp only [tsetMany, List.length_nil]; rw [if_neg (by omega)]
  | cons v l ih =>
    simp only [tsetMany, ih, List.length_cons]
    by_cases h1 : k + 1 ≤ j ∧ j < k + 1 + l.length
    · rw [if_pos h1, if_pos (by omega)]
      have : j - k = (j - (k + 1)) + 1 := by omega
      rw [this, List.getElem?_cons_succ]
    · rw [if_neg h1, tget_tset]
      by_cases h2 : j = k
      · subst h2; rw [if_pos rfl, if_pos (by omega)]; simp
      · rw [if_neg h2, if_neg (by omega)]

/-- The bytes written are the bytes read. -/
theorem tgetMany_tsetMany_same (d : Nat → α) (t : List (Nat × α)) (k : Nat) (l : List α) : tgetMany d (tsetMany d t k l) k l.length = l := by
  rw [tgetMany_eq]
  apply List.ext_getElem
  · simp
  · intro i h1 h2
    simp only [List.getElem_map, List.getElem_range, tget_tsetMany]
    rw [if_pos (by omega)]
    have : k + i - k = i := by omega
    rw [this, List.getElem?_eq_getElem h2]; rfl

/-! The canonical form. -/

theorem twfFrom_mono (d : Nat → α) (t : List (Nat × α)) (lo lo' : Nat) (h : lo' ≤ lo) (hw : twfFrom d lo t = true) : twfFrom d lo' t = true := by
  cases t with
  | nil => rfl
  | cons e t =>
    simp only [twfFrom, Bool.and_eq_true, decide_eq_true_eq] at *
    exact ⟨⟨by omega, hw.1.2⟩, hw.2⟩

theorem twfFrom_filter (d : Nat → α) (p : Nat × α → Bool) (t : List (Nat × α)) (lo : Nat) (hw : twfFrom d lo t = true) :
    twfFrom d lo (t.filter p) = true := by
  induction t generalizing lo with
  | nil => rfl
  | cons e t ih =>
    simp only [twfFrom, Bool.and_eq_true, decide_eq_true_eq] at hw
    by_cases hp : p e = true
    · rw [List.filter_cons_of_pos hp]
      simp only [twfFrom, Bool.and_eq_true, decide_eq_true_eq]
      exact ⟨hw.1, ih _ hw.2⟩
    · rw [List.filter_cons_of_neg hp]
      exact twfFrom_mono d _ (e.1 + 1) lo (by omega) (ih _ hw.2)

theorem twfFrom_tput (d : Nat → α) (k : Nat) (v : α) (t : List (Nat × α)) (lo : Nat) (hk : lo ≤ k) (hv : v ≠ d k)
    (hn : ∀ e ∈ t, e.1 ≠ k) (hw : twfFrom d lo t = true) : twfFrom d lo (tput k v t) = true := by
  induction t generalizing lo with
  | nil => simp only [tput, twfFrom, Bool.and_true, Bool.and_eq_true, decide_eq_true_eq]; exact ⟨hk, hv⟩
  | cons e t ih =>
    have hne := hn e (by simp)
    simp only [twfFrom, Bool.and_eq_true, decide_eq_true_eq] at hw
    simp only [tput]
    split
    · simp only [twfFrom, Bool.and_eq_true, decide_eq_true_eq]
      exact ⟨⟨hk, hv⟩, ⟨by omega, hw.1.2⟩, hw.2⟩
    · simp only [twfFrom, Bool.and_eq_true, decide_eq_true_eq]
      exact ⟨hw.1, ih _ (by omega) (fun x hx => hn x (by simp [hx])) hw.2⟩

theorem twf_filter (d : Nat → α) (p : Nat × α → Bool) (t : List (Nat × α)) (hw : twf d t = true) : twf d (t.filter p) = true :=
  twfFrom_filter d p t 0 hw

theorem twf_tset (d : Nat → α) (t : List (Nat × α)) (k : Nat) (v : α) (hw : twf d t = true) : twf d (tset d t k v) = true := by
  unfold tset
  split
  · exact twf_filter d _ t hw
  · rename_i hv
    exact twfFrom_tput d k v _ 0 (by omega) hv (by simp [tdel]) (twf_filter d _ t hw)

theorem twf_tsetMany (d : Nat → α) (l : List α) (t : List (Nat × α)) (k : Nat) (hw : twf d t = true) : twf d (tsetMany d t k l) = true := by
  induction l generalizing t k with
  | nil => exact hw
  | cons v l ih => exact ih _ _ (twf_tset d t k v hw)

theorem twf_tclear (d : Nat → α) (lo hi : Nat) (t : List (Nat × α)) (hw : twf d t = true) : twf d (tclear lo hi t) = true :=
  twf_filter d _ t hw

theorem twf_nil (d : Nat → α) : twf d ([] : List (Nat × α)) = true := rfl

end Sys2Proof.Machine
end

