-- ==== Sys2Proof/Laws/State.lean ====
section
/-!
SUPPORT. Updates of the state: each leaves every other part as it was, and a read after it gives what was written.
-/

namespace Sys2Proof.Machine

/-! `setReg` changes `regs` only. -/

@[simp] theorem State.setReg_rink (s : State) (o : Nat) (w : Word) : (s.setReg o w).rink = s.rink := (rfl)
@[simp] theorem State.setReg_lpddr (s : State) (o : Nat) (w : Word) : (s.setReg o w).lpddr = s.lpddr := (rfl)
@[simp] theorem State.setReg_flips (s : State) (o : Nat) (w : Word) : (s.setReg o w).flips = s.flips := (rfl)
@[simp] theorem State.setReg_rinkErr (s : State) (o : Nat) (w : Word) : (s.setReg o w).rinkErr = s.rinkErr := (rfl)
@[simp] theorem State.setReg_rinkQ (s : State) (o : Nat) (w : Word) : (s.setReg o w).rinkQ = s.rinkQ := (rfl)
@[simp] theorem State.setReg_store (s : State) (o : Nat) (w : Word) : (s.setReg o w).store = s.store := (rfl)
@[simp] theorem State.setReg_gsram (s : State) (o : Nat) (w : Word) : (s.setReg o w).gsram = s.gsram := (rfl)
@[simp] theorem State.setReg_rstore (s : State) (o : Nat) (w : Word) : (s.setReg o w).rstore = s.rstore := (rfl)
@[simp] theorem State.setReg_guard (s : State) (o : Nat) (w : Word) : (s.setReg o w).guard = s.guard := (rfl)
@[simp] theorem State.setReg_tmpl (s : State) (o : Nat) (w : Word) : (s.setReg o w).tmpl = s.tmpl := (rfl)
@[simp] theorem State.setReg_lap (s : State) (o : Nat) (w : Word) : (s.setReg o w).lap = s.lap := (rfl)
@[simp] theorem State.setReg_streams (s : State) (o : Nat) (w : Word) : (s.setReg o w).streams = s.streams := (rfl)
@[simp] theorem State.setReg_ctxs (s : State) (o : Nat) (w : Word) : (s.setReg o w).ctxs = s.ctxs := (rfl)
@[simp] theorem State.setReg_locker (s : State) (o : Nat) (w : Word) : (s.setReg o w).locker = s.locker := (rfl)
@[simp] theorem State.setReg_gates (s : State) (o : Nat) (w : Word) : (s.setReg o w).gates = s.gates := (rfl)
@[simp] theorem State.setReg_gmus (s : State) (o : Nat) (w : Word) : (s.setReg o w).gmus = s.gmus := (rfl)
@[simp] theorem State.setReg_courses (s : State) (o : Nat) (w : Word) : (s.setReg o w).courses = s.courses := (rfl)
@[simp] theorem State.setReg_loading (s : State) (o : Nat) (w : Word) : (s.setReg o w).loading = s.loading := (rfl)
@[simp] theorem State.setReg_router (s : State) (o : Nat) (w : Word) : (s.setReg o w).router = s.router := (rfl)
@[simp] theorem State.setReg_remotes (s : State) (o : Nat) (w : Word) : (s.setReg o w).remotes = s.remotes := (rfl)
@[simp] theorem State.setReg_requests (s : State) (o : Nat) (w : Word) : (s.setReg o w).requests = s.requests := (rfl)
@[simp] theorem State.setReg_col (s : State) (o : Nat) (w : Word) : (s.setReg o w).col = s.col := (rfl)
@[simp] theorem State.setReg_lead (s : State) (o : Nat) (w : Word) : (s.setReg o w).lead = s.lead := (rfl)
@[simp] theorem State.setReg_host (s : State) (o : Nat) (w : Word) : (s.setReg o w).host = s.host := (rfl)
@[simp] theorem State.setReg_lapFlags (s : State) (o : Nat) (w : Word) : (s.setReg o w).lapFlags = s.lapFlags := (rfl)
@[simp] theorem State.setReg_bufBreach (s : State) (o : Nat) (w : Word) : (s.setReg o w).bufBreach = s.bufBreach := (rfl)
@[simp] theorem State.setReg_snaps (s : State) (o : Nat) (w : Word) : (s.setReg o w).snaps = s.snaps := (rfl)
@[simp] theorem State.setReg_restore (s : State) (o : Nat) (w : Word) : (s.setReg o w).restore = s.restore := (rfl)
@[simp] theorem State.setReg_partials (s : State) (o : Nat) (w : Word) : (s.setReg o w).partials = s.partials := (rfl)
@[simp] theorem State.setReg_silenced (s : State) (o : Nat) (w : Word) : (s.setReg o w).silenced = s.silenced := (rfl)
@[simp] theorem State.setReg_faultLog (s : State) (o : Nat) (w : Word) : (s.setReg o w).faultLog = s.faultLog := (rfl)
@[simp] theorem State.setReg_sec (s : State) (o : Nat) (w : Word) : (s.setReg o w).sec = s.sec := (rfl)
@[simp] theorem State.setReg_clkLog (s : State) (o : Nat) (w : Word) : (s.setReg o w).clkLog = s.clkLog := (rfl)
@[simp] theorem State.setReg_floors (s : State) (o : Nat) (w : Word) : (s.setReg o w).floors = s.floors := (rfl)
@[simp] theorem State.setReg_telQueue (s : State) (o : Nat) (w : Word) : (s.setReg o w).telQueue = s.telQueue := (rfl)
@[simp] theorem State.setReg_telSeq (s : State) (o : Nat) (w : Word) : (s.setReg o w).telSeq = s.telSeq := (rfl)
@[simp] theorem State.setReg_telLast (s : State) (o : Nat) (w : Word) : (s.setReg o w).telLast = s.telLast := (rfl)
@[simp] theorem State.setReg_repeats (s : State) (o : Nat) (w : Word) : (s.setReg o w).repeats = s.repeats := (rfl)
@[simp] theorem State.setReg_power (s : State) (o : Nat) (w : Word) : (s.setReg o w).power = s.power := (rfl)
@[simp] theorem State.setReg_frozen (s : State) (o : Nat) (w : Word) : (s.setReg o w).frozen = s.frozen := (rfl)
@[simp] theorem State.setReg_stopped (s : State) (o : Nat) (w : Word) : (s.setReg o w).stopped = s.stopped := (rfl)
@[simp] theorem State.setReg_shadow (s : State) (o : Nat) (w : Word) : (s.setReg o w).shadow = s.shadow := (rfl)
@[simp] theorem State.setReg_capture (s : State) (o : Nat) (w : Word) : (s.setReg o w).capture = s.capture := (rfl)
@[simp] theorem State.setReg_mems (s : State) (o : Nat) (w : Word) : (s.setReg o w).mems = s.mems := (rfl)
@[simp] theorem State.setReg_lapDeferred (s : State) (o : Nat) (w : Word) : (s.setReg o w).lapDeferred = s.lapDeferred := (rfl)
@[simp] theorem State.setReg_levels (s : State) (o : Nat) (w : Word) : (s.setReg o w).levels = s.levels := (rfl)
@[simp] theorem State.setReg_clk (s : State) (o : Nat) (w : Word) : (s.setReg o w).clk = s.clk := (rfl)
@[simp] theorem State.setReg_scrubLine (s : State) (o : Nat) (w : Word) : (s.setReg o w).scrubLine = s.scrubLine := (rfl)
@[simp] theorem State.setReg_pending (s : State) (o : Nat) (w : Word) : (s.setReg o w).pending = s.pending := (rfl)
@[simp] theorem State.setReg_out (s : State) (o : Nat) (w : Word) : (s.setReg o w).out = s.out := (rfl)
@[simp] theorem State.setReg_freeCtr (s : State) (o : Nat) (w : Word) : (s.setReg o w).freeCtr = s.freeCtr := (rfl)

/-! `wr` changes `regs` only. -/

@[simp] theorem State.wr_rink (s : State) (f : Fld) (v : Nat) : (s.wr f v).rink = s.rink := (rfl)
@[simp] theorem State.wr_lpddr (s : State) (f : Fld) (v : Nat) : (s.wr f v).lpddr = s.lpddr := (rfl)
@[simp] theorem State.wr_flips (s : State) (f : Fld) (v : Nat) : (s.wr f v).flips = s.flips := (rfl)
@[simp] theorem State.wr_rinkErr (s : State) (f : Fld) (v : Nat) : (s.wr f v).rinkErr = s.rinkErr := (rfl)
@[simp] theorem State.wr_rinkQ (s : State) (f : Fld) (v : Nat) : (s.wr f v).rinkQ = s.rinkQ := (rfl)
@[simp] theorem State.wr_store (s : State) (f : Fld) (v : Nat) : (s.wr f v).store = s.store := (rfl)
@[simp] theorem State.wr_gsram (s : State) (f : Fld) (v : Nat) : (s.wr f v).gsram = s.gsram := (rfl)
@[simp] theorem State.wr_rstore (s : State) (f : Fld) (v : Nat) : (s.wr f v).rstore = s.rstore := (rfl)
@[simp] theorem State.wr_guard (s : State) (f : Fld) (v : Nat) : (s.wr f v).guard = s.guard := (rfl)
@[simp] theorem State.wr_tmpl (s : State) (f : Fld) (v : Nat) : (s.wr f v).tmpl = s.tmpl := (rfl)
@[simp] theorem State.wr_lap (s : State) (f : Fld) (v : Nat) : (s.wr f v).lap = s.lap := (rfl)
@[simp] theorem State.wr_streams (s : State) (f : Fld) (v : Nat) : (s.wr f v).streams = s.streams := (rfl)
@[simp] theorem State.wr_ctxs (s : State) (f : Fld) (v : Nat) : (s.wr f v).ctxs = s.ctxs := (rfl)
@[simp] theorem State.wr_locker (s : State) (f : Fld) (v : Nat) : (s.wr f v).locker = s.locker := (rfl)
@[simp] theorem State.wr_gates (s : State) (f : Fld) (v : Nat) : (s.wr f v).gates = s.gates := (rfl)
@[simp] theorem State.wr_gmus (s : State) (f : Fld) (v : Nat) : (s.wr f v).gmus = s.gmus := (rfl)
@[simp] theorem State.wr_courses (s : State) (f : Fld) (v : Nat) : (s.wr f v).courses = s.courses := (rfl)
@[simp] theorem State.wr_loading (s : State) (f : Fld) (v : Nat) : (s.wr f v).loading = s.loading := (rfl)
@[simp] theorem State.wr_router (s : State) (f : Fld) (v : Nat) : (s.wr f v).router = s.router := (rfl)
@[simp] theorem State.wr_remotes (s : State) (f : Fld) (v : Nat) : (s.wr f v).remotes = s.remotes := (rfl)
@[simp] theorem State.wr_requests (s : State) (f : Fld) (v : Nat) : (s.wr f v).requests = s.requests := (rfl)
@[simp] theorem State.wr_col (s : State) (f : Fld) (v : Nat) : (s.wr f v).col = s.col := (rfl)
@[simp] theorem State.wr_lead (s : State) (f : Fld) (v : Nat) : (s.wr f v).lead = s.lead := (rfl)
@[simp] theorem State.wr_host (s : State) (f : Fld) (v : Nat) : (s.wr f v).host = s.host := (rfl)
@[simp] theorem State.wr_lapFlags (s : State) (f : Fld) (v : Nat) : (s.wr f v).lapFlags = s.lapFlags := (rfl)
@[simp] theorem State.wr_bufBreach (s : State) (f : Fld) (v : Nat) : (s.wr f v).bufBreach = s.bufBreach := (rfl)
@[simp] theorem State.wr_snaps (s : State) (f : Fld) (v : Nat) : (s.wr f v).snaps = s.snaps := (rfl)
@[simp] theorem State.wr_restore (s : State) (f : Fld) (v : Nat) : (s.wr f v).restore = s.restore := (rfl)
@[simp] theorem State.wr_partials (s : State) (f : Fld) (v : Nat) : (s.wr f v).partials = s.partials := (rfl)
@[simp] theorem State.wr_silenced (s : State) (f : Fld) (v : Nat) : (s.wr f v).silenced = s.silenced := (rfl)
@[simp] theorem State.wr_faultLog (s : State) (f : Fld) (v : Nat) : (s.wr f v).faultLog = s.faultLog := (rfl)
@[simp] theorem State.wr_sec (s : State) (f : Fld) (v : Nat) : (s.wr f v).sec = s.sec := (rfl)
@[simp] theorem State.wr_clkLog (s : State) (f : Fld) (v : Nat) : (s.wr f v).clkLog = s.clkLog := (rfl)
@[simp] theorem State.wr_floors (s : State) (f : Fld) (v : Nat) : (s.wr f v).floors = s.floors := (rfl)
@[simp] theorem State.wr_telQueue (s : State) (f : Fld) (v : Nat) : (s.wr f v).telQueue = s.telQueue := (rfl)
@[simp] theorem State.wr_telSeq (s : State) (f : Fld) (v : Nat) : (s.wr f v).telSeq = s.telSeq := (rfl)
@[simp] theorem State.wr_telLast (s : State) (f : Fld) (v : Nat) : (s.wr f v).telLast = s.telLast := (rfl)
@[simp] theorem State.wr_repeats (s : State) (f : Fld) (v : Nat) : (s.wr f v).repeats = s.repeats := (rfl)
@[simp] theorem State.wr_power (s : State) (f : Fld) (v : Nat) : (s.wr f v).power = s.power := (rfl)
@[simp] theorem State.wr_frozen (s : State) (f : Fld) (v : Nat) : (s.wr f v).frozen = s.frozen := (rfl)
@[simp] theorem State.wr_stopped (s : State) (f : Fld) (v : Nat) : (s.wr f v).stopped = s.stopped := (rfl)
@[simp] theorem State.wr_shadow (s : State) (f : Fld) (v : Nat) : (s.wr f v).shadow = s.shadow := (rfl)
@[simp] theorem State.wr_capture (s : State) (f : Fld) (v : Nat) : (s.wr f v).capture = s.capture := (rfl)
@[simp] theorem State.wr_mems (s : State) (f : Fld) (v : Nat) : (s.wr f v).mems = s.mems := (rfl)
@[simp] theorem State.wr_lapDeferred (s : State) (f : Fld) (v : Nat) : (s.wr f v).lapDeferred = s.lapDeferred := (rfl)
@[simp] theorem State.wr_levels (s : State) (f : Fld) (v : Nat) : (s.wr f v).levels = s.levels := (rfl)
@[simp] theorem State.wr_clk (s : State) (f : Fld) (v : Nat) : (s.wr f v).clk = s.clk := (rfl)
@[simp] theorem State.wr_scrubLine (s : State) (f : Fld) (v : Nat) : (s.wr f v).scrubLine = s.scrubLine := (rfl)
@[simp] theorem State.wr_pending (s : State) (f : Fld) (v : Nat) : (s.wr f v).pending = s.pending := (rfl)
@[simp] theorem State.wr_out (s : State) (f : Fld) (v : Nat) : (s.wr f v).out = s.out := (rfl)
@[simp] theorem State.wr_freeCtr (s : State) (f : Fld) (v : Nat) : (s.wr f v).freeCtr = s.freeCtr := (rfl)

/-! `setRink` changes `rink` and `rinkErr` only. -/

@[simp] theorem State.setRink_regs (s : State) (a : Nat) (l : List Byte) : (s.setRink a l).regs = s.regs := (rfl)
@[simp] theorem State.setRink_lpddr (s : State) (a : Nat) (l : List Byte) : (s.setRink a l).lpddr = s.lpddr := (rfl)
@[simp] theorem State.setRink_flips (s : State) (a : Nat) (l : List Byte) : (s.setRink a l).flips = s.flips := (rfl)
@[simp] theorem State.setRink_rinkQ (s : State) (a : Nat) (l : List Byte) : (s.setRink a l).rinkQ = s.rinkQ := (rfl)
@[simp] theorem State.setRink_store (s : State) (a : Nat) (l : List Byte) : (s.setRink a l).store = s.store := (rfl)
@[simp] theorem State.setRink_gsram (s : State) (a : Nat) (l : List Byte) : (s.setRink a l).gsram = s.gsram := (rfl)
@[simp] theorem State.setRink_rstore (s : State) (a : Nat) (l : List Byte) : (s.setRink a l).rstore = s.rstore := (rfl)
@[simp] theorem State.setRink_guard (s : State) (a : Nat) (l : List Byte) : (s.setRink a l).guard = s.guard := (rfl)
@[simp] theorem State.setRink_tmpl (s : State) (a : Nat) (l : List Byte) : (s.setRink a l).tmpl = s.tmpl := (rfl)
@[simp] theorem State.setRink_lap (s : State) (a : Nat) (l : List Byte) : (s.setRink a l).lap = s.lap := (rfl)
@[simp] theorem State.setRink_streams (s : State) (a : Nat) (l : List Byte) : (s.setRink a l).streams = s.streams := (rfl)
@[simp] theorem State.setRink_ctxs (s : State) (a : Nat) (l : List Byte) : (s.setRink a l).ctxs = s.ctxs := (rfl)
@[simp] theorem State.setRink_locker (s : State) (a : Nat) (l : List Byte) : (s.setRink a l).locker = s.locker := (rfl)
@[simp] theorem State.setRink_gates (s : State) (a : Nat) (l : List Byte) : (s.setRink a l).gates = s.gates := (rfl)
@[simp] theorem State.setRink_gmus (s : State) (a : Nat) (l : List Byte) : (s.setRink a l).gmus = s.gmus := (rfl)
@[simp] theorem State.setRink_courses (s : State) (a : Nat) (l : List Byte) : (s.setRink a l).courses = s.courses := (rfl)
@[simp] theorem State.setRink_loading (s : State) (a : Nat) (l : List Byte) : (s.setRink a l).loading = s.loading := (rfl)
@[simp] theorem State.setRink_router (s : State) (a : Nat) (l : List Byte) : (s.setRink a l).router = s.router := (rfl)
@[simp] theorem State.setRink_remotes (s : State) (a : Nat) (l : List Byte) : (s.setRink a l).remotes = s.remotes := (rfl)
@[simp] theorem State.setRink_requests (s : State) (a : Nat) (l : List Byte) : (s.setRink a l).requests = s.requests := (rfl)
@[simp] theorem State.setRink_col (s : State) (a : Nat) (l : List Byte) : (s.setRink a l).col = s.col := (rfl)
@[simp] theorem State.setRink_lead (s : State) (a : Nat) (l : List Byte) : (s.setRink a l).lead = s.lead := (rfl)
@[simp] theorem State.setRink_host (s : State) (a : Nat) (l : List Byte) : (s.setRink a l).host = s.host := (rfl)
@[simp] theorem State.setRink_lapFlags (s : State) (a : Nat) (l : List Byte) : (s.setRink a l).lapFlags = s.lapFlags := (rfl)
@[simp] theorem State.setRink_bufBreach (s : State) (a : Nat) (l : List Byte) : (s.setRink a l).bufBreach = s.bufBreach := (rfl)
@[simp] theorem State.setRink_snaps (s : State) (a : Nat) (l : List Byte) : (s.setRink a l).snaps = s.snaps := (rfl)
@[simp] theorem State.setRink_restore (s : State) (a : Nat) (l : List Byte) : (s.setRink a l).restore = s.restore := (rfl)
@[simp] theorem State.setRink_partials (s : State) (a : Nat) (l : List Byte) : (s.setRink a l).partials = s.partials := (rfl)
@[simp] theorem State.setRink_silenced (s : State) (a : Nat) (l : List Byte) : (s.setRink a l).silenced = s.silenced := (rfl)
@[simp] theorem State.setRink_faultLog (s : State) (a : Nat) (l : List Byte) : (s.setRink a l).faultLog = s.faultLog := (rfl)
@[simp] theorem State.setRink_sec (s : State) (a : Nat) (l : List Byte) : (s.setRink a l).sec = s.sec := (rfl)
@[simp] theorem State.setRink_clkLog (s : State) (a : Nat) (l : List Byte) : (s.setRink a l).clkLog = s.clkLog := (rfl)
@[simp] theorem State.setRink_floors (s : State) (a : Nat) (l : List Byte) : (s.setRink a l).floors = s.floors := (rfl)
@[simp] theorem State.setRink_telQueue (s : State) (a : Nat) (l : List Byte) : (s.setRink a l).telQueue = s.telQueue := (rfl)
@[simp] theorem State.setRink_telSeq (s : State) (a : Nat) (l : List Byte) : (s.setRink a l).telSeq = s.telSeq := (rfl)
@[simp] theorem State.setRink_telLast (s : State) (a : Nat) (l : List Byte) : (s.setRink a l).telLast = s.telLast := (rfl)
@[simp] theorem State.setRink_repeats (s : State) (a : Nat) (l : List Byte) : (s.setRink a l).repeats = s.repeats := (rfl)
@[simp] theorem State.setRink_power (s : State) (a : Nat) (l : List Byte) : (s.setRink a l).power = s.power := (rfl)
@[simp] theorem State.setRink_frozen (s : State) (a : Nat) (l : List Byte) : (s.setRink a l).frozen = s.frozen := (rfl)
@[simp] theorem State.setRink_stopped (s : State) (a : Nat) (l : List Byte) : (s.setRink a l).stopped = s.stopped := (rfl)
@[simp] theorem State.setRink_shadow (s : State) (a : Nat) (l : List Byte) : (s.setRink a l).shadow = s.shadow := (rfl)
@[simp] theorem State.setRink_capture (s : State) (a : Nat) (l : List Byte) : (s.setRink a l).capture = s.capture := (rfl)
@[simp] theorem State.setRink_mems (s : State) (a : Nat) (l : List Byte) : (s.setRink a l).mems = s.mems := (rfl)
@[simp] theorem State.setRink_lapDeferred (s : State) (a : Nat) (l : List Byte) : (s.setRink a l).lapDeferred = s.lapDeferred := (rfl)
@[simp] theorem State.setRink_levels (s : State) (a : Nat) (l : List Byte) : (s.setRink a l).levels = s.levels := (rfl)
@[simp] theorem State.setRink_clk (s : State) (a : Nat) (l : List Byte) : (s.setRink a l).clk = s.clk := (rfl)
@[simp] theorem State.setRink_scrubLine (s : State) (a : Nat) (l : List Byte) : (s.setRink a l).scrubLine = s.scrubLine := (rfl)
@[simp] theorem State.setRink_pending (s : State) (a : Nat) (l : List Byte) : (s.setRink a l).pending = s.pending := (rfl)
@[simp] theorem State.setRink_out (s : State) (a : Nat) (l : List Byte) : (s.setRink a l).out = s.out := (rfl)
@[simp] theorem State.setRink_freeCtr (s : State) (a : Nat) (l : List Byte) : (s.setRink a l).freeCtr = s.freeCtr := (rfl)

/-! `setMem` changes `lpddr` and `flips` only. -/

@[simp] theorem State.setMem_regs (s : State) (a : Nat) (l : List Byte) : (s.setMem a l).regs = s.regs := (rfl)
@[simp] theorem State.setMem_rink (s : State) (a : Nat) (l : List Byte) : (s.setMem a l).rink = s.rink := (rfl)
@[simp] theorem State.setMem_rinkErr (s : State) (a : Nat) (l : List Byte) : (s.setMem a l).rinkErr = s.rinkErr := (rfl)
@[simp] theorem State.setMem_rinkQ (s : State) (a : Nat) (l : List Byte) : (s.setMem a l).rinkQ = s.rinkQ := (rfl)
@[simp] theorem State.setMem_store (s : State) (a : Nat) (l : List Byte) : (s.setMem a l).store = s.store := (rfl)
@[simp] theorem State.setMem_gsram (s : State) (a : Nat) (l : List Byte) : (s.setMem a l).gsram = s.gsram := (rfl)
@[simp] theorem State.setMem_rstore (s : State) (a : Nat) (l : List Byte) : (s.setMem a l).rstore = s.rstore := (rfl)
@[simp] theorem State.setMem_guard (s : State) (a : Nat) (l : List Byte) : (s.setMem a l).guard = s.guard := (rfl)
@[simp] theorem State.setMem_tmpl (s : State) (a : Nat) (l : List Byte) : (s.setMem a l).tmpl = s.tmpl := (rfl)
@[simp] theorem State.setMem_lap (s : State) (a : Nat) (l : List Byte) : (s.setMem a l).lap = s.lap := (rfl)
@[simp] theorem State.setMem_streams (s : State) (a : Nat) (l : List Byte) : (s.setMem a l).streams = s.streams := (rfl)
@[simp] theorem State.setMem_ctxs (s : State) (a : Nat) (l : List Byte) : (s.setMem a l).ctxs = s.ctxs := (rfl)
@[simp] theorem State.setMem_locker (s : State) (a : Nat) (l : List Byte) : (s.setMem a l).locker = s.locker := (rfl)
@[simp] theorem State.setMem_gates (s : State) (a : Nat) (l : List Byte) : (s.setMem a l).gates = s.gates := (rfl)
@[simp] theorem State.setMem_gmus (s : State) (a : Nat) (l : List Byte) : (s.setMem a l).gmus = s.gmus := (rfl)
@[simp] theorem State.setMem_courses (s : State) (a : Nat) (l : List Byte) : (s.setMem a l).courses = s.courses := (rfl)
@[simp] theorem State.setMem_loading (s : State) (a : Nat) (l : List Byte) : (s.setMem a l).loading = s.loading := (rfl)
@[simp] theorem State.setMem_router (s : State) (a : Nat) (l : List Byte) : (s.setMem a l).router = s.router := (rfl)
@[simp] theorem State.setMem_remotes (s : State) (a : Nat) (l : List Byte) : (s.setMem a l).remotes = s.remotes := (rfl)
@[simp] theorem State.setMem_requests (s : State) (a : Nat) (l : List Byte) : (s.setMem a l).requests = s.requests := (rfl)
@[simp] theorem State.setMem_col (s : State) (a : Nat) (l : List Byte) : (s.setMem a l).col = s.col := (rfl)
@[simp] theorem State.setMem_lead (s : State) (a : Nat) (l : List Byte) : (s.setMem a l).lead = s.lead := (rfl)
@[simp] theorem State.setMem_host (s : State) (a : Nat) (l : List Byte) : (s.setMem a l).host = s.host := (rfl)
@[simp] theorem State.setMem_lapFlags (s : State) (a : Nat) (l : List Byte) : (s.setMem a l).lapFlags = s.lapFlags := (rfl)
@[simp] theorem State.setMem_bufBreach (s : State) (a : Nat) (l : List Byte) : (s.setMem a l).bufBreach = s.bufBreach := (rfl)
@[simp] theorem State.setMem_snaps (s : State) (a : Nat) (l : List Byte) : (s.setMem a l).snaps = s.snaps := (rfl)
@[simp] theorem State.setMem_restore (s : State) (a : Nat) (l : List Byte) : (s.setMem a l).restore = s.restore := (rfl)
@[simp] theorem State.setMem_partials (s : State) (a : Nat) (l : List Byte) : (s.setMem a l).partials = s.partials := (rfl)
@[simp] theorem State.setMem_silenced (s : State) (a : Nat) (l : List Byte) : (s.setMem a l).silenced = s.silenced := (rfl)
@[simp] theorem State.setMem_faultLog (s : State) (a : Nat) (l : List Byte) : (s.setMem a l).faultLog = s.faultLog := (rfl)
@[simp] theorem State.setMem_sec (s : State) (a : Nat) (l : List Byte) : (s.setMem a l).sec = s.sec := (rfl)
@[simp] theorem State.setMem_clkLog (s : State) (a : Nat) (l : List Byte) : (s.setMem a l).clkLog = s.clkLog := (rfl)
@[simp] theorem State.setMem_floors (s : State) (a : Nat) (l : List Byte) : (s.setMem a l).floors = s.floors := (rfl)
@[simp] theorem State.setMem_telQueue (s : State) (a : Nat) (l : List Byte) : (s.setMem a l).telQueue = s.telQueue := (rfl)
@[simp] theorem State.setMem_telSeq (s : State) (a : Nat) (l : List Byte) : (s.setMem a l).telSeq = s.telSeq := (rfl)
@[simp] theorem State.setMem_telLast (s : State) (a : Nat) (l : List Byte) : (s.setMem a l).telLast = s.telLast := (rfl)
@[simp] theorem State.setMem_repeats (s : State) (a : Nat) (l : List Byte) : (s.setMem a l).repeats = s.repeats := (rfl)
@[simp] theorem State.setMem_power (s : State) (a : Nat) (l : List Byte) : (s.setMem a l).power = s.power := (rfl)
@[simp] theorem State.setMem_frozen (s : State) (a : Nat) (l : List Byte) : (s.setMem a l).frozen = s.frozen := (rfl)
@[simp] theorem State.setMem_stopped (s : State) (a : Nat) (l : List Byte) : (s.setMem a l).stopped = s.stopped := (rfl)
@[simp] theorem State.setMem_shadow (s : State) (a : Nat) (l : List Byte) : (s.setMem a l).shadow = s.shadow := (rfl)
@[simp] theorem State.setMem_capture (s : State) (a : Nat) (l : List Byte) : (s.setMem a l).capture = s.capture := (rfl)
@[simp] theorem State.setMem_mems (s : State) (a : Nat) (l : List Byte) : (s.setMem a l).mems = s.mems := (rfl)
@[simp] theorem State.setMem_lapDeferred (s : State) (a : Nat) (l : List Byte) : (s.setMem a l).lapDeferred = s.lapDeferred := (rfl)
@[simp] theorem State.setMem_levels (s : State) (a : Nat) (l : List Byte) : (s.setMem a l).levels = s.levels := (rfl)
@[simp] theorem State.setMem_clk (s : State) (a : Nat) (l : List Byte) : (s.setMem a l).clk = s.clk := (rfl)
@[simp] theorem State.setMem_scrubLine (s : State) (a : Nat) (l : List Byte) : (s.setMem a l).scrubLine = s.scrubLine := (rfl)
@[simp] theorem State.setMem_pending (s : State) (a : Nat) (l : List Byte) : (s.setMem a l).pending = s.pending := (rfl)
@[simp] theorem State.setMem_out (s : State) (a : Nat) (l : List Byte) : (s.setMem a l).out = s.out := (rfl)
@[simp] theorem State.setMem_freeCtr (s : State) (a : Nat) (l : List Byte) : (s.setMem a l).freeCtr = s.freeCtr := (rfl)

/-! `setGate` changes `gsram` only. -/

@[simp] theorem State.setGate_regs (s : State) (g a : Nat) (l : List Byte) : (s.setGate g a l).regs = s.regs := (rfl)
@[simp] theorem State.setGate_rink (s : State) (g a : Nat) (l : List Byte) : (s.setGate g a l).rink = s.rink := (rfl)
@[simp] theorem State.setGate_lpddr (s : State) (g a : Nat) (l : List Byte) : (s.setGate g a l).lpddr = s.lpddr := (rfl)
@[simp] theorem State.setGate_flips (s : State) (g a : Nat) (l : List Byte) : (s.setGate g a l).flips = s.flips := (rfl)
@[simp] theorem State.setGate_rinkErr (s : State) (g a : Nat) (l : List Byte) : (s.setGate g a l).rinkErr = s.rinkErr := (rfl)
@[simp] theorem State.setGate_rinkQ (s : State) (g a : Nat) (l : List Byte) : (s.setGate g a l).rinkQ = s.rinkQ := (rfl)
@[simp] theorem State.setGate_store (s : State) (g a : Nat) (l : List Byte) : (s.setGate g a l).store = s.store := (rfl)
@[simp] theorem State.setGate_rstore (s : State) (g a : Nat) (l : List Byte) : (s.setGate g a l).rstore = s.rstore := (rfl)
@[simp] theorem State.setGate_guard (s : State) (g a : Nat) (l : List Byte) : (s.setGate g a l).guard = s.guard := (rfl)
@[simp] theorem State.setGate_tmpl (s : State) (g a : Nat) (l : List Byte) : (s.setGate g a l).tmpl = s.tmpl := (rfl)
@[simp] theorem State.setGate_lap (s : State) (g a : Nat) (l : List Byte) : (s.setGate g a l).lap = s.lap := (rfl)
@[simp] theorem State.setGate_streams (s : State) (g a : Nat) (l : List Byte) : (s.setGate g a l).streams = s.streams := (rfl)
@[simp] theorem State.setGate_ctxs (s : State) (g a : Nat) (l : List Byte) : (s.setGate g a l).ctxs = s.ctxs := (rfl)
@[simp] theorem State.setGate_locker (s : State) (g a : Nat) (l : List Byte) : (s.setGate g a l).locker = s.locker := (rfl)
@[simp] theorem State.setGate_gates (s : State) (g a : Nat) (l : List Byte) : (s.setGate g a l).gates = s.gates := (rfl)
@[simp] theorem State.setGate_gmus (s : State) (g a : Nat) (l : List Byte) : (s.setGate g a l).gmus = s.gmus := (rfl)
@[simp] theorem State.setGate_courses (s : State) (g a : Nat) (l : List Byte) : (s.setGate g a l).courses = s.courses := (rfl)
@[simp] theorem State.setGate_loading (s : State) (g a : Nat) (l : List Byte) : (s.setGate g a l).loading = s.loading := (rfl)
@[simp] theorem State.setGate_router (s : State) (g a : Nat) (l : List Byte) : (s.setGate g a l).router = s.router := (rfl)
@[simp] theorem State.setGate_remotes (s : State) (g a : Nat) (l : List Byte) : (s.setGate g a l).remotes = s.remotes := (rfl)
@[simp] theorem State.setGate_requests (s : State) (g a : Nat) (l : List Byte) : (s.setGate g a l).requests = s.requests := (rfl)
@[simp] theorem State.setGate_col (s : State) (g a : Nat) (l : List Byte) : (s.setGate g a l).col = s.col := (rfl)
@[simp] theorem State.setGate_lead (s : State) (g a : Nat) (l : List Byte) : (s.setGate g a l).lead = s.lead := (rfl)
@[simp] theorem State.setGate_host (s : State) (g a : Nat) (l : List Byte) : (s.setGate g a l).host = s.host := (rfl)
@[simp] theorem State.setGate_lapFlags (s : State) (g a : Nat) (l : List Byte) : (s.setGate g a l).lapFlags = s.lapFlags := (rfl)
@[simp] theorem State.setGate_bufBreach (s : State) (g a : Nat) (l : List Byte) : (s.setGate g a l).bufBreach = s.bufBreach := (rfl)
@[simp] theorem State.setGate_snaps (s : State) (g a : Nat) (l : List Byte) : (s.setGate g a l).snaps = s.snaps := (rfl)
@[simp] theorem State.setGate_restore (s : State) (g a : Nat) (l : List Byte) : (s.setGate g a l).restore = s.restore := (rfl)
@[simp] theorem State.setGate_partials (s : State) (g a : Nat) (l : List Byte) : (s.setGate g a l).partials = s.partials := (rfl)
@[simp] theorem State.setGate_silenced (s : State) (g a : Nat) (l : List Byte) : (s.setGate g a l).silenced = s.silenced := (rfl)
@[simp] theorem State.setGate_faultLog (s : State) (g a : Nat) (l : List Byte) : (s.setGate g a l).faultLog = s.faultLog := (rfl)
@[simp] theorem State.setGate_sec (s : State) (g a : Nat) (l : List Byte) : (s.setGate g a l).sec = s.sec := (rfl)
@[simp] theorem State.setGate_clkLog (s : State) (g a : Nat) (l : List Byte) : (s.setGate g a l).clkLog = s.clkLog := (rfl)
@[simp] theorem State.setGate_floors (s : State) (g a : Nat) (l : List Byte) : (s.setGate g a l).floors = s.floors := (rfl)
@[simp] theorem State.setGate_telQueue (s : State) (g a : Nat) (l : List Byte) : (s.setGate g a l).telQueue = s.telQueue := (rfl)
@[simp] theorem State.setGate_telSeq (s : State) (g a : Nat) (l : List Byte) : (s.setGate g a l).telSeq = s.telSeq := (rfl)
@[simp] theorem State.setGate_telLast (s : State) (g a : Nat) (l : List Byte) : (s.setGate g a l).telLast = s.telLast := (rfl)
@[simp] theorem State.setGate_repeats (s : State) (g a : Nat) (l : List Byte) : (s.setGate g a l).repeats = s.repeats := (rfl)
@[simp] theorem State.setGate_power (s : State) (g a : Nat) (l : List Byte) : (s.setGate g a l).power = s.power := (rfl)
@[simp] theorem State.setGate_frozen (s : State) (g a : Nat) (l : List Byte) : (s.setGate g a l).frozen = s.frozen := (rfl)
@[simp] theorem State.setGate_stopped (s : State) (g a : Nat) (l : List Byte) : (s.setGate g a l).stopped = s.stopped := (rfl)
@[simp] theorem State.setGate_shadow (s : State) (g a : Nat) (l : List Byte) : (s.setGate g a l).shadow = s.shadow := (rfl)
@[simp] theorem State.setGate_capture (s : State) (g a : Nat) (l : List Byte) : (s.setGate g a l).capture = s.capture := (rfl)
@[simp] theorem State.setGate_mems (s : State) (g a : Nat) (l : List Byte) : (s.setGate g a l).mems = s.mems := (rfl)
@[simp] theorem State.setGate_lapDeferred (s : State) (g a : Nat) (l : List Byte) : (s.setGate g a l).lapDeferred = s.lapDeferred := (rfl)
@[simp] theorem State.setGate_levels (s : State) (g a : Nat) (l : List Byte) : (s.setGate g a l).levels = s.levels := (rfl)
@[simp] theorem State.setGate_clk (s : State) (g a : Nat) (l : List Byte) : (s.setGate g a l).clk = s.clk := (rfl)
@[simp] theorem State.setGate_scrubLine (s : State) (g a : Nat) (l : List Byte) : (s.setGate g a l).scrubLine = s.scrubLine := (rfl)
@[simp] theorem State.setGate_pending (s : State) (g a : Nat) (l : List Byte) : (s.setGate g a l).pending = s.pending := (rfl)
@[simp] theorem State.setGate_out (s : State) (g a : Nat) (l : List Byte) : (s.setGate g a l).out = s.out := (rfl)
@[simp] theorem State.setGate_freeCtr (s : State) (g a : Nat) (l : List Byte) : (s.setGate g a l).freeCtr = s.freeCtr := (rfl)

/-! `setStore` changes `store` only. -/

@[simp] theorem State.setStore_regs (s : State) (u a : Nat) (l : List Byte) : (s.setStore u a l).regs = s.regs := (rfl)
@[simp] theorem State.setStore_rink (s : State) (u a : Nat) (l : List Byte) : (s.setStore u a l).rink = s.rink := (rfl)
@[simp] theorem State.setStore_lpddr (s : State) (u a : Nat) (l : List Byte) : (s.setStore u a l).lpddr = s.lpddr := (rfl)
@[simp] theorem State.setStore_flips (s : State) (u a : Nat) (l : List Byte) : (s.setStore u a l).flips = s.flips := (rfl)
@[simp] theorem State.setStore_rinkErr (s : State) (u a : Nat) (l : List Byte) : (s.setStore u a l).rinkErr = s.rinkErr := (rfl)
@[simp] theorem State.setStore_rinkQ (s : State) (u a : Nat) (l : List Byte) : (s.setStore u a l).rinkQ = s.rinkQ := (rfl)
@[simp] theorem State.setStore_gsram (s : State) (u a : Nat) (l : List Byte) : (s.setStore u a l).gsram = s.gsram := (rfl)
@[simp] theorem State.setStore_rstore (s : State) (u a : Nat) (l : List Byte) : (s.setStore u a l).rstore = s.rstore := (rfl)
@[simp] theorem State.setStore_guard (s : State) (u a : Nat) (l : List Byte) : (s.setStore u a l).guard = s.guard := (rfl)
@[simp] theorem State.setStore_tmpl (s : State) (u a : Nat) (l : List Byte) : (s.setStore u a l).tmpl = s.tmpl := (rfl)
@[simp] theorem State.setStore_lap (s : State) (u a : Nat) (l : List Byte) : (s.setStore u a l).lap = s.lap := (rfl)
@[simp] theorem State.setStore_streams (s : State) (u a : Nat) (l : List Byte) : (s.setStore u a l).streams = s.streams := (rfl)
@[simp] theorem State.setStore_ctxs (s : State) (u a : Nat) (l : List Byte) : (s.setStore u a l).ctxs = s.ctxs := (rfl)
@[simp] theorem State.setStore_locker (s : State) (u a : Nat) (l : List Byte) : (s.setStore u a l).locker = s.locker := (rfl)
@[simp] theorem State.setStore_gates (s : State) (u a : Nat) (l : List Byte) : (s.setStore u a l).gates = s.gates := (rfl)
@[simp] theorem State.setStore_gmus (s : State) (u a : Nat) (l : List Byte) : (s.setStore u a l).gmus = s.gmus := (rfl)
@[simp] theorem State.setStore_courses (s : State) (u a : Nat) (l : List Byte) : (s.setStore u a l).courses = s.courses := (rfl)
@[simp] theorem State.setStore_loading (s : State) (u a : Nat) (l : List Byte) : (s.setStore u a l).loading = s.loading := (rfl)
@[simp] theorem State.setStore_router (s : State) (u a : Nat) (l : List Byte) : (s.setStore u a l).router = s.router := (rfl)
@[simp] theorem State.setStore_remotes (s : State) (u a : Nat) (l : List Byte) : (s.setStore u a l).remotes = s.remotes := (rfl)
@[simp] theorem State.setStore_requests (s : State) (u a : Nat) (l : List Byte) : (s.setStore u a l).requests = s.requests := (rfl)
@[simp] theorem State.setStore_col (s : State) (u a : Nat) (l : List Byte) : (s.setStore u a l).col = s.col := (rfl)
@[simp] theorem State.setStore_lead (s : State) (u a : Nat) (l : List Byte) : (s.setStore u a l).lead = s.lead := (rfl)
@[simp] theorem State.setStore_host (s : State) (u a : Nat) (l : List Byte) : (s.setStore u a l).host = s.host := (rfl)
@[simp] theorem State.setStore_lapFlags (s : State) (u a : Nat) (l : List Byte) : (s.setStore u a l).lapFlags = s.lapFlags := (rfl)
@[simp] theorem State.setStore_bufBreach (s : State) (u a : Nat) (l : List Byte) : (s.setStore u a l).bufBreach = s.bufBreach := (rfl)
@[simp] theorem State.setStore_snaps (s : State) (u a : Nat) (l : List Byte) : (s.setStore u a l).snaps = s.snaps := (rfl)
@[simp] theorem State.setStore_restore (s : State) (u a : Nat) (l : List Byte) : (s.setStore u a l).restore = s.restore := (rfl)
@[simp] theorem State.setStore_partials (s : State) (u a : Nat) (l : List Byte) : (s.setStore u a l).partials = s.partials := (rfl)
@[simp] theorem State.setStore_silenced (s : State) (u a : Nat) (l : List Byte) : (s.setStore u a l).silenced = s.silenced := (rfl)
@[simp] theorem State.setStore_faultLog (s : State) (u a : Nat) (l : List Byte) : (s.setStore u a l).faultLog = s.faultLog := (rfl)
@[simp] theorem State.setStore_sec (s : State) (u a : Nat) (l : List Byte) : (s.setStore u a l).sec = s.sec := (rfl)
@[simp] theorem State.setStore_clkLog (s : State) (u a : Nat) (l : List Byte) : (s.setStore u a l).clkLog = s.clkLog := (rfl)
@[simp] theorem State.setStore_floors (s : State) (u a : Nat) (l : List Byte) : (s.setStore u a l).floors = s.floors := (rfl)
@[simp] theorem State.setStore_telQueue (s : State) (u a : Nat) (l : List Byte) : (s.setStore u a l).telQueue = s.telQueue := (rfl)
@[simp] theorem State.setStore_telSeq (s : State) (u a : Nat) (l : List Byte) : (s.setStore u a l).telSeq = s.telSeq := (rfl)
@[simp] theorem State.setStore_telLast (s : State) (u a : Nat) (l : List Byte) : (s.setStore u a l).telLast = s.telLast := (rfl)
@[simp] theorem State.setStore_repeats (s : State) (u a : Nat) (l : List Byte) : (s.setStore u a l).repeats = s.repeats := (rfl)
@[simp] theorem State.setStore_power (s : State) (u a : Nat) (l : List Byte) : (s.setStore u a l).power = s.power := (rfl)
@[simp] theorem State.setStore_frozen (s : State) (u a : Nat) (l : List Byte) : (s.setStore u a l).frozen = s.frozen := (rfl)
@[simp] theorem State.setStore_stopped (s : State) (u a : Nat) (l : List Byte) : (s.setStore u a l).stopped = s.stopped := (rfl)
@[simp] theorem State.setStore_shadow (s : State) (u a : Nat) (l : List Byte) : (s.setStore u a l).shadow = s.shadow := (rfl)
@[simp] theorem State.setStore_capture (s : State) (u a : Nat) (l : List Byte) : (s.setStore u a l).capture = s.capture := (rfl)
@[simp] theorem State.setStore_mems (s : State) (u a : Nat) (l : List Byte) : (s.setStore u a l).mems = s.mems := (rfl)
@[simp] theorem State.setStore_lapDeferred (s : State) (u a : Nat) (l : List Byte) : (s.setStore u a l).lapDeferred = s.lapDeferred := (rfl)
@[simp] theorem State.setStore_levels (s : State) (u a : Nat) (l : List Byte) : (s.setStore u a l).levels = s.levels := (rfl)
@[simp] theorem State.setStore_clk (s : State) (u a : Nat) (l : List Byte) : (s.setStore u a l).clk = s.clk := (rfl)
@[simp] theorem State.setStore_scrubLine (s : State) (u a : Nat) (l : List Byte) : (s.setStore u a l).scrubLine = s.scrubLine := (rfl)
@[simp] theorem State.setStore_pending (s : State) (u a : Nat) (l : List Byte) : (s.setStore u a l).pending = s.pending := (rfl)
@[simp] theorem State.setStore_out (s : State) (u a : Nat) (l : List Byte) : (s.setStore u a l).out = s.out := (rfl)
@[simp] theorem State.setStore_freeCtr (s : State) (u a : Nat) (l : List Byte) : (s.setStore u a l).freeCtr = s.freeCtr := (rfl)

/-! `setStream` changes `streams` only. -/

@[simp] theorem State.setStream_regs (s : State) (k : Nat) (x : Stream) : (s.setStream k x).regs = s.regs := (rfl)
@[simp] theorem State.setStream_rink (s : State) (k : Nat) (x : Stream) : (s.setStream k x).rink = s.rink := (rfl)
@[simp] theorem State.setStream_lpddr (s : State) (k : Nat) (x : Stream) : (s.setStream k x).lpddr = s.lpddr := (rfl)
@[simp] theorem State.setStream_flips (s : State) (k : Nat) (x : Stream) : (s.setStream k x).flips = s.flips := (rfl)
@[simp] theorem State.setStream_rinkErr (s : State) (k : Nat) (x : Stream) : (s.setStream k x).rinkErr = s.rinkErr := (rfl)
@[simp] theorem State.setStream_rinkQ (s : State) (k : Nat) (x : Stream) : (s.setStream k x).rinkQ = s.rinkQ := (rfl)
@[simp] theorem State.setStream_store (s : State) (k : Nat) (x : Stream) : (s.setStream k x).store = s.store := (rfl)
@[simp] theorem State.setStream_gsram (s : State) (k : Nat) (x : Stream) : (s.setStream k x).gsram = s.gsram := (rfl)
@[simp] theorem State.setStream_rstore (s : State) (k : Nat) (x : Stream) : (s.setStream k x).rstore = s.rstore := (rfl)
@[simp] theorem State.setStream_guard (s : State) (k : Nat) (x : Stream) : (s.setStream k x).guard = s.guard := (rfl)
@[simp] theorem State.setStream_tmpl (s : State) (k : Nat) (x : Stream) : (s.setStream k x).tmpl = s.tmpl := (rfl)
@[simp] theorem State.setStream_lap (s : State) (k : Nat) (x : Stream) : (s.setStream k x).lap = s.lap := (rfl)
@[simp] theorem State.setStream_ctxs (s : State) (k : Nat) (x : Stream) : (s.setStream k x).ctxs = s.ctxs := (rfl)
@[simp] theorem State.setStream_locker (s : State) (k : Nat) (x : Stream) : (s.setStream k x).locker = s.locker := (rfl)
@[simp] theorem State.setStream_gates (s : State) (k : Nat) (x : Stream) : (s.setStream k x).gates = s.gates := (rfl)
@[simp] theorem State.setStream_gmus (s : State) (k : Nat) (x : Stream) : (s.setStream k x).gmus = s.gmus := (rfl)
@[simp] theorem State.setStream_courses (s : State) (k : Nat) (x : Stream) : (s.setStream k x).courses = s.courses := (rfl)
@[simp] theorem State.setStream_loading (s : State) (k : Nat) (x : Stream) : (s.setStream k x).loading = s.loading := (rfl)
@[simp] theorem State.setStream_router (s : State) (k : Nat) (x : Stream) : (s.setStream k x).router = s.router := (rfl)
@[simp] theorem State.setStream_remotes (s : State) (k : Nat) (x : Stream) : (s.setStream k x).remotes = s.remotes := (rfl)
@[simp] theorem State.setStream_requests (s : State) (k : Nat) (x : Stream) : (s.setStream k x).requests = s.requests := (rfl)
@[simp] theorem State.setStream_col (s : State) (k : Nat) (x : Stream) : (s.setStream k x).col = s.col := (rfl)
@[simp] theorem State.setStream_lead (s : State) (k : Nat) (x : Stream) : (s.setStream k x).lead = s.lead := (rfl)
@[simp] theorem State.setStream_host (s : State) (k : Nat) (x : Stream) : (s.setStream k x).host = s.host := (rfl)
@[simp] theorem State.setStream_lapFlags (s : State) (k : Nat) (x : Stream) : (s.setStream k x).lapFlags = s.lapFlags := (rfl)
@[simp] theorem State.setStream_bufBreach (s : State) (k : Nat) (x : Stream) : (s.setStream k x).bufBreach = s.bufBreach := (rfl)
@[simp] theorem State.setStream_snaps (s : State) (k : Nat) (x : Stream) : (s.setStream k x).snaps = s.snaps := (rfl)
@[simp] theorem State.setStream_restore (s : State) (k : Nat) (x : Stream) : (s.setStream k x).restore = s.restore := (rfl)
@[simp] theorem State.setStream_partials (s : State) (k : Nat) (x : Stream) : (s.setStream k x).partials = s.partials := (rfl)
@[simp] theorem State.setStream_silenced (s : State) (k : Nat) (x : Stream) : (s.setStream k x).silenced = s.silenced := (rfl)
@[simp] theorem State.setStream_faultLog (s : State) (k : Nat) (x : Stream) : (s.setStream k x).faultLog = s.faultLog := (rfl)
@[simp] theorem State.setStream_sec (s : State) (k : Nat) (x : Stream) : (s.setStream k x).sec = s.sec := (rfl)
@[simp] theorem State.setStream_clkLog (s : State) (k : Nat) (x : Stream) : (s.setStream k x).clkLog = s.clkLog := (rfl)
@[simp] theorem State.setStream_floors (s : State) (k : Nat) (x : Stream) : (s.setStream k x).floors = s.floors := (rfl)
@[simp] theorem State.setStream_telQueue (s : State) (k : Nat) (x : Stream) : (s.setStream k x).telQueue = s.telQueue := (rfl)
@[simp] theorem State.setStream_telSeq (s : State) (k : Nat) (x : Stream) : (s.setStream k x).telSeq = s.telSeq := (rfl)
@[simp] theorem State.setStream_telLast (s : State) (k : Nat) (x : Stream) : (s.setStream k x).telLast = s.telLast := (rfl)
@[simp] theorem State.setStream_repeats (s : State) (k : Nat) (x : Stream) : (s.setStream k x).repeats = s.repeats := (rfl)
@[simp] theorem State.setStream_power (s : State) (k : Nat) (x : Stream) : (s.setStream k x).power = s.power := (rfl)
@[simp] theorem State.setStream_frozen (s : State) (k : Nat) (x : Stream) : (s.setStream k x).frozen = s.frozen := (rfl)
@[simp] theorem State.setStream_stopped (s : State) (k : Nat) (x : Stream) : (s.setStream k x).stopped = s.stopped := (rfl)
@[simp] theorem State.setStream_shadow (s : State) (k : Nat) (x : Stream) : (s.setStream k x).shadow = s.shadow := (rfl)
@[simp] theorem State.setStream_capture (s : State) (k : Nat) (x : Stream) : (s.setStream k x).capture = s.capture := (rfl)
@[simp] theorem State.setStream_mems (s : State) (k : Nat) (x : Stream) : (s.setStream k x).mems = s.mems := (rfl)
@[simp] theorem State.setStream_lapDeferred (s : State) (k : Nat) (x : Stream) : (s.setStream k x).lapDeferred = s.lapDeferred := (rfl)
@[simp] theorem State.setStream_levels (s : State) (k : Nat) (x : Stream) : (s.setStream k x).levels = s.levels := (rfl)
@[simp] theorem State.setStream_clk (s : State) (k : Nat) (x : Stream) : (s.setStream k x).clk = s.clk := (rfl)
@[simp] theorem State.setStream_scrubLine (s : State) (k : Nat) (x : Stream) : (s.setStream k x).scrubLine = s.scrubLine := (rfl)
@[simp] theorem State.setStream_pending (s : State) (k : Nat) (x : Stream) : (s.setStream k x).pending = s.pending := (rfl)
@[simp] theorem State.setStream_out (s : State) (k : Nat) (x : Stream) : (s.setStream k x).out = s.out := (rfl)
@[simp] theorem State.setStream_freeCtr (s : State) (k : Nat) (x : Stream) : (s.setStream k x).freeCtr = s.freeCtr := (rfl)

/-! `updStream` changes `streams` only. -/

@[simp] theorem State.updStream_regs (s : State) (k : Nat) (f : Stream → Stream) : (s.updStream k f).regs = s.regs := (rfl)
@[simp] theorem State.updStream_rink (s : State) (k : Nat) (f : Stream → Stream) : (s.updStream k f).rink = s.rink := (rfl)
@[simp] theorem State.updStream_lpddr (s : State) (k : Nat) (f : Stream → Stream) : (s.updStream k f).lpddr = s.lpddr := (rfl)
@[simp] theorem State.updStream_flips (s : State) (k : Nat) (f : Stream → Stream) : (s.updStream k f).flips = s.flips := (rfl)
@[simp] theorem State.updStream_rinkErr (s : State) (k : Nat) (f : Stream → Stream) : (s.updStream k f).rinkErr = s.rinkErr := (rfl)
@[simp] theorem State.updStream_rinkQ (s : State) (k : Nat) (f : Stream → Stream) : (s.updStream k f).rinkQ = s.rinkQ := (rfl)
@[simp] theorem State.updStream_store (s : State) (k : Nat) (f : Stream → Stream) : (s.updStream k f).store = s.store := (rfl)
@[simp] theorem State.updStream_gsram (s : State) (k : Nat) (f : Stream → Stream) : (s.updStream k f).gsram = s.gsram := (rfl)
@[simp] theorem State.updStream_rstore (s : State) (k : Nat) (f : Stream → Stream) : (s.updStream k f).rstore = s.rstore := (rfl)
@[simp] theorem State.updStream_guard (s : State) (k : Nat) (f : Stream → Stream) : (s.updStream k f).guard = s.guard := (rfl)
@[simp] theorem State.updStream_tmpl (s : State) (k : Nat) (f : Stream → Stream) : (s.updStream k f).tmpl = s.tmpl := (rfl)
@[simp] theorem State.updStream_lap (s : State) (k : Nat) (f : Stream → Stream) : (s.updStream k f).lap = s.lap := (rfl)
@[simp] theorem State.updStream_ctxs (s : State) (k : Nat) (f : Stream → Stream) : (s.updStream k f).ctxs = s.ctxs := (rfl)
@[simp] theorem State.updStream_locker (s : State) (k : Nat) (f : Stream → Stream) : (s.updStream k f).locker = s.locker := (rfl)
@[simp] theorem State.updStream_gates (s : State) (k : Nat) (f : Stream → Stream) : (s.updStream k f).gates = s.gates := (rfl)
@[simp] theorem State.updStream_gmus (s : State) (k : Nat) (f : Stream → Stream) : (s.updStream k f).gmus = s.gmus := (rfl)
@[simp] theorem State.updStream_courses (s : State) (k : Nat) (f : Stream → Stream) : (s.updStream k f).courses = s.courses := (rfl)
@[simp] theorem State.updStream_loading (s : State) (k : Nat) (f : Stream → Stream) : (s.updStream k f).loading = s.loading := (rfl)
@[simp] theorem State.updStream_router (s : State) (k : Nat) (f : Stream → Stream) : (s.updStream k f).router = s.router := (rfl)
@[simp] theorem State.updStream_remotes (s : State) (k : Nat) (f : Stream → Stream) : (s.updStream k f).remotes = s.remotes := (rfl)
@[simp] theorem State.updStream_requests (s : State) (k : Nat) (f : Stream → Stream) : (s.updStream k f).requests = s.requests := (rfl)
@[simp] theorem State.updStream_col (s : State) (k : Nat) (f : Stream → Stream) : (s.updStream k f).col = s.col := (rfl)
@[simp] theorem State.updStream_lead (s : State) (k : Nat) (f : Stream → Stream) : (s.updStream k f).lead = s.lead := (rfl)
@[simp] theorem State.updStream_host (s : State) (k : Nat) (f : Stream → Stream) : (s.updStream k f).host = s.host := (rfl)
@[simp] theorem State.updStream_lapFlags (s : State) (k : Nat) (f : Stream → Stream) : (s.updStream k f).lapFlags = s.lapFlags := (rfl)
@[simp] theorem State.updStream_bufBreach (s : State) (k : Nat) (f : Stream → Stream) : (s.updStream k f).bufBreach = s.bufBreach := (rfl)
@[simp] theorem State.updStream_snaps (s : State) (k : Nat) (f : Stream → Stream) : (s.updStream k f).snaps = s.snaps := (rfl)
@[simp] theorem State.updStream_restore (s : State) (k : Nat) (f : Stream → Stream) : (s.updStream k f).restore = s.restore := (rfl)
@[simp] theorem State.updStream_partials (s : State) (k : Nat) (f : Stream → Stream) : (s.updStream k f).partials = s.partials := (rfl)
@[simp] theorem State.updStream_silenced (s : State) (k : Nat) (f : Stream → Stream) : (s.updStream k f).silenced = s.silenced := (rfl)
@[simp] theorem State.updStream_faultLog (s : State) (k : Nat) (f : Stream → Stream) : (s.updStream k f).faultLog = s.faultLog := (rfl)
@[simp] theorem State.updStream_sec (s : State) (k : Nat) (f : Stream → Stream) : (s.updStream k f).sec = s.sec := (rfl)
@[simp] theorem State.updStream_clkLog (s : State) (k : Nat) (f : Stream → Stream) : (s.updStream k f).clkLog = s.clkLog := (rfl)
@[simp] theorem State.updStream_floors (s : State) (k : Nat) (f : Stream → Stream) : (s.updStream k f).floors = s.floors := (rfl)
@[simp] theorem State.updStream_telQueue (s : State) (k : Nat) (f : Stream → Stream) : (s.updStream k f).telQueue = s.telQueue := (rfl)
@[simp] theorem State.updStream_telSeq (s : State) (k : Nat) (f : Stream → Stream) : (s.updStream k f).telSeq = s.telSeq := (rfl)
@[simp] theorem State.updStream_telLast (s : State) (k : Nat) (f : Stream → Stream) : (s.updStream k f).telLast = s.telLast := (rfl)
@[simp] theorem State.updStream_repeats (s : State) (k : Nat) (f : Stream → Stream) : (s.updStream k f).repeats = s.repeats := (rfl)
@[simp] theorem State.updStream_power (s : State) (k : Nat) (f : Stream → Stream) : (s.updStream k f).power = s.power := (rfl)
@[simp] theorem State.updStream_frozen (s : State) (k : Nat) (f : Stream → Stream) : (s.updStream k f).frozen = s.frozen := (rfl)
@[simp] theorem State.updStream_stopped (s : State) (k : Nat) (f : Stream → Stream) : (s.updStream k f).stopped = s.stopped := (rfl)
@[simp] theorem State.updStream_shadow (s : State) (k : Nat) (f : Stream → Stream) : (s.updStream k f).shadow = s.shadow := (rfl)
@[simp] theorem State.updStream_capture (s : State) (k : Nat) (f : Stream → Stream) : (s.updStream k f).capture = s.capture := (rfl)
@[simp] theorem State.updStream_mems (s : State) (k : Nat) (f : Stream → Stream) : (s.updStream k f).mems = s.mems := (rfl)
@[simp] theorem State.updStream_lapDeferred (s : State) (k : Nat) (f : Stream → Stream) : (s.updStream k f).lapDeferred = s.lapDeferred := (rfl)
@[simp] theorem State.updStream_levels (s : State) (k : Nat) (f : Stream → Stream) : (s.updStream k f).levels = s.levels := (rfl)
@[simp] theorem State.updStream_clk (s : State) (k : Nat) (f : Stream → Stream) : (s.updStream k f).clk = s.clk := (rfl)
@[simp] theorem State.updStream_scrubLine (s : State) (k : Nat) (f : Stream → Stream) : (s.updStream k f).scrubLine = s.scrubLine := (rfl)
@[simp] theorem State.updStream_pending (s : State) (k : Nat) (f : Stream → Stream) : (s.updStream k f).pending = s.pending := (rfl)
@[simp] theorem State.updStream_out (s : State) (k : Nat) (f : Stream → Stream) : (s.updStream k f).out = s.out := (rfl)
@[simp] theorem State.updStream_freeCtr (s : State) (k : Nat) (f : Stream → Stream) : (s.updStream k f).freeCtr = s.freeCtr := (rfl)

/-! `setCtx` changes `ctxs` only. -/

@[simp] theorem State.setCtx_regs (s : State) (c : Nat) (x : Ctx) : (s.setCtx c x).regs = s.regs := (rfl)
@[simp] theorem State.setCtx_rink (s : State) (c : Nat) (x : Ctx) : (s.setCtx c x).rink = s.rink := (rfl)
@[simp] theorem State.setCtx_lpddr (s : State) (c : Nat) (x : Ctx) : (s.setCtx c x).lpddr = s.lpddr := (rfl)
@[simp] theorem State.setCtx_flips (s : State) (c : Nat) (x : Ctx) : (s.setCtx c x).flips = s.flips := (rfl)
@[simp] theorem State.setCtx_rinkErr (s : State) (c : Nat) (x : Ctx) : (s.setCtx c x).rinkErr = s.rinkErr := (rfl)
@[simp] theorem State.setCtx_rinkQ (s : State) (c : Nat) (x : Ctx) : (s.setCtx c x).rinkQ = s.rinkQ := (rfl)
@[simp] theorem State.setCtx_store (s : State) (c : Nat) (x : Ctx) : (s.setCtx c x).store = s.store := (rfl)
@[simp] theorem State.setCtx_gsram (s : State) (c : Nat) (x : Ctx) : (s.setCtx c x).gsram = s.gsram := (rfl)
@[simp] theorem State.setCtx_rstore (s : State) (c : Nat) (x : Ctx) : (s.setCtx c x).rstore = s.rstore := (rfl)
@[simp] theorem State.setCtx_guard (s : State) (c : Nat) (x : Ctx) : (s.setCtx c x).guard = s.guard := (rfl)
@[simp] theorem State.setCtx_tmpl (s : State) (c : Nat) (x : Ctx) : (s.setCtx c x).tmpl = s.tmpl := (rfl)
@[simp] theorem State.setCtx_lap (s : State) (c : Nat) (x : Ctx) : (s.setCtx c x).lap = s.lap := (rfl)
@[simp] theorem State.setCtx_streams (s : State) (c : Nat) (x : Ctx) : (s.setCtx c x).streams = s.streams := (rfl)
@[simp] theorem State.setCtx_locker (s : State) (c : Nat) (x : Ctx) : (s.setCtx c x).locker = s.locker := (rfl)
@[simp] theorem State.setCtx_gates (s : State) (c : Nat) (x : Ctx) : (s.setCtx c x).gates = s.gates := (rfl)
@[simp] theorem State.setCtx_gmus (s : State) (c : Nat) (x : Ctx) : (s.setCtx c x).gmus = s.gmus := (rfl)
@[simp] theorem State.setCtx_courses (s : State) (c : Nat) (x : Ctx) : (s.setCtx c x).courses = s.courses := (rfl)
@[simp] theorem State.setCtx_loading (s : State) (c : Nat) (x : Ctx) : (s.setCtx c x).loading = s.loading := (rfl)
@[simp] theorem State.setCtx_router (s : State) (c : Nat) (x : Ctx) : (s.setCtx c x).router = s.router := (rfl)
@[simp] theorem State.setCtx_remotes (s : State) (c : Nat) (x : Ctx) : (s.setCtx c x).remotes = s.remotes := (rfl)
@[simp] theorem State.setCtx_requests (s : State) (c : Nat) (x : Ctx) : (s.setCtx c x).requests = s.requests := (rfl)
@[simp] theorem State.setCtx_col (s : State) (c : Nat) (x : Ctx) : (s.setCtx c x).col = s.col := (rfl)
@[simp] theorem State.setCtx_lead (s : State) (c : Nat) (x : Ctx) : (s.setCtx c x).lead = s.lead := (rfl)
@[simp] theorem State.setCtx_host (s : State) (c : Nat) (x : Ctx) : (s.setCtx c x).host = s.host := (rfl)
@[simp] theorem State.setCtx_lapFlags (s : State) (c : Nat) (x : Ctx) : (s.setCtx c x).lapFlags = s.lapFlags := (rfl)
@[simp] theorem State.setCtx_bufBreach (s : State) (c : Nat) (x : Ctx) : (s.setCtx c x).bufBreach = s.bufBreach := (rfl)
@[simp] theorem State.setCtx_snaps (s : State) (c : Nat) (x : Ctx) : (s.setCtx c x).snaps = s.snaps := (rfl)
@[simp] theorem State.setCtx_restore (s : State) (c : Nat) (x : Ctx) : (s.setCtx c x).restore = s.restore := (rfl)
@[simp] theorem State.setCtx_partials (s : State) (c : Nat) (x : Ctx) : (s.setCtx c x).partials = s.partials := (rfl)
@[simp] theorem State.setCtx_silenced (s : State) (c : Nat) (x : Ctx) : (s.setCtx c x).silenced = s.silenced := (rfl)
@[simp] theorem State.setCtx_faultLog (s : State) (c : Nat) (x : Ctx) : (s.setCtx c x).faultLog = s.faultLog := (rfl)
@[simp] theorem State.setCtx_sec (s : State) (c : Nat) (x : Ctx) : (s.setCtx c x).sec = s.sec := (rfl)
@[simp] theorem State.setCtx_clkLog (s : State) (c : Nat) (x : Ctx) : (s.setCtx c x).clkLog = s.clkLog := (rfl)
@[simp] theorem State.setCtx_floors (s : State) (c : Nat) (x : Ctx) : (s.setCtx c x).floors = s.floors := (rfl)
@[simp] theorem State.setCtx_telQueue (s : State) (c : Nat) (x : Ctx) : (s.setCtx c x).telQueue = s.telQueue := (rfl)
@[simp] theorem State.setCtx_telSeq (s : State) (c : Nat) (x : Ctx) : (s.setCtx c x).telSeq = s.telSeq := (rfl)
@[simp] theorem State.setCtx_telLast (s : State) (c : Nat) (x : Ctx) : (s.setCtx c x).telLast = s.telLast := (rfl)
@[simp] theorem State.setCtx_repeats (s : State) (c : Nat) (x : Ctx) : (s.setCtx c x).repeats = s.repeats := (rfl)
@[simp] theorem State.setCtx_power (s : State) (c : Nat) (x : Ctx) : (s.setCtx c x).power = s.power := (rfl)
@[simp] theorem State.setCtx_frozen (s : State) (c : Nat) (x : Ctx) : (s.setCtx c x).frozen = s.frozen := (rfl)
@[simp] theorem State.setCtx_stopped (s : State) (c : Nat) (x : Ctx) : (s.setCtx c x).stopped = s.stopped := (rfl)
@[simp] theorem State.setCtx_shadow (s : State) (c : Nat) (x : Ctx) : (s.setCtx c x).shadow = s.shadow := (rfl)
@[simp] theorem State.setCtx_capture (s : State) (c : Nat) (x : Ctx) : (s.setCtx c x).capture = s.capture := (rfl)
@[simp] theorem State.setCtx_mems (s : State) (c : Nat) (x : Ctx) : (s.setCtx c x).mems = s.mems := (rfl)
@[simp] theorem State.setCtx_lapDeferred (s : State) (c : Nat) (x : Ctx) : (s.setCtx c x).lapDeferred = s.lapDeferred := (rfl)
@[simp] theorem State.setCtx_levels (s : State) (c : Nat) (x : Ctx) : (s.setCtx c x).levels = s.levels := (rfl)
@[simp] theorem State.setCtx_clk (s : State) (c : Nat) (x : Ctx) : (s.setCtx c x).clk = s.clk := (rfl)
@[simp] theorem State.setCtx_scrubLine (s : State) (c : Nat) (x : Ctx) : (s.setCtx c x).scrubLine = s.scrubLine := (rfl)
@[simp] theorem State.setCtx_pending (s : State) (c : Nat) (x : Ctx) : (s.setCtx c x).pending = s.pending := (rfl)
@[simp] theorem State.setCtx_out (s : State) (c : Nat) (x : Ctx) : (s.setCtx c x).out = s.out := (rfl)
@[simp] theorem State.setCtx_freeCtr (s : State) (c : Nat) (x : Ctx) : (s.setCtx c x).freeCtr = s.freeCtr := (rfl)

/-! `updCtx` changes `ctxs` only. -/

@[simp] theorem State.updCtx_regs (s : State) (c : Nat) (f : Ctx → Ctx) : (s.updCtx c f).regs = s.regs := (rfl)
@[simp] theorem State.updCtx_rink (s : State) (c : Nat) (f : Ctx → Ctx) : (s.updCtx c f).rink = s.rink := (rfl)
@[simp] theorem State.updCtx_lpddr (s : State) (c : Nat) (f : Ctx → Ctx) : (s.updCtx c f).lpddr = s.lpddr := (rfl)
@[simp] theorem State.updCtx_flips (s : State) (c : Nat) (f : Ctx → Ctx) : (s.updCtx c f).flips = s.flips := (rfl)
@[simp] theorem State.updCtx_rinkErr (s : State) (c : Nat) (f : Ctx → Ctx) : (s.updCtx c f).rinkErr = s.rinkErr := (rfl)
@[simp] theorem State.updCtx_rinkQ (s : State) (c : Nat) (f : Ctx → Ctx) : (s.updCtx c f).rinkQ = s.rinkQ := (rfl)
@[simp] theorem State.updCtx_store (s : State) (c : Nat) (f : Ctx → Ctx) : (s.updCtx c f).store = s.store := (rfl)
@[simp] theorem State.updCtx_gsram (s : State) (c : Nat) (f : Ctx → Ctx) : (s.updCtx c f).gsram = s.gsram := (rfl)
@[simp] theorem State.updCtx_rstore (s : State) (c : Nat) (f : Ctx → Ctx) : (s.updCtx c f).rstore = s.rstore := (rfl)
@[simp] theorem State.updCtx_guard (s : State) (c : Nat) (f : Ctx → Ctx) : (s.updCtx c f).guard = s.guard := (rfl)
@[simp] theorem State.updCtx_tmpl (s : State) (c : Nat) (f : Ctx → Ctx) : (s.updCtx c f).tmpl = s.tmpl := (rfl)
@[simp] theorem State.updCtx_lap (s : State) (c : Nat) (f : Ctx → Ctx) : (s.updCtx c f).lap = s.lap := (rfl)
@[simp] theorem State.updCtx_streams (s : State) (c : Nat) (f : Ctx → Ctx) : (s.updCtx c f).streams = s.streams := (rfl)
@[simp] theorem State.updCtx_locker (s : State) (c : Nat) (f : Ctx → Ctx) : (s.updCtx c f).locker = s.locker := (rfl)
@[simp] theorem State.updCtx_gates (s : State) (c : Nat) (f : Ctx → Ctx) : (s.updCtx c f).gates = s.gates := (rfl)
@[simp] theorem State.updCtx_gmus (s : State) (c : Nat) (f : Ctx → Ctx) : (s.updCtx c f).gmus = s.gmus := (rfl)
@[simp] theorem State.updCtx_courses (s : State) (c : Nat) (f : Ctx → Ctx) : (s.updCtx c f).courses = s.courses := (rfl)
@[simp] theorem State.updCtx_loading (s : State) (c : Nat) (f : Ctx → Ctx) : (s.updCtx c f).loading = s.loading := (rfl)
@[simp] theorem State.updCtx_router (s : State) (c : Nat) (f : Ctx → Ctx) : (s.updCtx c f).router = s.router := (rfl)
@[simp] theorem State.updCtx_remotes (s : State) (c : Nat) (f : Ctx → Ctx) : (s.updCtx c f).remotes = s.remotes := (rfl)
@[simp] theorem State.updCtx_requests (s : State) (c : Nat) (f : Ctx → Ctx) : (s.updCtx c f).requests = s.requests := (rfl)
@[simp] theorem State.updCtx_col (s : State) (c : Nat) (f : Ctx → Ctx) : (s.updCtx c f).col = s.col := (rfl)
@[simp] theorem State.updCtx_lead (s : State) (c : Nat) (f : Ctx → Ctx) : (s.updCtx c f).lead = s.lead := (rfl)
@[simp] theorem State.updCtx_host (s : State) (c : Nat) (f : Ctx → Ctx) : (s.updCtx c f).host = s.host := (rfl)
@[simp] theorem State.updCtx_lapFlags (s : State) (c : Nat) (f : Ctx → Ctx) : (s.updCtx c f).lapFlags = s.lapFlags := (rfl)
@[simp] theorem State.updCtx_bufBreach (s : State) (c : Nat) (f : Ctx → Ctx) : (s.updCtx c f).bufBreach = s.bufBreach := (rfl)
@[simp] theorem State.updCtx_snaps (s : State) (c : Nat) (f : Ctx → Ctx) : (s.updCtx c f).snaps = s.snaps := (rfl)
@[simp] theorem State.updCtx_restore (s : State) (c : Nat) (f : Ctx → Ctx) : (s.updCtx c f).restore = s.restore := (rfl)
@[simp] theorem State.updCtx_partials (s : State) (c : Nat) (f : Ctx → Ctx) : (s.updCtx c f).partials = s.partials := (rfl)
@[simp] theorem State.updCtx_silenced (s : State) (c : Nat) (f : Ctx → Ctx) : (s.updCtx c f).silenced = s.silenced := (rfl)
@[simp] theorem State.updCtx_faultLog (s : State) (c : Nat) (f : Ctx → Ctx) : (s.updCtx c f).faultLog = s.faultLog := (rfl)
@[simp] theorem State.updCtx_sec (s : State) (c : Nat) (f : Ctx → Ctx) : (s.updCtx c f).sec = s.sec := (rfl)
@[simp] theorem State.updCtx_clkLog (s : State) (c : Nat) (f : Ctx → Ctx) : (s.updCtx c f).clkLog = s.clkLog := (rfl)
@[simp] theorem State.updCtx_floors (s : State) (c : Nat) (f : Ctx → Ctx) : (s.updCtx c f).floors = s.floors := (rfl)
@[simp] theorem State.updCtx_telQueue (s : State) (c : Nat) (f : Ctx → Ctx) : (s.updCtx c f).telQueue = s.telQueue := (rfl)
@[simp] theorem State.updCtx_telSeq (s : State) (c : Nat) (f : Ctx → Ctx) : (s.updCtx c f).telSeq = s.telSeq := (rfl)
@[simp] theorem State.updCtx_telLast (s : State) (c : Nat) (f : Ctx → Ctx) : (s.updCtx c f).telLast = s.telLast := (rfl)
@[simp] theorem State.updCtx_repeats (s : State) (c : Nat) (f : Ctx → Ctx) : (s.updCtx c f).repeats = s.repeats := (rfl)
@[simp] theorem State.updCtx_power (s : State) (c : Nat) (f : Ctx → Ctx) : (s.updCtx c f).power = s.power := (rfl)
@[simp] theorem State.updCtx_frozen (s : State) (c : Nat) (f : Ctx → Ctx) : (s.updCtx c f).frozen = s.frozen := (rfl)
@[simp] theorem State.updCtx_stopped (s : State) (c : Nat) (f : Ctx → Ctx) : (s.updCtx c f).stopped = s.stopped := (rfl)
@[simp] theorem State.updCtx_shadow (s : State) (c : Nat) (f : Ctx → Ctx) : (s.updCtx c f).shadow = s.shadow := (rfl)
@[simp] theorem State.updCtx_capture (s : State) (c : Nat) (f : Ctx → Ctx) : (s.updCtx c f).capture = s.capture := (rfl)
@[simp] theorem State.updCtx_mems (s : State) (c : Nat) (f : Ctx → Ctx) : (s.updCtx c f).mems = s.mems := (rfl)
@[simp] theorem State.updCtx_lapDeferred (s : State) (c : Nat) (f : Ctx → Ctx) : (s.updCtx c f).lapDeferred = s.lapDeferred := (rfl)
@[simp] theorem State.updCtx_levels (s : State) (c : Nat) (f : Ctx → Ctx) : (s.updCtx c f).levels = s.levels := (rfl)
@[simp] theorem State.updCtx_clk (s : State) (c : Nat) (f : Ctx → Ctx) : (s.updCtx c f).clk = s.clk := (rfl)
@[simp] theorem State.updCtx_scrubLine (s : State) (c : Nat) (f : Ctx → Ctx) : (s.updCtx c f).scrubLine = s.scrubLine := (rfl)
@[simp] theorem State.updCtx_pending (s : State) (c : Nat) (f : Ctx → Ctx) : (s.updCtx c f).pending = s.pending := (rfl)
@[simp] theorem State.updCtx_out (s : State) (c : Nat) (f : Ctx → Ctx) : (s.updCtx c f).out = s.out := (rfl)
@[simp] theorem State.updCtx_freeCtr (s : State) (c : Nat) (f : Ctx → Ctx) : (s.updCtx c f).freeCtr = s.freeCtr := (rfl)

/-! `updGate` changes `gates` only. -/

@[simp] theorem State.updGate_regs (s : State) (g : Nat) (f : Gate → Gate) : (s.updGate g f).regs = s.regs := (rfl)
@[simp] theorem State.updGate_rink (s : State) (g : Nat) (f : Gate → Gate) : (s.updGate g f).rink = s.rink := (rfl)
@[simp] theorem State.updGate_lpddr (s : State) (g : Nat) (f : Gate → Gate) : (s.updGate g f).lpddr = s.lpddr := (rfl)
@[simp] theorem State.updGate_flips (s : State) (g : Nat) (f : Gate → Gate) : (s.updGate g f).flips = s.flips := (rfl)
@[simp] theorem State.updGate_rinkErr (s : State) (g : Nat) (f : Gate → Gate) : (s.updGate g f).rinkErr = s.rinkErr := (rfl)
@[simp] theorem State.updGate_rinkQ (s : State) (g : Nat) (f : Gate → Gate) : (s.updGate g f).rinkQ = s.rinkQ := (rfl)
@[simp] theorem State.updGate_store (s : State) (g : Nat) (f : Gate → Gate) : (s.updGate g f).store = s.store := (rfl)
@[simp] theorem State.updGate_gsram (s : State) (g : Nat) (f : Gate → Gate) : (s.updGate g f).gsram = s.gsram := (rfl)
@[simp] theorem State.updGate_rstore (s : State) (g : Nat) (f : Gate → Gate) : (s.updGate g f).rstore = s.rstore := (rfl)
@[simp] theorem State.updGate_guard (s : State) (g : Nat) (f : Gate → Gate) : (s.updGate g f).guard = s.guard := (rfl)
@[simp] theorem State.updGate_tmpl (s : State) (g : Nat) (f : Gate → Gate) : (s.updGate g f).tmpl = s.tmpl := (rfl)
@[simp] theorem State.updGate_lap (s : State) (g : Nat) (f : Gate → Gate) : (s.updGate g f).lap = s.lap := (rfl)
@[simp] theorem State.updGate_streams (s : State) (g : Nat) (f : Gate → Gate) : (s.updGate g f).streams = s.streams := (rfl)
@[simp] theorem State.updGate_ctxs (s : State) (g : Nat) (f : Gate → Gate) : (s.updGate g f).ctxs = s.ctxs := (rfl)
@[simp] theorem State.updGate_locker (s : State) (g : Nat) (f : Gate → Gate) : (s.updGate g f).locker = s.locker := (rfl)
@[simp] theorem State.updGate_gmus (s : State) (g : Nat) (f : Gate → Gate) : (s.updGate g f).gmus = s.gmus := (rfl)
@[simp] theorem State.updGate_courses (s : State) (g : Nat) (f : Gate → Gate) : (s.updGate g f).courses = s.courses := (rfl)
@[simp] theorem State.updGate_loading (s : State) (g : Nat) (f : Gate → Gate) : (s.updGate g f).loading = s.loading := (rfl)
@[simp] theorem State.updGate_router (s : State) (g : Nat) (f : Gate → Gate) : (s.updGate g f).router = s.router := (rfl)
@[simp] theorem State.updGate_remotes (s : State) (g : Nat) (f : Gate → Gate) : (s.updGate g f).remotes = s.remotes := (rfl)
@[simp] theorem State.updGate_requests (s : State) (g : Nat) (f : Gate → Gate) : (s.updGate g f).requests = s.requests := (rfl)
@[simp] theorem State.updGate_col (s : State) (g : Nat) (f : Gate → Gate) : (s.updGate g f).col = s.col := (rfl)
@[simp] theorem State.updGate_lead (s : State) (g : Nat) (f : Gate → Gate) : (s.updGate g f).lead = s.lead := (rfl)
@[simp] theorem State.updGate_host (s : State) (g : Nat) (f : Gate → Gate) : (s.updGate g f).host = s.host := (rfl)
@[simp] theorem State.updGate_lapFlags (s : State) (g : Nat) (f : Gate → Gate) : (s.updGate g f).lapFlags = s.lapFlags := (rfl)
@[simp] theorem State.updGate_bufBreach (s : State) (g : Nat) (f : Gate → Gate) : (s.updGate g f).bufBreach = s.bufBreach := (rfl)
@[simp] theorem State.updGate_snaps (s : State) (g : Nat) (f : Gate → Gate) : (s.updGate g f).snaps = s.snaps := (rfl)
@[simp] theorem State.updGate_restore (s : State) (g : Nat) (f : Gate → Gate) : (s.updGate g f).restore = s.restore := (rfl)
@[simp] theorem State.updGate_partials (s : State) (g : Nat) (f : Gate → Gate) : (s.updGate g f).partials = s.partials := (rfl)
@[simp] theorem State.updGate_silenced (s : State) (g : Nat) (f : Gate → Gate) : (s.updGate g f).silenced = s.silenced := (rfl)
@[simp] theorem State.updGate_faultLog (s : State) (g : Nat) (f : Gate → Gate) : (s.updGate g f).faultLog = s.faultLog := (rfl)
@[simp] theorem State.updGate_sec (s : State) (g : Nat) (f : Gate → Gate) : (s.updGate g f).sec = s.sec := (rfl)
@[simp] theorem State.updGate_clkLog (s : State) (g : Nat) (f : Gate → Gate) : (s.updGate g f).clkLog = s.clkLog := (rfl)
@[simp] theorem State.updGate_floors (s : State) (g : Nat) (f : Gate → Gate) : (s.updGate g f).floors = s.floors := (rfl)
@[simp] theorem State.updGate_telQueue (s : State) (g : Nat) (f : Gate → Gate) : (s.updGate g f).telQueue = s.telQueue := (rfl)
@[simp] theorem State.updGate_telSeq (s : State) (g : Nat) (f : Gate → Gate) : (s.updGate g f).telSeq = s.telSeq := (rfl)
@[simp] theorem State.updGate_telLast (s : State) (g : Nat) (f : Gate → Gate) : (s.updGate g f).telLast = s.telLast := (rfl)
@[simp] theorem State.updGate_repeats (s : State) (g : Nat) (f : Gate → Gate) : (s.updGate g f).repeats = s.repeats := (rfl)
@[simp] theorem State.updGate_power (s : State) (g : Nat) (f : Gate → Gate) : (s.updGate g f).power = s.power := (rfl)
@[simp] theorem State.updGate_frozen (s : State) (g : Nat) (f : Gate → Gate) : (s.updGate g f).frozen = s.frozen := (rfl)
@[simp] theorem State.updGate_stopped (s : State) (g : Nat) (f : Gate → Gate) : (s.updGate g f).stopped = s.stopped := (rfl)
@[simp] theorem State.updGate_shadow (s : State) (g : Nat) (f : Gate → Gate) : (s.updGate g f).shadow = s.shadow := (rfl)
@[simp] theorem State.updGate_capture (s : State) (g : Nat) (f : Gate → Gate) : (s.updGate g f).capture = s.capture := (rfl)
@[simp] theorem State.updGate_mems (s : State) (g : Nat) (f : Gate → Gate) : (s.updGate g f).mems = s.mems := (rfl)
@[simp] theorem State.updGate_lapDeferred (s : State) (g : Nat) (f : Gate → Gate) : (s.updGate g f).lapDeferred = s.lapDeferred := (rfl)
@[simp] theorem State.updGate_levels (s : State) (g : Nat) (f : Gate → Gate) : (s.updGate g f).levels = s.levels := (rfl)
@[simp] theorem State.updGate_clk (s : State) (g : Nat) (f : Gate → Gate) : (s.updGate g f).clk = s.clk := (rfl)
@[simp] theorem State.updGate_scrubLine (s : State) (g : Nat) (f : Gate → Gate) : (s.updGate g f).scrubLine = s.scrubLine := (rfl)
@[simp] theorem State.updGate_pending (s : State) (g : Nat) (f : Gate → Gate) : (s.updGate g f).pending = s.pending := (rfl)
@[simp] theorem State.updGate_out (s : State) (g : Nat) (f : Gate → Gate) : (s.updGate g f).out = s.out := (rfl)
@[simp] theorem State.updGate_freeCtr (s : State) (g : Nat) (f : Gate → Gate) : (s.updGate g f).freeCtr = s.freeCtr := (rfl)

/-! `updRouter` changes `router` only. -/

@[simp] theorem State.updRouter_regs (s : State) (f : Router → Router) : (s.updRouter f).regs = s.regs := (rfl)
@[simp] theorem State.updRouter_rink (s : State) (f : Router → Router) : (s.updRouter f).rink = s.rink := (rfl)
@[simp] theorem State.updRouter_lpddr (s : State) (f : Router → Router) : (s.updRouter f).lpddr = s.lpddr := (rfl)
@[simp] theorem State.updRouter_flips (s : State) (f : Router → Router) : (s.updRouter f).flips = s.flips := (rfl)
@[simp] theorem State.updRouter_rinkErr (s : State) (f : Router → Router) : (s.updRouter f).rinkErr = s.rinkErr := (rfl)
@[simp] theorem State.updRouter_rinkQ (s : State) (f : Router → Router) : (s.updRouter f).rinkQ = s.rinkQ := (rfl)
@[simp] theorem State.updRouter_store (s : State) (f : Router → Router) : (s.updRouter f).store = s.store := (rfl)
@[simp] theorem State.updRouter_gsram (s : State) (f : Router → Router) : (s.updRouter f).gsram = s.gsram := (rfl)
@[simp] theorem State.updRouter_rstore (s : State) (f : Router → Router) : (s.updRouter f).rstore = s.rstore := (rfl)
@[simp] theorem State.updRouter_guard (s : State) (f : Router → Router) : (s.updRouter f).guard = s.guard := (rfl)
@[simp] theorem State.updRouter_tmpl (s : State) (f : Router → Router) : (s.updRouter f).tmpl = s.tmpl := (rfl)
@[simp] theorem State.updRouter_lap (s : State) (f : Router → Router) : (s.updRouter f).lap = s.lap := (rfl)
@[simp] theorem State.updRouter_streams (s : State) (f : Router → Router) : (s.updRouter f).streams = s.streams := (rfl)
@[simp] theorem State.updRouter_ctxs (s : State) (f : Router → Router) : (s.updRouter f).ctxs = s.ctxs := (rfl)
@[simp] theorem State.updRouter_locker (s : State) (f : Router → Router) : (s.updRouter f).locker = s.locker := (rfl)
@[simp] theorem State.updRouter_gates (s : State) (f : Router → Router) : (s.updRouter f).gates = s.gates := (rfl)
@[simp] theorem State.updRouter_gmus (s : State) (f : Router → Router) : (s.updRouter f).gmus = s.gmus := (rfl)
@[simp] theorem State.updRouter_courses (s : State) (f : Router → Router) : (s.updRouter f).courses = s.courses := (rfl)
@[simp] theorem State.updRouter_loading (s : State) (f : Router → Router) : (s.updRouter f).loading = s.loading := (rfl)
@[simp] theorem State.updRouter_remotes (s : State) (f : Router → Router) : (s.updRouter f).remotes = s.remotes := (rfl)
@[simp] theorem State.updRouter_requests (s : State) (f : Router → Router) : (s.updRouter f).requests = s.requests := (rfl)
@[simp] theorem State.updRouter_col (s : State) (f : Router → Router) : (s.updRouter f).col = s.col := (rfl)
@[simp] theorem State.updRouter_lead (s : State) (f : Router → Router) : (s.updRouter f).lead = s.lead := (rfl)
@[simp] theorem State.updRouter_host (s : State) (f : Router → Router) : (s.updRouter f).host = s.host := (rfl)
@[simp] theorem State.updRouter_lapFlags (s : State) (f : Router → Router) : (s.updRouter f).lapFlags = s.lapFlags := (rfl)
@[simp] theorem State.updRouter_bufBreach (s : State) (f : Router → Router) : (s.updRouter f).bufBreach = s.bufBreach := (rfl)
@[simp] theorem State.updRouter_snaps (s : State) (f : Router → Router) : (s.updRouter f).snaps = s.snaps := (rfl)
@[simp] theorem State.updRouter_restore (s : State) (f : Router → Router) : (s.updRouter f).restore = s.restore := (rfl)
@[simp] theorem State.updRouter_partials (s : State) (f : Router → Router) : (s.updRouter f).partials = s.partials := (rfl)
@[simp] theorem State.updRouter_silenced (s : State) (f : Router → Router) : (s.updRouter f).silenced = s.silenced := (rfl)
@[simp] theorem State.updRouter_faultLog (s : State) (f : Router → Router) : (s.updRouter f).faultLog = s.faultLog := (rfl)
@[simp] theorem State.updRouter_sec (s : State) (f : Router → Router) : (s.updRouter f).sec = s.sec := (rfl)
@[simp] theorem State.updRouter_clkLog (s : State) (f : Router → Router) : (s.updRouter f).clkLog = s.clkLog := (rfl)
@[simp] theorem State.updRouter_floors (s : State) (f : Router → Router) : (s.updRouter f).floors = s.floors := (rfl)
@[simp] theorem State.updRouter_telQueue (s : State) (f : Router → Router) : (s.updRouter f).telQueue = s.telQueue := (rfl)
@[simp] theorem State.updRouter_telSeq (s : State) (f : Router → Router) : (s.updRouter f).telSeq = s.telSeq := (rfl)
@[simp] theorem State.updRouter_telLast (s : State) (f : Router → Router) : (s.updRouter f).telLast = s.telLast := (rfl)
@[simp] theorem State.updRouter_repeats (s : State) (f : Router → Router) : (s.updRouter f).repeats = s.repeats := (rfl)
@[simp] theorem State.updRouter_power (s : State) (f : Router → Router) : (s.updRouter f).power = s.power := (rfl)
@[simp] theorem State.updRouter_frozen (s : State) (f : Router → Router) : (s.updRouter f).frozen = s.frozen := (rfl)
@[simp] theorem State.updRouter_stopped (s : State) (f : Router → Router) : (s.updRouter f).stopped = s.stopped := (rfl)
@[simp] theorem State.updRouter_shadow (s : State) (f : Router → Router) : (s.updRouter f).shadow = s.shadow := (rfl)
@[simp] theorem State.updRouter_capture (s : State) (f : Router → Router) : (s.updRouter f).capture = s.capture := (rfl)
@[simp] theorem State.updRouter_mems (s : State) (f : Router → Router) : (s.updRouter f).mems = s.mems := (rfl)
@[simp] theorem State.updRouter_lapDeferred (s : State) (f : Router → Router) : (s.updRouter f).lapDeferred = s.lapDeferred := (rfl)
@[simp] theorem State.updRouter_levels (s : State) (f : Router → Router) : (s.updRouter f).levels = s.levels := (rfl)
@[simp] theorem State.updRouter_clk (s : State) (f : Router → Router) : (s.updRouter f).clk = s.clk := (rfl)
@[simp] theorem State.updRouter_scrubLine (s : State) (f : Router → Router) : (s.updRouter f).scrubLine = s.scrubLine := (rfl)
@[simp] theorem State.updRouter_pending (s : State) (f : Router → Router) : (s.updRouter f).pending = s.pending := (rfl)
@[simp] theorem State.updRouter_out (s : State) (f : Router → Router) : (s.updRouter f).out = s.out := (rfl)
@[simp] theorem State.updRouter_freeCtr (s : State) (f : Router → Router) : (s.updRouter f).freeCtr = s.freeCtr := (rfl)

/-! `updPort` changes `router` only. -/

@[simp] theorem State.updPort_regs (s : State) (n : Nat) (f : Port → Port) : (s.updPort n f).regs = s.regs := (rfl)
@[simp] theorem State.updPort_rink (s : State) (n : Nat) (f : Port → Port) : (s.updPort n f).rink = s.rink := (rfl)
@[simp] theorem State.updPort_lpddr (s : State) (n : Nat) (f : Port → Port) : (s.updPort n f).lpddr = s.lpddr := (rfl)
@[simp] theorem State.updPort_flips (s : State) (n : Nat) (f : Port → Port) : (s.updPort n f).flips = s.flips := (rfl)
@[simp] theorem State.updPort_rinkErr (s : State) (n : Nat) (f : Port → Port) : (s.updPort n f).rinkErr = s.rinkErr := (rfl)
@[simp] theorem State.updPort_rinkQ (s : State) (n : Nat) (f : Port → Port) : (s.updPort n f).rinkQ = s.rinkQ := (rfl)
@[simp] theorem State.updPort_store (s : State) (n : Nat) (f : Port → Port) : (s.updPort n f).store = s.store := (rfl)
@[simp] theorem State.updPort_gsram (s : State) (n : Nat) (f : Port → Port) : (s.updPort n f).gsram = s.gsram := (rfl)
@[simp] theorem State.updPort_rstore (s : State) (n : Nat) (f : Port → Port) : (s.updPort n f).rstore = s.rstore := (rfl)
@[simp] theorem State.updPort_guard (s : State) (n : Nat) (f : Port → Port) : (s.updPort n f).guard = s.guard := (rfl)
@[simp] theorem State.updPort_tmpl (s : State) (n : Nat) (f : Port → Port) : (s.updPort n f).tmpl = s.tmpl := (rfl)
@[simp] theorem State.updPort_lap (s : State) (n : Nat) (f : Port → Port) : (s.updPort n f).lap = s.lap := (rfl)
@[simp] theorem State.updPort_streams (s : State) (n : Nat) (f : Port → Port) : (s.updPort n f).streams = s.streams := (rfl)
@[simp] theorem State.updPort_ctxs (s : State) (n : Nat) (f : Port → Port) : (s.updPort n f).ctxs = s.ctxs := (rfl)
@[simp] theorem State.updPort_locker (s : State) (n : Nat) (f : Port → Port) : (s.updPort n f).locker = s.locker := (rfl)
@[simp] theorem State.updPort_gates (s : State) (n : Nat) (f : Port → Port) : (s.updPort n f).gates = s.gates := (rfl)
@[simp] theorem State.updPort_gmus (s : State) (n : Nat) (f : Port → Port) : (s.updPort n f).gmus = s.gmus := (rfl)
@[simp] theorem State.updPort_courses (s : State) (n : Nat) (f : Port → Port) : (s.updPort n f).courses = s.courses := (rfl)
@[simp] theorem State.updPort_loading (s : State) (n : Nat) (f : Port → Port) : (s.updPort n f).loading = s.loading := (rfl)
@[simp] theorem State.updPort_remotes (s : State) (n : Nat) (f : Port → Port) : (s.updPort n f).remotes = s.remotes := (rfl)
@[simp] theorem State.updPort_requests (s : State) (n : Nat) (f : Port → Port) : (s.updPort n f).requests = s.requests := (rfl)
@[simp] theorem State.updPort_col (s : State) (n : Nat) (f : Port → Port) : (s.updPort n f).col = s.col := (rfl)
@[simp] theorem State.updPort_lead (s : State) (n : Nat) (f : Port → Port) : (s.updPort n f).lead = s.lead := (rfl)
@[simp] theorem State.updPort_host (s : State) (n : Nat) (f : Port → Port) : (s.updPort n f).host = s.host := (rfl)
@[simp] theorem State.updPort_lapFlags (s : State) (n : Nat) (f : Port → Port) : (s.updPort n f).lapFlags = s.lapFlags := (rfl)
@[simp] theorem State.updPort_bufBreach (s : State) (n : Nat) (f : Port → Port) : (s.updPort n f).bufBreach = s.bufBreach := (rfl)
@[simp] theorem State.updPort_snaps (s : State) (n : Nat) (f : Port → Port) : (s.updPort n f).snaps = s.snaps := (rfl)
@[simp] theorem State.updPort_restore (s : State) (n : Nat) (f : Port → Port) : (s.updPort n f).restore = s.restore := (rfl)
@[simp] theorem State.updPort_partials (s : State) (n : Nat) (f : Port → Port) : (s.updPort n f).partials = s.partials := (rfl)
@[simp] theorem State.updPort_silenced (s : State) (n : Nat) (f : Port → Port) : (s.updPort n f).silenced = s.silenced := (rfl)
@[simp] theorem State.updPort_faultLog (s : State) (n : Nat) (f : Port → Port) : (s.updPort n f).faultLog = s.faultLog := (rfl)
@[simp] theorem State.updPort_sec (s : State) (n : Nat) (f : Port → Port) : (s.updPort n f).sec = s.sec := (rfl)
@[simp] theorem State.updPort_clkLog (s : State) (n : Nat) (f : Port → Port) : (s.updPort n f).clkLog = s.clkLog := (rfl)
@[simp] theorem State.updPort_floors (s : State) (n : Nat) (f : Port → Port) : (s.updPort n f).floors = s.floors := (rfl)
@[simp] theorem State.updPort_telQueue (s : State) (n : Nat) (f : Port → Port) : (s.updPort n f).telQueue = s.telQueue := (rfl)
@[simp] theorem State.updPort_telSeq (s : State) (n : Nat) (f : Port → Port) : (s.updPort n f).telSeq = s.telSeq := (rfl)
@[simp] theorem State.updPort_telLast (s : State) (n : Nat) (f : Port → Port) : (s.updPort n f).telLast = s.telLast := (rfl)
@[simp] theorem State.updPort_repeats (s : State) (n : Nat) (f : Port → Port) : (s.updPort n f).repeats = s.repeats := (rfl)
@[simp] theorem State.updPort_power (s : State) (n : Nat) (f : Port → Port) : (s.updPort n f).power = s.power := (rfl)
@[simp] theorem State.updPort_frozen (s : State) (n : Nat) (f : Port → Port) : (s.updPort n f).frozen = s.frozen := (rfl)
@[simp] theorem State.updPort_stopped (s : State) (n : Nat) (f : Port → Port) : (s.updPort n f).stopped = s.stopped := (rfl)
@[simp] theorem State.updPort_shadow (s : State) (n : Nat) (f : Port → Port) : (s.updPort n f).shadow = s.shadow := (rfl)
@[simp] theorem State.updPort_capture (s : State) (n : Nat) (f : Port → Port) : (s.updPort n f).capture = s.capture := (rfl)
@[simp] theorem State.updPort_mems (s : State) (n : Nat) (f : Port → Port) : (s.updPort n f).mems = s.mems := (rfl)
@[simp] theorem State.updPort_lapDeferred (s : State) (n : Nat) (f : Port → Port) : (s.updPort n f).lapDeferred = s.lapDeferred := (rfl)
@[simp] theorem State.updPort_levels (s : State) (n : Nat) (f : Port → Port) : (s.updPort n f).levels = s.levels := (rfl)
@[simp] theorem State.updPort_clk (s : State) (n : Nat) (f : Port → Port) : (s.updPort n f).clk = s.clk := (rfl)
@[simp] theorem State.updPort_scrubLine (s : State) (n : Nat) (f : Port → Port) : (s.updPort n f).scrubLine = s.scrubLine := (rfl)
@[simp] theorem State.updPort_pending (s : State) (n : Nat) (f : Port → Port) : (s.updPort n f).pending = s.pending := (rfl)
@[simp] theorem State.updPort_out (s : State) (n : Nat) (f : Port → Port) : (s.updPort n f).out = s.out := (rfl)
@[simp] theorem State.updPort_freeCtr (s : State) (n : Nat) (f : Port → Port) : (s.updPort n f).freeCtr = s.freeCtr := (rfl)

/-! `updCol` changes `col` only. -/

@[simp] theorem State.updCol_regs (s : State) (f : Col → Col) : (s.updCol f).regs = s.regs := (rfl)
@[simp] theorem State.updCol_rink (s : State) (f : Col → Col) : (s.updCol f).rink = s.rink := (rfl)
@[simp] theorem State.updCol_lpddr (s : State) (f : Col → Col) : (s.updCol f).lpddr = s.lpddr := (rfl)
@[simp] theorem State.updCol_flips (s : State) (f : Col → Col) : (s.updCol f).flips = s.flips := (rfl)
@[simp] theorem State.updCol_rinkErr (s : State) (f : Col → Col) : (s.updCol f).rinkErr = s.rinkErr := (rfl)
@[simp] theorem State.updCol_rinkQ (s : State) (f : Col → Col) : (s.updCol f).rinkQ = s.rinkQ := (rfl)
@[simp] theorem State.updCol_store (s : State) (f : Col → Col) : (s.updCol f).store = s.store := (rfl)
@[simp] theorem State.updCol_gsram (s : State) (f : Col → Col) : (s.updCol f).gsram = s.gsram := (rfl)
@[simp] theorem State.updCol_rstore (s : State) (f : Col → Col) : (s.updCol f).rstore = s.rstore := (rfl)
@[simp] theorem State.updCol_guard (s : State) (f : Col → Col) : (s.updCol f).guard = s.guard := (rfl)
@[simp] theorem State.updCol_tmpl (s : State) (f : Col → Col) : (s.updCol f).tmpl = s.tmpl := (rfl)
@[simp] theorem State.updCol_lap (s : State) (f : Col → Col) : (s.updCol f).lap = s.lap := (rfl)
@[simp] theorem State.updCol_streams (s : State) (f : Col → Col) : (s.updCol f).streams = s.streams := (rfl)
@[simp] theorem State.updCol_ctxs (s : State) (f : Col → Col) : (s.updCol f).ctxs = s.ctxs := (rfl)
@[simp] theorem State.updCol_locker (s : State) (f : Col → Col) : (s.updCol f).locker = s.locker := (rfl)
@[simp] theorem State.updCol_gates (s : State) (f : Col → Col) : (s.updCol f).gates = s.gates := (rfl)
@[simp] theorem State.updCol_gmus (s : State) (f : Col → Col) : (s.updCol f).gmus = s.gmus := (rfl)
@[simp] theorem State.updCol_courses (s : State) (f : Col → Col) : (s.updCol f).courses = s.courses := (rfl)
@[simp] theorem State.updCol_loading (s : State) (f : Col → Col) : (s.updCol f).loading = s.loading := (rfl)
@[simp] theorem State.updCol_router (s : State) (f : Col → Col) : (s.updCol f).router = s.router := (rfl)
@[simp] theorem State.updCol_remotes (s : State) (f : Col → Col) : (s.updCol f).remotes = s.remotes := (rfl)
@[simp] theorem State.updCol_requests (s : State) (f : Col → Col) : (s.updCol f).requests = s.requests := (rfl)
@[simp] theorem State.updCol_lead (s : State) (f : Col → Col) : (s.updCol f).lead = s.lead := (rfl)
@[simp] theorem State.updCol_host (s : State) (f : Col → Col) : (s.updCol f).host = s.host := (rfl)
@[simp] theorem State.updCol_lapFlags (s : State) (f : Col → Col) : (s.updCol f).lapFlags = s.lapFlags := (rfl)
@[simp] theorem State.updCol_bufBreach (s : State) (f : Col → Col) : (s.updCol f).bufBreach = s.bufBreach := (rfl)
@[simp] theorem State.updCol_snaps (s : State) (f : Col → Col) : (s.updCol f).snaps = s.snaps := (rfl)
@[simp] theorem State.updCol_restore (s : State) (f : Col → Col) : (s.updCol f).restore = s.restore := (rfl)
@[simp] theorem State.updCol_partials (s : State) (f : Col → Col) : (s.updCol f).partials = s.partials := (rfl)
@[simp] theorem State.updCol_silenced (s : State) (f : Col → Col) : (s.updCol f).silenced = s.silenced := (rfl)
@[simp] theorem State.updCol_faultLog (s : State) (f : Col → Col) : (s.updCol f).faultLog = s.faultLog := (rfl)
@[simp] theorem State.updCol_sec (s : State) (f : Col → Col) : (s.updCol f).sec = s.sec := (rfl)
@[simp] theorem State.updCol_clkLog (s : State) (f : Col → Col) : (s.updCol f).clkLog = s.clkLog := (rfl)
@[simp] theorem State.updCol_floors (s : State) (f : Col → Col) : (s.updCol f).floors = s.floors := (rfl)
@[simp] theorem State.updCol_telQueue (s : State) (f : Col → Col) : (s.updCol f).telQueue = s.telQueue := (rfl)
@[simp] theorem State.updCol_telSeq (s : State) (f : Col → Col) : (s.updCol f).telSeq = s.telSeq := (rfl)
@[simp] theorem State.updCol_telLast (s : State) (f : Col → Col) : (s.updCol f).telLast = s.telLast := (rfl)
@[simp] theorem State.updCol_repeats (s : State) (f : Col → Col) : (s.updCol f).repeats = s.repeats := (rfl)
@[simp] theorem State.updCol_power (s : State) (f : Col → Col) : (s.updCol f).power = s.power := (rfl)
@[simp] theorem State.updCol_frozen (s : State) (f : Col → Col) : (s.updCol f).frozen = s.frozen := (rfl)
@[simp] theorem State.updCol_stopped (s : State) (f : Col → Col) : (s.updCol f).stopped = s.stopped := (rfl)
@[simp] theorem State.updCol_shadow (s : State) (f : Col → Col) : (s.updCol f).shadow = s.shadow := (rfl)
@[simp] theorem State.updCol_capture (s : State) (f : Col → Col) : (s.updCol f).capture = s.capture := (rfl)
@[simp] theorem State.updCol_mems (s : State) (f : Col → Col) : (s.updCol f).mems = s.mems := (rfl)
@[simp] theorem State.updCol_lapDeferred (s : State) (f : Col → Col) : (s.updCol f).lapDeferred = s.lapDeferred := (rfl)
@[simp] theorem State.updCol_levels (s : State) (f : Col → Col) : (s.updCol f).levels = s.levels := (rfl)
@[simp] theorem State.updCol_clk (s : State) (f : Col → Col) : (s.updCol f).clk = s.clk := (rfl)
@[simp] theorem State.updCol_scrubLine (s : State) (f : Col → Col) : (s.updCol f).scrubLine = s.scrubLine := (rfl)
@[simp] theorem State.updCol_pending (s : State) (f : Col → Col) : (s.updCol f).pending = s.pending := (rfl)
@[simp] theorem State.updCol_out (s : State) (f : Col → Col) : (s.updCol f).out = s.out := (rfl)
@[simp] theorem State.updCol_freeCtr (s : State) (f : Col → Col) : (s.updCol f).freeCtr = s.freeCtr := (rfl)

/-! `updLap` changes `lap` only. -/

@[simp] theorem State.updLap_regs (s : State) (f : LapUnit → LapUnit) : (s.updLap f).regs = s.regs := (rfl)
@[simp] theorem State.updLap_rink (s : State) (f : LapUnit → LapUnit) : (s.updLap f).rink = s.rink := (rfl)
@[simp] theorem State.updLap_lpddr (s : State) (f : LapUnit → LapUnit) : (s.updLap f).lpddr = s.lpddr := (rfl)
@[simp] theorem State.updLap_flips (s : State) (f : LapUnit → LapUnit) : (s.updLap f).flips = s.flips := (rfl)
@[simp] theorem State.updLap_rinkErr (s : State) (f : LapUnit → LapUnit) : (s.updLap f).rinkErr = s.rinkErr := (rfl)
@[simp] theorem State.updLap_rinkQ (s : State) (f : LapUnit → LapUnit) : (s.updLap f).rinkQ = s.rinkQ := (rfl)
@[simp] theorem State.updLap_store (s : State) (f : LapUnit → LapUnit) : (s.updLap f).store = s.store := (rfl)
@[simp] theorem State.updLap_gsram (s : State) (f : LapUnit → LapUnit) : (s.updLap f).gsram = s.gsram := (rfl)
@[simp] theorem State.updLap_rstore (s : State) (f : LapUnit → LapUnit) : (s.updLap f).rstore = s.rstore := (rfl)
@[simp] theorem State.updLap_guard (s : State) (f : LapUnit → LapUnit) : (s.updLap f).guard = s.guard := (rfl)
@[simp] theorem State.updLap_tmpl (s : State) (f : LapUnit → LapUnit) : (s.updLap f).tmpl = s.tmpl := (rfl)
@[simp] theorem State.updLap_streams (s : State) (f : LapUnit → LapUnit) : (s.updLap f).streams = s.streams := (rfl)
@[simp] theorem State.updLap_ctxs (s : State) (f : LapUnit → LapUnit) : (s.updLap f).ctxs = s.ctxs := (rfl)
@[simp] theorem State.updLap_locker (s : State) (f : LapUnit → LapUnit) : (s.updLap f).locker = s.locker := (rfl)
@[simp] theorem State.updLap_gates (s : State) (f : LapUnit → LapUnit) : (s.updLap f).gates = s.gates := (rfl)
@[simp] theorem State.updLap_gmus (s : State) (f : LapUnit → LapUnit) : (s.updLap f).gmus = s.gmus := (rfl)
@[simp] theorem State.updLap_courses (s : State) (f : LapUnit → LapUnit) : (s.updLap f).courses = s.courses := (rfl)
@[simp] theorem State.updLap_loading (s : State) (f : LapUnit → LapUnit) : (s.updLap f).loading = s.loading := (rfl)
@[simp] theorem State.updLap_router (s : State) (f : LapUnit → LapUnit) : (s.updLap f).router = s.router := (rfl)
@[simp] theorem State.updLap_remotes (s : State) (f : LapUnit → LapUnit) : (s.updLap f).remotes = s.remotes := (rfl)
@[simp] theorem State.updLap_requests (s : State) (f : LapUnit → LapUnit) : (s.updLap f).requests = s.requests := (rfl)
@[simp] theorem State.updLap_col (s : State) (f : LapUnit → LapUnit) : (s.updLap f).col = s.col := (rfl)
@[simp] theorem State.updLap_lead (s : State) (f : LapUnit → LapUnit) : (s.updLap f).lead = s.lead := (rfl)
@[simp] theorem State.updLap_host (s : State) (f : LapUnit → LapUnit) : (s.updLap f).host = s.host := (rfl)
@[simp] theorem State.updLap_lapFlags (s : State) (f : LapUnit → LapUnit) : (s.updLap f).lapFlags = s.lapFlags := (rfl)
@[simp] theorem State.updLap_bufBreach (s : State) (f : LapUnit → LapUnit) : (s.updLap f).bufBreach = s.bufBreach := (rfl)
@[simp] theorem State.updLap_snaps (s : State) (f : LapUnit → LapUnit) : (s.updLap f).snaps = s.snaps := (rfl)
@[simp] theorem State.updLap_restore (s : State) (f : LapUnit → LapUnit) : (s.updLap f).restore = s.restore := (rfl)
@[simp] theorem State.updLap_partials (s : State) (f : LapUnit → LapUnit) : (s.updLap f).partials = s.partials := (rfl)
@[simp] theorem State.updLap_silenced (s : State) (f : LapUnit → LapUnit) : (s.updLap f).silenced = s.silenced := (rfl)
@[simp] theorem State.updLap_faultLog (s : State) (f : LapUnit → LapUnit) : (s.updLap f).faultLog = s.faultLog := (rfl)
@[simp] theorem State.updLap_sec (s : State) (f : LapUnit → LapUnit) : (s.updLap f).sec = s.sec := (rfl)
@[simp] theorem State.updLap_clkLog (s : State) (f : LapUnit → LapUnit) : (s.updLap f).clkLog = s.clkLog := (rfl)
@[simp] theorem State.updLap_floors (s : State) (f : LapUnit → LapUnit) : (s.updLap f).floors = s.floors := (rfl)
@[simp] theorem State.updLap_telQueue (s : State) (f : LapUnit → LapUnit) : (s.updLap f).telQueue = s.telQueue := (rfl)
@[simp] theorem State.updLap_telSeq (s : State) (f : LapUnit → LapUnit) : (s.updLap f).telSeq = s.telSeq := (rfl)
@[simp] theorem State.updLap_telLast (s : State) (f : LapUnit → LapUnit) : (s.updLap f).telLast = s.telLast := (rfl)
@[simp] theorem State.updLap_repeats (s : State) (f : LapUnit → LapUnit) : (s.updLap f).repeats = s.repeats := (rfl)
@[simp] theorem State.updLap_power (s : State) (f : LapUnit → LapUnit) : (s.updLap f).power = s.power := (rfl)
@[simp] theorem State.updLap_frozen (s : State) (f : LapUnit → LapUnit) : (s.updLap f).frozen = s.frozen := (rfl)
@[simp] theorem State.updLap_stopped (s : State) (f : LapUnit → LapUnit) : (s.updLap f).stopped = s.stopped := (rfl)
@[simp] theorem State.updLap_shadow (s : State) (f : LapUnit → LapUnit) : (s.updLap f).shadow = s.shadow := (rfl)
@[simp] theorem State.updLap_capture (s : State) (f : LapUnit → LapUnit) : (s.updLap f).capture = s.capture := (rfl)
@[simp] theorem State.updLap_mems (s : State) (f : LapUnit → LapUnit) : (s.updLap f).mems = s.mems := (rfl)
@[simp] theorem State.updLap_lapDeferred (s : State) (f : LapUnit → LapUnit) : (s.updLap f).lapDeferred = s.lapDeferred := (rfl)
@[simp] theorem State.updLap_levels (s : State) (f : LapUnit → LapUnit) : (s.updLap f).levels = s.levels := (rfl)
@[simp] theorem State.updLap_clk (s : State) (f : LapUnit → LapUnit) : (s.updLap f).clk = s.clk := (rfl)
@[simp] theorem State.updLap_scrubLine (s : State) (f : LapUnit → LapUnit) : (s.updLap f).scrubLine = s.scrubLine := (rfl)
@[simp] theorem State.updLap_pending (s : State) (f : LapUnit → LapUnit) : (s.updLap f).pending = s.pending := (rfl)
@[simp] theorem State.updLap_out (s : State) (f : LapUnit → LapUnit) : (s.updLap f).out = s.out := (rfl)
@[simp] theorem State.updLap_freeCtr (s : State) (f : LapUnit → LapUnit) : (s.updLap f).freeCtr = s.freeCtr := (rfl)

/-! `updLocker` changes `locker` only. -/

@[simp] theorem State.updLocker_regs (s : State) (f : Locker → Locker) : (s.updLocker f).regs = s.regs := (rfl)
@[simp] theorem State.updLocker_rink (s : State) (f : Locker → Locker) : (s.updLocker f).rink = s.rink := (rfl)
@[simp] theorem State.updLocker_lpddr (s : State) (f : Locker → Locker) : (s.updLocker f).lpddr = s.lpddr := (rfl)
@[simp] theorem State.updLocker_flips (s : State) (f : Locker → Locker) : (s.updLocker f).flips = s.flips := (rfl)
@[simp] theorem State.updLocker_rinkErr (s : State) (f : Locker → Locker) : (s.updLocker f).rinkErr = s.rinkErr := (rfl)
@[simp] theorem State.updLocker_rinkQ (s : State) (f : Locker → Locker) : (s.updLocker f).rinkQ = s.rinkQ := (rfl)
@[simp] theorem State.updLocker_store (s : State) (f : Locker → Locker) : (s.updLocker f).store = s.store := (rfl)
@[simp] theorem State.updLocker_gsram (s : State) (f : Locker → Locker) : (s.updLocker f).gsram = s.gsram := (rfl)
@[simp] theorem State.updLocker_rstore (s : State) (f : Locker → Locker) : (s.updLocker f).rstore = s.rstore := (rfl)
@[simp] theorem State.updLocker_guard (s : State) (f : Locker → Locker) : (s.updLocker f).guard = s.guard := (rfl)
@[simp] theorem State.updLocker_tmpl (s : State) (f : Locker → Locker) : (s.updLocker f).tmpl = s.tmpl := (rfl)
@[simp] theorem State.updLocker_lap (s : State) (f : Locker → Locker) : (s.updLocker f).lap = s.lap := (rfl)
@[simp] theorem State.updLocker_streams (s : State) (f : Locker → Locker) : (s.updLocker f).streams = s.streams := (rfl)
@[simp] theorem State.updLocker_ctxs (s : State) (f : Locker → Locker) : (s.updLocker f).ctxs = s.ctxs := (rfl)
@[simp] theorem State.updLocker_gates (s : State) (f : Locker → Locker) : (s.updLocker f).gates = s.gates := (rfl)
@[simp] theorem State.updLocker_gmus (s : State) (f : Locker → Locker) : (s.updLocker f).gmus = s.gmus := (rfl)
@[simp] theorem State.updLocker_courses (s : State) (f : Locker → Locker) : (s.updLocker f).courses = s.courses := (rfl)
@[simp] theorem State.updLocker_loading (s : State) (f : Locker → Locker) : (s.updLocker f).loading = s.loading := (rfl)
@[simp] theorem State.updLocker_router (s : State) (f : Locker → Locker) : (s.updLocker f).router = s.router := (rfl)
@[simp] theorem State.updLocker_remotes (s : State) (f : Locker → Locker) : (s.updLocker f).remotes = s.remotes := (rfl)
@[simp] theorem State.updLocker_requests (s : State) (f : Locker → Locker) : (s.updLocker f).requests = s.requests := (rfl)
@[simp] theorem State.updLocker_col (s : State) (f : Locker → Locker) : (s.updLocker f).col = s.col := (rfl)
@[simp] theorem State.updLocker_lead (s : State) (f : Locker → Locker) : (s.updLocker f).lead = s.lead := (rfl)
@[simp] theorem State.updLocker_host (s : State) (f : Locker → Locker) : (s.updLocker f).host = s.host := (rfl)
@[simp] theorem State.updLocker_lapFlags (s : State) (f : Locker → Locker) : (s.updLocker f).lapFlags = s.lapFlags := (rfl)
@[simp] theorem State.updLocker_bufBreach (s : State) (f : Locker → Locker) : (s.updLocker f).bufBreach = s.bufBreach := (rfl)
@[simp] theorem State.updLocker_snaps (s : State) (f : Locker → Locker) : (s.updLocker f).snaps = s.snaps := (rfl)
@[simp] theorem State.updLocker_restore (s : State) (f : Locker → Locker) : (s.updLocker f).restore = s.restore := (rfl)
@[simp] theorem State.updLocker_partials (s : State) (f : Locker → Locker) : (s.updLocker f).partials = s.partials := (rfl)
@[simp] theorem State.updLocker_silenced (s : State) (f : Locker → Locker) : (s.updLocker f).silenced = s.silenced := (rfl)
@[simp] theorem State.updLocker_faultLog (s : State) (f : Locker → Locker) : (s.updLocker f).faultLog = s.faultLog := (rfl)
@[simp] theorem State.updLocker_sec (s : State) (f : Locker → Locker) : (s.updLocker f).sec = s.sec := (rfl)
@[simp] theorem State.updLocker_clkLog (s : State) (f : Locker → Locker) : (s.updLocker f).clkLog = s.clkLog := (rfl)
@[simp] theorem State.updLocker_floors (s : State) (f : Locker → Locker) : (s.updLocker f).floors = s.floors := (rfl)
@[simp] theorem State.updLocker_telQueue (s : State) (f : Locker → Locker) : (s.updLocker f).telQueue = s.telQueue := (rfl)
@[simp] theorem State.updLocker_telSeq (s : State) (f : Locker → Locker) : (s.updLocker f).telSeq = s.telSeq := (rfl)
@[simp] theorem State.updLocker_telLast (s : State) (f : Locker → Locker) : (s.updLocker f).telLast = s.telLast := (rfl)
@[simp] theorem State.updLocker_repeats (s : State) (f : Locker → Locker) : (s.updLocker f).repeats = s.repeats := (rfl)
@[simp] theorem State.updLocker_power (s : State) (f : Locker → Locker) : (s.updLocker f).power = s.power := (rfl)
@[simp] theorem State.updLocker_frozen (s : State) (f : Locker → Locker) : (s.updLocker f).frozen = s.frozen := (rfl)
@[simp] theorem State.updLocker_stopped (s : State) (f : Locker → Locker) : (s.updLocker f).stopped = s.stopped := (rfl)
@[simp] theorem State.updLocker_shadow (s : State) (f : Locker → Locker) : (s.updLocker f).shadow = s.shadow := (rfl)
@[simp] theorem State.updLocker_capture (s : State) (f : Locker → Locker) : (s.updLocker f).capture = s.capture := (rfl)
@[simp] theorem State.updLocker_mems (s : State) (f : Locker → Locker) : (s.updLocker f).mems = s.mems := (rfl)
@[simp] theorem State.updLocker_lapDeferred (s : State) (f : Locker → Locker) : (s.updLocker f).lapDeferred = s.lapDeferred := (rfl)
@[simp] theorem State.updLocker_levels (s : State) (f : Locker → Locker) : (s.updLocker f).levels = s.levels := (rfl)
@[simp] theorem State.updLocker_clk (s : State) (f : Locker → Locker) : (s.updLocker f).clk = s.clk := (rfl)
@[simp] theorem State.updLocker_scrubLine (s : State) (f : Locker → Locker) : (s.updLocker f).scrubLine = s.scrubLine := (rfl)
@[simp] theorem State.updLocker_pending (s : State) (f : Locker → Locker) : (s.updLocker f).pending = s.pending := (rfl)
@[simp] theorem State.updLocker_out (s : State) (f : Locker → Locker) : (s.updLocker f).out = s.out := (rfl)
@[simp] theorem State.updLocker_freeCtr (s : State) (f : Locker → Locker) : (s.updLocker f).freeCtr = s.freeCtr := (rfl)

/-! `setSess` changes `host` only. -/

@[simp] theorem State.setSess_regs (s : State) (x : Nat) (y : Sess) : (s.setSess x y).regs = s.regs := (rfl)
@[simp] theorem State.setSess_rink (s : State) (x : Nat) (y : Sess) : (s.setSess x y).rink = s.rink := (rfl)
@[simp] theorem State.setSess_lpddr (s : State) (x : Nat) (y : Sess) : (s.setSess x y).lpddr = s.lpddr := (rfl)
@[simp] theorem State.setSess_flips (s : State) (x : Nat) (y : Sess) : (s.setSess x y).flips = s.flips := (rfl)
@[simp] theorem State.setSess_rinkErr (s : State) (x : Nat) (y : Sess) : (s.setSess x y).rinkErr = s.rinkErr := (rfl)
@[simp] theorem State.setSess_rinkQ (s : State) (x : Nat) (y : Sess) : (s.setSess x y).rinkQ = s.rinkQ := (rfl)
@[simp] theorem State.setSess_store (s : State) (x : Nat) (y : Sess) : (s.setSess x y).store = s.store := (rfl)
@[simp] theorem State.setSess_gsram (s : State) (x : Nat) (y : Sess) : (s.setSess x y).gsram = s.gsram := (rfl)
@[simp] theorem State.setSess_rstore (s : State) (x : Nat) (y : Sess) : (s.setSess x y).rstore = s.rstore := (rfl)
@[simp] theorem State.setSess_guard (s : State) (x : Nat) (y : Sess) : (s.setSess x y).guard = s.guard := (rfl)
@[simp] theorem State.setSess_tmpl (s : State) (x : Nat) (y : Sess) : (s.setSess x y).tmpl = s.tmpl := (rfl)
@[simp] theorem State.setSess_lap (s : State) (x : Nat) (y : Sess) : (s.setSess x y).lap = s.lap := (rfl)
@[simp] theorem State.setSess_streams (s : State) (x : Nat) (y : Sess) : (s.setSess x y).streams = s.streams := (rfl)
@[simp] theorem State.setSess_ctxs (s : State) (x : Nat) (y : Sess) : (s.setSess x y).ctxs = s.ctxs := (rfl)
@[simp] theorem State.setSess_locker (s : State) (x : Nat) (y : Sess) : (s.setSess x y).locker = s.locker := (rfl)
@[simp] theorem State.setSess_gates (s : State) (x : Nat) (y : Sess) : (s.setSess x y).gates = s.gates := (rfl)
@[simp] theorem State.setSess_gmus (s : State) (x : Nat) (y : Sess) : (s.setSess x y).gmus = s.gmus := (rfl)
@[simp] theorem State.setSess_courses (s : State) (x : Nat) (y : Sess) : (s.setSess x y).courses = s.courses := (rfl)
@[simp] theorem State.setSess_loading (s : State) (x : Nat) (y : Sess) : (s.setSess x y).loading = s.loading := (rfl)
@[simp] theorem State.setSess_router (s : State) (x : Nat) (y : Sess) : (s.setSess x y).router = s.router := (rfl)
@[simp] theorem State.setSess_remotes (s : State) (x : Nat) (y : Sess) : (s.setSess x y).remotes = s.remotes := (rfl)
@[simp] theorem State.setSess_requests (s : State) (x : Nat) (y : Sess) : (s.setSess x y).requests = s.requests := (rfl)
@[simp] theorem State.setSess_col (s : State) (x : Nat) (y : Sess) : (s.setSess x y).col = s.col := (rfl)
@[simp] theorem State.setSess_lead (s : State) (x : Nat) (y : Sess) : (s.setSess x y).lead = s.lead := (rfl)
@[simp] theorem State.setSess_lapFlags (s : State) (x : Nat) (y : Sess) : (s.setSess x y).lapFlags = s.lapFlags := (rfl)
@[simp] theorem State.setSess_bufBreach (s : State) (x : Nat) (y : Sess) : (s.setSess x y).bufBreach = s.bufBreach := (rfl)
@[simp] theorem State.setSess_snaps (s : State) (x : Nat) (y : Sess) : (s.setSess x y).snaps = s.snaps := (rfl)
@[simp] theorem State.setSess_restore (s : State) (x : Nat) (y : Sess) : (s.setSess x y).restore = s.restore := (rfl)
@[simp] theorem State.setSess_partials (s : State) (x : Nat) (y : Sess) : (s.setSess x y).partials = s.partials := (rfl)
@[simp] theorem State.setSess_silenced (s : State) (x : Nat) (y : Sess) : (s.setSess x y).silenced = s.silenced := (rfl)
@[simp] theorem State.setSess_faultLog (s : State) (x : Nat) (y : Sess) : (s.setSess x y).faultLog = s.faultLog := (rfl)
@[simp] theorem State.setSess_sec (s : State) (x : Nat) (y : Sess) : (s.setSess x y).sec = s.sec := (rfl)
@[simp] theorem State.setSess_clkLog (s : State) (x : Nat) (y : Sess) : (s.setSess x y).clkLog = s.clkLog := (rfl)
@[simp] theorem State.setSess_floors (s : State) (x : Nat) (y : Sess) : (s.setSess x y).floors = s.floors := (rfl)
@[simp] theorem State.setSess_telQueue (s : State) (x : Nat) (y : Sess) : (s.setSess x y).telQueue = s.telQueue := (rfl)
@[simp] theorem State.setSess_telSeq (s : State) (x : Nat) (y : Sess) : (s.setSess x y).telSeq = s.telSeq := (rfl)
@[simp] theorem State.setSess_telLast (s : State) (x : Nat) (y : Sess) : (s.setSess x y).telLast = s.telLast := (rfl)
@[simp] theorem State.setSess_repeats (s : State) (x : Nat) (y : Sess) : (s.setSess x y).repeats = s.repeats := (rfl)
@[simp] theorem State.setSess_power (s : State) (x : Nat) (y : Sess) : (s.setSess x y).power = s.power := (rfl)
@[simp] theorem State.setSess_frozen (s : State) (x : Nat) (y : Sess) : (s.setSess x y).frozen = s.frozen := (rfl)
@[simp] theorem State.setSess_stopped (s : State) (x : Nat) (y : Sess) : (s.setSess x y).stopped = s.stopped := (rfl)
@[simp] theorem State.setSess_shadow (s : State) (x : Nat) (y : Sess) : (s.setSess x y).shadow = s.shadow := (rfl)
@[simp] theorem State.setSess_capture (s : State) (x : Nat) (y : Sess) : (s.setSess x y).capture = s.capture := (rfl)
@[simp] theorem State.setSess_mems (s : State) (x : Nat) (y : Sess) : (s.setSess x y).mems = s.mems := (rfl)
@[simp] theorem State.setSess_lapDeferred (s : State) (x : Nat) (y : Sess) : (s.setSess x y).lapDeferred = s.lapDeferred := (rfl)
@[simp] theorem State.setSess_levels (s : State) (x : Nat) (y : Sess) : (s.setSess x y).levels = s.levels := (rfl)
@[simp] theorem State.setSess_clk (s : State) (x : Nat) (y : Sess) : (s.setSess x y).clk = s.clk := (rfl)
@[simp] theorem State.setSess_scrubLine (s : State) (x : Nat) (y : Sess) : (s.setSess x y).scrubLine = s.scrubLine := (rfl)
@[simp] theorem State.setSess_pending (s : State) (x : Nat) (y : Sess) : (s.setSess x y).pending = s.pending := (rfl)
@[simp] theorem State.setSess_out (s : State) (x : Nat) (y : Sess) : (s.setSess x y).out = s.out := (rfl)
@[simp] theorem State.setSess_freeCtr (s : State) (x : Nat) (y : Sess) : (s.setSess x y).freeCtr = s.freeCtr := (rfl)

/-! `emit` changes `out` only. -/

@[simp] theorem State.emit_regs (s : State) (o : Out) : (s.emit o).regs = s.regs := (rfl)
@[simp] theorem State.emit_rink (s : State) (o : Out) : (s.emit o).rink = s.rink := (rfl)
@[simp] theorem State.emit_lpddr (s : State) (o : Out) : (s.emit o).lpddr = s.lpddr := (rfl)
@[simp] theorem State.emit_flips (s : State) (o : Out) : (s.emit o).flips = s.flips := (rfl)
@[simp] theorem State.emit_rinkErr (s : State) (o : Out) : (s.emit o).rinkErr = s.rinkErr := (rfl)
@[simp] theorem State.emit_rinkQ (s : State) (o : Out) : (s.emit o).rinkQ = s.rinkQ := (rfl)
@[simp] theorem State.emit_store (s : State) (o : Out) : (s.emit o).store = s.store := (rfl)
@[simp] theorem State.emit_gsram (s : State) (o : Out) : (s.emit o).gsram = s.gsram := (rfl)
@[simp] theorem State.emit_rstore (s : State) (o : Out) : (s.emit o).rstore = s.rstore := (rfl)
@[simp] theorem State.emit_guard (s : State) (o : Out) : (s.emit o).guard = s.guard := (rfl)
@[simp] theorem State.emit_tmpl (s : State) (o : Out) : (s.emit o).tmpl = s.tmpl := (rfl)
@[simp] theorem State.emit_lap (s : State) (o : Out) : (s.emit o).lap = s.lap := (rfl)
@[simp] theorem State.emit_streams (s : State) (o : Out) : (s.emit o).streams = s.streams := (rfl)
@[simp] theorem State.emit_ctxs (s : State) (o : Out) : (s.emit o).ctxs = s.ctxs := (rfl)
@[simp] theorem State.emit_locker (s : State) (o : Out) : (s.emit o).locker = s.locker := (rfl)
@[simp] theorem State.emit_gates (s : State) (o : Out) : (s.emit o).gates = s.gates := (rfl)
@[simp] theorem State.emit_gmus (s : State) (o : Out) : (s.emit o).gmus = s.gmus := (rfl)
@[simp] theorem State.emit_courses (s : State) (o : Out) : (s.emit o).courses = s.courses := (rfl)
@[simp] theorem State.emit_loading (s : State) (o : Out) : (s.emit o).loading = s.loading := (rfl)
@[simp] theorem State.emit_router (s : State) (o : Out) : (s.emit o).router = s.router := (rfl)
@[simp] theorem State.emit_remotes (s : State) (o : Out) : (s.emit o).remotes = s.remotes := (rfl)
@[simp] theorem State.emit_requests (s : State) (o : Out) : (s.emit o).requests = s.requests := (rfl)
@[simp] theorem State.emit_col (s : State) (o : Out) : (s.emit o).col = s.col := (rfl)
@[simp] theorem State.emit_lead (s : State) (o : Out) : (s.emit o).lead = s.lead := (rfl)
@[simp] theorem State.emit_host (s : State) (o : Out) : (s.emit o).host = s.host := (rfl)
@[simp] theorem State.emit_lapFlags (s : State) (o : Out) : (s.emit o).lapFlags = s.lapFlags := (rfl)
@[simp] theorem State.emit_bufBreach (s : State) (o : Out) : (s.emit o).bufBreach = s.bufBreach := (rfl)
@[simp] theorem State.emit_snaps (s : State) (o : Out) : (s.emit o).snaps = s.snaps := (rfl)
@[simp] theorem State.emit_restore (s : State) (o : Out) : (s.emit o).restore = s.restore := (rfl)
@[simp] theorem State.emit_partials (s : State) (o : Out) : (s.emit o).partials = s.partials := (rfl)
@[simp] theorem State.emit_silenced (s : State) (o : Out) : (s.emit o).silenced = s.silenced := (rfl)
@[simp] theorem State.emit_faultLog (s : State) (o : Out) : (s.emit o).faultLog = s.faultLog := (rfl)
@[simp] theorem State.emit_sec (s : State) (o : Out) : (s.emit o).sec = s.sec := (rfl)
@[simp] theorem State.emit_clkLog (s : State) (o : Out) : (s.emit o).clkLog = s.clkLog := (rfl)
@[simp] theorem State.emit_floors (s : State) (o : Out) : (s.emit o).floors = s.floors := (rfl)
@[simp] theorem State.emit_telQueue (s : State) (o : Out) : (s.emit o).telQueue = s.telQueue := (rfl)
@[simp] theorem State.emit_telSeq (s : State) (o : Out) : (s.emit o).telSeq = s.telSeq := (rfl)
@[simp] theorem State.emit_telLast (s : State) (o : Out) : (s.emit o).telLast = s.telLast := (rfl)
@[simp] theorem State.emit_repeats (s : State) (o : Out) : (s.emit o).repeats = s.repeats := (rfl)
@[simp] theorem State.emit_power (s : State) (o : Out) : (s.emit o).power = s.power := (rfl)
@[simp] theorem State.emit_frozen (s : State) (o : Out) : (s.emit o).frozen = s.frozen := (rfl)
@[simp] theorem State.emit_stopped (s : State) (o : Out) : (s.emit o).stopped = s.stopped := (rfl)
@[simp] theorem State.emit_shadow (s : State) (o : Out) : (s.emit o).shadow = s.shadow := (rfl)
@[simp] theorem State.emit_capture (s : State) (o : Out) : (s.emit o).capture = s.capture := (rfl)
@[simp] theorem State.emit_mems (s : State) (o : Out) : (s.emit o).mems = s.mems := (rfl)
@[simp] theorem State.emit_lapDeferred (s : State) (o : Out) : (s.emit o).lapDeferred = s.lapDeferred := (rfl)
@[simp] theorem State.emit_levels (s : State) (o : Out) : (s.emit o).levels = s.levels := (rfl)
@[simp] theorem State.emit_clk (s : State) (o : Out) : (s.emit o).clk = s.clk := (rfl)
@[simp] theorem State.emit_scrubLine (s : State) (o : Out) : (s.emit o).scrubLine = s.scrubLine := (rfl)
@[simp] theorem State.emit_pending (s : State) (o : Out) : (s.emit o).pending = s.pending := (rfl)
@[simp] theorem State.emit_freeCtr (s : State) (o : Out) : (s.emit o).freeCtr = s.freeCtr := (rfl)

/-! Readers of a part are not moved by an update of another part. -/

@[simp] theorem State.setReg_stream (s : State) (o : Nat) (w : Word) (k : Nat) : (s.setReg o w).stream k = s.stream k := by simp only [State.stream, State.setReg_streams]
@[simp] theorem State.setReg_ctx (s : State) (o : Nat) (w : Word) (c : Nat) : (s.setReg o w).ctx c = s.ctx c := by simp only [State.ctx, State.setReg_ctxs]
@[simp] theorem State.setReg_gate (s : State) (o : Nat) (w : Word) (g : Nat) : (s.setReg o w).gate g = s.gate g := by simp only [State.gate, State.setReg_gates]
@[simp] theorem State.setReg_port (s : State) (o : Nat) (w : Word) (n : Nat) : (s.setReg o w).port n = s.port n := by simp only [State.port, State.setReg_router]
@[simp] theorem State.setReg_relay (s : State) (o : Nat) (w : Word) (i : Nat) : (s.setReg o w).relay i = s.relay i := by simp only [State.relay, State.setReg_col]
@[simp] theorem State.setReg_rsEntry (s : State) (o : Nat) (w : Word) (i : Nat) : (s.setReg o w).rsEntry i = s.rsEntry i := by simp only [State.rsEntry, State.setReg_col]
@[simp] theorem State.setReg_admits (s : State) (o : Nat) (w : Word) (c : Nat) : (s.setReg o w).admits c = s.admits c := by simp only [State.admits, State.setReg_col]
@[simp] theorem State.setReg_flowQueue (s : State) (o : Nat) (w : Word) (q : Nat) : (s.setReg o w).flowQueue q = s.flowQueue q := by simp only [State.flowQueue, State.setReg_router]
@[simp] theorem State.setReg_sess (s : State) (o : Nat) (w : Word) (x : Nat) : (s.setReg o w).sess x = s.sess x := by simp only [State.sess, State.setReg_host]
@[simp] theorem State.setReg_rinkBytes (s : State) (o : Nat) (w : Word) (x n : Nat) : (s.setReg o w).rinkBytes x n = s.rinkBytes x n := by simp only [State.rinkBytes, State.setReg_rink]
@[simp] theorem State.setReg_memBytes (s : State) (o : Nat) (w : Word) (x n : Nat) : (s.setReg o w).memBytes x n = s.memBytes x n := by simp only [State.memBytes, State.setReg_lpddr]
@[simp] theorem State.setReg_gateBytes (s : State) (o : Nat) (w : Word) (g x n : Nat) : (s.setReg o w).gateBytes g x n = s.gateBytes g x n := by simp only [State.gateBytes, State.setReg_gsram]
@[simp] theorem State.setReg_storeBytes (s : State) (o : Nat) (w : Word) (u x n : Nat) : (s.setReg o w).storeBytes u x n = s.storeBytes u x n := by simp only [State.storeBytes, State.setReg_store]

@[simp] theorem State.wr_stream (s : State) (f : Fld) (v : Nat) (k : Nat) : (s.wr f v).stream k = s.stream k := by simp only [State.stream, State.wr_streams]
@[simp] theorem State.wr_ctx (s : State) (f : Fld) (v : Nat) (c : Nat) : (s.wr f v).ctx c = s.ctx c := by simp only [State.ctx, State.wr_ctxs]
@[simp] theorem State.wr_gate (s : State) (f : Fld) (v : Nat) (g : Nat) : (s.wr f v).gate g = s.gate g := by simp only [State.gate, State.wr_gates]
@[simp] theorem State.wr_port (s : State) (f : Fld) (v : Nat) (n : Nat) : (s.wr f v).port n = s.port n := by simp only [State.port, State.wr_router]
@[simp] theorem State.wr_relay (s : State) (f : Fld) (v : Nat) (i : Nat) : (s.wr f v).relay i = s.relay i := by simp only [State.relay, State.wr_col]
@[simp] theorem State.wr_rsEntry (s : State) (f : Fld) (v : Nat) (i : Nat) : (s.wr f v).rsEntry i = s.rsEntry i := by simp only [State.rsEntry, State.wr_col]
@[simp] theorem State.wr_admits (s : State) (f : Fld) (v : Nat) (c : Nat) : (s.wr f v).admits c = s.admits c := by simp only [State.admits, State.wr_col]
@[simp] theorem State.wr_flowQueue (s : State) (f : Fld) (v : Nat) (q : Nat) : (s.wr f v).flowQueue q = s.flowQueue q := by simp only [State.flowQueue, State.wr_router]
@[simp] theorem State.wr_sess (s : State) (f : Fld) (v : Nat) (x : Nat) : (s.wr f v).sess x = s.sess x := by simp only [State.sess, State.wr_host]
@[simp] theorem State.wr_rinkBytes (s : State) (f : Fld) (v : Nat) (x n : Nat) : (s.wr f v).rinkBytes x n = s.rinkBytes x n := by simp only [State.rinkBytes, State.wr_rink]
@[simp] theorem State.wr_memBytes (s : State) (f : Fld) (v : Nat) (x n : Nat) : (s.wr f v).memBytes x n = s.memBytes x n := by simp only [State.memBytes, State.wr_lpddr]
@[simp] theorem State.wr_gateBytes (s : State) (f : Fld) (v : Nat) (g x n : Nat) : (s.wr f v).gateBytes g x n = s.gateBytes g x n := by simp only [State.gateBytes, State.wr_gsram]
@[simp] theorem State.wr_storeBytes (s : State) (f : Fld) (v : Nat) (u x n : Nat) : (s.wr f v).storeBytes u x n = s.storeBytes u x n := by simp only [State.storeBytes, State.wr_store]

@[simp] theorem State.setRink_stream (s : State) (a : Nat) (l : List Byte) (k : Nat) : (s.setRink a l).stream k = s.stream k := by simp only [State.stream, State.setRink_streams]
@[simp] theorem State.setRink_ctx (s : State) (a : Nat) (l : List Byte) (c : Nat) : (s.setRink a l).ctx c = s.ctx c := by simp only [State.ctx, State.setRink_ctxs]
@[simp] theorem State.setRink_gate (s : State) (a : Nat) (l : List Byte) (g : Nat) : (s.setRink a l).gate g = s.gate g := by simp only [State.gate, State.setRink_gates]
@[simp] theorem State.setRink_port (s : State) (a : Nat) (l : List Byte) (n : Nat) : (s.setRink a l).port n = s.port n := by simp only [State.port, State.setRink_router]
@[simp] theorem State.setRink_relay (s : State) (a : Nat) (l : List Byte) (i : Nat) : (s.setRink a l).relay i = s.relay i := by simp only [State.relay, State.setRink_col]
@[simp] theorem State.setRink_rsEntry (s : State) (a : Nat) (l : List Byte) (i : Nat) : (s.setRink a l).rsEntry i = s.rsEntry i := by simp only [State.rsEntry, State.setRink_col]
@[simp] theorem State.setRink_admits (s : State) (a : Nat) (l : List Byte) (c : Nat) : (s.setRink a l).admits c = s.admits c := by simp only [State.admits, State.setRink_col]
@[simp] theorem State.setRink_flowQueue (s : State) (a : Nat) (l : List Byte) (q : Nat) : (s.setRink a l).flowQueue q = s.flowQueue q := by simp only [State.flowQueue, State.setRink_router]
@[simp] theorem State.setRink_sess (s : State) (a : Nat) (l : List Byte) (x : Nat) : (s.setRink a l).sess x = s.sess x := by simp only [State.sess, State.setRink_host]
@[simp] theorem State.setRink_reg (s : State) (a : Nat) (l : List Byte) (off : Nat) : (s.setRink a l).reg off = s.reg off := by simp only [State.reg, State.setRink_regs]
@[simp] theorem State.setRink_rd (s : State) (a : Nat) (l : List Byte) (fld : Fld) : (s.setRink a l).rd fld = s.rd fld := by simp only [State.rd, State.reg, State.setRink_regs]
@[simp] theorem State.setRink_memBytes (s : State) (a : Nat) (l : List Byte) (x n : Nat) : (s.setRink a l).memBytes x n = s.memBytes x n := by simp only [State.memBytes, State.setRink_lpddr]
@[simp] theorem State.setRink_gateBytes (s : State) (a : Nat) (l : List Byte) (g x n : Nat) : (s.setRink a l).gateBytes g x n = s.gateBytes g x n := by simp only [State.gateBytes, State.setRink_gsram]
@[simp] theorem State.setRink_storeBytes (s : State) (a : Nat) (l : List Byte) (u x n : Nat) : (s.setRink a l).storeBytes u x n = s.storeBytes u x n := by simp only [State.storeBytes, State.setRink_store]

@[simp] theorem State.setMem_stream (s : State) (a : Nat) (l : List Byte) (k : Nat) : (s.setMem a l).stream k = s.stream k := by simp only [State.stream, State.setMem_streams]
@[simp] theorem State.setMem_ctx (s : State) (a : Nat) (l : List Byte) (c : Nat) : (s.setMem a l).ctx c = s.ctx c := by simp only [State.ctx, State.setMem_ctxs]
@[simp] theorem State.setMem_gate (s : State) (a : Nat) (l : List Byte) (g : Nat) : (s.setMem a l).gate g = s.gate g := by simp only [State.gate, State.setMem_gates]
@[simp] theorem State.setMem_port (s : State) (a : Nat) (l : List Byte) (n : Nat) : (s.setMem a l).port n = s.port n := by simp only [State.port, State.setMem_router]
@[simp] theorem State.setMem_relay (s : State) (a : Nat) (l : List Byte) (i : Nat) : (s.setMem a l).relay i = s.relay i := by simp only [State.relay, State.setMem_col]
@[simp] theorem State.setMem_rsEntry (s : State) (a : Nat) (l : List Byte) (i : Nat) : (s.setMem a l).rsEntry i = s.rsEntry i := by simp only [State.rsEntry, State.setMem_col]
@[simp] theorem State.setMem_admits (s : State) (a : Nat) (l : List Byte) (c : Nat) : (s.setMem a l).admits c = s.admits c := by simp only [State.admits, State.setMem_col]
@[simp] theorem State.setMem_flowQueue (s : State) (a : Nat) (l : List Byte) (q : Nat) : (s.setMem a l).flowQueue q = s.flowQueue q := by simp only [State.flowQueue, State.setMem_router]
@[simp] theorem State.setMem_sess (s : State) (a : Nat) (l : List Byte) (x : Nat) : (s.setMem a l).sess x = s.sess x := by simp only [State.sess, State.setMem_host]
@[simp] theorem State.setMem_reg (s : State) (a : Nat) (l : List Byte) (off : Nat) : (s.setMem a l).reg off = s.reg off := by simp only [State.reg, State.setMem_regs]
@[simp] theorem State.setMem_rd (s : State) (a : Nat) (l : List Byte) (fld : Fld) : (s.setMem a l).rd fld = s.rd fld := by simp only [State.rd, State.reg, State.setMem_regs]
@[simp] theorem State.setMem_rinkBytes (s : State) (a : Nat) (l : List Byte) (x n : Nat) : (s.setMem a l).rinkBytes x n = s.rinkBytes x n := by simp only [State.rinkBytes, State.setMem_rink]
@[simp] theorem State.setMem_gateBytes (s : State) (a : Nat) (l : List Byte) (g x n : Nat) : (s.setMem a l).gateBytes g x n = s.gateBytes g x n := by simp only [State.gateBytes, State.setMem_gsram]
@[simp] theorem State.setMem_storeBytes (s : State) (a : Nat) (l : List Byte) (u x n : Nat) : (s.setMem a l).storeBytes u x n = s.storeBytes u x n := by simp only [State.storeBytes, State.setMem_store]

@[simp] theorem State.setGate_stream (s : State) (g a : Nat) (l : List Byte) (k : Nat) : (s.setGate g a l).stream k = s.stream k := by simp only [State.stream, State.setGate_streams]
@[simp] theorem State.setGate_ctx (s : State) (g a : Nat) (l : List Byte) (c : Nat) : (s.setGate g a l).ctx c = s.ctx c := by simp only [State.ctx, State.setGate_ctxs]
@[simp] theorem State.setGate_gate (s : State) (g a : Nat) (l : List Byte) (g' : Nat) : (s.setGate g a l).gate g' = s.gate g' := by simp only [State.gate, State.setGate_gates]
@[simp] theorem State.setGate_port (s : State) (g a : Nat) (l : List Byte) (n : Nat) : (s.setGate g a l).port n = s.port n := by simp only [State.port, State.setGate_router]
@[simp] theorem State.setGate_relay (s : State) (g a : Nat) (l : List Byte) (i : Nat) : (s.setGate g a l).relay i = s.relay i := by simp only [State.relay, State.setGate_col]
@[simp] theorem State.setGate_rsEntry (s : State) (g a : Nat) (l : List Byte) (i : Nat) : (s.setGate g a l).rsEntry i = s.rsEntry i := by simp only [State.rsEntry, State.setGate_col]
@[simp] theorem State.setGate_admits (s : State) (g a : Nat) (l : List Byte) (c : Nat) : (s.setGate g a l).admits c = s.admits c := by simp only [State.admits, State.setGate_col]
@[simp] theorem State.setGate_flowQueue (s : State) (g a : Nat) (l : List Byte) (q : Nat) : (s.setGate g a l).flowQueue q = s.flowQueue q := by simp only [State.flowQueue, State.setGate_router]
@[simp] theorem State.setGate_sess (s : State) (g a : Nat) (l : List Byte) (x : Nat) : (s.setGate g a l).sess x = s.sess x := by simp only [State.sess, State.setGate_host]
@[simp] theorem State.setGate_reg (s : State) (g a : Nat) (l : List Byte) (off : Nat) : (s.setGate g a l).reg off = s.reg off := by simp only [State.reg, State.setGate_regs]
@[simp] theorem State.setGate_rd (s : State) (g a : Nat) (l : List Byte) (fld : Fld) : (s.setGate g a l).rd fld = s.rd fld := by simp only [State.rd, State.reg, State.setGate_regs]
@[simp] theorem State.setGate_rinkBytes (s : State) (g a : Nat) (l : List Byte) (x n : Nat) : (s.setGate g a l).rinkBytes x n = s.rinkBytes x n := by simp only [State.rinkBytes, State.setGate_rink]
@[simp] theorem State.setGate_memBytes (s : State) (g a : Nat) (l : List Byte) (x n : Nat) : (s.setGate g a l).memBytes x n = s.memBytes x n := by simp only [State.memBytes, State.setGate_lpddr]
@[simp] theorem State.setGate_storeBytes (s : State) (g a : Nat) (l : List Byte) (u x n : Nat) : (s.setGate g a l).storeBytes u x n = s.storeBytes u x n := by simp only [State.storeBytes, State.setGate_store]

@[simp] theorem State.setStore_stream (s : State) (u a : Nat) (l : List Byte) (k : Nat) : (s.setStore u a l).stream k = s.stream k := by simp only [State.stream, State.setStore_streams]
@[simp] theorem State.setStore_ctx (s : State) (u a : Nat) (l : List Byte) (c : Nat) : (s.setStore u a l).ctx c = s.ctx c := by simp only [State.ctx, State.setStore_ctxs]
@[simp] theorem State.setStore_gate (s : State) (u a : Nat) (l : List Byte) (g : Nat) : (s.setStore u a l).gate g = s.gate g := by simp only [State.gate, State.setStore_gates]
@[simp] theorem State.setStore_port (s : State) (u a : Nat) (l : List Byte) (n : Nat) : (s.setStore u a l).port n = s.port n := by simp only [State.port, State.setStore_router]
@[simp] theorem State.setStore_relay (s : State) (u a : Nat) (l : List Byte) (i : Nat) : (s.setStore u a l).relay i = s.relay i := by simp only [State.relay, State.setStore_col]
@[simp] theorem State.setStore_rsEntry (s : State) (u a : Nat) (l : List Byte) (i : Nat) : (s.setStore u a l).rsEntry i = s.rsEntry i := by simp only [State.rsEntry, State.setStore_col]
@[simp] theorem State.setStore_admits (s : State) (u a : Nat) (l : List Byte) (c : Nat) : (s.setStore u a l).admits c = s.admits c := by simp only [State.admits, State.setStore_col]
@[simp] theorem State.setStore_flowQueue (s : State) (u a : Nat) (l : List Byte) (q : Nat) : (s.setStore u a l).flowQueue q = s.flowQueue q := by simp only [State.flowQueue, State.setStore_router]
@[simp] theorem State.setStore_sess (s : State) (u a : Nat) (l : List Byte) (x : Nat) : (s.setStore u a l).sess x = s.sess x := by simp only [State.sess, State.setStore_host]
@[simp] theorem State.setStore_reg (s : State) (u a : Nat) (l : List Byte) (off : Nat) : (s.setStore u a l).reg off = s.reg off := by simp only [State.reg, State.setStore_regs]
@[simp] theorem State.setStore_rd (s : State) (u a : Nat) (l : List Byte) (fld : Fld) : (s.setStore u a l).rd fld = s.rd fld := by simp only [State.rd, State.reg, State.setStore_regs]
@[simp] theorem State.setStore_rinkBytes (s : State) (u a : Nat) (l : List Byte) (x n : Nat) : (s.setStore u a l).rinkBytes x n = s.rinkBytes x n := by simp only [State.rinkBytes, State.setStore_rink]
@[simp] theorem State.setStore_memBytes (s : State) (u a : Nat) (l : List Byte) (x n : Nat) : (s.setStore u a l).memBytes x n = s.memBytes x n := by simp only [State.memBytes, State.setStore_lpddr]
@[simp] theorem State.setStore_gateBytes (s : State) (u a : Nat) (l : List Byte) (g x n : Nat) : (s.setStore u a l).gateBytes g x n = s.gateBytes g x n := by simp only [State.gateBytes, State.setStore_gsram]

@[simp] theorem State.setStream_ctx (s : State) (k : Nat) (x : Stream) (c : Nat) : (s.setStream k x).ctx c = s.ctx c := by simp only [State.ctx, State.setStream_ctxs]
@[simp] theorem State.setStream_gate (s : State) (k : Nat) (x : Stream) (g : Nat) : (s.setStream k x).gate g = s.gate g := by simp only [State.gate, State.setStream_gates]
@[simp] theorem State.setStream_port (s : State) (k : Nat) (x : Stream) (n : Nat) : (s.setStream k x).port n = s.port n := by simp only [State.port, State.setStream_router]
@[simp] theorem State.setStream_relay (s : State) (k : Nat) (x : Stream) (i : Nat) : (s.setStream k x).relay i = s.relay i := by simp only [State.relay, State.setStream_col]
@[simp] theorem State.setStream_rsEntry (s : State) (k : Nat) (x : Stream) (i : Nat) : (s.setStream k x).rsEntry i = s.rsEntry i := by simp only [State.rsEntry, State.setStream_col]
@[simp] theorem State.setStream_admits (s : State) (k : Nat) (x : Stream) (c : Nat) : (s.setStream k x).admits c = s.admits c := by simp only [State.admits, State.setStream_col]
@[simp] theorem State.setStream_flowQueue (s : State) (k : Nat) (x : Stream) (q : Nat) : (s.setStream k x).flowQueue q = s.flowQueue q := by simp only [State.flowQueue, State.setStream_router]
@[simp] theorem State.setStream_sess (s : State) (k : Nat) (x : Stream) (x' : Nat) : (s.setStream k x).sess x' = s.sess x' := by simp only [State.sess, State.setStream_host]
@[simp] theorem State.setStream_reg (s : State) (k : Nat) (x : Stream) (off : Nat) : (s.setStream k x).reg off = s.reg off := by simp only [State.reg, State.setStream_regs]
@[simp] theorem State.setStream_rd (s : State) (k : Nat) (x : Stream) (fld : Fld) : (s.setStream k x).rd fld = s.rd fld := by simp only [State.rd, State.reg, State.setStream_regs]
@[simp] theorem State.setStream_rinkBytes (s : State) (k : Nat) (x : Stream) (x' n : Nat) : (s.setStream k x).rinkBytes x' n = s.rinkBytes x' n := by simp only [State.rinkBytes, State.setStream_rink]
@[simp] theorem State.setStream_memBytes (s : State) (k : Nat) (x : Stream) (x' n : Nat) : (s.setStream k x).memBytes x' n = s.memBytes x' n := by simp only [State.memBytes, State.setStream_lpddr]
@[simp] theorem State.setStream_gateBytes (s : State) (k : Nat) (x : Stream) (g x' n : Nat) : (s.setStream k x).gateBytes g x' n = s.gateBytes g x' n := by simp only [State.gateBytes, State.setStream_gsram]
@[simp] theorem State.setStream_storeBytes (s : State) (k : Nat) (x : Stream) (u x' n : Nat) : (s.setStream k x).storeBytes u x' n = s.storeBytes u x' n := by simp only [State.storeBytes, State.setStream_store]

@[simp] theorem State.updStream_ctx (s : State) (k : Nat) (f : Stream → Stream) (c : Nat) : (s.updStream k f).ctx c = s.ctx c := by simp only [State.ctx, State.updStream_ctxs]
@[simp] theorem State.updStream_gate (s : State) (k : Nat) (f : Stream → Stream) (g : Nat) : (s.updStream k f).gate g = s.gate g := by simp only [State.gate, State.updStream_gates]
@[simp] theorem State.updStream_port (s : State) (k : Nat) (f : Stream → Stream) (n : Nat) : (s.updStream k f).port n = s.port n := by simp only [State.port, State.updStream_router]
@[simp] theorem State.updStream_relay (s : State) (k : Nat) (f : Stream → Stream) (i : Nat) : (s.updStream k f).relay i = s.relay i := by simp only [State.relay, State.updStream_col]
@[simp] theorem State.updStream_rsEntry (s : State) (k : Nat) (f : Stream → Stream) (i : Nat) : (s.updStream k f).rsEntry i = s.rsEntry i := by simp only [State.rsEntry, State.updStream_col]
@[simp] theorem State.updStream_admits (s : State) (k : Nat) (f : Stream → Stream) (c : Nat) : (s.updStream k f).admits c = s.admits c := by simp only [State.admits, State.updStream_col]
@[simp] theorem State.updStream_flowQueue (s : State) (k : Nat) (f : Stream → Stream) (q : Nat) : (s.updStream k f).flowQueue q = s.flowQueue q := by simp only [State.flowQueue, State.updStream_router]
@[simp] theorem State.updStream_sess (s : State) (k : Nat) (f : Stream → Stream) (x : Nat) : (s.updStream k f).sess x = s.sess x := by simp only [State.sess, State.updStream_host]
@[simp] theorem State.updStream_reg (s : State) (k : Nat) (f : Stream → Stream) (off : Nat) : (s.updStream k f).reg off = s.reg off := by simp only [State.reg, State.updStream_regs]
@[simp] theorem State.updStream_rd (s : State) (k : Nat) (f : Stream → Stream) (fld : Fld) : (s.updStream k f).rd fld = s.rd fld := by simp only [State.rd, State.reg, State.updStream_regs]
@[simp] theorem State.updStream_rinkBytes (s : State) (k : Nat) (f : Stream → Stream) (x n : Nat) : (s.updStream k f).rinkBytes x n = s.rinkBytes x n := by simp only [State.rinkBytes, State.updStream_rink]
@[simp] theorem State.updStream_memBytes (s : State) (k : Nat) (f : Stream → Stream) (x n : Nat) : (s.updStream k f).memBytes x n = s.memBytes x n := by simp only [State.memBytes, State.updStream_lpddr]
@[simp] theorem State.updStream_gateBytes (s : State) (k : Nat) (f : Stream → Stream) (g x n : Nat) : (s.updStream k f).gateBytes g x n = s.gateBytes g x n := by simp only [State.gateBytes, State.updStream_gsram]
@[simp] theorem State.updStream_storeBytes (s : State) (k : Nat) (f : Stream → Stream) (u x n : Nat) : (s.updStream k f).storeBytes u x n = s.storeBytes u x n := by simp only [State.storeBytes, State.updStream_store]

@[simp] theorem State.setCtx_stream (s : State) (c : Nat) (x : Ctx) (k : Nat) : (s.setCtx c x).stream k = s.stream k := by simp only [State.stream, State.setCtx_streams]
@[simp] theorem State.setCtx_gate (s : State) (c : Nat) (x : Ctx) (g : Nat) : (s.setCtx c x).gate g = s.gate g := by simp only [State.gate, State.setCtx_gates]
@[simp] theorem State.setCtx_port (s : State) (c : Nat) (x : Ctx) (n : Nat) : (s.setCtx c x).port n = s.port n := by simp only [State.port, State.setCtx_router]
@[simp] theorem State.setCtx_relay (s : State) (c : Nat) (x : Ctx) (i : Nat) : (s.setCtx c x).relay i = s.relay i := by simp only [State.relay, State.setCtx_col]
@[simp] theorem State.setCtx_rsEntry (s : State) (c : Nat) (x : Ctx) (i : Nat) : (s.setCtx c x).rsEntry i = s.rsEntry i := by simp only [State.rsEntry, State.setCtx_col]
@[simp] theorem State.setCtx_admits (s : State) (c : Nat) (x : Ctx) (c' : Nat) : (s.setCtx c x).admits c' = s.admits c' := by simp only [State.admits, State.setCtx_col]
@[simp] theorem State.setCtx_flowQueue (s : State) (c : Nat) (x : Ctx) (q : Nat) : (s.setCtx c x).flowQueue q = s.flowQueue q := by simp only [State.flowQueue, State.setCtx_router]
@[simp] theorem State.setCtx_sess (s : State) (c : Nat) (x : Ctx) (x' : Nat) : (s.setCtx c x).sess x' = s.sess x' := by simp only [State.sess, State.setCtx_host]
@[simp] theorem State.setCtx_reg (s : State) (c : Nat) (x : Ctx) (off : Nat) : (s.setCtx c x).reg off = s.reg off := by simp only [State.reg, State.setCtx_regs]
@[simp] theorem State.setCtx_rd (s : State) (c : Nat) (x : Ctx) (fld : Fld) : (s.setCtx c x).rd fld = s.rd fld := by simp only [State.rd, State.reg, State.setCtx_regs]
@[simp] theorem State.setCtx_rinkBytes (s : State) (c : Nat) (x : Ctx) (x' n : Nat) : (s.setCtx c x).rinkBytes x' n = s.rinkBytes x' n := by simp only [State.rinkBytes, State.setCtx_rink]
@[simp] theorem State.setCtx_memBytes (s : State) (c : Nat) (x : Ctx) (x' n : Nat) : (s.setCtx c x).memBytes x' n = s.memBytes x' n := by simp only [State.memBytes, State.setCtx_lpddr]
@[simp] theorem State.setCtx_gateBytes (s : State) (c : Nat) (x : Ctx) (g x' n : Nat) : (s.setCtx c x).gateBytes g x' n = s.gateBytes g x' n := by simp only [State.gateBytes, State.setCtx_gsram]
@[simp] theorem State.setCtx_storeBytes (s : State) (c : Nat) (x : Ctx) (u x' n : Nat) : (s.setCtx c x).storeBytes u x' n = s.storeBytes u x' n := by simp only [State.storeBytes, State.setCtx_store]

@[simp] theorem State.updCtx_stream (s : State) (c : Nat) (f : Ctx → Ctx) (k : Nat) : (s.updCtx c f).stream k = s.stream k := by simp only [State.stream, State.updCtx_streams]
@[simp] theorem State.updCtx_gate (s : State) (c : Nat) (f : Ctx → Ctx) (g : Nat) : (s.updCtx c f).gate g = s.gate g := by simp only [State.gate, State.updCtx_gates]
@[simp] theorem State.updCtx_port (s : State) (c : Nat) (f : Ctx → Ctx) (n : Nat) : (s.updCtx c f).port n = s.port n := by simp only [State.port, State.updCtx_router]
@[simp] theorem State.updCtx_relay (s : State) (c : Nat) (f : Ctx → Ctx) (i : Nat) : (s.updCtx c f).relay i = s.relay i := by simp only [State.relay, State.updCtx_col]
@[simp] theorem State.updCtx_rsEntry (s : State) (c : Nat) (f : Ctx → Ctx) (i : Nat) : (s.updCtx c f).rsEntry i = s.rsEntry i := by simp only [State.rsEntry, State.updCtx_col]
@[simp] theorem State.updCtx_admits (s : State) (c : Nat) (f : Ctx → Ctx) (c' : Nat) : (s.updCtx c f).admits c' = s.admits c' := by simp only [State.admits, State.updCtx_col]
@[simp] theorem State.updCtx_flowQueue (s : State) (c : Nat) (f : Ctx → Ctx) (q : Nat) : (s.updCtx c f).flowQueue q = s.flowQueue q := by simp only [State.flowQueue, State.updCtx_router]
@[simp] theorem State.updCtx_sess (s : State) (c : Nat) (f : Ctx → Ctx) (x : Nat) : (s.updCtx c f).sess x = s.sess x := by simp only [State.sess, State.updCtx_host]
@[simp] theorem State.updCtx_reg (s : State) (c : Nat) (f : Ctx → Ctx) (off : Nat) : (s.updCtx c f).reg off = s.reg off := by simp only [State.reg, State.updCtx_regs]
@[simp] theorem State.updCtx_rd (s : State) (c : Nat) (f : Ctx → Ctx) (fld : Fld) : (s.updCtx c f).rd fld = s.rd fld := by simp only [State.rd, State.reg, State.updCtx_regs]
@[simp] theorem State.updCtx_rinkBytes (s : State) (c : Nat) (f : Ctx → Ctx) (x n : Nat) : (s.updCtx c f).rinkBytes x n = s.rinkBytes x n := by simp only [State.rinkBytes, State.updCtx_rink]
@[simp] theorem State.updCtx_memBytes (s : State) (c : Nat) (f : Ctx → Ctx) (x n : Nat) : (s.updCtx c f).memBytes x n = s.memBytes x n := by simp only [State.memBytes, State.updCtx_lpddr]
@[simp] theorem State.updCtx_gateBytes (s : State) (c : Nat) (f : Ctx → Ctx) (g x n : Nat) : (s.updCtx c f).gateBytes g x n = s.gateBytes g x n := by simp only [State.gateBytes, State.updCtx_gsram]
@[simp] theorem State.updCtx_storeBytes (s : State) (c : Nat) (f : Ctx → Ctx) (u x n : Nat) : (s.updCtx c f).storeBytes u x n = s.storeBytes u x n := by simp only [State.storeBytes, State.updCtx_store]

@[simp] theorem State.updGate_stream (s : State) (g : Nat) (f : Gate → Gate) (k : Nat) : (s.updGate g f).stream k = s.stream k := by simp only [State.stream, State.updGate_streams]
@[simp] theorem State.updGate_ctx (s : State) (g : Nat) (f : Gate → Gate) (c : Nat) : (s.updGate g f).ctx c = s.ctx c := by simp only [State.ctx, State.updGate_ctxs]
@[simp] theorem State.updGate_port (s : State) (g : Nat) (f : Gate → Gate) (n : Nat) : (s.updGate g f).port n = s.port n := by simp only [State.port, State.updGate_router]
@[simp] theorem State.updGate_relay (s : State) (g : Nat) (f : Gate → Gate) (i : Nat) : (s.updGate g f).relay i = s.relay i := by simp only [State.relay, State.updGate_col]
@[simp] theorem State.updGate_rsEntry (s : State) (g : Nat) (f : Gate → Gate) (i : Nat) : (s.updGate g f).rsEntry i = s.rsEntry i := by simp only [State.rsEntry, State.updGate_col]
@[simp] theorem State.updGate_admits (s : State) (g : Nat) (f : Gate → Gate) (c : Nat) : (s.updGate g f).admits c = s.admits c := by simp only [State.admits, State.updGate_col]
@[simp] theorem State.updGate_flowQueue (s : State) (g : Nat) (f : Gate → Gate) (q : Nat) : (s.updGate g f).flowQueue q = s.flowQueue q := by simp only [State.flowQueue, State.updGate_router]
@[simp] theorem State.updGate_sess (s : State) (g : Nat) (f : Gate → Gate) (x : Nat) : (s.updGate g f).sess x = s.sess x := by simp only [State.sess, State.updGate_host]
@[simp] theorem State.updGate_reg (s : State) (g : Nat) (f : Gate → Gate) (off : Nat) : (s.updGate g f).reg off = s.reg off := by simp only [State.reg, State.updGate_regs]
@[simp] theorem State.updGate_rd (s : State) (g : Nat) (f : Gate → Gate) (fld : Fld) : (s.updGate g f).rd fld = s.rd fld := by simp only [State.rd, State.reg, State.updGate_regs]
@[simp] theorem State.updGate_rinkBytes (s : State) (g : Nat) (f : Gate → Gate) (x n : Nat) : (s.updGate g f).rinkBytes x n = s.rinkBytes x n := by simp only [State.rinkBytes, State.updGate_rink]
@[simp] theorem State.updGate_memBytes (s : State) (g : Nat) (f : Gate → Gate) (x n : Nat) : (s.updGate g f).memBytes x n = s.memBytes x n := by simp only [State.memBytes, State.updGate_lpddr]
@[simp] theorem State.updGate_gateBytes (s : State) (g : Nat) (f : Gate → Gate) (g' x n : Nat) : (s.updGate g f).gateBytes g' x n = s.gateBytes g' x n := by simp only [State.gateBytes, State.updGate_gsram]
@[simp] theorem State.updGate_storeBytes (s : State) (g : Nat) (f : Gate → Gate) (u x n : Nat) : (s.updGate g f).storeBytes u x n = s.storeBytes u x n := by simp only [State.storeBytes, State.updGate_store]

@[simp] theorem State.updRouter_stream (s : State) (f : Router → Router) (k : Nat) : (s.updRouter f).stream k = s.stream k := by simp only [State.stream, State.updRouter_streams]
@[simp] theorem State.updRouter_ctx (s : State) (f : Router → Router) (c : Nat) : (s.updRouter f).ctx c = s.ctx c := by simp only [State.ctx, State.updRouter_ctxs]
@[simp] theorem State.updRouter_gate (s : State) (f : Router → Router) (g : Nat) : (s.updRouter f).gate g = s.gate g := by simp only [State.gate, State.updRouter_gates]
@[simp] theorem State.updRouter_relay (s : State) (f : Router → Router) (i : Nat) : (s.updRouter f).relay i = s.relay i := by simp only [State.relay, State.updRouter_col]
@[simp] theorem State.updRouter_rsEntry (s : State) (f : Router → Router) (i : Nat) : (s.updRouter f).rsEntry i = s.rsEntry i := by simp only [State.rsEntry, State.updRouter_col]
@[simp] theorem State.updRouter_admits (s : State) (f : Router → Router) (c : Nat) : (s.updRouter f).admits c = s.admits c := by simp only [State.admits, State.updRouter_col]
@[simp] theorem State.updRouter_sess (s : State) (f : Router → Router) (x : Nat) : (s.updRouter f).sess x = s.sess x := by simp only [State.sess, State.updRouter_host]
@[simp] theorem State.updRouter_reg (s : State) (f : Router → Router) (off : Nat) : (s.updRouter f).reg off = s.reg off := by simp only [State.reg, State.updRouter_regs]
@[simp] theorem State.updRouter_rd (s : State) (f : Router → Router) (fld : Fld) : (s.updRouter f).rd fld = s.rd fld := by simp only [State.rd, State.reg, State.updRouter_regs]
@[simp] theorem State.updRouter_rinkBytes (s : State) (f : Router → Router) (x n : Nat) : (s.updRouter f).rinkBytes x n = s.rinkBytes x n := by simp only [State.rinkBytes, State.updRouter_rink]
@[simp] theorem State.updRouter_memBytes (s : State) (f : Router → Router) (x n : Nat) : (s.updRouter f).memBytes x n = s.memBytes x n := by simp only [State.memBytes, State.updRouter_lpddr]
@[simp] theorem State.updRouter_gateBytes (s : State) (f : Router → Router) (g x n : Nat) : (s.updRouter f).gateBytes g x n = s.gateBytes g x n := by simp only [State.gateBytes, State.updRouter_gsram]
@[simp] theorem State.updRouter_storeBytes (s : State) (f : Router → Router) (u x n : Nat) : (s.updRouter f).storeBytes u x n = s.storeBytes u x n := by simp only [State.storeBytes, State.updRouter_store]

@[simp] theorem State.updPort_stream (s : State) (n : Nat) (f : Port → Port) (k : Nat) : (s.updPort n f).stream k = s.stream k := by simp only [State.stream, State.updPort_streams]
@[simp] theorem State.updPort_ctx (s : State) (n : Nat) (f : Port → Port) (c : Nat) : (s.updPort n f).ctx c = s.ctx c := by simp only [State.ctx, State.updPort_ctxs]
@[simp] theorem State.updPort_gate (s : State) (n : Nat) (f : Port → Port) (g : Nat) : (s.updPort n f).gate g = s.gate g := by simp only [State.gate, State.updPort_gates]
@[simp] theorem State.updPort_relay (s : State) (n : Nat) (f : Port → Port) (i : Nat) : (s.updPort n f).relay i = s.relay i := by simp only [State.relay, State.updPort_col]
@[simp] theorem State.updPort_rsEntry (s : State) (n : Nat) (f : Port → Port) (i : Nat) : (s.updPort n f).rsEntry i = s.rsEntry i := by simp only [State.rsEntry, State.updPort_col]
@[simp] theorem State.updPort_admits (s : State) (n : Nat) (f : Port → Port) (c : Nat) : (s.updPort n f).admits c = s.admits c := by simp only [State.admits, State.updPort_col]
@[simp] theorem State.updPort_sess (s : State) (n : Nat) (f : Port → Port) (x : Nat) : (s.updPort n f).sess x = s.sess x := by simp only [State.sess, State.updPort_host]
@[simp] theorem State.updPort_reg (s : State) (n : Nat) (f : Port → Port) (off : Nat) : (s.updPort n f).reg off = s.reg off := by simp only [State.reg, State.updPort_regs]
@[simp] theorem State.updPort_rd (s : State) (n : Nat) (f : Port → Port) (fld : Fld) : (s.updPort n f).rd fld = s.rd fld := by simp only [State.rd, State.reg, State.updPort_regs]
@[simp] theorem State.updPort_rinkBytes (s : State) (n : Nat) (f : Port → Port) (x n' : Nat) : (s.updPort n f).rinkBytes x n' = s.rinkBytes x n' := by simp only [State.rinkBytes, State.updPort_rink]
@[simp] theorem State.updPort_memBytes (s : State) (n : Nat) (f : Port → Port) (x n' : Nat) : (s.updPort n f).memBytes x n' = s.memBytes x n' := by simp only [State.memBytes, State.updPort_lpddr]
@[simp] theorem State.updPort_gateBytes (s : State) (n : Nat) (f : Port → Port) (g x n' : Nat) : (s.updPort n f).gateBytes g x n' = s.gateBytes g x n' := by simp only [State.gateBytes, State.updPort_gsram]
@[simp] theorem State.updPort_storeBytes (s : State) (n : Nat) (f : Port → Port) (u x n' : Nat) : (s.updPort n f).storeBytes u x n' = s.storeBytes u x n' := by simp only [State.storeBytes, State.updPort_store]

@[simp] theorem State.updCol_stream (s : State) (f : Col → Col) (k : Nat) : (s.updCol f).stream k = s.stream k := by simp only [State.stream, State.updCol_streams]
@[simp] theorem State.updCol_ctx (s : State) (f : Col → Col) (c : Nat) : (s.updCol f).ctx c = s.ctx c := by simp only [State.ctx, State.updCol_ctxs]
@[simp] theorem State.updCol_gate (s : State) (f : Col → Col) (g : Nat) : (s.updCol f).gate g = s.gate g := by simp only [State.gate, State.updCol_gates]
@[simp] theorem State.updCol_port (s : State) (f : Col → Col) (n : Nat) : (s.updCol f).port n = s.port n := by simp only [State.port, State.updCol_router]
@[simp] theorem State.updCol_flowQueue (s : State) (f : Col → Col) (q : Nat) : (s.updCol f).flowQueue q = s.flowQueue q := by simp only [State.flowQueue, State.updCol_router]
@[simp] theorem State.updCol_sess (s : State) (f : Col → Col) (x : Nat) : (s.updCol f).sess x = s.sess x := by simp only [State.sess, State.updCol_host]
@[simp] theorem State.updCol_reg (s : State) (f : Col → Col) (off : Nat) : (s.updCol f).reg off = s.reg off := by simp only [State.reg, State.updCol_regs]
@[simp] theorem State.updCol_rd (s : State) (f : Col → Col) (fld : Fld) : (s.updCol f).rd fld = s.rd fld := by simp only [State.rd, State.reg, State.updCol_regs]
@[simp] theorem State.updCol_rinkBytes (s : State) (f : Col → Col) (x n : Nat) : (s.updCol f).rinkBytes x n = s.rinkBytes x n := by simp only [State.rinkBytes, State.updCol_rink]
@[simp] theorem State.updCol_memBytes (s : State) (f : Col → Col) (x n : Nat) : (s.updCol f).memBytes x n = s.memBytes x n := by simp only [State.memBytes, State.updCol_lpddr]
@[simp] theorem State.updCol_gateBytes (s : State) (f : Col → Col) (g x n : Nat) : (s.updCol f).gateBytes g x n = s.gateBytes g x n := by simp only [State.gateBytes, State.updCol_gsram]
@[simp] theorem State.updCol_storeBytes (s : State) (f : Col → Col) (u x n : Nat) : (s.updCol f).storeBytes u x n = s.storeBytes u x n := by simp only [State.storeBytes, State.updCol_store]

@[simp] theorem State.updLap_stream (s : State) (f : LapUnit → LapUnit) (k : Nat) : (s.updLap f).stream k = s.stream k := by simp only [State.stream, State.updLap_streams]
@[simp] theorem State.updLap_ctx (s : State) (f : LapUnit → LapUnit) (c : Nat) : (s.updLap f).ctx c = s.ctx c := by simp only [State.ctx, State.updLap_ctxs]
@[simp] theorem State.updLap_gate (s : State) (f : LapUnit → LapUnit) (g : Nat) : (s.updLap f).gate g = s.gate g := by simp only [State.gate, State.updLap_gates]
@[simp] theorem State.updLap_port (s : State) (f : LapUnit → LapUnit) (n : Nat) : (s.updLap f).port n = s.port n := by simp only [State.port, State.updLap_router]
@[simp] theorem State.updLap_relay (s : State) (f : LapUnit → LapUnit) (i : Nat) : (s.updLap f).relay i = s.relay i := by simp only [State.relay, State.updLap_col]
@[simp] theorem State.updLap_rsEntry (s : State) (f : LapUnit → LapUnit) (i : Nat) : (s.updLap f).rsEntry i = s.rsEntry i := by simp only [State.rsEntry, State.updLap_col]
@[simp] theorem State.updLap_admits (s : State) (f : LapUnit → LapUnit) (c : Nat) : (s.updLap f).admits c = s.admits c := by simp only [State.admits, State.updLap_col]
@[simp] theorem State.updLap_flowQueue (s : State) (f : LapUnit → LapUnit) (q : Nat) : (s.updLap f).flowQueue q = s.flowQueue q := by simp only [State.flowQueue, State.updLap_router]
@[simp] theorem State.updLap_sess (s : State) (f : LapUnit → LapUnit) (x : Nat) : (s.updLap f).sess x = s.sess x := by simp only [State.sess, State.updLap_host]
@[simp] theorem State.updLap_reg (s : State) (f : LapUnit → LapUnit) (off : Nat) : (s.updLap f).reg off = s.reg off := by simp only [State.reg, State.updLap_regs]
@[simp] theorem State.updLap_rd (s : State) (f : LapUnit → LapUnit) (fld : Fld) : (s.updLap f).rd fld = s.rd fld := by simp only [State.rd, State.reg, State.updLap_regs]
@[simp] theorem State.updLap_rinkBytes (s : State) (f : LapUnit → LapUnit) (x n : Nat) : (s.updLap f).rinkBytes x n = s.rinkBytes x n := by simp only [State.rinkBytes, State.updLap_rink]
@[simp] theorem State.updLap_memBytes (s : State) (f : LapUnit → LapUnit) (x n : Nat) : (s.updLap f).memBytes x n = s.memBytes x n := by simp only [State.memBytes, State.updLap_lpddr]
@[simp] theorem State.updLap_gateBytes (s : State) (f : LapUnit → LapUnit) (g x n : Nat) : (s.updLap f).gateBytes g x n = s.gateBytes g x n := by simp only [State.gateBytes, State.updLap_gsram]
@[simp] theorem State.updLap_storeBytes (s : State) (f : LapUnit → LapUnit) (u x n : Nat) : (s.updLap f).storeBytes u x n = s.storeBytes u x n := by simp only [State.storeBytes, State.updLap_store]

@[simp] theorem State.updLocker_stream (s : State) (f : Locker → Locker) (k : Nat) : (s.updLocker f).stream k = s.stream k := by simp only [State.stream, State.updLocker_streams]
@[simp] theorem State.updLocker_ctx (s : State) (f : Locker → Locker) (c : Nat) : (s.updLocker f).ctx c = s.ctx c := by simp only [State.ctx, State.updLocker_ctxs]
@[simp] theorem State.updLocker_gate (s : State) (f : Locker → Locker) (g : Nat) : (s.updLocker f).gate g = s.gate g := by simp only [State.gate, State.updLocker_gates]
@[simp] theorem State.updLocker_port (s : State) (f : Locker → Locker) (n : Nat) : (s.updLocker f).port n = s.port n := by simp only [State.port, State.updLocker_router]
@[simp] theorem State.updLocker_relay (s : State) (f : Locker → Locker) (i : Nat) : (s.updLocker f).relay i = s.relay i := by simp only [State.relay, State.updLocker_col]
@[simp] theorem State.updLocker_rsEntry (s : State) (f : Locker → Locker) (i : Nat) : (s.updLocker f).rsEntry i = s.rsEntry i := by simp only [State.rsEntry, State.updLocker_col]
@[simp] theorem State.updLocker_admits (s : State) (f : Locker → Locker) (c : Nat) : (s.updLocker f).admits c = s.admits c := by simp only [State.admits, State.updLocker_col]
@[simp] theorem State.updLocker_flowQueue (s : State) (f : Locker → Locker) (q : Nat) : (s.updLocker f).flowQueue q = s.flowQueue q := by simp only [State.flowQueue, State.updLocker_router]
@[simp] theorem State.updLocker_sess (s : State) (f : Locker → Locker) (x : Nat) : (s.updLocker f).sess x = s.sess x := by simp only [State.sess, State.updLocker_host]
@[simp] theorem State.updLocker_reg (s : State) (f : Locker → Locker) (off : Nat) : (s.updLocker f).reg off = s.reg off := by simp only [State.reg, State.updLocker_regs]
@[simp] theorem State.updLocker_rd (s : State) (f : Locker → Locker) (fld : Fld) : (s.updLocker f).rd fld = s.rd fld := by simp only [State.rd, State.reg, State.updLocker_regs]
@[simp] theorem State.updLocker_rinkBytes (s : State) (f : Locker → Locker) (x n : Nat) : (s.updLocker f).rinkBytes x n = s.rinkBytes x n := by simp only [State.rinkBytes, State.updLocker_rink]
@[simp] theorem State.updLocker_memBytes (s : State) (f : Locker → Locker) (x n : Nat) : (s.updLocker f).memBytes x n = s.memBytes x n := by simp only [State.memBytes, State.updLocker_lpddr]
@[simp] theorem State.updLocker_gateBytes (s : State) (f : Locker → Locker) (g x n : Nat) : (s.updLocker f).gateBytes g x n = s.gateBytes g x n := by simp only [State.gateBytes, State.updLocker_gsram]
@[simp] theorem State.updLocker_storeBytes (s : State) (f : Locker → Locker) (u x n : Nat) : (s.updLocker f).storeBytes u x n = s.storeBytes u x n := by simp only [State.storeBytes, State.updLocker_store]

@[simp] theorem State.setSess_stream (s : State) (x : Nat) (y : Sess) (k : Nat) : (s.setSess x y).stream k = s.stream k := by simp only [State.stream, State.setSess_streams]
@[simp] theorem State.setSess_ctx (s : State) (x : Nat) (y : Sess) (c : Nat) : (s.setSess x y).ctx c = s.ctx c := by simp only [State.ctx, State.setSess_ctxs]
@[simp] theorem State.setSess_gate (s : State) (x : Nat) (y : Sess) (g : Nat) : (s.setSess x y).gate g = s.gate g := by simp only [State.gate, State.setSess_gates]
@[simp] theorem State.setSess_port (s : State) (x : Nat) (y : Sess) (n : Nat) : (s.setSess x y).port n = s.port n := by simp only [State.port, State.setSess_router]
@[simp] theorem State.setSess_relay (s : State) (x : Nat) (y : Sess) (i : Nat) : (s.setSess x y).relay i = s.relay i := by simp only [State.relay, State.setSess_col]
@[simp] theorem State.setSess_rsEntry (s : State) (x : Nat) (y : Sess) (i : Nat) : (s.setSess x y).rsEntry i = s.rsEntry i := by simp only [State.rsEntry, State.setSess_col]
@[simp] theorem State.setSess_admits (s : State) (x : Nat) (y : Sess) (c : Nat) : (s.setSess x y).admits c = s.admits c := by simp only [State.admits, State.setSess_col]
@[simp] theorem State.setSess_flowQueue (s : State) (x : Nat) (y : Sess) (q : Nat) : (s.setSess x y).flowQueue q = s.flowQueue q := by simp only [State.flowQueue, State.setSess_router]
@[simp] theorem State.setSess_reg (s : State) (x : Nat) (y : Sess) (off : Nat) : (s.setSess x y).reg off = s.reg off := by simp only [State.reg, State.setSess_regs]
@[simp] theorem State.setSess_rd (s : State) (x : Nat) (y : Sess) (fld : Fld) : (s.setSess x y).rd fld = s.rd fld := by simp only [State.rd, State.reg, State.setSess_regs]
@[simp] theorem State.setSess_rinkBytes (s : State) (x : Nat) (y : Sess) (x' n : Nat) : (s.setSess x y).rinkBytes x' n = s.rinkBytes x' n := by simp only [State.rinkBytes, State.setSess_rink]
@[simp] theorem State.setSess_memBytes (s : State) (x : Nat) (y : Sess) (x' n : Nat) : (s.setSess x y).memBytes x' n = s.memBytes x' n := by simp only [State.memBytes, State.setSess_lpddr]
@[simp] theorem State.setSess_gateBytes (s : State) (x : Nat) (y : Sess) (g x' n : Nat) : (s.setSess x y).gateBytes g x' n = s.gateBytes g x' n := by simp only [State.gateBytes, State.setSess_gsram]
@[simp] theorem State.setSess_storeBytes (s : State) (x : Nat) (y : Sess) (u x' n : Nat) : (s.setSess x y).storeBytes u x' n = s.storeBytes u x' n := by simp only [State.storeBytes, State.setSess_store]

@[simp] theorem State.emit_stream (s : State) (o : Out) (k : Nat) : (s.emit o).stream k = s.stream k := by simp only [State.stream, State.emit_streams]
@[simp] theorem State.emit_ctx (s : State) (o : Out) (c : Nat) : (s.emit o).ctx c = s.ctx c := by simp only [State.ctx, State.emit_ctxs]
@[simp] theorem State.emit_gate (s : State) (o : Out) (g : Nat) : (s.emit o).gate g = s.gate g := by simp only [State.gate, State.emit_gates]
@[simp] theorem State.emit_port (s : State) (o : Out) (n : Nat) : (s.emit o).port n = s.port n := by simp only [State.port, State.emit_router]
@[simp] theorem State.emit_relay (s : State) (o : Out) (i : Nat) : (s.emit o).relay i = s.relay i := by simp only [State.relay, State.emit_col]
@[simp] theorem State.emit_rsEntry (s : State) (o : Out) (i : Nat) : (s.emit o).rsEntry i = s.rsEntry i := by simp only [State.rsEntry, State.emit_col]
@[simp] theorem State.emit_admits (s : State) (o : Out) (c : Nat) : (s.emit o).admits c = s.admits c := by simp only [State.admits, State.emit_col]
@[simp] theorem State.emit_flowQueue (s : State) (o : Out) (q : Nat) : (s.emit o).flowQueue q = s.flowQueue q := by simp only [State.flowQueue, State.emit_router]
@[simp] theorem State.emit_sess (s : State) (o : Out) (x : Nat) : (s.emit o).sess x = s.sess x := by simp only [State.sess, State.emit_host]
@[simp] theorem State.emit_reg (s : State) (o : Out) (off : Nat) : (s.emit o).reg off = s.reg off := by simp only [State.reg, State.emit_regs]
@[simp] theorem State.emit_rd (s : State) (o : Out) (fld : Fld) : (s.emit o).rd fld = s.rd fld := by simp only [State.rd, State.reg, State.emit_regs]
@[simp] theorem State.emit_rinkBytes (s : State) (o : Out) (x n : Nat) : (s.emit o).rinkBytes x n = s.rinkBytes x n := by simp only [State.rinkBytes, State.emit_rink]
@[simp] theorem State.emit_memBytes (s : State) (o : Out) (x n : Nat) : (s.emit o).memBytes x n = s.memBytes x n := by simp only [State.memBytes, State.emit_lpddr]
@[simp] theorem State.emit_gateBytes (s : State) (o : Out) (g x n : Nat) : (s.emit o).gateBytes g x n = s.gateBytes g x n := by simp only [State.gateBytes, State.emit_gsram]
@[simp] theorem State.emit_storeBytes (s : State) (o : Out) (u x n : Nat) : (s.emit o).storeBytes u x n = s.storeBytes u x n := by simp only [State.storeBytes, State.emit_store]

/-! `upset` changes `lpddr`, `flips` and `rinkErr` only (R177, R207). -/

/-- What an upset of either array leaves is what a command's upsets leave. -/
theorem State.upset_keeps {α : Type} (p : State → α) (hm : ∀ s u, p (s.memUpset u) = p s) (hr : ∀ s e, p (s.rinkUpset e) = p s) (s : State)
    (u : Upsets) : p (s.upset u) = p s := by
  unfold State.upset
  have h1 : ∀ (l : List RinkError) (s : State), p (l.foldl (fun s x => s.rinkUpset x) s) = p s := by
    intro l; induction l with
    | nil => exact fun _ => rfl
    | cons e l ih => exact fun s => (ih _).trans (hr s e)
  have h2 : ∀ (l : List Upset) (s : State), p (l.foldl (fun s x => s.memUpset x) s) = p s := by
    intro l; induction l with
    | nil => exact fun _ => rfl
    | cons e l ih => exact fun s => (ih _).trans (hm s e)
  rw [h2, h1]


@[simp] theorem State.memUpset_regs (s : State) (u : Upset) : (s.memUpset u).regs = s.regs := by unfold State.memUpset; dsimp only; repeat (first | rfl | split)
@[simp] theorem State.memUpset_rink (s : State) (u : Upset) : (s.memUpset u).rink = s.rink := by unfold State.memUpset; dsimp only; repeat (first | rfl | split)
@[simp] theorem State.memUpset_rinkQ (s : State) (u : Upset) : (s.memUpset u).rinkQ = s.rinkQ := by unfold State.memUpset; dsimp only; repeat (first | rfl | split)
@[simp] theorem State.memUpset_store (s : State) (u : Upset) : (s.memUpset u).store = s.store := by unfold State.memUpset; dsimp only; repeat (first | rfl | split)
@[simp] theorem State.memUpset_gsram (s : State) (u : Upset) : (s.memUpset u).gsram = s.gsram := by unfold State.memUpset; dsimp only; repeat (first | rfl | split)
@[simp] theorem State.memUpset_rstore (s : State) (u : Upset) : (s.memUpset u).rstore = s.rstore := by unfold State.memUpset; dsimp only; repeat (first | rfl | split)
@[simp] theorem State.memUpset_guard (s : State) (u : Upset) : (s.memUpset u).guard = s.guard := by unfold State.memUpset; dsimp only; repeat (first | rfl | split)
@[simp] theorem State.memUpset_tmpl (s : State) (u : Upset) : (s.memUpset u).tmpl = s.tmpl := by unfold State.memUpset; dsimp only; repeat (first | rfl | split)
@[simp] theorem State.memUpset_lap (s : State) (u : Upset) : (s.memUpset u).lap = s.lap := by unfold State.memUpset; dsimp only; repeat (first | rfl | split)
@[simp] theorem State.memUpset_streams (s : State) (u : Upset) : (s.memUpset u).streams = s.streams := by unfold State.memUpset; dsimp only; repeat (first | rfl | split)
@[simp] theorem State.memUpset_ctxs (s : State) (u : Upset) : (s.memUpset u).ctxs = s.ctxs := by unfold State.memUpset; dsimp only; repeat (first | rfl | split)
@[simp] theorem State.memUpset_locker (s : State) (u : Upset) : (s.memUpset u).locker = s.locker := by unfold State.memUpset; dsimp only; repeat (first | rfl | split)
@[simp] theorem State.memUpset_gates (s : State) (u : Upset) : (s.memUpset u).gates = s.gates := by unfold State.memUpset; dsimp only; repeat (first | rfl | split)
@[simp] theorem State.memUpset_gmus (s : State) (u : Upset) : (s.memUpset u).gmus = s.gmus := by unfold State.memUpset; dsimp only; repeat (first | rfl | split)
@[simp] theorem State.memUpset_courses (s : State) (u : Upset) : (s.memUpset u).courses = s.courses := by unfold State.memUpset; dsimp only; repeat (first | rfl | split)
@[simp] theorem State.memUpset_loading (s : State) (u : Upset) : (s.memUpset u).loading = s.loading := by unfold State.memUpset; dsimp only; repeat (first | rfl | split)
@[simp] theorem State.memUpset_router (s : State) (u : Upset) : (s.memUpset u).router = s.router := by unfold State.memUpset; dsimp only; repeat (first | rfl | split)
@[simp] theorem State.memUpset_remotes (s : State) (u : Upset) : (s.memUpset u).remotes = s.remotes := by unfold State.memUpset; dsimp only; repeat (first | rfl | split)
@[simp] theorem State.memUpset_requests (s : State) (u : Upset) : (s.memUpset u).requests = s.requests := by unfold State.memUpset; dsimp only; repeat (first | rfl | split)
@[simp] theorem State.memUpset_col (s : State) (u : Upset) : (s.memUpset u).col = s.col := by unfold State.memUpset; dsimp only; repeat (first | rfl | split)
@[simp] theorem State.memUpset_lead (s : State) (u : Upset) : (s.memUpset u).lead = s.lead := by unfold State.memUpset; dsimp only; repeat (first | rfl | split)
@[simp] theorem State.memUpset_host (s : State) (u : Upset) : (s.memUpset u).host = s.host := by unfold State.memUpset; dsimp only; repeat (first | rfl | split)
@[simp] theorem State.memUpset_lapFlags (s : State) (u : Upset) : (s.memUpset u).lapFlags = s.lapFlags := by unfold State.memUpset; dsimp only; repeat (first | rfl | split)
@[simp] theorem State.memUpset_bufBreach (s : State) (u : Upset) : (s.memUpset u).bufBreach = s.bufBreach := by unfold State.memUpset; dsimp only; repeat (first | rfl | split)
@[simp] theorem State.memUpset_snaps (s : State) (u : Upset) : (s.memUpset u).snaps = s.snaps := by unfold State.memUpset; dsimp only; repeat (first | rfl | split)
@[simp] theorem State.memUpset_restore (s : State) (u : Upset) : (s.memUpset u).restore = s.restore := by unfold State.memUpset; dsimp only; repeat (first | rfl | split)
@[simp] theorem State.memUpset_partials (s : State) (u : Upset) : (s.memUpset u).partials = s.partials := by unfold State.memUpset; dsimp only; repeat (first | rfl | split)
@[simp] theorem State.memUpset_silenced (s : State) (u : Upset) : (s.memUpset u).silenced = s.silenced := by unfold State.memUpset; dsimp only; repeat (first | rfl | split)
@[simp] theorem State.memUpset_faultLog (s : State) (u : Upset) : (s.memUpset u).faultLog = s.faultLog := by unfold State.memUpset; dsimp only; repeat (first | rfl | split)
@[simp] theorem State.memUpset_sec (s : State) (u : Upset) : (s.memUpset u).sec = s.sec := by unfold State.memUpset; dsimp only; repeat (first | rfl | split)
@[simp] theorem State.memUpset_clkLog (s : State) (u : Upset) : (s.memUpset u).clkLog = s.clkLog := by unfold State.memUpset; dsimp only; repeat (first | rfl | split)
@[simp] theorem State.memUpset_floors (s : State) (u : Upset) : (s.memUpset u).floors = s.floors := by unfold State.memUpset; dsimp only; repeat (first | rfl | split)
@[simp] theorem State.memUpset_telQueue (s : State) (u : Upset) : (s.memUpset u).telQueue = s.telQueue := by unfold State.memUpset; dsimp only; repeat (first | rfl | split)
@[simp] theorem State.memUpset_telSeq (s : State) (u : Upset) : (s.memUpset u).telSeq = s.telSeq := by unfold State.memUpset; dsimp only; repeat (first | rfl | split)
@[simp] theorem State.memUpset_telLast (s : State) (u : Upset) : (s.memUpset u).telLast = s.telLast := by unfold State.memUpset; dsimp only; repeat (first | rfl | split)
@[simp] theorem State.memUpset_repeats (s : State) (u : Upset) : (s.memUpset u).repeats = s.repeats := by unfold State.memUpset; dsimp only; repeat (first | rfl | split)
@[simp] theorem State.memUpset_power (s : State) (u : Upset) : (s.memUpset u).power = s.power := by unfold State.memUpset; dsimp only; repeat (first | rfl | split)
@[simp] theorem State.memUpset_frozen (s : State) (u : Upset) : (s.memUpset u).frozen = s.frozen := by unfold State.memUpset; dsimp only; repeat (first | rfl | split)
@[simp] theorem State.memUpset_stopped (s : State) (u : Upset) : (s.memUpset u).stopped = s.stopped := by unfold State.memUpset; dsimp only; repeat (first | rfl | split)
@[simp] theorem State.memUpset_shadow (s : State) (u : Upset) : (s.memUpset u).shadow = s.shadow := by unfold State.memUpset; dsimp only; repeat (first | rfl | split)
@[simp] theorem State.memUpset_capture (s : State) (u : Upset) : (s.memUpset u).capture = s.capture := by unfold State.memUpset; dsimp only; repeat (first | rfl | split)
@[simp] theorem State.memUpset_mems (s : State) (u : Upset) : (s.memUpset u).mems = s.mems := by unfold State.memUpset; dsimp only; repeat (first | rfl | split)
@[simp] theorem State.memUpset_lapDeferred (s : State) (u : Upset) : (s.memUpset u).lapDeferred = s.lapDeferred := by unfold State.memUpset; dsimp only; repeat (first | rfl | split)
@[simp] theorem State.memUpset_levels (s : State) (u : Upset) : (s.memUpset u).levels = s.levels := by unfold State.memUpset; dsimp only; repeat (first | rfl | split)
@[simp] theorem State.memUpset_clk (s : State) (u : Upset) : (s.memUpset u).clk = s.clk := by unfold State.memUpset; dsimp only; repeat (first | rfl | split)
@[simp] theorem State.memUpset_scrubLine (s : State) (u : Upset) : (s.memUpset u).scrubLine = s.scrubLine := by unfold State.memUpset; dsimp only; repeat (first | rfl | split)
@[simp] theorem State.memUpset_pending (s : State) (u : Upset) : (s.memUpset u).pending = s.pending := by unfold State.memUpset; dsimp only; repeat (first | rfl | split)
@[simp] theorem State.memUpset_out (s : State) (u : Upset) : (s.memUpset u).out = s.out := by unfold State.memUpset; dsimp only; repeat (first | rfl | split)
@[simp] theorem State.memUpset_freeCtr (s : State) (u : Upset) : (s.memUpset u).freeCtr = s.freeCtr := by unfold State.memUpset; dsimp only; repeat (first | rfl | split)
@[simp] theorem State.upset_regs (s : State) (u : Upsets) : (s.upset u).regs = s.regs := State.upset_keeps (fun s => s.regs) (fun s u => s.memUpset_regs u) (fun _ _ => rfl) s u
@[simp] theorem State.upset_rink (s : State) (u : Upsets) : (s.upset u).rink = s.rink := State.upset_keeps (fun s => s.rink) (fun s u => s.memUpset_rink u) (fun _ _ => rfl) s u
@[simp] theorem State.upset_rinkQ (s : State) (u : Upsets) : (s.upset u).rinkQ = s.rinkQ := State.upset_keeps (fun s => s.rinkQ) (fun s u => s.memUpset_rinkQ u) (fun _ _ => rfl) s u
@[simp] theorem State.upset_store (s : State) (u : Upsets) : (s.upset u).store = s.store := State.upset_keeps (fun s => s.store) (fun s u => s.memUpset_store u) (fun _ _ => rfl) s u
@[simp] theorem State.upset_gsram (s : State) (u : Upsets) : (s.upset u).gsram = s.gsram := State.upset_keeps (fun s => s.gsram) (fun s u => s.memUpset_gsram u) (fun _ _ => rfl) s u
@[simp] theorem State.upset_rstore (s : State) (u : Upsets) : (s.upset u).rstore = s.rstore := State.upset_keeps (fun s => s.rstore) (fun s u => s.memUpset_rstore u) (fun _ _ => rfl) s u
@[simp] theorem State.upset_guard (s : State) (u : Upsets) : (s.upset u).guard = s.guard := State.upset_keeps (fun s => s.guard) (fun s u => s.memUpset_guard u) (fun _ _ => rfl) s u
@[simp] theorem State.upset_tmpl (s : State) (u : Upsets) : (s.upset u).tmpl = s.tmpl := State.upset_keeps (fun s => s.tmpl) (fun s u => s.memUpset_tmpl u) (fun _ _ => rfl) s u
@[simp] theorem State.upset_lap (s : State) (u : Upsets) : (s.upset u).lap = s.lap := State.upset_keeps (fun s => s.lap) (fun s u => s.memUpset_lap u) (fun _ _ => rfl) s u
@[simp] theorem State.upset_streams (s : State) (u : Upsets) : (s.upset u).streams = s.streams := State.upset_keeps (fun s => s.streams) (fun s u => s.memUpset_streams u) (fun _ _ => rfl) s u
@[simp] theorem State.upset_ctxs (s : State) (u : Upsets) : (s.upset u).ctxs = s.ctxs := State.upset_keeps (fun s => s.ctxs) (fun s u => s.memUpset_ctxs u) (fun _ _ => rfl) s u
@[simp] theorem State.upset_locker (s : State) (u : Upsets) : (s.upset u).locker = s.locker := State.upset_keeps (fun s => s.locker) (fun s u => s.memUpset_locker u) (fun _ _ => rfl) s u
@[simp] theorem State.upset_gates (s : State) (u : Upsets) : (s.upset u).gates = s.gates := State.upset_keeps (fun s => s.gates) (fun s u => s.memUpset_gates u) (fun _ _ => rfl) s u
@[simp] theorem State.upset_gmus (s : State) (u : Upsets) : (s.upset u).gmus = s.gmus := State.upset_keeps (fun s => s.gmus) (fun s u => s.memUpset_gmus u) (fun _ _ => rfl) s u
@[simp] theorem State.upset_courses (s : State) (u : Upsets) : (s.upset u).courses = s.courses := State.upset_keeps (fun s => s.courses) (fun s u => s.memUpset_courses u) (fun _ _ => rfl) s u
@[simp] theorem State.upset_loading (s : State) (u : Upsets) : (s.upset u).loading = s.loading := State.upset_keeps (fun s => s.loading) (fun s u => s.memUpset_loading u) (fun _ _ => rfl) s u
@[simp] theorem State.upset_router (s : State) (u : Upsets) : (s.upset u).router = s.router := State.upset_keeps (fun s => s.router) (fun s u => s.memUpset_router u) (fun _ _ => rfl) s u
@[simp] theorem State.upset_remotes (s : State) (u : Upsets) : (s.upset u).remotes = s.remotes := State.upset_keeps (fun s => s.remotes) (fun s u => s.memUpset_remotes u) (fun _ _ => rfl) s u
@[simp] theorem State.upset_requests (s : State) (u : Upsets) : (s.upset u).requests = s.requests := State.upset_keeps (fun s => s.requests) (fun s u => s.memUpset_requests u) (fun _ _ => rfl) s u
@[simp] theorem State.upset_col (s : State) (u : Upsets) : (s.upset u).col = s.col := State.upset_keeps (fun s => s.col) (fun s u => s.memUpset_col u) (fun _ _ => rfl) s u
@[simp] theorem State.upset_lead (s : State) (u : Upsets) : (s.upset u).lead = s.lead := State.upset_keeps (fun s => s.lead) (fun s u => s.memUpset_lead u) (fun _ _ => rfl) s u
@[simp] theorem State.upset_host (s : State) (u : Upsets) : (s.upset u).host = s.host := State.upset_keeps (fun s => s.host) (fun s u => s.memUpset_host u) (fun _ _ => rfl) s u
@[simp] theorem State.upset_lapFlags (s : State) (u : Upsets) : (s.upset u).lapFlags = s.lapFlags := State.upset_keeps (fun s => s.lapFlags) (fun s u => s.memUpset_lapFlags u) (fun _ _ => rfl) s u
@[simp] theorem State.upset_bufBreach (s : State) (u : Upsets) : (s.upset u).bufBreach = s.bufBreach := State.upset_keeps (fun s => s.bufBreach) (fun s u => s.memUpset_bufBreach u) (fun _ _ => rfl) s u
@[simp] theorem State.upset_snaps (s : State) (u : Upsets) : (s.upset u).snaps = s.snaps := State.upset_keeps (fun s => s.snaps) (fun s u => s.memUpset_snaps u) (fun _ _ => rfl) s u
@[simp] theorem State.upset_restore (s : State) (u : Upsets) : (s.upset u).restore = s.restore := State.upset_keeps (fun s => s.restore) (fun s u => s.memUpset_restore u) (fun _ _ => rfl) s u
@[simp] theorem State.upset_partials (s : State) (u : Upsets) : (s.upset u).partials = s.partials := State.upset_keeps (fun s => s.partials) (fun s u => s.memUpset_partials u) (fun _ _ => rfl) s u
@[simp] theorem State.upset_silenced (s : State) (u : Upsets) : (s.upset u).silenced = s.silenced := State.upset_keeps (fun s => s.silenced) (fun s u => s.memUpset_silenced u) (fun _ _ => rfl) s u
@[simp] theorem State.upset_faultLog (s : State) (u : Upsets) : (s.upset u).faultLog = s.faultLog := State.upset_keeps (fun s => s.faultLog) (fun s u => s.memUpset_faultLog u) (fun _ _ => rfl) s u
@[simp] theorem State.upset_sec (s : State) (u : Upsets) : (s.upset u).sec = s.sec := State.upset_keeps (fun s => s.sec) (fun s u => s.memUpset_sec u) (fun _ _ => rfl) s u
@[simp] theorem State.upset_clkLog (s : State) (u : Upsets) : (s.upset u).clkLog = s.clkLog := State.upset_keeps (fun s => s.clkLog) (fun s u => s.memUpset_clkLog u) (fun _ _ => rfl) s u
@[simp] theorem State.upset_floors (s : State) (u : Upsets) : (s.upset u).floors = s.floors := State.upset_keeps (fun s => s.floors) (fun s u => s.memUpset_floors u) (fun _ _ => rfl) s u
@[simp] theorem State.upset_telQueue (s : State) (u : Upsets) : (s.upset u).telQueue = s.telQueue := State.upset_keeps (fun s => s.telQueue) (fun s u => s.memUpset_telQueue u) (fun _ _ => rfl) s u
@[simp] theorem State.upset_telSeq (s : State) (u : Upsets) : (s.upset u).telSeq = s.telSeq := State.upset_keeps (fun s => s.telSeq) (fun s u => s.memUpset_telSeq u) (fun _ _ => rfl) s u
@[simp] theorem State.upset_telLast (s : State) (u : Upsets) : (s.upset u).telLast = s.telLast := State.upset_keeps (fun s => s.telLast) (fun s u => s.memUpset_telLast u) (fun _ _ => rfl) s u
@[simp] theorem State.upset_repeats (s : State) (u : Upsets) : (s.upset u).repeats = s.repeats := State.upset_keeps (fun s => s.repeats) (fun s u => s.memUpset_repeats u) (fun _ _ => rfl) s u
@[simp] theorem State.upset_power (s : State) (u : Upsets) : (s.upset u).power = s.power := State.upset_keeps (fun s => s.power) (fun s u => s.memUpset_power u) (fun _ _ => rfl) s u
@[simp] theorem State.upset_frozen (s : State) (u : Upsets) : (s.upset u).frozen = s.frozen := State.upset_keeps (fun s => s.frozen) (fun s u => s.memUpset_frozen u) (fun _ _ => rfl) s u
@[simp] theorem State.upset_stopped (s : State) (u : Upsets) : (s.upset u).stopped = s.stopped := State.upset_keeps (fun s => s.stopped) (fun s u => s.memUpset_stopped u) (fun _ _ => rfl) s u
@[simp] theorem State.upset_shadow (s : State) (u : Upsets) : (s.upset u).shadow = s.shadow := State.upset_keeps (fun s => s.shadow) (fun s u => s.memUpset_shadow u) (fun _ _ => rfl) s u
@[simp] theorem State.upset_capture (s : State) (u : Upsets) : (s.upset u).capture = s.capture := State.upset_keeps (fun s => s.capture) (fun s u => s.memUpset_capture u) (fun _ _ => rfl) s u
@[simp] theorem State.upset_mems (s : State) (u : Upsets) : (s.upset u).mems = s.mems := State.upset_keeps (fun s => s.mems) (fun s u => s.memUpset_mems u) (fun _ _ => rfl) s u
@[simp] theorem State.upset_lapDeferred (s : State) (u : Upsets) : (s.upset u).lapDeferred = s.lapDeferred := State.upset_keeps (fun s => s.lapDeferred) (fun s u => s.memUpset_lapDeferred u) (fun _ _ => rfl) s u
@[simp] theorem State.upset_levels (s : State) (u : Upsets) : (s.upset u).levels = s.levels := State.upset_keeps (fun s => s.levels) (fun s u => s.memUpset_levels u) (fun _ _ => rfl) s u
@[simp] theorem State.upset_clk (s : State) (u : Upsets) : (s.upset u).clk = s.clk := State.upset_keeps (fun s => s.clk) (fun s u => s.memUpset_clk u) (fun _ _ => rfl) s u
@[simp] theorem State.upset_scrubLine (s : State) (u : Upsets) : (s.upset u).scrubLine = s.scrubLine := State.upset_keeps (fun s => s.scrubLine) (fun s u => s.memUpset_scrubLine u) (fun _ _ => rfl) s u
@[simp] theorem State.upset_pending (s : State) (u : Upsets) : (s.upset u).pending = s.pending := State.upset_keeps (fun s => s.pending) (fun s u => s.memUpset_pending u) (fun _ _ => rfl) s u
@[simp] theorem State.upset_out (s : State) (u : Upsets) : (s.upset u).out = s.out := State.upset_keeps (fun s => s.out) (fun s u => s.memUpset_out u) (fun _ _ => rfl) s u
@[simp] theorem State.upset_freeCtr (s : State) (u : Upsets) : (s.upset u).freeCtr = s.freeCtr := State.upset_keeps (fun s => s.freeCtr) (fun s u => s.memUpset_freeCtr u) (fun _ _ => rfl) s u

/-! Registers: a read after a write. -/

theorem State.reg_setReg (s : State) (o o' : Nat) (w : Word) : (s.setReg o w).reg o' = if o' = o then w else s.reg o' :=
  tget_tset _ _ _ _ _

@[simp] theorem State.reg_setReg_same (s : State) (o : Nat) (w : Word) : (s.setReg o w).reg o = w := by
  rw [State.reg_setReg, if_pos rfl]

theorem State.reg_setReg_ne (s : State) {o o' : Nat} (w : Word) (h : o' ≠ o) : (s.setReg o w).reg o' = s.reg o' := by
  rw [State.reg_setReg, if_neg h]

theorem State.rd_setReg_ne (s : State) {o : Nat} (f : Fld) (w : Word) (h : f.off ≠ o) : (s.setReg o w).rd f = s.rd f := by
  unfold State.rd; rw [State.reg_setReg_ne s w h]

theorem State.reg_wr_ne (s : State) (f : Fld) (v : Nat) {o : Nat} (h : o ≠ f.off) : (s.wr f v).reg o = s.reg o :=
  State.reg_setReg_ne s _ h

theorem State.rd_wr_ne (s : State) (f g : Fld) (v : Nat) (h : g.off ≠ f.off) : (s.wr f v).rd g = s.rd g :=
  State.rd_setReg_ne s g _ h

/-- Parts of a number below, in and above a field. -/
theorem bitsOf_split (n hi lo : Nat) (h : lo ≤ hi) :
    n = n / 2 ^ (hi + 1) * 2 ^ (hi + 1) + bitsOf n hi lo * 2 ^ lo + n % 2 ^ lo ∧ n % 2 ^ lo < 2 ^ lo ∧ bitsOf n hi lo < 2 ^ (hi - lo + 1) := by
  refine ⟨?_, Nat.mod_lt _ (Nat.two_pow_pos _), Nat.mod_lt _ (Nat.two_pow_pos _)⟩
  unfold bitsOf
  rw [Nat.shiftRight_eq_div_pow]
  have e : 2 ^ (hi + 1) = 2 ^ lo * 2 ^ (hi - lo + 1) := by rw [← pow_add]; congr 1; omega
  have a := Nat.div_add_mod n (2 ^ lo)
  have b := Nat.div_add_mod (n / 2 ^ lo) (2 ^ (hi - lo + 1))
  rw [Nat.div_div_eq_div_mul, ← e] at b
  conv_lhs => rw [← a, ← b]
  rw [e]; ring

theorem withBits_eq (n hi lo v : Nat) (h : lo ≤ hi) :
    withBits n hi lo v = n / 2 ^ (hi + 1) * 2 ^ (hi + 1) + v % 2 ^ (hi - lo + 1) * 2 ^ lo + n % 2 ^ lo := by
  have := bitsOf_split n hi lo h
  unfold withBits; omega

theorem bitsOf_parts (a m l hi lo : Nat) (h : lo ≤ hi) (hm : m < 2 ^ (hi - lo + 1)) (hl : l < 2 ^ lo) :
    bitsOf (a * 2 ^ (hi + 1) + m * 2 ^ lo + l) hi lo = m := by
  unfold bitsOf
  rw [Nat.shiftRight_eq_div_pow]
  have e : 2 ^ (hi + 1) = 2 ^ lo * 2 ^ (hi - lo + 1) := by rw [← pow_add]; congr 1; omega
  have : a * 2 ^ (hi + 1) + m * 2 ^ lo + l = l + 2 ^ lo * (m + 2 ^ (hi - lo + 1) * a) := by rw [e]; ring
  rw [this, Nat.add_mul_div_left _ _ (Nat.two_pow_pos lo), Nat.div_eq_of_lt hl, Nat.zero_add, Nat.add_mul_mod_self_left, Nat.mod_eq_of_lt hm]

/-- A field reads what was put into it. -/
theorem bitsOf_withBits (n hi lo v : Nat) (h : lo ≤ hi) : bitsOf (withBits n hi lo v) hi lo = v % 2 ^ (hi - lo + 1) := by
  rw [withBits_eq n hi lo v h]
  exact bitsOf_parts _ _ _ hi lo h (Nat.mod_lt _ (Nat.two_pow_pos _)) (Nat.mod_lt _ (Nat.two_pow_pos _))

theorem bitsOf_testBit (n hi lo i : Nat) : (bitsOf n hi lo).testBit i = (decide (i < hi - lo + 1) && n.testBit (lo + i)) := by
  unfold bitsOf; rw [Nat.testBit_mod_two_pow, Nat.testBit_shiftRight]

/-- Bit by bit: a field takes the new value and every other bit stays. -/
theorem withBits_testBit (n hi lo v i : Nat) (h : lo ≤ hi) :
    (withBits n hi lo v).testBit i = if lo ≤ i ∧ i ≤ hi then v.testBit (i - lo) else n.testBit i := by
  have e : withBits n hi lo v = 2 ^ (hi + 1) * (n / 2 ^ (hi + 1)) + (2 ^ lo * (v % 2 ^ (hi - lo + 1)) + n % 2 ^ lo) := by
    rw [withBits_eq n hi lo v h]; ring
  have e2 : 2 ^ (hi + 1) = 2 ^ lo * 2 ^ (hi - lo + 1) := by rw [← pow_add]; congr 1; omega
  have hl : n % 2 ^ lo < 2 ^ lo := Nat.mod_lt _ (Nat.two_pow_pos _)
  have hm : v % 2 ^ (hi - lo + 1) < 2 ^ (hi - lo + 1) := Nat.mod_lt _ (Nat.two_pow_pos _)
  have hlt : 2 ^ lo * (v % 2 ^ (hi - lo + 1)) + n % 2 ^ lo < 2 ^ (hi + 1) := by
    have := Nat.mul_le_mul_left (2 ^ lo) (Nat.succ_le_of_lt hm)
    rw [Nat.mul_succ, ← e2] at this; omega
  rw [e, Nat.testBit_two_pow_mul_add _ hlt]
  by_cases h1 : i < hi + 1
  · rw [if_pos h1, Nat.testBit_two_pow_mul_add _ hl]
    by_cases h2 : i < lo
    · rw [if_pos h2, if_neg (by omega), Nat.testBit_mod_two_pow]; simp [h2]
    · rw [if_neg h2, if_pos (by omega), Nat.testBit_mod_two_pow]
      simp; omega
  · rw [if_neg h1, if_neg (by omega), ← Nat.shiftRight_eq_div_pow, Nat.testBit_shiftRight]
    congr 1; omega

/-- Another field of the same register, above or below, keeps its value. -/
theorem bitsOf_withBits_ne (n hi lo v hi' lo' : Nat) (h : lo ≤ hi) (hd : hi < lo' ∨ hi' < lo) (h' : lo' ≤ hi') :
    bitsOf (withBits n hi lo v) hi' lo' = bitsOf n hi' lo' := by
  apply Nat.eq_of_testBit_eq
  intro i
  rw [bitsOf_testBit, bitsOf_testBit]
  by_cases hin : i < hi' - lo' + 1
  · rw [withBits_testBit n hi lo v (lo' + i) h, if_neg (by omega)]
  · simp [hin]

theorem withBits_lt (n hi lo v w : Nat) (h : lo ≤ hi) (hw : hi < w) (hn : n < 2 ^ w) : withBits n hi lo v < 2 ^ w := by
  apply Nat.lt_pow_two_of_testBit
  intro i hi'
  rw [withBits_testBit n hi lo v i h, if_neg (by omega)]
  exact Nat.testBit_lt_two_pow (lt_of_lt_of_le hn (Nat.pow_le_pow_right (by omega) hi'))

/-- A field of a 64-bit register reads what was written to it, modulo its width. -/
theorem State.rd_wr_same (s : State) (f : Fld) (v : Nat) (h : f.lo ≤ f.hi) (hw : f.hi < 64) : (s.wr f v).rd f = v % 2 ^ (f.hi - f.lo + 1) := by
  unfold State.rd State.wr
  rw [State.reg_setReg_same, BitVec.toNat_ofNat, Nat.mod_eq_of_lt (withBits_lt _ _ _ _ 64 h hw (BitVec.isLt _)), bitsOf_withBits _ _ _ _ h]

/-- Another field of the same register keeps its value. -/
theorem State.rd_wr_disjoint (s : State) (f g : Fld) (v : Nat) (h : f.lo ≤ f.hi) (hw : f.hi < 64) (hg : g.lo ≤ g.hi)
    (hd : f.hi < g.lo ∨ g.hi < f.lo) : (s.wr f v).rd g = s.rd g := by
  by_cases ho : g.off = f.off
  · unfold State.rd State.wr
    rw [ho, State.reg_setReg_same, BitVec.toNat_ofNat, Nat.mod_eq_of_lt (withBits_lt _ _ _ _ 64 h hw (BitVec.isLt _)),
      bitsOf_withBits_ne _ _ _ _ _ _ h hd hg]
  · exact State.rd_wr_ne s f g v ho

/-! Units: a read after a write. -/

theorem State.stream_setStream (s : State) (k j : Nat) (x : Stream) : (s.setStream k x).stream j = if j = k then x else s.stream j :=
  tget_tset _ _ _ _ _
@[simp] theorem State.stream_setStream_same (s : State) (k : Nat) (x : Stream) : (s.setStream k x).stream k = x := by
  rw [State.stream_setStream, if_pos rfl]
@[simp] theorem State.stream_updStream_same (s : State) (k : Nat) (f : Stream → Stream) : (s.updStream k f).stream k = f (s.stream k) :=
  State.stream_setStream_same s k _
theorem State.stream_updStream_ne (s : State) (k j : Nat) (f : Stream → Stream) (h : j ≠ k) : (s.updStream k f).stream j = s.stream j := by
  unfold State.updStream; rw [State.stream_setStream, if_neg h]
theorem State.ctx_setCtx (s : State) (c j : Nat) (x : Ctx) : (s.setCtx c x).ctx j = if j = c then x else s.ctx j :=
  tget_tset _ _ _ _ _
@[simp] theorem State.ctx_setCtx_same (s : State) (c : Nat) (x : Ctx) : (s.setCtx c x).ctx c = x := by rw [State.ctx_setCtx, if_pos rfl]
@[simp] theorem State.ctx_updCtx_same (s : State) (c : Nat) (f : Ctx → Ctx) : (s.updCtx c f).ctx c = f (s.ctx c) :=
  State.ctx_setCtx_same s c _
theorem State.ctx_updCtx_ne (s : State) (c j : Nat) (f : Ctx → Ctx) (h : j ≠ c) : (s.updCtx c f).ctx j = s.ctx j := by
  unfold State.updCtx; rw [State.ctx_setCtx, if_neg h]
@[simp] theorem State.port_updPort_same (s : State) (n : Nat) (f : Port → Port) : (s.updPort n f).port n = f (s.port n) := by
  unfold State.updPort State.port State.setPort; rw [tget_tset, if_pos rfl]
@[simp] theorem State.sess_setSess_same (s : State) (x : Nat) (y : Sess) : (s.setSess x y).sess x = y := by
  unfold State.sess State.setSess; rw [tget_tset, if_pos rfl]

/-! Memories: a read after a write. -/

/-- Bytes written to the Rink read back. -/
theorem State.rinkBytes_setRink (s : State) (a : Nat) (l : List Byte) : (s.setRink a l).rinkBytes a l.length = l :=
  tgetMany_tsetMany_same _ _ _ _

/-- A byte of the Rink outside the bytes written keeps its value. -/
theorem State.rink_setRink_ne (s : State) (a x : Nat) (l : List Byte) (h : x < a ∨ a + l.length ≤ x) :
    tget zeroByte (s.setRink a l).rink x = tget zeroByte s.rink x := by
  unfold State.setRink; rw [tget_tsetMany, if_neg (by omega)]

/-- A byte of the table that a write skipping some addresses leaves: the list's where it lies in it and is not skipped. -/
theorem tget_setSome (skip : Nat → Bool) (a x : Nat) (l : List Byte) (n : Nat) (m : List Host.Cell) :
    tget zeroByte ((l.zipIdx n).foldl (fun m e => if skip (a + e.2) then m else tset zeroByte m (a + e.2) e.1) m) x =
      if skip x then tget zeroByte m x else if a + n ≤ x ∧ x < a + n + l.length then l.getD (x - (a + n)) 0 else tget zeroByte m x := by
  induction l generalizing n m with
  | nil => simp
  | cons b l ih =>
    rw [List.zipIdx_cons, List.foldl_cons, ih (n + 1)]
    by_cases hk : skip x = true
    · rw [if_pos hk, if_pos hk]
      by_cases hx : x = a + n
      · subst hx; rw [if_pos hk]
      · split
        · rfl
        · exact tget_tset_ne _ _ _ _ _ hx
    · rw [if_neg hk, if_neg hk]
      by_cases hx : x = a + n
      · subst hx
        rw [if_neg (by omega), if_neg hk, tget_tset_same, if_pos ⟨le_refl _, by simp⟩]; simp
      · have e : tget zeroByte (if skip (a + n) = true then m else tset zeroByte m (a + n) b) x = tget zeroByte m x := by
          split
          · rfl
          · exact tget_tset_ne _ _ _ _ _ hx
        rw [e, List.length_cons]
        by_cases hr : a + (n + 1) ≤ x ∧ x < a + (n + 1) + l.length
        · rw [if_pos hr, if_pos (by omega)]
          obtain ⟨j, rfl⟩ : ∃ j, x = a + (n + 1) + j := ⟨x - (a + (n + 1)), by omega⟩
          have e1 : a + (n + 1) + j - (a + (n + 1)) = j := by omega
          have e2 : a + (n + 1) + j - (a + n) = j + 1 := by omega
          rw [e1, e2]; rfl
        · rw [if_neg hr, if_neg (by omega)]

/-- Every byte of LPDDR after a write: the written one's new value, unless its channel has failed (R221). -/
theorem State.lpddr_setMem (s : State) (a x : Nat) (l : List Byte) :
    tget zeroByte (s.setMem a l).lpddr x =
      if (s.anyFailed && s.channelFailed x) = true then tget zeroByte s.lpddr x
      else if a ≤ x ∧ x < a + l.length then l.getD (x - a) 0 else tget zeroByte s.lpddr x := by
  unfold State.setMem
  dsimp only
  by_cases h : s.anyFailed = true
  · rw [if_pos h, h, Bool.true_and]; exact tget_setSome s.channelFailed a x l 0 s.lpddr
  · rw [if_neg h, Bool.eq_false_of_not_eq_true h, Bool.false_and, if_neg Bool.false_ne_true, tget_tsetMany]
    split
    · simp [List.getD, zeroByte]
    · rfl

/-- Bytes written to LPDDR read back where none lies in a failed channel. -/
theorem State.memBytes_setMem (s : State) (a : Nat) (l : List Byte) (h : ∀ i < l.length, (s.anyFailed && s.channelFailed (a + i)) = false) :
    (s.setMem a l).memBytes a l.length = l := by
  unfold State.memBytes
  rw [tgetMany_eq]
  apply List.ext_getElem (by simp)
  intro i h1 h2
  rw [List.getElem_map, List.getElem_range, State.lpddr_setMem, h i h2, if_neg Bool.false_ne_true, if_pos ⟨by omega, by omega⟩]
  simp [h2]

/-- A byte of LPDDR outside the bytes written keeps its value. -/
theorem State.lpddr_setMem_ne (s : State) (a x : Nat) (l : List Byte) (h : x < a ∨ a + l.length ≤ x) :
    tget zeroByte (s.setMem a l).lpddr x = tget zeroByte s.lpddr x := by
  rw [State.lpddr_setMem, if_neg (by omega : ¬(a ≤ x ∧ x < a + l.length)), ite_self]

/-- A byte of a failed channel keeps its value (R221). -/
theorem State.lpddr_setMem_failed (s : State) (a x : Nat) (l : List Byte) (h : s.anyFailed = true) (hf : s.channelFailed x = true) :
    tget zeroByte (s.setMem a l).lpddr x = tget zeroByte s.lpddr x := by
  rw [State.lpddr_setMem, h, hf]; rfl

end Sys2Proof.Machine
end

