-- ==== Sys2Proof/Laws/Keep.lean ====
section
/-!
SUPPORT. What it is for an answer to keep the register tables and the memories in their canonical form, and the laws that the
operations' own lemmas are put together from.
-/

namespace Sys2Proof.Machine

/-- The state that a pair answers keeps the canonical form. -/
abbrev OkSnd {α : Type} (p : α × State) : Prop := p.2.Ok
/-- The same where the state is the pair's first part. -/
abbrev OkFst {α : Type} (p : State × α) : Prop := p.1.Ok
/-- The state, if one is answered, keeps the canonical form. -/
abbrev OkOpt (o : Option State) : Prop := ∀ t, o = some t → t.Ok
/-- The same of a state beside a value. -/
abbrev OkOptP {α : Type} (o : Option (α × State)) : Prop := ∀ p, o = some p → p.2.Ok
/-- The same where the other answer is no state. -/
abbrev OkSum {α : Type} (o : α ⊕ State) : Prop := ∀ t, o = .inr t → t.Ok
/-- A next state keeps the canonical form; a fault and a refusal leave none. -/
abbrev OkOut (o : Res) : Prop := ∀ t, o = .next t → t.Ok
theorem OkOpt.none : OkOpt none := fun _ h => nomatch h
theorem OkOpt.some {s : State} (h : s.Ok) : OkOpt (some s) := fun _ e => Option.some.inj e ▸ h
theorem OkOptP.none {α : Type} : OkOptP (α := α) none := fun _ h => nomatch h
theorem OkOptP.some {α : Type} {p : α × State} (h : p.2.Ok) : OkOptP (some p) := fun _ e => Option.some.inj e ▸ h
theorem OkSum.inl {α : Type} {a : α} : OkSum (Sum.inl a) := fun _ h => nomatch h
theorem OkSum.inr {α : Type} {s : State} (h : s.Ok) : OkSum (α := α) (Sum.inr s) := fun _ e => Sum.inr.inj e ▸ h
theorem OkOut.next {s : State} (h : s.Ok) : OkOut (.next s) := fun _ e => Host.Outcome.next.inj e ▸ h
/-- A property of both branches holds of the choice. -/
theorem iteP {α : Sort _} {P : α → Prop} {c : Prop} [Decidable c] {a b : α} (ha : P a) (hb : P b) : P (if c then a else b) := by
  split
  · exact ha
  · exact hb
/-- A fact proved once and used under its name. -/
theorem cut {A P : Prop} (k : A → P) (h : A) : P := k h
theorem OkSnd.mk {α : Type} {a : α} {s : State} (h : s.Ok) : OkSnd (a, s) := h
theorem OkFst.mk {α : Type} {a : α} {s : State} (h : s.Ok) : OkFst (s, a) := h
theorem OkSnd.snd {α : Type} {p : α × State} (h : OkSnd p) : p.2.Ok := h
theorem OkFst.fst {α : Type} {p : State × α} (h : OkFst p) : p.1.Ok := h
/-- An update of fields that are neither register tables nor memories. -/
theorem State.Ok.upd {s : State} {flips : List (Nat × List Nat)} {rinkErr : List (Nat × Nat)} {rinkQ : List (Nat × Nat × Nat)} {lap :
    LapUnit} {streams : List (Nat × Stream)} {ctxs : List (Nat × Ctx)} {locker : Locker} {gates : List (Nat × Gate)} {gmus : List (Nat ×
    List GmmOp)} {courses : List (Nat × Course)} {loading : Option Nat} {router : Router} {remotes : List Remote} {requests : List Request}
    {col : Col} {lead : Lead} {host : HostIf} {lapFlags : List Nat} {bufBreach : Bool} {snaps : List (Nat × SnapCtx)} {restore : Restore}
    {partials : List Nat} {silenced : Bool} {faultLog : List Nat} {sec : Sec} {clkLog : ClkLog} {floors : List (Nat × Nat)} {telQueue :
    List (List Byte)} {telSeq : Nat} {telLast : Option Nat} {repeats : List (Nat × Nat)} {power : Power} {frozen : Bool} {stopped : Bool}
    {shadow : List Byte} {capture : List Byte} {mems : List (Nat × MemCtl)} {lapDeferred : List (Nat × Word)} {levels : List (Nat × Nat)}
    {clk : Nat} {scrubLine : Nat} {pending : List Instr} {out : List Out} {freeCtr : Nat} (h : s.Ok) :
    State.Ok ⟨s.regs, s.rink, s.lpddr, flips, rinkErr, rinkQ, s.store, s.gsram, s.rstore, s.guard, s.tmpl, lap, streams, ctxs, locker,
        gates, gmus, courses, loading, router, remotes, requests, col, lead, host, lapFlags, bufBreach, snaps, restore, partials, silenced,
        faultLog, sec, clkLog, floors, telQueue, telSeq, telLast, repeats, power, frozen, stopped, shadow, capture, mems, lapDeferred,
        levels, clk, scrubLine, pending, out, freeCtr⟩ :=
  ⟨h.regs, h.rink, h.lpddr, h.store, h.gsram, h.rstore, h.guard, h.tmpl⟩
theorem State.Ok.with_regs {s : State} {x : List (Nat × Word)} {flips : List (Nat × List Nat)} {rinkErr : List (Nat × Nat)} {rinkQ : List
    (Nat × Nat × Nat)} {lap : LapUnit} {streams : List (Nat × Stream)} {ctxs : List (Nat × Ctx)} {locker : Locker} {gates : List (Nat ×
    Gate)} {gmus : List (Nat × List GmmOp)} {courses : List (Nat × Course)} {loading : Option Nat} {router : Router} {remotes : List
    Remote} {requests : List Request} {col : Col} {lead : Lead} {host : HostIf} {lapFlags : List Nat} {bufBreach : Bool} {snaps : List (Nat
    × SnapCtx)} {restore : Restore} {partials : List Nat} {silenced : Bool} {faultLog : List Nat} {sec : Sec} {clkLog : ClkLog} {floors :
    List (Nat × Nat)} {telQueue : List (List Byte)} {telSeq : Nat} {telLast : Option Nat} {repeats : List (Nat × Nat)} {power : Power}
    {frozen : Bool} {stopped : Bool} {shadow : List Byte} {capture : List Byte} {mems : List (Nat × MemCtl)} {lapDeferred : List (Nat ×
    Word)} {levels : List (Nat × Nat)} {clk : Nat} {scrubLine : Nat} {pending : List Instr} {out : List Out} {freeCtr : Nat} (h : s.Ok)
    (hx : twf resetWord x = true) : State.Ok ⟨x, s.rink, s.lpddr, flips, rinkErr, rinkQ, s.store, s.gsram, s.rstore, s.guard, s.tmpl, lap,
        streams, ctxs, locker, gates, gmus, courses, loading, router, remotes, requests, col, lead, host, lapFlags, bufBreach, snaps,
        restore, partials, silenced, faultLog, sec, clkLog, floors, telQueue, telSeq, telLast, repeats, power, frozen, stopped, shadow,
        capture, mems, lapDeferred, levels, clk, scrubLine, pending, out, freeCtr⟩ :=
  ⟨hx, h.rink, h.lpddr, h.store, h.gsram, h.rstore, h.guard, h.tmpl⟩
theorem State.Ok.with_rink {s : State} {x : List Host.Cell} {flips : List (Nat × List Nat)} {rinkErr : List (Nat × Nat)} {rinkQ : List (Nat
    × Nat × Nat)} {lap : LapUnit} {streams : List (Nat × Stream)} {ctxs : List (Nat × Ctx)} {locker : Locker} {gates : List (Nat × Gate)}
    {gmus : List (Nat × List GmmOp)} {courses : List (Nat × Course)} {loading : Option Nat} {router : Router} {remotes : List Remote}
    {requests : List Request} {col : Col} {lead : Lead} {host : HostIf} {lapFlags : List Nat} {bufBreach : Bool} {snaps : List (Nat ×
    SnapCtx)} {restore : Restore} {partials : List Nat} {silenced : Bool} {faultLog : List Nat} {sec : Sec} {clkLog : ClkLog} {floors :
    List (Nat × Nat)} {telQueue : List (List Byte)} {telSeq : Nat} {telLast : Option Nat} {repeats : List (Nat × Nat)} {power : Power}
    {frozen : Bool} {stopped : Bool} {shadow : List Byte} {capture : List Byte} {mems : List (Nat × MemCtl)} {lapDeferred : List (Nat ×
    Word)} {levels : List (Nat × Nat)} {clk : Nat} {scrubLine : Nat} {pending : List Instr} {out : List Out} {freeCtr : Nat} (h : s.Ok)
    (hx : twf zeroByte x = true) : State.Ok ⟨s.regs, x, s.lpddr, flips, rinkErr, rinkQ, s.store, s.gsram, s.rstore, s.guard, s.tmpl, lap,
        streams, ctxs, locker, gates, gmus, courses, loading, router, remotes, requests, col, lead, host, lapFlags, bufBreach, snaps,
        restore, partials, silenced, faultLog, sec, clkLog, floors, telQueue, telSeq, telLast, repeats, power, frozen, stopped, shadow,
        capture, mems, lapDeferred, levels, clk, scrubLine, pending, out, freeCtr⟩ :=
  ⟨h.regs, hx, h.lpddr, h.store, h.gsram, h.rstore, h.guard, h.tmpl⟩
theorem State.Ok.with_lpddr {s : State} {x : List Host.Cell} {flips : List (Nat × List Nat)} {rinkErr : List (Nat × Nat)} {rinkQ : List
    (Nat × Nat × Nat)} {lap : LapUnit} {streams : List (Nat × Stream)} {ctxs : List (Nat × Ctx)} {locker : Locker} {gates : List (Nat ×
    Gate)} {gmus : List (Nat × List GmmOp)} {courses : List (Nat × Course)} {loading : Option Nat} {router : Router} {remotes : List
    Remote} {requests : List Request} {col : Col} {lead : Lead} {host : HostIf} {lapFlags : List Nat} {bufBreach : Bool} {snaps : List (Nat
    × SnapCtx)} {restore : Restore} {partials : List Nat} {silenced : Bool} {faultLog : List Nat} {sec : Sec} {clkLog : ClkLog} {floors :
    List (Nat × Nat)} {telQueue : List (List Byte)} {telSeq : Nat} {telLast : Option Nat} {repeats : List (Nat × Nat)} {power : Power}
    {frozen : Bool} {stopped : Bool} {shadow : List Byte} {capture : List Byte} {mems : List (Nat × MemCtl)} {lapDeferred : List (Nat ×
    Word)} {levels : List (Nat × Nat)} {clk : Nat} {scrubLine : Nat} {pending : List Instr} {out : List Out} {freeCtr : Nat} (h : s.Ok)
    (hx : twf zeroByte x = true) : State.Ok ⟨s.regs, s.rink, x, flips, rinkErr, rinkQ, s.store, s.gsram, s.rstore, s.guard, s.tmpl, lap,
        streams, ctxs, locker, gates, gmus, courses, loading, router, remotes, requests, col, lead, host, lapFlags, bufBreach, snaps,
        restore, partials, silenced, faultLog, sec, clkLog, floors, telQueue, telSeq, telLast, repeats, power, frozen, stopped, shadow,
        capture, mems, lapDeferred, levels, clk, scrubLine, pending, out, freeCtr⟩ :=
  ⟨h.regs, h.rink, hx, h.store, h.gsram, h.rstore, h.guard, h.tmpl⟩
theorem State.Ok.with_store {s : State} {x : List Host.Cell} {flips : List (Nat × List Nat)} {rinkErr : List (Nat × Nat)} {rinkQ : List
    (Nat × Nat × Nat)} {lap : LapUnit} {streams : List (Nat × Stream)} {ctxs : List (Nat × Ctx)} {locker : Locker} {gates : List (Nat ×
    Gate)} {gmus : List (Nat × List GmmOp)} {courses : List (Nat × Course)} {loading : Option Nat} {router : Router} {remotes : List
    Remote} {requests : List Request} {col : Col} {lead : Lead} {host : HostIf} {lapFlags : List Nat} {bufBreach : Bool} {snaps : List (Nat
    × SnapCtx)} {restore : Restore} {partials : List Nat} {silenced : Bool} {faultLog : List Nat} {sec : Sec} {clkLog : ClkLog} {floors :
    List (Nat × Nat)} {telQueue : List (List Byte)} {telSeq : Nat} {telLast : Option Nat} {repeats : List (Nat × Nat)} {power : Power}
    {frozen : Bool} {stopped : Bool} {shadow : List Byte} {capture : List Byte} {mems : List (Nat × MemCtl)} {lapDeferred : List (Nat ×
    Word)} {levels : List (Nat × Nat)} {clk : Nat} {scrubLine : Nat} {pending : List Instr} {out : List Out} {freeCtr : Nat} (h : s.Ok)
    (hx : twf zeroByte x = true) : State.Ok ⟨s.regs, s.rink, s.lpddr, flips, rinkErr, rinkQ, x, s.gsram, s.rstore, s.guard, s.tmpl, lap,
        streams, ctxs, locker, gates, gmus, courses, loading, router, remotes, requests, col, lead, host, lapFlags, bufBreach, snaps,
        restore, partials, silenced, faultLog, sec, clkLog, floors, telQueue, telSeq, telLast, repeats, power, frozen, stopped, shadow,
        capture, mems, lapDeferred, levels, clk, scrubLine, pending, out, freeCtr⟩ :=
  ⟨h.regs, h.rink, h.lpddr, hx, h.gsram, h.rstore, h.guard, h.tmpl⟩
theorem State.Ok.with_gsram {s : State} {x : List Host.Cell} {flips : List (Nat × List Nat)} {rinkErr : List (Nat × Nat)} {rinkQ : List
    (Nat × Nat × Nat)} {lap : LapUnit} {streams : List (Nat × Stream)} {ctxs : List (Nat × Ctx)} {locker : Locker} {gates : List (Nat ×
    Gate)} {gmus : List (Nat × List GmmOp)} {courses : List (Nat × Course)} {loading : Option Nat} {router : Router} {remotes : List
    Remote} {requests : List Request} {col : Col} {lead : Lead} {host : HostIf} {lapFlags : List Nat} {bufBreach : Bool} {snaps : List (Nat
    × SnapCtx)} {restore : Restore} {partials : List Nat} {silenced : Bool} {faultLog : List Nat} {sec : Sec} {clkLog : ClkLog} {floors :
    List (Nat × Nat)} {telQueue : List (List Byte)} {telSeq : Nat} {telLast : Option Nat} {repeats : List (Nat × Nat)} {power : Power}
    {frozen : Bool} {stopped : Bool} {shadow : List Byte} {capture : List Byte} {mems : List (Nat × MemCtl)} {lapDeferred : List (Nat ×
    Word)} {levels : List (Nat × Nat)} {clk : Nat} {scrubLine : Nat} {pending : List Instr} {out : List Out} {freeCtr : Nat} (h : s.Ok)
    (hx : twf zeroByte x = true) : State.Ok ⟨s.regs, s.rink, s.lpddr, flips, rinkErr, rinkQ, s.store, x, s.rstore, s.guard, s.tmpl, lap,
        streams, ctxs, locker, gates, gmus, courses, loading, router, remotes, requests, col, lead, host, lapFlags, bufBreach, snaps,
        restore, partials, silenced, faultLog, sec, clkLog, floors, telQueue, telSeq, telLast, repeats, power, frozen, stopped, shadow,
        capture, mems, lapDeferred, levels, clk, scrubLine, pending, out, freeCtr⟩ :=
  ⟨h.regs, h.rink, h.lpddr, h.store, hx, h.rstore, h.guard, h.tmpl⟩
theorem State.Ok.with_rstore {s : State} {x : List Host.Cell} {flips : List (Nat × List Nat)} {rinkErr : List (Nat × Nat)} {rinkQ : List
    (Nat × Nat × Nat)} {lap : LapUnit} {streams : List (Nat × Stream)} {ctxs : List (Nat × Ctx)} {locker : Locker} {gates : List (Nat ×
    Gate)} {gmus : List (Nat × List GmmOp)} {courses : List (Nat × Course)} {loading : Option Nat} {router : Router} {remotes : List
    Remote} {requests : List Request} {col : Col} {lead : Lead} {host : HostIf} {lapFlags : List Nat} {bufBreach : Bool} {snaps : List (Nat
    × SnapCtx)} {restore : Restore} {partials : List Nat} {silenced : Bool} {faultLog : List Nat} {sec : Sec} {clkLog : ClkLog} {floors :
    List (Nat × Nat)} {telQueue : List (List Byte)} {telSeq : Nat} {telLast : Option Nat} {repeats : List (Nat × Nat)} {power : Power}
    {frozen : Bool} {stopped : Bool} {shadow : List Byte} {capture : List Byte} {mems : List (Nat × MemCtl)} {lapDeferred : List (Nat ×
    Word)} {levels : List (Nat × Nat)} {clk : Nat} {scrubLine : Nat} {pending : List Instr} {out : List Out} {freeCtr : Nat} (h : s.Ok)
    (hx : twf zeroByte x = true) : State.Ok ⟨s.regs, s.rink, s.lpddr, flips, rinkErr, rinkQ, s.store, s.gsram, x, s.guard, s.tmpl, lap,
        streams, ctxs, locker, gates, gmus, courses, loading, router, remotes, requests, col, lead, host, lapFlags, bufBreach, snaps,
        restore, partials, silenced, faultLog, sec, clkLog, floors, telQueue, telSeq, telLast, repeats, power, frozen, stopped, shadow,
        capture, mems, lapDeferred, levels, clk, scrubLine, pending, out, freeCtr⟩ :=
  ⟨h.regs, h.rink, h.lpddr, h.store, h.gsram, hx, h.guard, h.tmpl⟩
theorem State.Ok.with_guard {s : State} {x : List Host.Cell} {flips : List (Nat × List Nat)} {rinkErr : List (Nat × Nat)} {rinkQ : List
    (Nat × Nat × Nat)} {lap : LapUnit} {streams : List (Nat × Stream)} {ctxs : List (Nat × Ctx)} {locker : Locker} {gates : List (Nat ×
    Gate)} {gmus : List (Nat × List GmmOp)} {courses : List (Nat × Course)} {loading : Option Nat} {router : Router} {remotes : List
    Remote} {requests : List Request} {col : Col} {lead : Lead} {host : HostIf} {lapFlags : List Nat} {bufBreach : Bool} {snaps : List (Nat
    × SnapCtx)} {restore : Restore} {partials : List Nat} {silenced : Bool} {faultLog : List Nat} {sec : Sec} {clkLog : ClkLog} {floors :
    List (Nat × Nat)} {telQueue : List (List Byte)} {telSeq : Nat} {telLast : Option Nat} {repeats : List (Nat × Nat)} {power : Power}
    {frozen : Bool} {stopped : Bool} {shadow : List Byte} {capture : List Byte} {mems : List (Nat × MemCtl)} {lapDeferred : List (Nat ×
    Word)} {levels : List (Nat × Nat)} {clk : Nat} {scrubLine : Nat} {pending : List Instr} {out : List Out} {freeCtr : Nat} (h : s.Ok)
    (hx : twf zeroByte x = true) : State.Ok ⟨s.regs, s.rink, s.lpddr, flips, rinkErr, rinkQ, s.store, s.gsram, s.rstore, x, s.tmpl, lap,
        streams, ctxs, locker, gates, gmus, courses, loading, router, remotes, requests, col, lead, host, lapFlags, bufBreach, snaps,
        restore, partials, silenced, faultLog, sec, clkLog, floors, telQueue, telSeq, telLast, repeats, power, frozen, stopped, shadow,
        capture, mems, lapDeferred, levels, clk, scrubLine, pending, out, freeCtr⟩ :=
  ⟨h.regs, h.rink, h.lpddr, h.store, h.gsram, h.rstore, hx, h.tmpl⟩
theorem State.Ok.with_tmpl {s : State} {x : List (Nat × Word)} {flips : List (Nat × List Nat)} {rinkErr : List (Nat × Nat)} {rinkQ : List
    (Nat × Nat × Nat)} {lap : LapUnit} {streams : List (Nat × Stream)} {ctxs : List (Nat × Ctx)} {locker : Locker} {gates : List (Nat ×
    Gate)} {gmus : List (Nat × List GmmOp)} {courses : List (Nat × Course)} {loading : Option Nat} {router : Router} {remotes : List
    Remote} {requests : List Request} {col : Col} {lead : Lead} {host : HostIf} {lapFlags : List Nat} {bufBreach : Bool} {snaps : List (Nat
    × SnapCtx)} {restore : Restore} {partials : List Nat} {silenced : Bool} {faultLog : List Nat} {sec : Sec} {clkLog : ClkLog} {floors :
    List (Nat × Nat)} {telQueue : List (List Byte)} {telSeq : Nat} {telLast : Option Nat} {repeats : List (Nat × Nat)} {power : Power}
    {frozen : Bool} {stopped : Bool} {shadow : List Byte} {capture : List Byte} {mems : List (Nat × MemCtl)} {lapDeferred : List (Nat ×
    Word)} {levels : List (Nat × Nat)} {clk : Nat} {scrubLine : Nat} {pending : List Instr} {out : List Out} {freeCtr : Nat} (h : s.Ok)
    (hx : twf zeroWord x = true) : State.Ok ⟨s.regs, s.rink, s.lpddr, flips, rinkErr, rinkQ, s.store, s.gsram, s.rstore, s.guard, x, lap,
        streams, ctxs, locker, gates, gmus, courses, loading, router, remotes, requests, col, lead, host, lapFlags, bufBreach, snaps,
        restore, partials, silenced, faultLog, sec, clkLog, floors, telQueue, telSeq, telLast, repeats, power, frozen, stopped, shadow,
        capture, mems, lapDeferred, levels, clk, scrubLine, pending, out, freeCtr⟩ :=
  ⟨h.regs, h.rink, h.lpddr, h.store, h.gsram, h.rstore, h.guard, hx⟩
/-- A fold whose every step keeps the form keeps it. -/
theorem foldl_ok {α : Type} {f : State → α → State} {l : List α} {s : State} (hf : ∀ s x, s.Ok → (f s x).Ok) (h : s.Ok) : (l.foldl f s).Ok
    := by
  induction l generalizing s with
  | nil => exact h
  | cons x l ih => exact ih (hf s x h)
/-- The same of one table. -/
theorem foldl_twf {α β : Type} [DecidableEq α] {d : Nat → α} (f : List (Nat × α) → β → List (Nat × α)) (l : List β) (hf : ∀ t x, twf d t =
    true → twf d (f t x) = true) (t : List (Nat × α)) (h : twf d t = true) :
    twf d (l.foldl f t) = true := by
  induction l generalizing t with
  | nil => exact h
  | cons x l ih => exact ih _ (hf t x h)

end Sys2Proof.Machine
end

