-- ==== Sys2Proof/Laws/KeepA.lean ====
section
/-!
SUPPORT. Every operation and every command of the files named below keeps the register tables and the memories in
their canonical form: Ops, Ecc, InUse, Bufs, Packets, Pages, Queues, Standstill, Store, Teardown, Operands, Fabric,
Groups, Links, Remote, Domains, MemCtl, Security.
-/

namespace Sys2Proof.Machine

/-! Ops. -/

theorem State.live_ok {s : State} {x1 : Res} (hs : State.Ok s) (hr : OkOut x1) : OkOut (State.live s x1) := by
  unfold State.live
  exact (iteP (OkOut.next hs) hr)
theorem State.granting_ok {s : State} {x1 : Res} (hs : State.Ok s) (hr : OkOut x1) : OkOut (State.granting s x1) := by
  unfold State.granting
  exact (iteP (OkOut.next hs) hr)
theorem State.setReg_ok {s : State} {x1 : Nat} {x2 : Word} (hs : State.Ok s) : State.Ok (State.setReg s x1 x2) := by
  unfold State.setReg
  exact (State.Ok.with_regs hs (twf_tset _ _ _ _ (State.Ok.regs hs)))
theorem State.wr_ok {s : State} {x1 : Fld} {x2 : Nat} (hs : State.Ok s) : State.Ok (State.wr s x1 x2) := by
  unfold State.wr
  exact (State.setReg_ok hs)
theorem State.setBit_ok {s : State} {x1 : Fld} {x2 : Bool} (hs : State.Ok s) : State.Ok (State.setBit s x1 x2) := by
  unfold State.setBit
  exact (State.wr_ok hs)
theorem State.addSat_ok {s : State} {x1 : Fld} {x2 : Nat} (hs : State.Ok s) : State.Ok (State.addSat s x1 x2) := by
  unfold State.addSat
  exact (State.wr_ok hs)
theorem State.addMod_ok {s : State} {x1 : Fld} {x2 : Nat} (hs : State.Ok s) : State.Ok (State.addMod s x1 x2) := by
  unfold State.addMod
  exact (State.wr_ok hs)
theorem State.setRink_ok {s : State} {x1 : Nat} {x2 : List Byte} (hs : State.Ok s) : State.Ok (State.setRink s x1 x2) := by
  unfold State.setRink
  exact (State.Ok.with_rink hs (twf_tsetMany _ _ _ _ (State.Ok.rink hs)))
theorem State.clearRink_ok {s : State} {x1 : Nat} {x2 : Nat} (hs : State.Ok s) : State.Ok (State.clearRink s x1 x2) := by
  unfold State.clearRink
  exact (State.Ok.with_rink hs (twf_tclear _ _ _ _ (State.Ok.rink hs)))
theorem State.setMem_ok {s : State} {x1 : Nat} {x2 : List Byte} (hs : State.Ok s) : State.Ok (State.setMem s x1 x2) := by
  unfold State.setMem
  refine State.Ok.with_lpddr hs (iteP (P := fun x => twf _ x = true) (foldl_twf _ _ ?_ _ hs.lpddr) (twf_tsetMany _ _ _ _ hs.lpddr))
  exact fun _ _ h => iteP (P := fun x => twf _ x = true) h (twf_tset _ _ _ _ h)
theorem State.setGate_ok {s : State} {x1 : Nat} {x2 : Nat} {x3 : List Byte} (hs : State.Ok s) : State.Ok (State.setGate s x1 x2 x3) := by
  unfold State.setGate
  exact (State.Ok.with_gsram hs (twf_tsetMany _ _ _ _ (State.Ok.gsram hs)))
theorem State.setStore_ok {s : State} {x1 : Nat} {x2 : Nat} {x3 : List Byte} (hs : State.Ok s) : State.Ok (State.setStore s x1 x2 x3) := by
  unfold State.setStore
  exact (State.Ok.with_store hs (twf_tsetMany _ _ _ _ (State.Ok.store hs)))
theorem State.setSpace_ok {s : State} {x1 : Nat} {x2 : Nat} {x3 : Nat} {x4 : List Byte} (hs : State.Ok s) : State.Ok (State.setSpace s x1
    x2 x3 x4) := by
  unfold State.setSpace
  exact (iteP (State.setStore_ok hs) (iteP (State.setRink_ok hs) (iteP (State.setMem_ok hs) (State.setGate_ok hs))))
theorem State.setStream_ok {s : State} {x1 : Nat} {x2 : Stream} (hs : State.Ok s) : State.Ok (State.setStream s x1 x2) := by
  unfold State.setStream
  exact (State.Ok.upd hs)
theorem State.updStream_ok {s : State} {x1 : Nat} {x2 : Stream → Stream} (hs : State.Ok s) : State.Ok (State.updStream s x1 x2) := by
  unfold State.updStream
  exact (State.setStream_ok hs)
theorem State.setCtx_ok {s : State} {x1 : Nat} {x2 : Ctx} (hs : State.Ok s) : State.Ok (State.setCtx s x1 x2) := by
  unfold State.setCtx
  exact (State.Ok.upd hs)
theorem State.updCtx_ok {s : State} {x1 : Nat} {x2 : Ctx → Ctx} (hs : State.Ok s) : State.Ok (State.updCtx s x1 x2) := by
  unfold State.updCtx
  exact (State.setCtx_ok hs)
theorem State.setGateUnit_ok {s : State} {x1 : Nat} {x2 : Gate} (hs : State.Ok s) : State.Ok (State.setGateUnit s x1 x2) := by
  unfold State.setGateUnit
  exact (State.Ok.upd hs)
theorem State.updGate_ok {s : State} {x1 : Nat} {x2 : Gate → Gate} (hs : State.Ok s) : State.Ok (State.updGate s x1 x2) := by
  unfold State.updGate
  exact (State.setGateUnit_ok hs)
theorem State.setGmu_ok {s : State} {x1 : Nat} {x2 : List GmmOp} (hs : State.Ok s) : State.Ok (State.setGmu s x1 x2) := by
  unfold State.setGmu
  exact (State.Ok.upd hs)
theorem State.setCourse_ok {s : State} {x1 : Nat} {x2 : Course} (hs : State.Ok s) : State.Ok (State.setCourse s x1 x2) := by
  unfold State.setCourse
  exact (State.Ok.upd hs)
theorem State.updRouter_ok {s : State} {x1 : Router → Router} (hs : State.Ok s) : State.Ok (State.updRouter s x1) := by
  unfold State.updRouter
  exact (State.Ok.upd hs)
theorem State.setPort_ok {s : State} {x1 : Nat} {x2 : Port} (hs : State.Ok s) : State.Ok (State.setPort s x1 x2) := by
  unfold State.setPort
  exact (State.Ok.upd hs)
theorem State.updPort_ok {s : State} {x1 : Nat} {x2 : Port → Port} (hs : State.Ok s) : State.Ok (State.updPort s x1 x2) := by
  unfold State.updPort
  exact (State.setPort_ok hs)
theorem State.updCol_ok {s : State} {x1 : Col → Col} (hs : State.Ok s) : State.Ok (State.updCol s x1) := by
  unfold State.updCol
  exact (State.Ok.upd hs)
theorem State.setRelay_ok {s : State} {x1 : Nat} {x2 : Relay} (hs : State.Ok s) : State.Ok (State.setRelay s x1 x2) := by
  unfold State.setRelay
  exact (State.Ok.upd hs)
theorem State.setRsEntry_ok {s : State} {x1 : Nat} {x2 : RsEntry} (hs : State.Ok s) : State.Ok (State.setRsEntry s x1 x2) := by
  unfold State.setRsEntry
  exact (State.Ok.upd hs)
theorem State.setAdmits_ok {s : State} {x1 : Nat} {x2 : List Admit} (hs : State.Ok s) : State.Ok (State.setAdmits s x1 x2) := by
  unfold State.setAdmits
  exact (State.Ok.upd hs)
theorem State.updLap_ok {s : State} {x1 : LapUnit → LapUnit} (hs : State.Ok s) : State.Ok (State.updLap s x1) := by
  unfold State.updLap
  exact (State.Ok.upd hs)
theorem State.updLocker_ok {s : State} {x1 : Locker → Locker} (hs : State.Ok s) : State.Ok (State.updLocker s x1) := by
  unfold State.updLocker
  exact (State.Ok.upd hs)
theorem State.setFlowQueue_ok {s : State} {x1 : Nat} {x2 : List QPkt} (hs : State.Ok s) : State.Ok (State.setFlowQueue s x1 x2) := by
  unfold State.setFlowQueue
  exact (State.Ok.upd hs)
theorem State.emit_ok {s : State} {x1 : Out} (hs : State.Ok s) : State.Ok (State.emit s x1) := by
  unfold State.emit
  exact (State.Ok.upd hs)
theorem State.free_ok {s : State} (hs : State.Ok s) : OkSnd (State.free s) := by
  unfold State.free
  exact (OkSnd.mk (State.Ok.upd hs))
theorem State.armAt_ok {s : State} {x1 : Nat} (hs : State.Ok s) : State.Ok (State.armAt s x1) := by
  unfold State.armAt
  exact (iteP (State.addSat_ok hs) hs)
theorem State.setCtxState_ok {s : State} {x1 : Nat} {x2 : Nat} (hs : State.Ok s) : State.Ok (State.setCtxState s x1 x2) := by
  unfold State.setCtxState
  exact (State.wr_ok hs)
theorem State.setEngState_ok {s : State} {x1 : Nat} {x2 : Nat} (hs : State.Ok s) : State.Ok (State.setEngState s x1 x2) := by
  unfold State.setEngState
  exact (State.wr_ok hs)
theorem State.trouble_ok {s : State} {x1 : Nat} (hs : State.Ok s) : State.Ok (State.trouble s x1) := by
  unfold State.trouble
  exact (State.Ok.upd (State.addSat_ok hs))
theorem State.lapFlag_ok {s : State} {x1 : Nat} (hs : State.Ok s) : State.Ok (State.lapFlag s x1) := by
  unfold State.lapFlag
  exact (iteP hs (State.Ok.upd hs))
theorem State.hostDrop_ok {s : State} {x1 : Nat} (hs : State.Ok s) : State.Ok (State.hostDrop s x1) := by
  unfold State.hostDrop
  exact (State.addSat_ok hs)
theorem State.sendUdp_ok {s : State} {x1 : Nat} {x2 : Dgram} (hs : State.Ok s) : State.Ok (State.sendUdp s x1 x2) := by
  unfold State.sendUdp
  exact (State.emit_ok hs)
theorem State.setSess_ok {s : State} {x1 : Nat} {x2 : Sess} (hs : State.Ok s) : State.Ok (State.setSess s x1 x2) := by
  unfold State.setSess
  exact (State.Ok.upd hs)
theorem State.updSess_ok {s : State} {x1 : Nat} {x2 : Sess → Sess} (hs : State.Ok s) : State.Ok (State.updSess s x1 x2) := by
  unfold State.updSess
  exact (State.setSess_ok hs)
theorem State.sendWcp_ok {s : State} {x1 : Nat} {x2 : List Byte} (hs : State.Ok s) : State.Ok (State.sendWcp s x1 x2) := by
  unfold State.sendWcp
  exact (State.sendUdp_ok hs)
theorem State.sendCapsule_ok {s : State} {x1 : Nat} {x2 : List Byte} {x3 : Option (Nat × Nat × Nat × Nat)} (hs : State.Ok s) : State.Ok
    (State.sendCapsule s x1 x2 x3) := by
  unfold State.sendCapsule
  exact (iteP hs (iteP (State.setSess_ok hs) (State.sendWcp_ok (State.wr_ok (State.setSess_ok hs)))))
theorem State.ringEvent_ok {s : State} {x1 : Event} (hs : State.Ok s) : State.Ok (State.ringEvent s x1) := by
  unfold State.ringEvent
  exact (iteP (State.Ok.upd (State.wr_ok hs)) (cut (fun h2 => (iteP h2 (State.Ok.upd (State.wr_ok (State.wr_ok (State.addSat_ok
      (State.Ok.upd h2))))))) (State.addSat_ok (State.Ok.upd (State.wr_ok hs)))))
theorem State.pushEvent_ok {s : State} {x1 : Event} (hs : State.Ok s) : State.Ok (State.pushEvent s x1) := by
  unfold State.pushEvent
  exact (by
    split
    · exact (State.ringEvent_ok hs)
    · exact (foldl_ok (fun _ _ h1 => (State.sendCapsule_ok h1)) hs))
theorem State.drainRing_ok {s : State} {x1 : Nat} (hs : State.Ok s) : State.Ok (State.drainRing s x1) := by
  unfold State.drainRing
  exact (foldl_ok (fun _ _ h2 => (State.sendCapsule_ok h2)) (State.Ok.upd (State.wr_ok hs)))
theorem State.freeSession_ok {s : State} {x1 : Nat} (hs : State.Ok s) : State.Ok (State.freeSession s x1) := by
  unfold State.freeSession
  exact (State.wr_ok (State.setReg_ok (State.setReg_ok (State.setSess_ok (State.Ok.upd hs)))))
theorem State.wcpEvent_ok {s : State} {x1 : Nat} {x2 : Nat} (hs : State.Ok s) : State.Ok (State.wcpEvent s x1 x2) := by
  unfold State.wcpEvent
  exact (State.pushEvent_ok (State.wr_ok hs))
theorem State.closeExhausted_ok {s : State} (hs : State.Ok s) : State.Ok (State.closeExhausted s) := by
  unfold State.closeExhausted
  exact (foldl_ok (fun _ _ h1 => (iteP (State.wcpEvent_ok (State.freeSession_ok h1)) h1)) hs)
theorem State.report_ok {s : State} {x1 : Nat} {x2 : Nat} {x3 : Nat} (hs : State.Ok s) : State.Ok (State.report s x1 x2 x3) := by
  unfold State.report
  exact (cut (fun h1 => (cut (fun h2 => (State.closeExhausted_ok (State.pushEvent_ok (by
    split
    · exact (State.trouble_ok h2)
    · exact h2)))) (iteP (State.wr_ok h1) h1))) (by
    split
    · exact (State.wr_ok hs)
    · exact hs))
theorem State.setCc_ok {s : State} {x1 : Nat} {x2 : Nat} {x3 : Nat} (hs : State.Ok s) : State.Ok (State.setCc s x1 x2 x3) := by
  unfold State.setCc
  exact (State.updCtx_ok hs)
theorem State.putCc_ok {s : State} {x1 : Nat} {x2 : Nat} {x3 : Nat} {x4 : Nat × Option Nat} (hs : State.Ok s) : State.Ok (State.putCc s x1
    x2 x3 x4) := by
  unfold State.putCc
  exact (State.updCtx_ok (State.setCc_ok hs))
theorem State.addCc_ok {s : State} {x1 : Nat} {x2 : Nat} {x3 : Nat} (hs : State.Ok s) : State.Ok (State.addCc s x1 x2 x3) := by
  unfold State.addCc
  exact (State.putCc_ok hs)
theorem State.writeCc_ok {s : State} {x1 : Nat} {x2 : Nat} {x3 : Nat} {x4 : Nat} (hs : State.Ok s) : State.Ok (State.writeCc s x1 x2 x3 x4)
    := by
  unfold State.writeCc
  exact (iteP hs (State.putCc_ok hs))
theorem State.addCancel_ok {s : State} {x1 : Nat} {x2 : Nat} (hs : State.Ok s) : State.Ok (State.addCancel s x1 x2) := by
  unfold State.addCancel
  exact (State.updCtx_ok hs)
theorem State.retireTo_ok {s : State} {x1 : Nat} {x2 : Nat} (hs : State.Ok s) : State.Ok (State.retireTo s x1 x2) := by
  unfold State.retireTo
  exact (cut (fun h1 => (iteP (State.setEngState_ok (State.updStream_ok h1)) h1)) (State.addMod_ok (State.wr_ok hs)))
theorem State.retire_ok {s : State} {x1 : Nat} (hs : State.Ok s) : State.Ok (State.retire s x1) := by
  unfold State.retire
  exact (State.retireTo_ok hs)
theorem State.sendOn_ok {s : State} {x1 : Nat} (hs : State.Ok s) : State.Ok (State.sendOn s x1) := by
  unfold State.sendOn
  exact (cut (fun h1 => (iteP (State.updStream_ok h1) h1)) (State.wr_ok hs))
theorem State.retireOp_ok {s : State} {x1 : Nat} {x2 : MemOp} (hs : State.Ok s) : State.Ok (State.retireOp s x1 x2) := by
  unfold State.retireOp
  exact (cut (fun h1 => (iteP (State.setEngState_ok (State.updStream_ok h1)) h1)) (iteP (State.addMod_ok hs) hs))
theorem State.repeatEvent_ok {s : State} {x1 : Nat} {x2 : Nat} (hs : State.Ok s) : State.Ok (State.repeatEvent s x1 x2) := by
  unfold State.repeatEvent
  exact (State.Ok.upd hs)
theorem State.saturate_ok {s : State} {x1 : Nat} (hs : State.Ok s) : State.Ok (State.saturate s x1) := by
  unfold State.saturate
  exact (iteP hs (State.Ok.upd hs))
theorem State.saturateFor_ok {s : State} {x1 : Nat} {x2 : Nat} (hs : State.Ok s) : State.Ok (State.saturateFor s x1 x2) := by
  unfold State.saturateFor
  exact (State.Ok.upd hs)
theorem State.queued_ok {s : State} {x1 : Nat} {x2 : Nat} (hs : State.Ok s) : State.Ok (State.queued s x1 x2) := by
  unfold State.queued
  exact (State.Ok.upd hs)
theorem State.telPush_ok {s : State} {x1 : List Byte} (hs : State.Ok s) : State.Ok (State.telPush s x1) := by
  unfold State.telPush
  exact (iteP (State.Ok.upd hs) (State.addSat_ok hs))
theorem State.trace_ok {s : State} {x1 : Nat} {x2 : Nat} {x3 : Nat} {x4 : Nat} (hs : State.Ok s) : State.Ok (State.trace s x1 x2 x3 x4) :=
    by
  unfold State.trace
  exact (iteP (State.telPush_ok hs) hs)

/-! Ecc. -/

theorem State.present_ok {s : State} {x1 : Nat} {x2 : Nat} {x3 : Nat} (hs : State.Ok s) : State.Ok (State.present s x1 x2 x3) := by
  unfold State.present
  exact (iteP hs (State.queued_ok (State.Ok.upd hs)))
theorem State.rinkClk_ok {s : State} {x1 : Nat} {x2 : Nat} (hs : State.Ok s) : State.Ok (State.rinkClk s x1 x2) := by
  unfold State.rinkClk
  exact (iteP hs (cut (fun h2 => (iteP (State.saturate_ok h2) h2)) (foldl_ok (fun _ _ h3 => (State.addSat_ok h3)) (foldl_ok (fun _ _ h4 =>
      (State.addMod_ok h4)) (State.Ok.upd hs)))))
theorem State.rinkRun_ok {s : State} {x1 : Nat} {x2 : Nat} (hs : State.Ok s) : State.Ok (State.rinkRun s x1 x2) := by
  induction x1 generalizing s x2 with
  | zero => exact hs
  | succ n ih => exact ih (State.rinkClk_ok hs)
theorem State.rinkErrAt_ok {s : State} {x1 : Nat} {x2 : Nat} (hs : State.Ok s) : State.Ok (State.rinkErrAt s x1 x2) := by
  unfold State.rinkErrAt
  exact (State.wr_ok (State.wr_ok (State.wr_ok hs)))
theorem State.rinkRead_ok {s : State} {x1 : Nat} {x2 : Nat} {x3 : Bool} (hs : State.Ok s) : State.Ok (State.rinkRead s x1 x2 x3) := by
  unfold State.rinkRead
  exact (foldl_ok (fun _ _ h2 => (cut (fun h3 => (iteP (State.report_ok h3) (State.wr_ok h3))) (State.rinkErrAt_ok (State.addSat_ok h2))))
      (foldl_ok (fun _ _ h4 => (State.rinkErrAt_ok (State.lapFlag_ok (State.addSat_ok h4)))) hs))
theorem State.rinkUpset_ok {s : State} {x1 : RinkError} (hs : State.Ok s) : State.Ok (State.rinkUpset s x1) := by
  unfold State.rinkUpset
  exact (State.Ok.upd hs)
theorem State.memUpset_ok {s : State} {x1 : Upset} (hs : State.Ok s) : State.Ok (State.memUpset s x1) := by
  have h : ∀ l a, twf zeroByte (tsetMany zeroByte s.lpddr a l) = true := fun l a => twf_tsetMany _ _ _ _ hs.lpddr
  unfold State.memUpset
  refine iteP ⟨hs.regs, hs.rink, h _ _, hs.store, hs.gsram, hs.rstore, hs.guard, hs.tmpl⟩ ?_
  dsimp only
  split
  · exact ⟨hs.regs, hs.rink, h _ _, hs.store, hs.gsram, hs.rstore, hs.guard, hs.tmpl⟩
  · exact State.Ok.upd hs
theorem State.upset_ok {s : State} {x1 : Upsets} (hs : State.Ok s) : State.Ok (State.upset s x1) := by
  unfold State.upset
  exact (foldl_ok (fun _ _ h1 => (State.memUpset_ok h1)) (foldl_ok (fun _ _ h2 => (State.rinkUpset_ok h2)) hs))
theorem State.setMemCtl_ok {s : State} {x1 : Nat} {x2 : MemCtl} (hs : State.Ok s) : State.Ok (State.setMemCtl s x1 x2) := by
  unfold State.setMemCtl
  exact (State.Ok.upd hs)
theorem State.updMem_ok {s : State} {x1 : Nat} {x2 : MemCtl → MemCtl} (hs : State.Ok s) : State.Ok (State.updMem s x1 x2) := by
  unfold State.updMem
  exact (State.setMemCtl_ok hs)
theorem State.memReport_ok {s : State} {x1 : Nat} {x2 : Nat} (hs : State.Ok s) : State.Ok (State.memReport s x1 x2) := by
  unfold State.memReport
  exact (State.report_ok (State.wr_ok hs))
theorem State.memErrAt_ok {s : State} {x1 : Nat} {x2 : Nat} {x3 : Nat} (hs : State.Ok s) : State.Ok (State.memErrAt s x1 x2 x3) := by
  unfold State.memErrAt
  exact (State.wr_ok (State.wr_ok (State.wr_ok (State.wr_ok (State.wr_ok hs)))))
theorem State.memCorrected_ok {s : State} {x1 : Nat} (hs : State.Ok s) : State.Ok (State.memCorrected s x1) := by
  unfold State.memCorrected
  exact (cut (fun h2 => (cut (fun h3 => (iteP (State.memReport_ok h3) h3)) (iteP h2 (State.memErrAt_ok h2)))) (State.updMem_ok
      (State.addSat_ok hs)))
theorem State.memUncorrectable_ok {s : State} {x1 : Nat} {x2 : Bool} (hs : State.Ok s) : State.Ok (State.memUncorrectable s x1 x2) := by
  unfold State.memUncorrectable
  exact (cut (fun h1 => (iteP (State.memReport_ok h1) (State.wr_ok h1))) (State.memErrAt_ok (State.addSat_ok hs)))
theorem State.memRead_ok {s : State} {x1 : Nat} {x2 : Nat} {x3 : Bool} (hs : State.Ok s) : State.Ok (State.memRead s x1 x2 x3) := by
  unfold State.memRead
  exact (foldl_ok (fun _ _ h1 => (iteP (State.memCorrected_ok h1) (State.memUncorrectable_ok h1))) hs)
theorem State.checkRead_ok {s : State} {x1 : Nat} {x2 : Nat} {x3 : Nat} {x4 : Nat} {x5 : Bool} (hs : State.Ok s) : State.Ok
    (State.checkRead s x1 x2 x3 x4 x5) := by
  unfold State.checkRead
  exact (iteP (State.Ok.upd hs) (iteP (State.rinkRead_ok (State.present_ok hs)) (iteP (State.memRead_ok hs) hs)))
theorem State.presentWrite_ok {s : State} {x1 : Nat} {x2 : Nat} {x3 : Nat} {x4 : Nat} (hs : State.Ok s) : State.Ok (State.presentWrite s x1
    x2 x3 x4) := by
  unfold State.presentWrite
  exact (iteP (State.Ok.upd hs) (iteP (State.present_ok hs) hs))

/-! InUse. -/

theorem State.freeBytes_ok {s : State} {x1 : Nat} (hs : State.Ok s) : OkSnd (State.freeBytes s x1) := by
  unfold State.freeBytes
  exact (OkSnd.mk (State.Ok.upd hs))
theorem State.spoil_ok {s : State} {x1 : Nat → Bool} {x2 : List Byte} (hs : State.Ok s) : OkSnd (State.spoil s x1 x2) := by
  unfold State.spoil
  exact (iteP (OkSnd.mk (OkSnd.snd (State.freeBytes_ok hs))) (OkSnd.mk hs))
theorem State.besideRead_ok {s : State} {x1 : Nat} {x2 : Nat} {x3 : List Byte} (hs : State.Ok s) : OkSnd (State.besideRead s x1 x2 x3) := by
  unfold State.besideRead
  exact (by
    dsimp -failIfUnchanged only
    split
    · exact (OkSnd.mk hs)
    · exact (State.spoil_ok hs))
theorem State.besideWrite_ok {s : State} {x1 : Nat} {x2 : Nat} {x3 : Nat → Bool} {x4 : List Byte} (hs : State.Ok s) : OkSnd
    (State.besideWrite s x1 x2 x3 x4) := by
  unfold State.besideWrite
  exact (by
    dsimp -failIfUnchanged only
    split
    · exact (OkSnd.mk hs)
    · exact (State.spoil_ok (State.setGmu_ok hs)))
theorem State.besideStored_ok {s : State} {x1 : Nat} {x2 : Nat} {x3 : Nat} {x4 : Nat → Bool} (hs : State.Ok s) : State.Ok
    (State.besideStored s x1 x2 x3 x4) := by
  unfold State.besideStored
  exact (iteP hs (State.setSpace_ok (OkSnd.snd (State.besideWrite_ok hs))))
theorem State.besideFlight_ok {s : State} {x1 : Nat} {x2 : MemOp} (hs : State.Ok s) : State.Ok (State.besideFlight s x1 x2) := by
  unfold State.besideFlight
  exact (by
    dsimp -failIfUnchanged only
    split
    · exact (State.updStream_ok (OkSnd.snd (State.besideRead_ok hs)))
    · exact (State.updStream_ok (OkSnd.snd (State.besideRead_ok hs)))
    · exact (State.besideStored_ok hs)
    · exact (State.besideStored_ok hs)
    · exact (State.setSpace_ok (OkSnd.snd (State.spoil_ok (State.besideStored_ok hs))))
    · exact hs)
theorem State.gmmBegins_ok {s : State} {x1 : Nat} (hs : State.Ok s) : State.Ok (State.gmmBegins s x1) := by
  unfold State.gmmBegins
  exact (foldl_ok (fun _ _ h1 => (State.besideFlight_ok h1)) hs)
theorem State.looseUsers_ok {s : State} {x1 : Nat} {x2 : Nat} (hs : State.Ok s) : State.Ok (State.looseUsers s x1 x2) := by
  unfold State.looseUsers
  exact (foldl_ok (fun _ _ h3 => (by
    dsimp -failIfUnchanged only
    split
    · exact h3
    · exact (iteP (State.setRelay_ok h3) h3))) (foldl_ok (fun _ _ h4 => (by
    dsimp -failIfUnchanged only
    split
    · exact h4
    · exact (State.setGmu_ok h4))) (foldl_ok (fun _ _ h5 => (State.updStream_ok h5)) hs)))
theorem State.copyEnds_ok {s : State} {x1 : Nat} {x2 : Nat} {x3 : Nat} {x4 : Bool} (hs : State.Ok s) : State.Ok (State.copyEnds s x1 x2 x3
    x4) := by
  unfold State.copyEnds
  exact (iteP (State.setSpace_ok (OkSnd.snd (State.freeBytes_ok hs))) hs)

/-! Bufs. -/

theorem State.setBuf_ok {s : State} {x1 : Nat} {x2 : Buf} (hs : State.Ok s) : State.Ok (State.setBuf s x1 x2) := by
  unfold State.setBuf
  exact (State.updLocker_ok hs)
theorem State.setFreeQ_ok {s : State} {x1 : Nat} {x2 : List Nat} (hs : State.Ok s) : State.Ok (State.setFreeQ s x1 x2) := by
  unfold State.setFreeQ
  exact (State.updLocker_ok hs)
theorem State.setWaitQ_ok {s : State} {x1 : Nat} {x2 : List WaitReq} (hs : State.Ok s) : State.Ok (State.setWaitQ s x1 x2) := by
  unfold State.setWaitQ
  exact (State.updLocker_ok hs)
theorem State.undefBuffer_ok {s : State} {x1 : Nat} (hs : State.Ok s) : State.Ok (State.undefBuffer s x1) := by
  unfold State.undefBuffer
  exact (State.Ok.upd (State.setRink_ok hs))
theorem State.takeBuf_ok {s : State} {x1 : Nat} {x2 : Nat} (hs : State.Ok s) : OkOptP (State.takeBuf s x1 x2) := by
  unfold State.takeBuf
  exact (by
    dsimp -failIfUnchanged only
    split
    · exact OkOptP.none
    · exact (cut (fun h2 => (OkOptP.some (OkSnd.mk (iteP h2 (State.undefBuffer_ok h2))))) (State.addMod_ok (State.setBuf_ok
        (State.setFreeQ_ok hs)))))
theorem State.ingressTake_ok {s : State} {x1 : Nat} {x2 : Nat} (hs : State.Ok s) : OkOptP (State.ingressTake s x1 x2) := by
  unfold State.ingressTake
  exact (iteP OkOptP.none (by
    split
    · exact OkOptP.none
    · exact (iteP (State.takeBuf_ok hs) OkOptP.none)))
theorem State.noQuota_ok {s : State} (hs : State.Ok s) : State.Ok (State.noQuota s) := by
  unfold State.noQuota
  exact (State.report_ok (State.addSat_ok hs))
theorem State.joinFree_ok {s : State} {x1 : Nat} (hs : State.Ok s) : State.Ok (State.joinFree s x1) := by
  unfold State.joinFree
  exact (State.wr_ok (State.setFreeQ_ok (State.setBuf_ok hs)))
theorem State.freeBuf_ok {s : State} {x1 : Nat} (hs : State.Ok s) : State.Ok (State.freeBuf s x1) := by
  unfold State.freeBuf
  exact (cut (fun h2 => (iteP (State.wr_ok (State.updLocker_ok h2)) (State.updLocker_ok h2))) (State.setBuf_ok (State.looseUsers_ok hs)))
theorem State.changeRef_ok {s : State} {x1 : RefChange} (hs : State.Ok s) : State.Ok (State.changeRef s x1) := by
  unfold State.changeRef
  exact (State.updLocker_ok hs)
theorem State.devRelease_ok {s : State} {x1 : Nat} (hs : State.Ok s) : State.Ok (State.devRelease s x1) := by
  unfold State.devRelease
  exact (State.changeRef_ok hs)
theorem State.devReleaseOpt_ok {s : State} {x1 : Option Nat} (hs : State.Ok s) : State.Ok (State.devReleaseOpt s x1) := by
  unfold State.devReleaseOpt
  exact (by
    split
    · exact hs
    · exact (State.devRelease_ok hs))
theorem State.deliverGrant_ok {s : State} {x1 : WaitReq} {x2 : Nat} (hs : State.Ok s) : State.Ok (State.deliverGrant s x1 x2) := by
  unfold State.deliverGrant
  exact (iteP (State.retire_ok (State.setReg_ok (State.setEngState_ok (State.updStream_ok hs)))) (State.updGate_ok hs))
theorem State.grantPool_ok {s : State} {x1 : Nat} (hs : State.Ok s) : OkOpt (State.grantPool s x1) := by
  unfold State.grantPool
  exact (by
    split
    · exact OkOpt.none
    · exact (by
      split
      · exact OkOpt.none
      · rename_i q1; exact (OkOpt.some (State.deliverGrant_ok ((State.takeBuf_ok (State.setWaitQ_ok hs)) _ q1)))))
theorem State.grantOne_ok {s : State} (hs : State.Ok s) : OkOpt (State.grantOne s) := by
  refine iteP OkOpt.none (fun t h => ?_)
  obtain ⟨u, hu, rfl⟩ := Option.map_eq_some_iff.mp h
  obtain ⟨_, _, _, _, hp, _⟩ := List.findSome?_eq_some_iff.mp hu
  exact State.updLocker_ok (State.grantPool_ok hs u hp)
theorem State.joinWait_ok {s : State} {x1 : Nat} {x2 : WaitReq} (hs : State.Ok s) : State.Ok (State.joinWait s x1 x2) := by
  unfold State.joinWait
  exact (State.setWaitQ_ok hs)
theorem State.grantUpTo_ok {s : State} {x1 : Nat} (hs : State.Ok s) : State.Ok (State.grantUpTo s x1) := by
  induction x1 generalizing s with
  | zero => exact hs
  | succ n ih =>
    unfold State.grantUpTo
    split
    · exact hs
    · rename_i q; exact ih (State.grantOne_ok hs _ q)
theorem State.dropWaits_ok {s : State} {x1 : Nat → Bool} (hs : State.Ok s) : State.Ok (State.dropWaits s x1) := by
  unfold State.dropWaits
  exact (foldl_ok (fun _ _ h1 => (State.setWaitQ_ok h1)) hs)
theorem State.freeOwned_ok {s : State} {x1 : Nat} (hs : State.Ok s) : State.Ok (State.freeOwned s x1) := by
  unfold State.freeOwned
  exact (foldl_ok (fun _ _ h2 => (State.freeBuf_ok h2)) (State.updLocker_ok hs))

/-! Packets. -/

theorem State.returnCredits_ok {s : State} {x1 : Nat} {x2 : Nat} {x3 : Nat} (hs : State.Ok s) : State.Ok (State.returnCredits s x1 x2 x3)
    := by
  unfold State.returnCredits
  exact (iteP (State.updPort_ok hs) hs)

/-! Pages. -/

theorem State.setSnap_ok {s : State} {x1 : Nat} {x2 : SnapCtx} (hs : State.Ok s) : State.Ok (State.setSnap s x1 x2) := by
  unfold State.setSnap
  exact (State.Ok.upd hs)
theorem State.updSnap_ok {s : State} {x1 : Nat} {x2 : SnapCtx → SnapCtx} (hs : State.Ok s) : State.Ok (State.updSnap s x1 x2) := by
  unfold State.updSnap
  exact (State.setSnap_ok hs)
theorem State.setPage_ok {s : State} {x1 : Nat} {x2 : Nat} {x3 : Nat} (hs : State.Ok s) : State.Ok (State.setPage s x1 x2 x3) := by
  unfold State.setPage
  exact (State.updSnap_ok hs)
theorem State.copyMem_ok {s : State} {x1 : Nat} {x2 : Nat} {x3 : Nat} (hs : State.Ok s) : State.Ok (State.copyMem s x1 x2 x3) := by
  unfold State.copyMem
  exact (State.setMem_ok hs)
theorem State.dirtyPages_ok {s : State} {x1 : Nat} {x2 : Nat} (hs : State.Ok s) : State.Ok (State.dirtyPages s x1 x2) := by
  unfold State.dirtyPages
  exact (foldl_ok (fun _ _ h1 => (foldl_ok (fun _ _ h2 => (iteP (State.setPage_ok h2) h2)) h1)) hs)
theorem State.trailBlock_ok {s : State} {x1 : Nat} {x2 : Nat} {x3 : Nat} {x4 : Nat} {x5 : Nat} {x6 : Bool} {x7 : List Byte} (hs : State.Ok
    s) : State.Ok (State.trailBlock s x1 x2 x3 x4 x5 x6 x7) := by
  unfold State.trailBlock
  exact (iteP hs (cut (fun h2 => (iteP h2 (State.Ok.upd h2))) (State.addMod_ok (State.addMod_ok hs))))
theorem State.trailOne_ok {s : State} {x1 : Nat} {x2 : Nat} {x3 : Nat} {x4 : Nat} {x5 : List Byte} {x6 : Nat} (hs : State.Ok s) : State.Ok
    (State.trailOne s x1 x2 x3 x4 x5 x6) := by
  unfold State.trailOne
  exact (iteP hs (foldl_ok (fun _ _ h1 => (State.trailBlock_ok h1)) hs))
theorem State.trail_ok {s : State} {x1 : Nat} {x2 : Nat} {x3 : Nat} {x4 : Nat} {x5 : List Byte} (hs : State.Ok s) : State.Ok (State.trail s
    x1 x2 x3 x4 x5) := by
  unfold State.trail
  exact (iteP (foldl_ok (fun _ _ h1 => (State.trailOne_ok h1)) hs) hs)
theorem State.memWriteNow_ok {s : State} {x1 : Nat} {x2 : Nat} {x3 : List Byte} (hs : State.Ok s) : State.Ok (State.memWriteNow s x1 x2 x3)
    := by
  unfold State.memWriteNow
  exact (State.trail_ok (State.setMem_ok (State.dirtyPages_ok hs)))
theorem State.memWrite_ok {s : State} {x1 : Nat} {x2 : Option (Nat × Nat)} {x3 : Nat} {x4 : List Byte} (hs : State.Ok s) : State.Ok
    (State.memWrite s x1 x2 x3 x4) := by
  unfold State.memWrite
  exact (iteP (State.updSnap_ok (State.saturate_ok hs)) (State.memWriteNow_ok hs))
theorem State.drained_ok {s : State} {x1 : Nat} {x2 : Nat} (hs : State.Ok s) : State.Ok (State.drained s x1 x2) := by
  unfold State.drained
  exact (cut (fun h1 => (iteP (State.wr_ok h1) h1)) (State.updSnap_ok hs))
theorem State.preservePage_ok {s : State} {x1 : Nat} (hs : State.Ok s) : State.Ok (State.preservePage s x1) := by
  unfold State.preservePage
  generalize (4096 : Nat) = n
  refine foldl_ok (fun s c h => iteP h ?_) hs
  cases s.imageOffset c x1 with
  | none => exact h
  | some o =>
    exact cut (fun h2 => (cut (fun h3 => (iteP (State.drained_ok (State.copyMem_ok h3)) h3)) (iteP (State.setPage_ok (State.copyMem_ok h2))
        h2))) (iteP (State.addSat_ok h) h)
theorem State.streamWrite_ok {s : State} {x1 : Nat} {x2 : Nat} {x3 : Nat} {x4 : Nat} {x5 : Nat} {x6 : List Byte} (hs : State.Ok s) :
    State.Ok (State.streamWrite s x1 x2 x3 x4 x5 x6) := by
  unfold State.streamWrite
  exact (iteP (State.memWrite_ok hs) (State.trail_ok (State.setSpace_ok (State.presentWrite_ok hs))))
theorem State.rinkWrite_ok {s : State} {x1 : Nat} {x2 : Nat} {x3 : List Byte} (hs : State.Ok s) : State.Ok (State.rinkWrite s x1 x2 x3) :=
    by
  unfold State.rinkWrite
  exact (State.trail_ok (State.setRink_ok hs))
theorem State.putWrite_ok {s : State} {x1 : Nat} {x2 : Nat} {x3 : Nat} {x4 : List Byte} (hs : State.Ok s) : State.Ok (State.putWrite s x1
    x2 x3 x4) := by
  unfold State.putWrite
  exact (iteP (State.rinkWrite_ok hs) (State.memWriteNow_ok hs))
theorem State.applyPuts_ok {s : State} {x1 : Nat} {x2 : Nat} (hs : State.Ok s) : State.Ok (State.applyPuts s x1 x2) := by
  induction x2 generalizing s with
  | zero => exact hs
  | succ n ih =>
    unfold State.applyPuts
    split
    · exact hs
    · exact iteP hs (iteP (State.saturate_ok hs) (ih (State.devReleaseOpt_ok (State.addCc_ok (State.putWrite_ok (State.updCtx_ok hs))))))
theorem State.retryHeld_ok {s : State} (hs : State.Ok s) : State.Ok (State.retryHeld s) := by
  unfold State.retryHeld
  exact (State.applyPuts_ok (State.applyPuts_ok (foldl_ok (fun _ _ h2 => (iteP h2 (State.memWriteNow_ok (State.updSnap_ok h2)))) hs)))

/-! Queues. -/

theorem State.setPlace_ok {s : State} {x1 : Entrant} {x2 : Bool} (hs : State.Ok s) : State.Ok (State.setPlace s x1 x2) := by
  unfold State.setPlace
  exact (by
    split
    · exact (State.updStream_ok hs)
    · exact (State.Ok.upd hs))
theorem State.unplace_ok {s : State} {x1 : Nat} {x2 : Nat} (hs : State.Ok s) : State.Ok (State.unplace s x1 x2) := by
  unfold State.unplace
  exact (State.setPlace_ok hs)
theorem State.chEntered_ok {s : State} {x1 : Nat} (hs : State.Ok s) : State.Ok (State.chEntered s x1) := by
  unfold State.chEntered
  exact (State.queued_ok (State.updMem_ok hs))
theorem State.chRefuse_ok {s : State} {x1 : Nat} (hs : State.Ok s) : State.Ok (State.chRefuse s x1) := by
  unfold State.chRefuse
  exact (State.saturate_ok (State.addSat_ok hs))
theorem State.overflow_ok {s : State} {x1 : Nat} (hs : State.Ok s) : State.Ok (State.overflow s x1) := by
  unfold State.overflow
  exact (iteP hs (by
    dsimp -failIfUnchanged only
    split
    · exact hs
    · exact (State.chRefuse_ok (State.setPlace_ok hs))))
theorem State.promote_ok {s : State} (hs : State.Ok s) : State.Ok (State.promote s) := by
  unfold State.promote
  exact (foldl_ok (fun _ _ h1 => (iteP (State.chRefuse_ok h1) (State.chEntered_ok (State.setPlace_ok h1)))) hs)
theorem State.carry_ok {s : State} {x1 : Nat} {x2 : List Burst} (hs : State.Ok s) : State.Ok (State.carry s x1 x2) := by
  unfold State.carry
  exact (State.emit_ok (foldl_ok (fun _ _ h2 => (State.updMem_ok (iteP h2 (State.updMem_ok h2)))) hs))
theorem State.demand_ok {s : State} {x1 : Bool} {x2 : Nat} {x3 : Nat} (hs : State.Ok s) : State.Ok (State.demand s x1 x2 x3) := by
  unfold State.demand
  exact (foldl_ok (fun _ _ h1 => (State.carry_ok h1)) hs)
theorem State.readRanges_ok {s : State} {x1 : Nat} {x2 : List (Nat × Nat × Nat)} {x3 : Bool} (hs : State.Ok s) : State.Ok (State.readRanges
    s x1 x2 x3) := by
  unfold State.readRanges
  exact (foldl_ok (fun _ _ h1 => (cut (fun h2 => (iteP (State.demand_ok h2) h2)) (State.checkRead_ok h1))) hs)

/-! Standstill. -/

theorem State.standstill_ok {s : State} {x1 : Nat} (hs : State.Ok s) : State.Ok (State.standstill s x1) := by
  unfold State.standstill
  exact (iteP hs (iteP (State.setBit_ok hs) (State.Ok.upd (State.wr_ok (State.setBit_ok (State.setBit_ok hs))))))

/-! Store. -/

theorem State.mramMend_ok {s : State} {x1 : Nat} {x2 : Nat} (hs : State.Ok s) : State.Ok (State.mramMend s x1 x2) := by
  unfold State.mramMend
  exact (State.Ok.upd hs)
theorem State.setMram_ok {s : State} {x1 : Nat} {x2 : List Byte} (hs : State.Ok s) : State.Ok (State.setMram s x1 x2) := by
  unfold State.setMram
  exact (State.mramMend_ok (State.Ok.upd hs))
theorem State.eraseMram_ok {s : State} {x1 : Nat} {x2 : Nat} (hs : State.Ok s) : State.Ok (State.eraseMram s x1 x2) := by
  unfold State.eraseMram
  exact (State.mramMend_ok (State.Ok.upd hs))
theorem State.storeSettings_ok {s : State} (hs : State.Ok s) : State.Ok (State.storeSettings s) := by
  unfold State.storeSettings
  exact (State.wr_ok (State.setMram_ok hs))

/-! Teardown. -/

theorem State.setRecWord_ok {s : State} {x1 : Nat} {x2 : Nat} {x3 : Nat} {x4 : Nat} (hs : State.Ok s) : State.Ok (State.setRecWord s x1 x2
    x3 x4) := by
  unfold State.setRecWord
  exact (State.setGate_ok hs)
theorem State.cancelRecord_ok {s : State} {x1 : Nat} {x2 : Nat} (hs : State.Ok s) : State.Ok (State.cancelRecord s x1 x2) := by
  unfold State.cancelRecord
  exact (State.setRecWord_ok (State.setRecWord_ok hs))
theorem State.dropReturn_ok {s : State} {x1 : Nat} {x2 : Nat} (hs : State.Ok s) : State.Ok (State.dropReturn s x1 x2) := by
  unfold State.dropReturn
  exact (iteP hs (State.devRelease_ok hs))
theorem State.cancelRecords_ok {s : State} {x1 : Nat} {x2 : Bool} (hs : State.Ok s) : State.Ok (State.cancelRecords s x1 x2) := by
  unfold State.cancelRecords
  exact (foldl_ok (fun _ _ h1 => (foldl_ok (fun _ _ h2 => (cut (fun h3 => (iteP (State.dropReturn_ok h3) h3)) (State.cancelRecord_ok h2)))
      h1)) hs)
theorem State.freeRecords_ok {s : State} {x1 : Nat} (hs : State.Ok s) : State.Ok (State.freeRecords s x1) := by
  unfold State.freeRecords
  exact (foldl_ok (fun _ _ h1 => (foldl_ok (fun _ _ h2 => (State.setGate_ok h2)) h1)) hs)
theorem State.flushCc_go_ok {x0 : Nat} {x1 : Nat} {x2 : List Nat} {s : State} {x4 : List HeldCc} {x5 : List HeldCc} (hs : State.Ok s) :
    OkFst (State.flushCc.go x0 x1 x2 s x4 x5) := by
  induction x4 generalizing s x5 with
  | nil => exact hs
  | cons h l ih =>
    unfold State.flushCc.go
    split
    · exact ih hs
    · exact ih (iteP (State.writeCc_ok hs) (State.addCc_ok hs))
theorem State.flushCc_ok {s : State} {x1 : Nat} {x2 : Nat} (hs : State.Ok s) : State.Ok (State.flushCc s x1 x2) := by
  unfold State.flushCc
  exact (State.updStream_ok (OkFst.fst (State.flushCc_go_ok hs)))
theorem State.drainStream_ok {s : State} {x1 : Nat} {x2 : Nat} (hs : State.Ok s) : State.Ok (State.drainStream s x1 x2) := by
  unfold State.drainStream
  exact (State.flushCc_ok (State.updStream_ok (foldl_ok (fun _ _ h2 => (by
    split
    · exact (State.retireOp_ok (State.addCc_ok (State.copyEnds_ok h2)))
    · exact h2
    · exact (State.retireOp_ok h2))) hs)))
theorem State.stopStream_ok {s : State} {x1 : Nat} {x2 : Nat} (hs : State.Ok s) : State.Ok (State.stopStream s x1 x2) := by
  unfold State.stopStream
  exact (cut (fun h3 => (iteP h3 (State.setEngState_ok h3))) (State.setReg_ok (State.updStream_ok (State.drainStream_ok hs))))
theorem State.clearIntake_ok {s : State} {x1 : Nat} {x2 : Bool} (hs : State.Ok s) : State.Ok (State.clearIntake s x1 x2) := by
  unfold State.clearIntake
  exact (State.wr_ok (State.wr_ok (State.wr_ok (State.updGate_ok (foldl_ok (fun _ _ h4 => (State.devReleaseOpt_ok h4)) (foldl_ok (fun _ _
      h5 => (State.devRelease_ok h5)) hs))))))
theorem State.clearUsed_ok {s : State} {x1 : Nat} (hs : State.Ok s) : State.Ok (State.clearUsed s x1) := by
  unfold State.clearUsed
  exact (State.updGate_ok (foldl_ok (fun _ _ h2 => (State.setGate_ok h2)) hs))
theorem State.clearCnt_ok {s : State} {x1 : Nat} (hs : State.Ok s) : State.Ok (State.clearCnt s x1) := by
  unfold State.clearCnt
  exact (foldl_ok (fun _ _ h1 => (State.setReg_ok h1)) hs)
theorem State.endContribution_ok {s : State} {x1 : Contribution} (hs : State.Ok s) : State.Ok (State.endContribution s x1) := by
  unfold State.endContribution
  exact (cut (fun h1 => (by
    dsimp -failIfUnchanged only
    split
    · exact (State.returnCredits_ok h1)
    · exact h1)) (State.devReleaseOpt_ok hs))
theorem State.freeEntriesOf_ok {s : State} {x1 : Nat} (hs : State.Ok s) : State.Ok (State.freeEntriesOf s x1) := by
  unfold State.freeEntriesOf
  exact (State.setAdmits_ok (State.updCol_ok (foldl_ok (fun _ _ h3 => (State.endContribution_ok h3)) hs)))
theorem State.clearCol_ok {s : State} {x1 : Nat} (hs : State.Ok s) : State.Ok (State.clearCol s x1) := by
  unfold State.clearCol
  exact (foldl_ok (fun _ _ h1 => (State.setRelay_ok h1)) (State.freeEntriesOf_ok hs))
theorem State.stopWork_ok {s : State} {x1 : Nat} (hs : State.Ok s) : State.Ok (State.stopWork s x1) := by
  unfold State.stopWork
  exact (cut (fun h1 => (State.clearCnt_ok (State.clearCol_ok (foldl_ok (fun _ _ h6 => (State.clearUsed_ok (State.setBit_ok
      (State.setBit_ok (State.setBit_ok (State.wr_ok (State.updGate_ok (foldl_ok (fun _ _ h9 => (State.devRelease_ok h9)) h6))))))))
      (foldl_ok (fun _ _ h10 => (State.setGmu_ok h10)) (State.dropWaits_ok (foldl_ok (fun _ _ h11 => (State.stopStream_ok h11)) h1)))))))
      (State.updCtx_ok hs))
theorem State.cancelTrails_ok {s : State} {x1 : Nat} (hs : State.Ok s) : State.Ok (State.cancelTrails s x1) := by
  unfold State.cancelTrails
  exact (State.Ok.upd (foldl_ok (fun _ _ h2 => (iteP (State.addMod_ok (State.wr_ok (State.wr_ok h2))) h2)) hs))
theorem State.startCopyBack_ok {s : State} {x1 : Nat} (hs : State.Ok s) : State.Ok (State.startCopyBack s x1) := by
  unfold State.startCopyBack
  exact (State.addSat_ok (State.updCtx_ok (State.updSnap_ok (State.Ok.upd (State.updSnap_ok hs)))))
theorem State.cancelStep_ok {s : State} {x1 : Nat} (hs : State.Ok s) : State.Ok (State.cancelStep s x1) := by
  unfold State.cancelStep
  exact (by
    dsimp -failIfUnchanged only
    split
    · exact hs
    · exact (State.updCtx_ok (State.trace_ok (State.startCopyBack_ok (State.cancelTrails_ok (State.addCancel_ok (foldl_ok (fun _ _ h5 =>
        (State.clearIntake_ok h5)) (State.cancelRecords_ok (State.stopWork_ok hs)))))))))
theorem State.resetLedger_ok {s : State} {x1 : Nat} (hs : State.Ok s) : State.Ok (State.resetLedger s x1) := by
  unfold State.resetLedger
  exact (State.updGate_ok (State.Ok.with_gsram hs (twf_tclear _ _ _ _ (State.Ok.gsram hs))))
theorem State.markLowered_ok {s : State} {x1 : Nat} (hs : State.Ok s) : State.Ok (State.markLowered s x1) := by
  unfold State.markLowered
  exact (iteP (State.updLocker_ok hs) hs)
theorem State.applySetting_ok {s : State} {x1 : Nat} {x2 : Word} (hs : State.Ok s) : State.Ok (State.applySetting s x1 x2) := by
  unfold State.applySetting
  exact (cut (fun h1 => (by
    dsimp -failIfUnchanged only
    split
    · exact (State.resetLedger_ok h1)
    · exact h1)) (State.markLowered_ok (State.setReg_ok hs)))
theorem State.applyBits_ok {s : State} {x1 : Nat} {x2 : Word} {x3 : Word} (hs : State.Ok s) : State.Ok (State.applyBits s x1 x2 x3) := by
  unfold State.applyBits
  exact (State.applySetting_ok hs)
theorem State.applySettings_ok {s : State} {x1 : Nat} (hs : State.Ok s) : State.Ok (State.applySettings s x1) := by
  unfold State.applySettings
  exact (cut (fun h2 => (iteP (State.wr_ok (State.setBit_ok h2)) h2)) (foldl_ok (fun _ _ h3 => (State.applyBits_ok h3)) (State.updCtx_ok
      hs)))
theorem State.writeBits_ok {s : State} {x1 : Nat} {x2 : Nat} {x3 : Word} {x4 : Word} (hs : State.Ok s) : State.Ok (State.writeBits s x1 x2
    x3 x4) := by
  unfold State.writeBits
  exact (iteP (State.updCtx_ok hs) (State.applyBits_ok hs))
theorem State.writeSetting_ok {s : State} {x1 : Nat} {x2 : Nat} {x3 : Word} (hs : State.Ok s) : State.Ok (State.writeSetting s x1 x2 x3) :=
    by
  unfold State.writeSetting
  exact (State.writeBits_ok hs)
theorem State.dropHeldPuts_ok {s : State} {x1 : Nat} (hs : State.Ok s) : State.Ok (State.dropHeldPuts s x1) := by
  unfold State.dropHeldPuts
  exact (State.wr_ok (State.updCtx_ok (foldl_ok (fun _ _ h2 => (State.devReleaseOpt_ok h2)) hs)))
theorem State.dropDrain_ok {s : State} {x1 : Nat} (hs : State.Ok s) : State.Ok (State.dropDrain s x1) := by
  unfold State.dropDrain
  exact (State.updSnap_ok (State.wr_ok hs))
theorem State.clearRestore_ok {s : State} (hs : State.Ok s) : State.Ok (State.clearRestore s) := by
  unfold State.clearRestore
  exact (State.Ok.upd hs)
theorem State.dropRestore_ok {s : State} {x1 : Nat} (hs : State.Ok s) : State.Ok (State.dropRestore s x1) := by
  unfold State.dropRestore
  exact (iteP (State.wr_ok (State.clearRestore_ok hs)) hs)
theorem State.dropInjected_ok {s : State} {x1 : Nat} (hs : State.Ok s) : State.Ok (State.dropInjected s x1) := by
  unfold State.dropInjected
  exact (State.updRouter_ok hs)
theorem State.release_ok {s : State} {x1 : Nat} (hs : State.Ok s) : State.Ok (State.release s x1) := by
  unfold State.release
  exact (cut (fun h1 => (State.updCtx_ok (State.updSnap_ok (State.dropRestore_ok (State.dropDrain_ok (State.dropHeldPuts_ok (foldl_ok (fun
      _ _ h10 => (State.clearIntake_ok h10)) (foldl_ok (fun _ _ h11 => (State.updStream_ok h11)) (State.Ok.upd (State.dropWaits_ok
      (State.freeOwned_ok (State.dropInjected_ok (State.cancelRecords_ok h1))))))))))))) (State.stopWork_ok hs))
theorem State.teardown_ok {s : State} {x1 : Nat} {x2 : Nat} {x3 : Nat} (hs : State.Ok s) : State.Ok (State.teardown s x1 x2 x3) := by
  unfold State.teardown
  exact (iteP hs (cut (fun h3 => (iteP (State.standstill_ok h3) h3)) (State.applySettings_ok (State.trouble_ok (State.setCtxState_ok
      (State.report_ok (State.wr_ok (State.release_ok hs))))))))
theorem State.streamFault_ok {s : State} {x1 : Nat} {x2 : Nat} {x3 : Nat} {x4 : Nat} (hs : State.Ok s) : State.Ok (State.streamFault s x1
    x2 x3 x4) := by
  unfold State.streamFault
  exact (State.updCtx_ok (State.trace_ok (State.wr_ok (State.wr_ok (State.wr_ok (State.setEngState_ok hs))))))
theorem State.settleFaults_ok {s : State} (hs : State.Ok s) : State.Ok (State.settleFaults s) := by
  unfold State.settleFaults
  exact (foldl_ok (fun _ _ h1 => (by
    split
    · exact h1
    · exact (State.teardown_ok (State.updCtx_ok h1)))) hs)
theorem State.contextFault_ok {s : State} {x1 : Nat} {x2 : Nat} (hs : State.Ok s) : State.Ok (State.contextFault s x1 x2) := by
  unfold State.contextFault
  exact (State.teardown_ok hs)
theorem State.deviceFault_ok {s : State} {x1 : Nat} (hs : State.Ok s) : State.Ok (State.deviceFault s x1) := by
  unfold State.deviceFault
  exact (State.storeSettings_ok (State.Ok.upd (State.trouble_ok (State.report_ok (State.teardown_ok (State.teardown_ok hs))))))
theorem State.auditBreach_ok {s : State} {x1 : Nat} (hs : State.Ok s) : State.Ok (State.auditBreach s x1) := by
  unfold State.auditBreach
  exact (iteP (State.deviceFault_ok (iteP (State.wr_ok hs) hs)) (State.trouble_ok (State.wr_ok hs)))

/-! Operands. -/

theorem State.setS_ok {s : State} {x1 : Nat} {x2 : Nat} {x3 : Word} (hs : State.Ok s) : State.Ok (State.setS s x1 x2 x3) := by
  unfold State.setS
  exact (iteP hs (State.updStream_ok hs))
theorem State.setA_ok {s : State} {x1 : Nat} {x2 : Nat} {x3 : Word} (hs : State.Ok s) : State.Ok (State.setA s x1 x2 x3) := by
  unfold State.setA
  exact (State.updStream_ok hs)
theorem State.setP_ok {s : State} {x1 : Nat} {x2 : Nat} {x3 : Pred} (hs : State.Ok s) : State.Ok (State.setP s x1 x2 x3) := by
  unfold State.setP
  exact (iteP hs (State.updStream_ok hs))
theorem State.setV_ok {s : State} {x1 : Nat} {x2 : Nat} {x3 : Vec} (hs : State.Ok s) : State.Ok (State.setV s x1 x2 x3) := by
  unfold State.setV
  exact (State.updStream_ok hs)
theorem State.stall_ok {s : State} {x1 : Nat} (hs : State.Ok s) : State.Ok (State.stall s x1) := by
  unfold State.stall
  exact (State.addSat_ok hs)
theorem State.issueFault_ok {s : State} {x1 : Nat} {x2 : Nat × Nat} (hs : State.Ok s) : State.Ok (State.issueFault s x1 x2) := by
  unfold State.issueFault
  exact (State.streamFault_ok hs)
theorem State.preciseFault_ok {s : State} {x1 : Nat} {x2 : Nat × Nat} (hs : State.Ok s) : State.Ok (State.preciseFault s x1 x2) := by
  unfold State.preciseFault
  exact (iteP (State.issueFault_ok hs) (State.stall_ok hs))
theorem State.issue_ok {s : State} {x1 : Nat} {x2 : Nat} {x3 : Form} {x4 : List (Nat × Nat)} {x5 : State → State} (hs : State.Ok s) (g5 : ∀
    y0, State.Ok y0 → State.Ok (x5 y0)) : State.Ok (State.issue s x1 x2 x3 x4 x5) := by
  unfold State.issue
  exact (iteP hs (by
    split
    · exact (State.preciseFault_ok hs)
    · exact (iteP (State.retire_ok hs) (iteP (State.stall_ok (iteP (State.saturate_ok hs) hs)) (by
      split
      · exact (State.preciseFault_ok hs)
      · exact (g5 _ hs))))))
theorem State.beginOp_ok {s : State} {x1 : Nat} {x2 : MemKind} {x3 : Nat} {x4 : Nat} {x5 : optParam (Option Nat) Option.none} (hs :
    State.Ok s) : State.Ok (State.beginOp s x1 x2 x3 x4 x5) := by
  unfold State.beginOp
  exact (State.updStream_ok hs)
theorem State.startInstance_ok {s : State} {x1 : Nat} {x2 : Inst} (hs : State.Ok s) : State.Ok (State.startInstance s x1 x2) := by
  unfold State.startInstance
  exact (State.setEngState_ok (State.setReg_ok (State.wr_ok (State.wr_ok (State.updStream_ok hs)))))
theorem State.checkDone_ok {s : State} {x1 : Nat} (hs : State.Ok s) : State.Ok (State.checkDone s x1) := by
  unfold State.checkDone
  exact (by
    split
    · exact hs
    · exact (iteP (State.updCtx_ok hs) hs))
theorem State.endInstance_ok {s : State} {x1 : Nat} (hs : State.Ok s) : State.Ok (State.endInstance s x1) := by
  unfold State.endInstance
  exact (State.checkDone_ok (State.setEngState_ok (State.trace_ok (State.updStream_ok (State.addMod_ok (State.retire_ok hs))))))
theorem State.fenceDone_ok {s : State} {x1 : Nat} (hs : State.Ok s) : State.Ok (State.fenceDone s x1) := by
  unfold State.fenceDone
  exact (iteP (by
    split
    · exact (State.retire_ok (State.updStream_ok hs))
    · exact (State.endInstance_ok hs)
    · exact hs) hs)
theorem State.endOp_ok {s : State} {x1 : Nat} {x2 : Nat} (hs : State.Ok s) : State.Ok (State.endOp s x1 x2) := by
  unfold State.endOp
  exact (State.fenceDone_ok (State.flushCc_ok (State.updStream_ok (by
    split
    · exact (State.retireOp_ok hs)
    · exact hs))))

/-! Fabric. -/

theorem State.leave_ok {s : State} {x1 : QPkt} (hs : State.Ok s) : State.Ok (State.leave s x1) := by
  unfold State.leave
  exact (cut (fun h1 => (by
    dsimp -failIfUnchanged only
    split
    · exact (iteP (State.returnCredits_ok h1) h1)
    · exact h1)) (foldl_ok (fun _ _ h2 => (State.devRelease_ok h2)) (State.devReleaseOpt_ok hs)))
theorem State.startSend_ok {s : State} {x1 : Nat} {x2 : QPkt} (hs : State.Ok s) : State.Ok (State.startSend s x1 x2) := by
  unfold State.startSend
  exact (State.emit_ok (State.addMod_ok (State.updPort_ok hs)))
theorem State.chooseFlow_ok {s : State} {x1 : Nat} (hs : State.Ok s) : State.Ok (State.chooseFlow s x1) := by
  unfold State.chooseFlow
  exact (by
    dsimp -failIfUnchanged only
    split
    · exact (iteP (State.startSend_ok (State.setFlowQueue_ok hs)) hs)
    · exact hs)
theorem State.chooseOpen_ok {s : State} {x1 : Nat} (hs : State.Ok s) : State.Ok (State.chooseOpen s x1) := by
  unfold State.chooseOpen
  exact (by
    split
    · exact hs
    · exact (State.startSend_ok (State.updPort_ok hs)))
theorem State.chooseNext_ok {s : State} {x1 : Nat} (hs : State.Ok s) : State.Ok (State.chooseNext s x1) := by
  unfold State.chooseNext
  exact (iteP hs (iteP (State.chooseOpen_ok hs) (iteP (State.chooseFlow_ok hs) hs)))
theorem State.queuePort_ok {s : State} {x1 : Nat} {x2 : QPkt} (hs : State.Ok s) : State.Ok (State.queuePort s x1 x2) := by
  unfold State.queuePort
  exact (State.chooseNext_ok (State.updPort_ok hs))
theorem State.queueFlow_ok {s : State} {x1 : Nat} {x2 : Nat} {x3 : QPkt} (hs : State.Ok s) : State.Ok (State.queueFlow s x1 x2 x3) := by
  unfold State.queueFlow
  exact (State.chooseNext_ok (State.chooseNext_ok (State.setFlowQueue_ok hs)))
theorem State.poison_ok {s : State} {x1 : Nat} {x2 : Nat} (hs : State.Ok s) : State.Ok (State.poison s x1 x2) := by
  unfold State.poison
  exact (iteP (State.addCc_ok (State.updCtx_ok hs)) (iteP (State.contextFault_ok hs) hs))
theorem State.acceptPoison_ok {s : State} {x1 : Nat} {x2 : Packet} (hs : State.Ok s) : State.Ok (State.acceptPoison s x1 x2) := by
  unfold State.acceptPoison
  exact (iteP (State.poison_ok (State.addSat_ok hs)) hs)
theorem State.latePoison_ok {s : State} {x1 : Option Nat} {x2 : Packet} (hs : State.Ok s) : State.Ok (State.latePoison s x1 x2) := by
  unfold State.latePoison
  exact (by
    split
    · exact hs
    · exact (iteP (State.contextFault_ok hs) hs))
theorem State.rspAccept_ok {s : State} {x1 : Packet} (hs : State.Ok s) : State.Ok (State.rspAccept s x1) := by
  unfold State.rspAccept
  exact (cut (fun h1 => (by
    dsimp -failIfUnchanged only
    split
    · exact (State.report_ok (State.lapFlag_ok (State.addSat_ok h1)))
    · exact (cut (fun h2 => (iteP (State.streamFault_ok h2) (State.endOp_ok (iteP (State.updStream_ok (State.setS_ok h2)) h2))))
        (State.acceptPoison_ok (State.Ok.upd h1))))) (iteP (State.addSat_ok hs) hs))
theorem State.setAgg_ok {s : State} {x1 : Nat} {x2 : Option Agg} (hs : State.Ok s) : State.Ok (State.setAgg s x1 x2) := by
  unfold State.setAgg
  exact (State.updRouter_ok hs)
theorem State.queueAgg_ok {s : State} {x1 : Nat} {x2 : Nat} {x3 : Nat} {x4 : Nat} (hs : State.Ok s) : State.Ok (State.queueAgg s x1 x2 x3
    x4) := by
  unfold State.queueAgg
  exact (State.updPort_ok hs)
theorem State.aggRoot_ok {s : State} {x1 : Nat} {x2 : Nat} {x3 : Nat} {x4 : Nat} {x5 : Nat} (hs : State.Ok s) : State.Ok (State.aggRoot s
    x1 x2 x3 x4 x5) := by
  unfold State.aggRoot
  exact (iteP (State.addCc_ok (State.addCc_ok hs)) hs)
theorem State.closeAgg_ok {s : State} {x1 : Nat} (hs : State.Ok s) : State.Ok (State.closeAgg s x1) := by
  unfold State.closeAgg
  exact (by
    dsimp -failIfUnchanged only
    split
    · exact hs
    · exact (iteP hs (cut (fun h1 => (by
      split
      · exact (State.queueAgg_ok h1)
      · exact (State.aggRoot_ok (iteP (State.auditBreach_ok h1) h1)))) (State.setAgg_ok hs))))
theorem State.aggLocal_ok {s : State} {x1 : Packet} {x2 : Bool} (hs : State.Ok s) : State.Ok (State.aggLocal s x1 x2) := by
  unfold State.aggLocal
  exact (iteP (by
    split
    · exact hs
    · exact (State.closeAgg_ok (State.setAgg_ok hs))) hs)
theorem State.fabReport_ok {s : State} {x1 : Nat} {x2 : Nat} (hs : State.Ok s) : State.Ok (State.fabReport s x1 x2) := by
  unfold State.fabReport
  exact (State.report_ok hs)
theorem State.countPruned_ok {s : State} {x1 : Nat} (hs : State.Ok s) : State.Ok (State.countPruned s x1) := by
  unfold State.countPruned
  exact (State.addSat_ok hs)
theorem State.countNoPath_ok {s : State} {x1 : Nat} (hs : State.Ok s) : State.Ok (State.countNoPath s x1) := by
  unfold State.countNoPath
  exact (cut (fun h1 => (iteP h1 (State.fabReport_ok (State.updRouter_ok h1)))) (State.addSat_ok hs))
theorem State.dropHops_ok {s : State} {x1 : QPkt} (hs : State.Ok s) : State.Ok (State.dropHops s x1) := by
  unfold State.dropHops
  exact (State.fabReport_ok (State.addSat_ok (State.leave_ok hs)))
theorem State.forwardOnly_ok {s : State} {x1 : QPkt} {x2 : Option Nat} {x3 : Nat} (hs : State.Ok s) : State.Ok (State.forwardOnly s x1 x2
    x3) := by
  unfold State.forwardOnly
  exact (by
    split
    · exact (State.leave_ok hs)
    · exact (State.queuePort_ok hs)
    · exact (State.queueFlow_ok hs)
    · exact (State.countPruned_ok (State.leave_ok hs))
    · exact (State.countNoPath_ok (State.countPruned_ok (State.leave_ok hs)))
    · exact (State.dropHops_ok hs))
theorem State.sendRsp_ok {s : State} {x1 : QPkt} {x2 : Packet} (hs : State.Ok s) : State.Ok (State.sendRsp s x1 x2) := by
  unfold State.sendRsp
  exact (iteP (State.rspAccept_ok (State.leave_ok hs)) (iteP (State.fabReport_ok (State.leave_ok hs)) (State.forwardOnly_ok hs)))
theorem State.prunePacket_ok {s : State} {x1 : QPkt} (hs : State.Ok s) : State.Ok (State.prunePacket s x1) := by
  unfold State.prunePacket
  exact (cut (fun h1 => (iteP (State.sendRsp_ok h1) (cut (fun h2 => (iteP (by
    split
    · exact (State.queueAgg_ok h2)
    · exact h2) h2)) (State.leave_ok h1)))) (State.countPruned_ok hs))
theorem State.forward_ok {s : State} {x1 : QPkt} {x2 : Option Nat} (hs : State.Ok s) : State.Ok (State.forward s x1 x2) := by
  unfold State.forward
  exact (by
    split
    · exact (State.prunePacket_ok hs)
    · exact (State.countNoPath_ok (State.prunePacket_ok hs))
    · exact (State.forwardOnly_ok hs))
theorem State.nextSeq_ok {s : State} {x1 : Nat} (hs : State.Ok s) : OkSnd (State.nextSeq s x1) := by
  unfold State.nextSeq
  exact (OkSnd.mk (State.updRouter_ok hs))
theorem State.inject_ok {s : State} {x1 : Nat} {x2 : Packet} (hs : State.Ok s) : State.Ok (State.inject s x1 x2) := by
  unfold State.inject
  exact (iteP (State.prunePacket_ok hs) (iteP (State.forward_ok hs) (iteP (State.contextFault_ok hs) (State.fabReport_ok hs))))
theorem State.sendCopy_ok {s : State} {x1 : QPkt} {x2 : Option Nat} {x3 : Nat} (hs : State.Ok s) : State.Ok (State.sendCopy s x1 x2 x3) :=
    by
  unfold State.sendCopy
  exact (iteP (State.queueFlow_ok hs) (by
    dsimp -failIfUnchanged only
    split
    · exact (State.queuePort_ok hs)
    · exact hs))
theorem State.countLost_ok {s : State} {x1 : Nat} {x2 : Nat} {x3 : Hop} (hs : State.Ok s) : State.Ok (State.countLost s x1 x2 x3) := by
  unfold State.countLost
  exact (by
    split
    · exact (State.fabReport_ok (State.addSat_ok hs))
    · exact (State.countNoPath_ok (State.countPruned_ok hs))
    · exact (State.countPruned_ok hs))
theorem State.replicate_ok {s : State} {x1 : QPkt} {x2 : Option Nat} {x3 : Nat} (hs : State.Ok s) : State.Ok (State.replicate s x1 x2 x3)
    := by
  unfold State.replicate
  exact (cut (fun h1 => (State.closeAgg_ok (foldl_ok (fun _ _ h5 => (State.sendCopy_ok h5)) (foldl_ok (fun _ _ h6 => (State.countLost_ok
      h6)) (iteP (State.setAgg_ok h1) h1))))) (by
    dsimp -failIfUnchanged only
    split
    · exact (State.setBuf_ok hs)
    · exact hs))
theorem State.originateTree_ok {s : State} {x1 : Nat} {x2 : Packet} (hs : State.Ok s) : State.Ok (State.originateTree s x1 x2) := by
  unfold State.originateTree
  exact (iteP (cut (fun h1 => (iteP (State.aggRoot_ok h1) h1)) (State.countPruned_ok hs)) (iteP (State.fabReport_ok (State.addSat_ok hs))
      (iteP (iteP (State.contextFault_ok hs) (State.fabReport_ok hs)) (iteP (iteP (State.contextFault_ok hs) (State.fabReport_ok hs))
      (State.replicate_ok hs)))))
theorem State.countRx_ok {s : State} {x1 : Nat} {x2 : Packet} (hs : State.Ok s) : State.Ok (State.countRx s x1 x2) := by
  unfold State.countRx
  exact (State.addMod_ok (State.updPort_ok hs))
theorem State.ecrcFail_ok {s : State} {x1 : QPkt} (hs : State.Ok s) : State.Ok (State.ecrcFail s x1) := by
  unfold State.ecrcFail
  exact (State.aggLocal_ok (State.fabReport_ok (State.addSat_ok (State.leave_ok hs))))
theorem State.deliverLocal_ok {s : State} {x1 : QPkt} {x2 : State → QPkt → State} (hs : State.Ok s) (g2 : ∀ y0 y1, State.Ok y0 → State.Ok
    (x2 y0 y1)) : State.Ok (State.deliverLocal s x1 x2) := by
  unfold State.deliverLocal
  exact (iteP (g2 _ _ hs) (State.ecrcFail_ok hs))
theorem State.drawIngress_ok {s : State} {x1 : QPkt} {x2 : Nat} {x3 : State → QPkt → State} (hs : State.Ok s) (g3 : ∀ y0 y1, State.Ok y0 →
    State.Ok (x3 y0 y1)) : State.Ok (State.drawIngress s x1 x2 x3) := by
  unfold State.drawIngress
  exact (by
    split
    · exact (State.noQuota_ok (State.leave_ok hs))
    · rename_i q1; exact (g3 _ _ ((State.ingressTake_ok hs) _ q1)))
theorem State.receive_ok {s : State} {x1 : Nat} {x2 : Packet} {x3 : Bool} {x4 : State → QPkt → State} (hs : State.Ok s) (g4 : ∀ y0 y1,
    State.Ok y0 → State.Ok (x4 y0 y1)) : State.Ok (State.receive s x1 x2 x3 x4) := by
  unfold State.receive
  exact (iteP (State.deliverLocal_ok hs g4) (iteP hs (cut (fun h1 => (iteP (State.prunePacket_ok h1) (iteP (iteP (State.dropHops_ok h1)
      (iteP (iteP (State.drawIngress_ok h1 (fun _ _ h2 => (State.deliverLocal_ok h2 g4))) (State.deliverLocal_ok h1 g4))
      (State.drawIngress_ok h1 (fun _ _ h3 => (State.forward_ok h3))))) (iteP (iteP (State.fabReport_ok (State.addSat_ok (State.leave_ok
      h1))) (iteP (State.fabReport_ok (State.leave_ok h1)) (State.drawIngress_ok h1 (fun _ _ h4 => (iteP (State.leave_ok h4) (cut (fun h5
      => (iteP (State.deliverLocal_ok h5 g4) (by
    dsimp -failIfUnchanged only
    split
    · exact (iteP (State.leave_ok (State.setBuf_ok h5)) h5)
    · exact h5))) (State.replicate_ok h4))))))) (State.leave_ok h1))))) (State.countRx_ok hs))))
theorem State.consumed_ok {s : State} {x1 : QPkt} (hs : State.Ok s) : State.Ok (State.consumed s x1) := by
  unfold State.consumed
  exact (State.leave_ok hs)

/-! Groups. -/

theorem State.sendGroup_ok {s : State} {x1 : Nat} {x2 : List Byte} {x3 : List Word} (hs : State.Ok s) : State.Ok (State.sendGroup s x1 x2
    x3) := by
  unfold State.sendGroup
  exact (State.emit_ok (State.updPort_ok hs))
theorem State.sendHello_ok {s : State} {x1 : Nat} (hs : State.Ok s) : State.Ok (State.sendHello s x1) := by
  unfold State.sendHello
  exact (iteP hs (State.sendGroup_ok (State.updPort_ok hs)))
theorem State.closeGroup_ok {s : State} {x1 : Nat} (hs : State.Ok s) : State.Ok (State.closeGroup s x1) := by
  unfold State.closeGroup
  exact State.addMod_ok (State.sendGroup_ok (State.setPort_ok hs))
theorem State.closeIdle_ok {s : State} {x1 : Nat} (hs : State.Ok s) : State.Ok (State.closeIdle s x1) := by
  unfold State.closeIdle
  exact (State.closeGroup_ok (State.updPort_ok hs))
theorem State.lcfDue_ok {s : State} {x1 : Nat} {x2 : Nat} {x3 : List Word} (hs : State.Ok s) : State.Ok (State.lcfDue s x1 x2 x3) := by
  unfold State.lcfDue
  exact (State.updPort_ok hs)
theorem State.idleLink_ok {s : State} {x1 : Nat} (hs : State.Ok s) : State.Ok (State.idleLink s x1) := by
  unfold State.idleLink
  exact (iteP (State.closeIdle_ok hs) hs)
theorem State.endReplay_ok {s : State} {x1 : Nat} (hs : State.Ok s) : State.Ok (State.endReplay s x1) := by
  unfold State.endReplay
  exact (by
    split
    · exact (iteP (State.chooseNext_ok (State.updPort_ok hs)) hs)
    · exact hs)
theorem State.linkClk_ok {s : State} {x1 : Nat} (hs : State.Ok s) : State.Ok (State.linkClk s x1) := by
  unfold State.linkClk
  exact (State.idleLink_ok (State.endReplay_ok hs))
theorem State.formPacket_ok {s : State} {x1 : Nat} {x2 : Packet} (hs : State.Ok s) : State.Ok (State.formPacket s x1 x2) := by
  unfold State.formPacket loopN
  exact foldl_ok (fun _ _ h => State.closeGroup_ok h) (State.updPort_ok hs)
theorem execPacketLastFlitSent_ok {x0 : Fin 12} {s : State} (hs : State.Ok s) : OkOut (execPacketLastFlitSent x0 s) := by
  unfold execPacketLastFlitSent
  exact (State.live_ok hs (OkOut.next (by
    split
    · exact hs
    · exact (State.chooseNext_ok (State.formPacket_ok (State.leave_ok (State.updPort_ok hs)))))))
theorem State.takeAck_ok {s : State} {x1 : Nat} {x2 : Nat} (hs : State.Ok s) : State.Ok (State.takeAck s x1 x2) := by
  unfold State.takeAck
  exact (State.updPort_ok hs)
theorem State.takeCredits_ok {s : State} {x1 : Nat} {x2 : Lcf} (hs : State.Ok s) : State.Ok (State.takeCredits s x1 x2) := by
  unfold State.takeCredits
  exact (State.updPort_ok hs)
theorem State.replayGroups_ok {s : State} {x1 : Nat} (hs : State.Ok s) : State.Ok (State.replayGroups s x1) := by
  unfold State.replayGroups
  exact (iteP hs (foldl_ok (fun _ _ h3 => (State.emit_ok h3)) (State.lapFlag_ok (State.repeatEvent_ok (State.addSat_ok (State.updPort_ok
      hs))))))
theorem State.countFec_ok {s : State} {x1 : Nat} {x2 : LcfGroup} (hs : State.Ok s) : State.Ok (State.countFec s x1 x2) := by
  unfold State.countFec
  exact (State.addSat_ok (State.addSat_ok hs))
theorem State.takeGroup_ok {s : State} {x1 : Nat} {x2 : LcfGroup} {x3 : State → State} (hs : State.Ok s) (g3 : ∀ y0, State.Ok y0 → State.Ok
    (x3 y0)) : State.Ok (State.takeGroup s x1 x2 x3) := by
  unfold State.takeGroup
  exact (iteP hs (cut (fun h1 => (iteP (State.chooseNext_ok (g3 _ (State.takeCredits_ok (State.takeAck_ok (State.updPort_ok h1))))) (iteP
      h1 (State.lcfDue_ok (State.updPort_ok h1))))) (State.countFec_ok hs)))
theorem State.aggRecord_ok {s : State} {x1 : Nat} {x2 : Nat} (hs : State.Ok s) : State.Ok (State.aggRecord s x1 x2) := by
  unfold State.aggRecord
  exact (iteP hs (by
    split
    · exact hs
    · exact (State.closeAgg_ok (State.setAgg_ok hs))))
theorem State.takeRecords_ok {s : State} {x1 : Nat} {x2 : Lcf} (hs : State.Ok s) : State.Ok (State.takeRecords s x1 x2) := by
  unfold State.takeRecords
  exact (State.aggRecord_ok (State.aggRecord_ok hs))

/-! Links. -/

theorem State.refreshFab_ok {s : State} (hs : State.Ok s) : State.Ok (State.refreshFab s) := by
  unfold State.refreshFab
  exact (foldl_ok (fun _ _ h6 => (iteP h6 (State.fabReport_ok (State.updRouter_ok h6)))) (State.updRouter_ok (State.wr_ok (State.wr_ok
      (State.wr_ok (State.wr_ok hs))))))
theorem State.setPortState_ok {s : State} {x1 : Nat} {x2 : Nat} (hs : State.Ok s) : State.Ok (State.setPortState s x1 x2) := by
  unfold State.setPortState
  exact (cut (fun h1 => (State.refreshFab_ok (iteP h1 (State.setBit_ok h1)))) (State.wr_ok hs))
theorem State.portReport_ok {s : State} {x1 : Nat} {x2 : Nat} (hs : State.Ok s) : State.Ok (State.portReport s x1 x2) := by
  unfold State.portReport
  exact (State.report_ok (State.wr_ok hs))
theorem State.requeue_ok {s : State} {x1 : Nat} {x2 : List QPkt} (hs : State.Ok s) : State.Ok (State.requeue s x1 x2) := by
  unfold State.requeue
  exact (foldl_ok (fun _ _ h1 => (iteP (State.setFlowQueue_ok h1) (State.updPort_ok h1))) hs)
theorem State.resend_ok {s : State} {x1 : Nat} {x2 : Nat} {x3 : Nat} (hs : State.Ok s) : State.Ok (State.resend s x1 x2 x3) := by
  unfold State.resend
  exact (by
    dsimp -failIfUnchanged only
    split
    · exact hs
    · exact (cut (fun h1 => (State.chooseNext_ok (State.requeue_ok (iteP h1 (foldl_ok (fun _ _ h3 => (State.updPort_ok h3))
        (State.updPort_ok h1)))))) (State.updPort_ok hs)))
theorem State.startTells_ok {s : State} {x1 : Nat} (hs : State.Ok s) : State.Ok (State.startTells s x1) := by
  unfold State.startTells
  exact (foldl_ok (fun _ _ h1 => (by
    dsimp -failIfUnchanged only
    split
    · exact h1
    · exact (cut (fun h2 => (by
      split
      · exact (State.resend_ok h2)
      · exact h2)) (iteP h1 (State.updPort_ok h1))))) hs)
theorem State.moveAgg_ok {s : State} {x1 : Nat} (hs : State.Ok s) : State.Ok (State.moveAgg s x1) := by
  unfold State.moveAgg
  exact (iteP (foldl_ok (fun _ _ h1 => (State.queueAgg_ok h1)) (State.updPort_ok hs)) hs)
theorem State.stopSending_ok {s : State} {x1 : Nat} (hs : State.Ok s) : State.Ok (State.stopSending s x1) := by
  unfold State.stopSending
  exact (by
    split
    · exact hs
    · exact (State.requeue_ok (State.updPort_ok hs)))
theorem State.quitLink_ok {s : State} {x1 : Nat} (hs : State.Ok s) : State.Ok (State.quitLink s x1) := by
  unfold State.quitLink
  exact (iteP hs (State.updPort_ok (State.stopSending_ok hs)))
theorem State.partnerTakes_ok {s : State} {x1 : Nat} (hs : State.Ok s) : State.Ok (State.partnerTakes s x1) := by
  unfold State.partnerTakes
  exact (cut (fun h2 => (iteP (State.startTells_ok h2) h2)) (State.moveAgg_ok (State.updRouter_ok hs)))
theorem State.joinService_ok {s : State} {x1 : Nat} (hs : State.Ok s) : State.Ok (State.joinService s x1) := by
  unfold State.joinService
  exact (State.chooseNext_ok (State.startTells_ok (State.moveAgg_ok (iteP hs (State.updRouter_ok hs)))))
theorem State.enterTrain_ok {s : State} {x1 : Nat} (hs : State.Ok s) : State.Ok (State.enterTrain s x1) := by
  unfold State.enterTrain
  exact (State.setPortState_ok (State.wr_ok (State.setPort_ok hs)))
theorem execPortEnable_ok {x0 : Fin 12} {x1 : Word} {s : State} (hs : State.Ok s) : OkOut (execPortEnable x0 x1 s) := by
  unfold execPortEnable
  exact (State.live_ok hs (OkOut.next (iteP (State.fabReport_ok hs) (cut (fun h1 => (iteP (State.enterTrain_ok h1) h1)) (State.setReg_ok
      hs)))))
theorem State.portDown_ok {s : State} {x1 : Nat} (hs : State.Ok s) : State.Ok (State.portDown s x1) := by
  unfold State.portDown
  exact (cut (fun h1 => (iteP h1 (cut (fun h2 => (iteP (State.partnerTakes_ok h2) h2)) (State.setPortState_ok (State.wr_ok
      (State.quitLink_ok h1)))))) (State.setBit_ok hs))
theorem execPortDisable_ok {x0 : Fin 12} {x1 : Word} {s : State} (hs : State.Ok s) : OkOut (execPortDisable x0 x1 s) := by
  unfold execPortDisable
  exact (State.live_ok hs (OkOut.next (State.portDown_ok hs)))
theorem execPortTrainingDone_ok {x0 : Fin 12} {s : State} (hs : State.Ok s) : OkOut (execPortTrainingDone x0 s) := by
  unfold execPortTrainingDone
  exact (State.live_ok hs (OkOut.next (iteP (State.sendHello_ok (State.setPortState_ok (State.wr_ok hs))) hs)))
theorem State.portFail_ok {s : State} {x1 : Nat} {x2 : Nat} (hs : State.Ok s) : State.Ok (State.portFail s x1 x2) := by
  unfold State.portFail
  exact (State.partnerTakes_ok (State.portReport_ok (State.setPortState_ok (State.quitLink_ok hs))))
theorem execPortTrainTimeout_ok {x0 : Fin 12} {x1 : BitVec 3} {s : State} (hs : State.Ok s) : OkOut (execPortTrainTimeout x0 x1 s) := by
  unfold execPortTrainTimeout
  exact (State.live_ok hs (OkOut.next (iteP (State.portFail_ok (State.wr_ok hs)) hs)))
theorem State.helloAdvance_ok {s : State} {x1 : Nat} (hs : State.Ok s) : State.Ok (State.helloAdvance s x1) := by
  unfold State.helloAdvance
  exact (iteP hs (by
    dsimp -failIfUnchanged only
    split
    · exact hs
    · exact (iteP (iteP (State.portReport_ok hs) hs) (iteP hs (iteP (State.portFail_ok hs) (cut (fun h2 => (iteP (cut (fun h4 => (iteP
        (State.joinService_ok (State.setPortState_ok h4)) (State.joinService_ok (State.portReport_ok (State.setPortState_ok h4)))))
        (State.setBit_ok (State.updPort_ok h2))) (State.setPortState_ok h2))) (State.wr_ok (State.wr_ok hs))))))))
theorem execHelloRx_ok {x0 : Fin 12} {x1 : HelloArrival} {s : State} (hs : State.Ok s) : OkOut (execHelloRx x0 x1 s) := by
  unfold execHelloRx
  exact (State.live_ok hs (OkOut.next (iteP (State.helloAdvance_ok (State.sendHello_ok (State.updPort_ok (State.wr_ok (State.wr_ok
      (State.wr_ok (State.wr_ok (State.countFec_ok hs)))))))) hs)))
theorem execHelloRecheck_ok {x0 : Fin 12} {s : State} (hs : State.Ok s) : OkOut (execHelloRecheck x0 s) := by
  unfold execHelloRecheck
  exact (State.live_ok hs (OkOut.next (iteP (State.helloAdvance_ok (State.sendHello_ok hs)) hs)))
theorem execLcfGroupRx_ok {x0 : Fin 12} {x1 : LcfGroup} {s : State} (hs : State.Ok s) : OkOut (execLcfGroupRx x0 x1 s) := by
  unfold execLcfGroupRx
  exact (State.live_ok hs (OkOut.next (iteP hs (State.takeGroup_ok hs (fun _ h1 => (iteP (State.takeRecords_ok h1) h1))))))
theorem State.takeNak_ok {s : State} {x1 : Nat} {x2 : Nat} (hs : State.Ok s) : State.Ok (State.takeNak s x1 x2) := by
  unfold State.takeNak
  exact (cut (fun h1 => (iteP (State.portFail_ok h1) (State.replayGroups_ok h1))) (State.updPort_ok hs))
theorem execNakRx_ok {x0 : Fin 12} {x1 : LcfGroup} {s : State} (hs : State.Ok s) : OkOut (execNakRx x0 x1 s) := by
  unfold execNakRx
  exact (State.live_ok hs (OkOut.next (iteP hs (State.takeGroup_ok hs (fun _ h1 => (State.takeNak_ok (State.takeRecords_ok h1)))))))
theorem execRetryTimeout_ok {x0 : Fin 12} {s : State} (hs : State.Ok s) : OkOut (execRetryTimeout x0 s) := by
  unfold execRetryTimeout
  exact (State.live_ok hs (OkOut.next (iteP (State.replayGroups_ok hs) hs)))
theorem State.laneFail_ok {s : State} {x1 : Nat} {x2 : Nat} (hs : State.Ok s) : State.Ok (State.laneFail s x1 x2) := by
  unfold State.laneFail
  exact (iteP (State.portFail_ok (State.wr_ok hs)) hs)
theorem execLaneLockLoss_ok {x0 : Fin 12} {x1 : BitVec 3} {s : State} (hs : State.Ok s) : OkOut (execLaneLockLoss x0 x1 s) := by
  unfold execLaneLockLoss
  exact (State.live_ok hs (OkOut.next (State.laneFail_ok (State.wr_ok hs))))
theorem execLaneCodewordLimit_ok {x0 : Fin 12} {x1 : BitVec 3} {s : State} (hs : State.Ok s) : OkOut (execLaneCodewordLimit x0 x1 s) := by
  unfold execLaneCodewordLimit
  exact (State.live_ok hs (OkOut.next (State.laneFail_ok hs)))
theorem State.takeDelivered_ok {s : State} {x1 : Nat} {x2 : Nat} {x3 : Nat} (hs : State.Ok s) : State.Ok (State.takeDelivered s x1 x2 x3)
    := by
  unfold State.takeDelivered
  exact (iteP (State.resend_ok hs) (iteP (State.updPort_ok hs) hs))
theorem execFailoverHelloRx_ok {x0 : Fin 12} {x1 : LcfGroup} {s : State} (hs : State.Ok s) : OkOut (execFailoverHelloRx x0 x1 s) := by
  unfold execFailoverHelloRx
  exact (State.live_ok hs (OkOut.next (iteP hs (State.takeGroup_ok hs (fun _ h1 => (iteP (State.takeDelivered_ok h1) h1))))))
theorem execHeartbeatSend_ok {x0 : Fin 12} {s : State} (hs : State.Ok s) : OkOut (execHeartbeatSend x0 s) := by
  unfold execHeartbeatSend
  exact (State.live_ok hs (OkOut.next (iteP hs (State.queuePort_ok (State.updPort_ok hs)))))
theorem execHeartbeatRx_ok {x0 : Fin 12} {x1 : Packet} {s : State} (hs : State.Ok s) : OkOut (execHeartbeatRx x0 x1 s) := by
  unfold execHeartbeatRx
  exact (State.live_ok hs (OkOut.next (State.receive_ok hs (fun _ _ h1 => (cut (fun h4 => (State.leave_ok (iteP h4 (State.portReport_ok
      h4)))) (State.updPort_ok (State.wr_ok (State.wr_ok (iteP (State.auditBreach_ok h1) h1)))))))))
theorem execHeartbeatLoss_ok {x0 : Fin 12} {s : State} (hs : State.Ok s) : OkOut (execHeartbeatLoss x0 s) := by
  unfold execHeartbeatLoss
  exact (State.live_ok hs (OkOut.next (iteP (State.portReport_ok (State.setBit_ok hs)) hs)))
theorem execCtlDataRx_ok {x0 : Fin 13} {x1 : Packet} {s : State} (hs : State.Ok s) : OkOut (execCtlDataRx x0 x1 s) := by
  unfold execCtlDataRx
  exact (State.live_ok hs (OkOut.next (iteP hs (State.receive_ok hs (fun _ _ h1 => (by
    split
    · exact (State.acceptPoison_ok (State.aggLocal_ok (State.addCc_ok (State.leave_ok h1))))
    · exact (State.aggLocal_ok (State.report_ok (State.lapFlag_ok (State.addSat_ok (State.leave_ok h1)))))))))))
theorem State.pruneQueued_ok {s : State} {x1 : Nat} {x2 : QPkt} (hs : State.Ok s) : State.Ok (State.pruneQueued s x1 x2) := by
  unfold State.pruneQueued
  exact (iteP (cut (fun h1 => (by
    dsimp -failIfUnchanged only
    split
    · exact h1
    · exact (State.closeAgg_ok (State.setAgg_ok h1)))) (State.countPruned_ok (State.leave_ok hs))) (State.prunePacket_ok hs))
theorem State.purgeDir_ok {s : State} {x1 : Nat} (hs : State.Ok s) : State.Ok (State.purgeDir s x1) := by
  unfold State.purgeDir
  exact (iteP (foldl_ok (fun _ _ h2 => (foldl_ok (fun _ _ h3 => (State.pruneQueued_ok h3)) (State.setFlowQueue_ok h2))) (foldl_ok (fun _ _
      h4 => (foldl_ok (fun _ _ h7 => (State.pruneQueued_ok h7)) (State.setBit_ok (State.setBit_ok (State.updPort_ok h4))))) hs)) (foldl_ok
      (fun _ _ h8 => (State.setBit_ok (State.setBit_ok h8))) hs))
theorem State.fenceChanged_ok {s : State} (hs : State.Ok s) : State.Ok (State.fenceChanged s) := by
  unfold State.fenceChanged
  exact (foldl_ok (fun _ _ h1 => (State.purgeDir_ok h1)) (State.setBit_ok hs))
theorem State.fenceClk_ok {s : State} (hs : State.Ok s) : State.Ok (State.fenceClk s) := by
  unfold State.fenceClk
  exact (iteP hs (State.fenceChanged_ok (State.updRouter_ok hs)))
theorem State.setFenceReg_ok {s : State} {x1 : Nat} {x2 : Word} (hs : State.Ok s) : State.Ok (State.setFenceReg s x1 x2) := by
  unfold State.setFenceReg
  exact (State.setReg_ok (State.updRouter_ok hs))
theorem State.setFence_ok {s : State} {x1 : Nat} {x2 : Bool} (hs : State.Ok s) : State.Ok (State.setFence s x1 x2) := by
  unfold State.setFence
  exact (State.setFenceReg_ok hs)
theorem execFenceRx_ok {x0 : Fin 12} {x1 : Packet} {s : State} (hs : State.Ok s) : OkOut (execFenceRx x0 x1 s) := by
  unfold execFenceRx
  exact (State.live_ok hs (cut (fun h1 => (OkOut.next (iteP hs (iteP h1 (State.wr_ok (foldl_ok (fun _ _ h3 => (State.setFence_ok h3))
      h1)))))) (State.receive_ok hs (fun _ _ h4 => (State.aggLocal_ok (State.leave_ok h4))))))
theorem execFenceTableWrite_ok {x0 : BitVec 8} {x1 : Word} {s : State} (hs : State.Ok s) : OkOut (execFenceTableWrite x0 x1 s) := by
  unfold execFenceTableWrite
  exact (State.live_ok hs (OkOut.next (State.setFenceReg_ok hs)))
theorem execMgroupWrite_ok {x0 : BitVec 12} {s : State} (hs : State.Ok s) : OkOut (execMgroupWrite x0 s) := by
  unfold execMgroupWrite
  exact (State.live_ok hs (cut (fun h1 => (OkOut.next (iteP (State.fabReport_ok h1) (State.updRouter_ok (iteP (State.addSat_ok
      (State.setAgg_ok h1)) h1))))) (State.wr_ok hs)))
theorem execMgroupRead_ok {x0 : BitVec 12} {s : State} (hs : State.Ok s) : OkOut (execMgroupRead x0 s) := by
  unfold execMgroupRead
  exact (State.live_ok hs (OkOut.next (foldl_ok (fun _ _ h2 => (State.wr_ok h2)) (State.wr_ok hs))))
theorem execFabCfgWrite_ok {x0 : Word} {s : State} (hs : State.Ok s) : OkOut (execFabCfgWrite x0 s) := by
  unfold execFabCfgWrite
  exact (State.live_ok hs (OkOut.next (iteP (State.fabReport_ok hs) (State.fenceChanged_ok (State.setReg_ok hs)))))

/-! Remote. -/

theorem State.enterReq_ok {s : State} {x1 : Request} (hs : State.Ok s) : State.Ok (State.enterReq s x1) := by
  unfold State.enterReq
  exact (cut (fun h1 => (iteP (State.saturate_ok h1) (State.chEntered_ok (State.overflow_ok h1)))) (State.Ok.upd hs))
theorem State.remoteIssue_ok {s : State} {x1 : Nat} {x2 : Nat} {x3 : RemoteOp} (hs : State.Ok s) : State.Ok (State.remoteIssue s x1 x2 x3)
    := by
  unfold State.remoteIssue
  exact (iteP (State.stall_ok hs) (iteP (State.stall_ok (State.saturate_ok hs)) (cut (fun h2 => (cut (fun h4 => (iteP (State.enterReq_ok
      h4) (State.inject_ok (State.addMod_ok h4)))) (State.queued_ok (State.sendOn_ok (iteP (State.updStream_ok h2) h2)))))
      (State.beginOp_ok (State.Ok.upd (OkSnd.snd (State.nextSeq_ok hs)))))))
theorem State.atomic_ok {s : State} {x1 : Nat} {x2 : Nat} {x3 : BitVec 52} {x4 : Nat} (hs : State.Ok s) : State.Ok (State.atomic s x1 x2 x3
    x4) := by
  unfold State.atomic
  exact (State.issue_ok hs (fun _ h1 => (State.remoteIssue_ok h1)))
theorem execRadd_ok {x0 : Fin 50} {x1 : BitVec 52} {s : State} (hs : State.Ok s) : OkOut (execRadd x0 x1 s) := by
  unfold execRadd
  exact (OkOut.next (State.atomic_ok hs))
theorem execRmin_ok {x0 : Fin 50} {x1 : BitVec 52} {s : State} (hs : State.Ok s) : OkOut (execRmin x0 x1 s) := by
  unfold execRmin
  exact (OkOut.next (State.atomic_ok hs))
theorem execRminu_ok {x0 : Fin 50} {x1 : BitVec 52} {s : State} (hs : State.Ok s) : OkOut (execRminu x0 x1 s) := by
  unfold execRminu
  exact (OkOut.next (State.atomic_ok hs))
theorem execRmax_ok {x0 : Fin 50} {x1 : BitVec 52} {s : State} (hs : State.Ok s) : OkOut (execRmax x0 x1 s) := by
  unfold execRmax
  exact (OkOut.next (State.atomic_ok hs))
theorem execRmaxu_ok {x0 : Fin 50} {x1 : BitVec 52} {s : State} (hs : State.Ok s) : OkOut (execRmaxu x0 x1 s) := by
  unfold execRmaxu
  exact (OkOut.next (State.atomic_ok hs))
theorem execRswp_ok {x0 : Fin 50} {x1 : BitVec 52} {s : State} (hs : State.Ok s) : OkOut (execRswp x0 x1 s) := by
  unfold execRswp
  exact (OkOut.next (State.atomic_ok hs))
theorem execRcas_ok {x0 : Fin 50} {x1 : BitVec 52} {s : State} (hs : State.Ok s) : OkOut (execRcas x0 x1 s) := by
  unfold execRcas
  exact (OkOut.next (State.atomic_ok hs))
theorem execRstn_ok {x0 : Fin 50} {x1 : BitVec 52} {s : State} (hs : State.Ok s) : OkOut (execRstn x0 x1 s) := by
  unfold execRstn
  exact (OkOut.next (State.atomic_ok hs))
theorem State.answer_ok {s : State} {x1 : Request} {x2 : Nat} {x3 : Nat} (hs : State.Ok s) : State.Ok (State.answer s x1 x2 x3) := by
  unfold State.answer
  exact (iteP (State.rspAccept_ok hs) (State.sendRsp_ok hs))
theorem State.serve_ok {s : State} {x1 : Request} (hs : State.Ok s) : State.Ok (State.serve s x1) := by
  unfold State.serve
  exact (cut (fun h1 => (cut (fun h2 => (iteP (State.answer_ok (iteP (State.addSat_ok h2) h2)) (cut (fun h4 => (cut (fun h5 =>
      (State.answer_ok (iteP (by
    split
    · exact (State.addCc_ok h5)
    · exact h5) h5))) (iteP h4 (State.memWriteNow_ok h4)))) (State.addMod_ok h2)))) (iteP (State.memRead_ok (State.demand_ok h1)) h1)))
        (State.Ok.upd hs))
theorem execReqRx_ok {x0 : Fin 12} {x1 : Packet} {s : State} (hs : State.Ok s) : OkOut (execReqRx x0 x1 s) := by
  unfold execReqRx
  exact (State.live_ok hs (OkOut.next (iteP hs (State.receive_ok hs (fun _ _ h1 => (cut (fun h2 => (by
    dsimp -failIfUnchanged only
    split
    · exact (State.acceptPoison_ok h2)
    · exact h2)) (State.enterReq_ok h1)))))))
theorem execReqServed_ok {x0 : Nat} {x1 : Upsets} {s : State} (hs : State.Ok s) : OkOut (execReqServed x0 x1 s) := by
  unfold execReqServed
  exact (State.granting_ok hs (cut (fun h1 => (OkOut.next (by
    split
    · exact h1
    · exact (iteP h1 (iteP h1 (State.serve_ok h1)))))) (State.upset_ok hs)))
theorem execRspRx_ok {x0 : Fin 12} {x1 : Packet} {s : State} (hs : State.Ok s) : OkOut (execRspRx x0 x1 s) := by
  unfold execRspRx
  exact (State.live_ok hs (OkOut.next (iteP hs (State.receive_ok hs (fun _ _ h1 => (State.rspAccept_ok (State.leave_ok h1)))))))
theorem execRemoteTimeout_ok {x0 : Nat} {s : State} (hs : State.Ok s) : OkOut (execRemoteTimeout x0 s) := by
  unfold execRemoteTimeout
  exact (State.live_ok hs (OkOut.next (by
    split
    · exact hs
    · exact (iteP (State.streamFault_ok (State.addSat_ok (State.Ok.upd hs))) hs))))
theorem execRmemCtlWrite_ok {x0 : Fin 2} {x1 : Word} {s : State} (hs : State.Ok s) : OkOut (execRmemCtlWrite x0 x1 s) := by
  unfold execRmemCtlWrite
  exact (State.live_ok hs (OkOut.next (iteP (State.report_ok hs) (State.writeSetting_ok hs))))

/-! Domains. -/

theorem State.updPower_ok {s : State} {x1 : Power → Power} (hs : State.Ok s) : State.Ok (State.updPower s x1) := by
  unfold State.updPower
  exact (State.Ok.upd hs)
theorem State.interrupt_ok {s : State} (hs : State.Ok s) : State.Ok (State.interrupt s) := by
  unfold State.interrupt
  exact (State.emit_ok hs)
theorem State.setPwrState_ok {s : State} {x1 : Nat} (hs : State.Ok s) : State.Ok (State.setPwrState s x1) := by
  unfold State.setPwrState
  exact (State.interrupt_ok (State.wr_ok hs))
theorem State.pwrReport_ok {s : State} {x1 : Nat} {x2 : Nat} (hs : State.Ok s) : State.Ok (State.pwrReport s x1 x2) := by
  unfold State.pwrReport
  exact (State.interrupt_ok (State.report_ok hs))
theorem State.setLimit_ok {s : State} (hs : State.Ok s) : State.Ok (State.setLimit s) := by
  unfold State.setLimit
  exact (iteP hs (State.trouble_ok (State.setBit_ok hs)))
theorem State.checkReady_ok {s : State} (hs : State.Ok s) : State.Ok (State.checkReady s) := by
  unfold State.checkReady
  exact (iteP (State.setPwrState_ok (State.setBit_ok (State.updPower_ok hs))) hs)
theorem State.queueSwitches_ok {s : State} {x1 : List (Nat × Bool)} (hs : State.Ok s) : State.Ok (State.queueSwitches s x1) := by
  unfold State.queueSwitches
  exact (State.updPower_ok hs)
theorem State.bringDomains_ok {s : State} {x1 : List Nat} {x2 : Nat → Bool} (hs : State.Ok s) : State.Ok (State.bringDomains s x1 x2) := by
  unfold State.bringDomains
  exact (State.queueSwitches_ok hs)
theorem State.wake_ok {s : State} (hs : State.Ok s) : State.Ok (State.wake s) := by
  unfold State.wake
  exact (iteP (State.setPwrState_ok (State.bringDomains_ok hs)) hs)

/-! MemCtl. -/

theorem State.setMemState_ok {s : State} {x1 : Nat} {x2 : Nat} (hs : State.Ok s) : State.Ok (State.setMemState s x1 x2) := by
  unfold State.setMemState
  exact (State.wr_ok hs)
theorem State.memTrain_ok {s : State} {x1 : Nat} {x2 : Bool} (hs : State.Ok s) : State.Ok (State.memTrain s x1 x2) := by
  unfold State.memTrain
  exact (cut (fun h1 => (iteP h1 (State.emit_ok h1))) (State.setMemState_ok (State.updMem_ok hs)))
theorem State.memDiscard_ok {s : State} {x1 : Nat} (hs : State.Ok s) : State.Ok (State.memDiscard s x1) := by
  unfold State.memDiscard
  exact (iteP hs (State.emit_ok (State.setMemState_ok (State.setMemCtl_ok (foldl_ok (fun _ _ h2 => (State.setReg_ok h2)) hs)))))
theorem State.memHold_ok {s : State} {x1 : Nat} (hs : State.Ok s) : State.Ok (State.memHold s x1) := by
  unfold State.memHold
  exact (iteP (State.checkReady_ok (State.setMemState_ok hs)) (State.setMemState_ok hs))
theorem State.releaseMem_ok {s : State} (hs : State.Ok s) : State.Ok (State.releaseMem s) := by
  unfold State.releaseMem
  exact (foldl_ok (fun _ _ h1 => (iteP (State.memHold_ok h1) h1)) hs)
theorem State.discardMem_ok {s : State} (hs : State.Ok s) : State.Ok (State.discardMem s) := by
  unfold State.discardMem
  exact (foldl_ok (fun _ _ h1 => (State.memDiscard_ok h1)) hs)
theorem execMemStart_ok {x0 : Fin 12} {s : State} (hs : State.Ok s) : OkOut (execMemStart x0 s) := by
  unfold execMemStart
  exact (State.live_ok hs (OkOut.next (iteP (State.memTrain_ok hs) (State.memReport_ok hs))))
theorem execMemCtlWrite_ok {x0 : Fin 12} {x1 : Word} {s : State} (hs : State.Ok s) : OkOut (execMemCtlWrite x0 x1 s) := by
  unfold execMemCtlWrite
  exact (State.live_ok hs (OkOut.next (iteP (cut (fun h1 => (iteP (State.memTrain_ok h1) h1)) (State.applySetting_ok hs)) (iteP
      (State.Ok.upd hs) (State.memReport_ok hs)))))
theorem execMemTrainingDone_ok {x0 : Fin 12} {x1 : BitVec 16} {x2 : Package} {s : State} (hs : State.Ok s) : OkOut (execMemTrainingDone x0
    x1 x2 s) := by
  unfold execMemTrainingDone
  exact (State.live_ok hs (OkOut.next (iteP hs (iteP (State.setMemState_ok (State.memReport_ok hs)) (iteP (State.setMemState_ok
      (State.memReport_ok hs)) (cut (fun h1 => (iteP (State.memHold_ok h1) (State.setMemState_ok h1))) (State.updMem_ok hs)))))))
theorem execMemZeroingDone_ok {x0 : Fin 12} {s : State} (hs : State.Ok s) : OkOut (execMemZeroingDone x0 s) := by
  unfold execMemZeroingDone
  exact (State.live_ok hs (OkOut.next (iteP hs (State.memHold_ok (State.Ok.with_lpddr hs (twf_filter _ _ _ (State.Ok.lpddr hs)))))))
theorem execMemRequestServed_ok {x0 : Fin 12} {x1 : MemService} {s : State} (hs : State.Ok s) : OkOut (execMemRequestServed x0 x1 s) := by
  unfold execMemRequestServed
  exact (State.live_ok hs (cut (fun h1 => (OkOut.next (iteP h1 (State.memRead_ok (State.demand_ok h1))))) (foldl_ok (fun _ _ h2 =>
      (State.memUpset_ok h2)) hs)))
theorem State.channelFail_ok {s : State} {x1 : Nat} {x2 : Nat} {x3 : Nat} (hs : State.Ok s) : State.Ok (State.channelFail s x1 x2 x3) := by
  unfold State.channelFail
  exact (State.deviceFault_ok (State.wr_ok (State.wr_ok (State.wr_ok hs))))
theorem State.refreshBank_ok {s : State} {x1 : Nat} {x2 : Nat} (hs : State.Ok s) : State.Ok (State.refreshBank s x1 x2) := by
  unfold State.refreshBank
  exact (State.emit_ok (State.updMem_ok hs))
theorem execMemBaseRefresh_ok {x0 : Fin 12} {x1 : Fin 16} {s : State} (hs : State.Ok s) : OkOut (execMemBaseRefresh x0 x1 s) := by
  unfold execMemBaseRefresh
  exact (State.live_ok hs (OkOut.next (iteP (State.refreshBank_ok (State.addMod_ok hs)) hs)))
theorem execMemExtraRefresh_ok {x0 : Fin 12} {x1 : Fin 16} {s : State} (hs : State.Ok s) : OkOut (execMemExtraRefresh x0 x1 s) := by
  unfold execMemExtraRefresh
  exact (State.live_ok hs (OkOut.next (iteP (State.refreshBank_ok (State.repeatEvent_ok (State.lapFlag_ok (State.addSat_ok hs)))) hs)))
theorem execMr4Poll_ok {x0 : Fin 12} {x1 : List (BitVec 3)} {s : State} (hs : State.Ok s) : OkOut (execMr4Poll x0 x1 s) := by
  unfold execMr4Poll
  exact (State.live_ok hs (OkOut.next (iteP hs (foldl_ok (fun _ _ h4 => (iteP (State.channelFail_ok h4) h4)) (State.wr_ok (foldl_ok (fun _
      _ h5 => (State.wr_ok h5)) (State.updMem_ok hs)))))))
theorem execMemRfm_ok {x0 : Fin 12} {x1 : Fin 16} {x2 : Fin 16} {s : State} (hs : State.Ok s) : OkOut (execMemRfm x0 x1 x2 s) := by
  unfold execMemRfm
  exact (State.live_ok hs (OkOut.next (iteP (State.emit_ok (State.repeatEvent_ok (State.addSat_ok (State.updMem_ok hs)))) hs)))
theorem State.scrubBlock_ok {s : State} {x1 : Nat} {x2 : Nat} (hs : State.Ok s) : State.Ok (State.scrubBlock s x1 x2) := by
  unfold State.scrubBlock
  exact (by
    dsimp -failIfUnchanged only
    split
    · exact hs
    · exact (State.Ok.upd (State.addSat_ok (State.memCorrected_ok hs)))
    · exact (State.memUncorrectable_ok hs))
theorem execMemPatrolScrub_ok {x0 : Fin 12} {x1 : Fin 16} {x2 : Upsets} {s : State} (hs : State.Ok s) : OkOut (execMemPatrolScrub x0 x1 x2
    s) := by
  unfold execMemPatrolScrub
  exact (State.live_ok hs (cut (fun h1 => (OkOut.next (iteP h1 (cut (fun h4 => (iteP (cut (fun h5 => (iteP (State.addMod_ok h5) h5))
      (State.wr_ok h4)) h4)) (State.updMem_ok (foldl_ok (fun _ _ h6 => (State.scrubBlock_ok h6)) (State.carry_ok h1))))))) (State.upset_ok
      hs)))
theorem execMemRetrainStep_ok {x0 : Fin 12} {x1 : Fin 16} {x2 : BitVec 8} {x3 : Bool} {s : State} (hs : State.Ok s) : OkOut
    (execMemRetrainStep x0 x1 x2 x3 s) := by
  unfold execMemRetrainStep
  exact (State.live_ok hs (OkOut.next (iteP hs (cut (fun h1 => (cut (fun h3 => (iteP (State.updMem_ok h3) (cut (fun h5 => (iteP
      (State.updMem_ok (State.addSat_ok (State.wr_ok h5))) (State.channelFail_ok h5))) (State.wr_ok (State.updMem_ok h3))))) (State.emit_ok
      (State.updMem_ok (iteP (State.updMem_ok h1) h1))))) (iteP (State.addSat_ok hs) (iteP (State.addSat_ok hs) hs))))))
theorem execMemTrainlate_ok {x0 : Fin 12} {x1 : Fin 16} {s : State} (hs : State.Ok s) : OkOut (execMemTrainlate x0 x1 s) := by
  unfold execMemTrainlate
  exact (State.live_ok hs (OkOut.next (iteP (State.memReport_ok (State.updMem_ok hs)) hs)))

/-! Security. -/

theorem State.secReport_ok {s : State} {x1 : Nat} (hs : State.Ok s) : State.Ok (State.secReport s x1) := by
  unfold State.secReport
  exact (State.report_ok (State.wr_ok hs))
theorem State.ssReport_ok {s : State} {x1 : Nat} (hs : State.Ok s) : State.Ok (State.ssReport s x1) := by
  unfold State.ssReport
  exact (State.secReport_ok (State.wr_ok hs))
theorem State.updSec_ok {s : State} {x1 : Sec → Sec} (hs : State.Ok s) : State.Ok (State.updSec s x1) := by
  unfold State.updSec
  exact (State.Ok.upd hs)
theorem State.setWindow_ok {s : State} {x1 : Nat} {x2 : List Byte} (hs : State.Ok s) : State.Ok (State.setWindow s x1 x2) := by
  unfold State.setWindow
  exact (State.updSec_ok hs)
theorem State.newNonce_ok {s : State} (hs : State.Ok s) : State.Ok (State.newNonce s) := by
  unfold State.newNonce
  exact (foldl_ok (fun _ _ h1 => (State.wr_ok (OkSnd.snd (State.free_ok h1)))) hs)
theorem State.secCommand_ok {s : State} {x1 : State → State} (hs : State.Ok s) (g1 : ∀ y0, State.Ok y0 → State.Ok (x1 y0)) : State.Ok
    (State.secCommand s x1) := by
  unfold State.secCommand
  exact (iteP hs (iteP (State.secReport_ok hs) (g1 _ hs)))
theorem State.purgeCapsules_ok {s : State} {x1 : Nat} (hs : State.Ok s) : State.Ok (State.purgeCapsules s x1) := by
  unfold State.purgeCapsules
  exact (State.setSess_ok (foldl_ok (fun _ _ h2 => (State.devReleaseOpt_ok h2)) hs))
theorem State.closeSessions_ok {s : State} {x1 : Nat → Bool} (hs : State.Ok s) : State.Ok (State.closeSessions s x1) := by
  unfold State.closeSessions
  exact (foldl_ok (fun _ _ h1 => (State.freeSession_ok (State.purgeCapsules_ok h1))) hs)
theorem State.settleLost_ok {s : State} (hs : State.Ok s) : State.Ok (State.settleLost s) := by
  unfold State.settleLost
  exact (foldl_ok (fun _ _ h2 => (State.wcpEvent_ok (by
    split
    · exact (by
      split
      · exact (State.endOp_ok (State.addCc_ok h2))
      · exact h2)
    · exact h2))) (State.Ok.upd hs))
theorem State.makeTransition_ok {s : State} {x1 : Nat} (hs : State.Ok s) : State.Ok (State.makeTransition s x1) := by
  unfold State.makeTransition
  exact (cut (fun h2 => (iteP (State.Ok.upd h2) (iteP (State.eraseMram_ok (State.eraseMram_ok (State.updSec_ok h2))) (iteP (State.Ok.upd
      h2) h2)))) (State.wr_ok (State.updSec_ok hs)))
theorem execLcAdvance_ok {x0 : BitVec 8} {s : State} (hs : State.Ok s) : OkOut (execLcAdvance x0 s) := by
  unfold execLcAdvance
  exact (State.live_ok hs (OkOut.next (State.secCommand_ok hs (fun _ h1 => (State.newNonce_ok (iteP (State.secReport_ok h1) (by
    dsimp -failIfUnchanged only
    split
    · exact (State.secReport_ok h1)
    · exact (iteP (State.updSec_ok (State.settleLost_ok (State.closeSessions_ok (State.teardown_ok (State.teardown_ok
        (State.makeTransition_ok h1)))))) (State.secReport_ok h1)))))))))
theorem State.finishAttest_ok {s : State} (hs : State.Ok s) : State.Ok (State.finishAttest s) := by
  unfold State.finishAttest
  exact (iteP hs (cut (fun h1 => (by
    dsimp -failIfUnchanged only
    split
    · exact h1
    · exact (State.setWindow_ok h1))) (State.wr_ok (State.updSec_ok hs))))
theorem State.lowerDebug_ok {s : State} {x1 : Nat} (hs : State.Ok s) : State.Ok (State.lowerDebug s x1) := by
  unfold State.lowerDebug
  exact (cut (fun h1 => (cut (fun h2 => (iteP (foldl_ok (fun _ _ h3 => (iteP (State.setEngState_ok h3) h3)) h2) h2)) (iteP (State.setBit_ok
      (State.setBit_ok h1)) h1))) (iteP (State.setBit_ok hs) hs))
theorem State.setDebug_ok {s : State} {x1 : Nat} (hs : State.Ok s) : State.Ok (State.setDebug s x1) := by
  unfold State.setDebug
  exact (iteP (State.wr_ok (State.trouble_ok (State.wr_ok (State.settleLost_ok (State.closeSessions_ok (State.wr_ok (State.updSec_ok
      (State.finishAttest_ok hs)))))))) (State.wr_ok (State.lowerDebug_ok hs)))
theorem execDbgSet_ok {x0 : BitVec 8} {s : State} (hs : State.Ok s) : OkOut (execDbgSet x0 s) := by
  unfold execDbgSet
  exact (State.live_ok hs (OkOut.next (iteP hs (iteP (State.secReport_ok hs) (iteP (State.secReport_ok hs) (iteP (State.setDebug_ok hs)
      (iteP (State.secReport_ok hs) (iteP (State.newNonce_ok (by
    split
    · exact (State.secReport_ok hs)
    · exact (iteP (State.setDebug_ok hs) (State.secReport_ok hs)))) (State.setDebug_ok hs)))))))))
theorem execCredInstall_ok {x0 : BitVec 8} {s : State} (hs : State.Ok s) : OkOut (execCredInstall x0 s) := by
  unfold execCredInstall
  exact (State.live_ok hs (OkOut.next (State.secCommand_ok hs (fun _ h1 => (iteP (State.secReport_ok h1) (State.updSec_ok h1))))))
theorem execCredRevoke_ok {x0 : BitVec 8} {s : State} (hs : State.Ok s) : OkOut (execCredRevoke x0 s) := by
  unfold execCredRevoke
  exact (State.live_ok hs (OkOut.next (State.secCommand_ok hs (fun _ h1 => (iteP (State.secReport_ok h1) (State.settleLost_ok
      (State.closeSessions_ok (State.updSec_ok h1))))))))
theorem execCertInstall_ok {x0 : BitVec 8} {s : State} (hs : State.Ok s) : OkOut (execCertInstall x0 s) := by
  unfold execCertInstall
  exact (State.live_ok hs (OkOut.next (State.secCommand_ok hs (fun _ h1 => (State.newNonce_ok (by
    split
    · exact (by
      split
      · exact (State.secReport_ok h1)
      · exact (iteP (State.updSec_ok h1) (State.secReport_ok h1)))
    · exact (State.secReport_ok h1)))))))
theorem execAttest_ok {x0 : BitVec 8} {s : State} (hs : State.Ok s) : OkOut (execAttest x0 s) := by
  unfold execAttest
  exact (State.live_ok hs (OkOut.next (State.secCommand_ok hs (fun _ h1 => (iteP (State.secReport_ok h1) (State.wr_ok (State.updSec_ok
      h1)))))))
theorem execSvnCommit_ok {s : State} (hs : State.Ok s) : OkOut (execSvnCommit s) := by
  unfold execSvnCommit
  exact (State.live_ok hs (OkOut.next (State.secCommand_ok hs (fun _ h1 => (iteP (State.secReport_ok h1) (State.wr_ok (State.updSec_ok
      h1)))))))
theorem execSecCommandDone_ok {s : State} (hs : State.Ok s) : OkOut (execSecCommandDone s) := by
  unfold execSecCommandDone
  exact (State.live_ok hs (OkOut.next (State.finishAttest_ok hs)))
theorem State.readSlot_ok {s : State} {x1 : Nat} (hs : State.Ok s) : State.Ok (State.readSlot s x1) := by
  unfold State.readSlot
  exact (iteP (State.ssReport_ok hs) hs)
theorem State.ssCommand_ok {s : State} {x1 : State → State} (hs : State.Ok s) (g1 : ∀ y0, State.Ok y0 → State.Ok (x1 y0)) : State.Ok
    (State.ssCommand s x1) := by
  unfold State.ssCommand
  exact (iteP hs (iteP (State.ssReport_ok hs) (g1 _ hs)))
theorem State.ssStart_ok {s : State} {x1 : SsJob} (hs : State.Ok s) : State.Ok (State.ssStart s x1) := by
  unfold State.ssStart
  exact (State.wr_ok (State.updSec_ok hs))
theorem execSsWrite_ok {x0 : Bool} {x1 : BitVec 10} {s : State} (hs : State.Ok s) : OkOut (execSsWrite x0 x1 s) := by
  unfold execSsWrite
  exact (State.live_ok hs (OkOut.next (State.ssCommand_ok hs (fun _ h1 => (iteP (State.ssReport_ok h1) (State.ssStart_ok h1))))))
theorem execSsVerify_ok {x0 : Bool} {s : State} (hs : State.Ok s) : OkOut (execSsVerify x0 s) := by
  unfold execSsVerify
  exact (State.live_ok hs (OkOut.next (State.ssCommand_ok hs (fun _ h1 => (State.ssStart_ok h1)))))
theorem execSsActivate_ok {x0 : Bool} {s : State} (hs : State.Ok s) : OkOut (execSsActivate x0 s) := by
  unfold execSsActivate
  exact (State.live_ok hs (OkOut.next (State.ssCommand_ok hs (fun _ h1 => (iteP (State.ssStart_ok h1) (State.ssReport_ok h1))))))
theorem execSsStore_ok {s : State} (hs : State.Ok s) : OkOut (execSsStore s) := by
  unfold execSsStore
  exact (State.live_ok hs (OkOut.next (State.ssCommand_ok hs (fun _ h1 => (State.ssStart_ok h1)))))
theorem execSsCommandDone_ok {s : State} (hs : State.Ok s) : OkOut (execSsCommandDone s) := by
  unfold execSsCommandDone
  exact (State.live_ok hs (OkOut.next (by
    dsimp -failIfUnchanged only
    split
    · exact hs
    · exact (cut (fun h1 => (by
      split
      · exact (State.setMram_ok h1)
      · exact (cut (fun h2 => (by
        split
        · exact (State.wr_ok h2)
        · exact (State.ssReport_ok (State.wr_ok h2)))) (State.readSlot_ok h1))
      · exact (State.wr_ok (State.updSec_ok h1))
      · exact (State.storeSettings_ok h1))) (State.wr_ok (State.updSec_ok hs))))))
theorem execSsWearScan_ok {x0 : Nat} {x1 : Bool} {s : State} (hs : State.Ok s) : OkOut (execSsWearScan x0 x1 s) := by
  unfold execSsWearScan
  exact (State.live_ok hs (OkOut.next (iteP (State.ssReport_ok (State.updSec_ok hs)) hs)))
theorem State.censusRecord_ok {s : State} {x1 : CenState} {x2 : Nat} (hs : State.Ok s) : State.Ok (State.censusRecord s x1 x2) := by
  unfold State.censusRecord
  exact (State.wr_ok (State.wr_ok (State.wr_ok (State.wr_ok (State.wr_ok (State.wr_ok (State.wr_ok (State.wr_ok (State.wr_ok (State.wr_ok
      hs))))))))))
theorem State.censusClose_ok {s : State} (hs : State.Ok s) : State.Ok (State.censusClose s) := by
  unfold State.censusClose
  exact (by
    dsimp -failIfUnchanged only
    split
    · exact hs
    · exact (iteP hs (cut (fun h1 => (by
      split
      · exact (State.censusRecord_ok h1)
      · exact (State.lcfDue_ok (State.lcfDue_ok h1)))) (State.updSec_ok hs))))
theorem State.censusAdd_ok {s : State} {x1 : CenSum} (hs : State.Ok s) : State.Ok (State.censusAdd s x1) := by
  unfold State.censusAdd
  exact (by
    split
    · exact hs
    · exact (State.censusClose_ok (State.updSec_ok hs)))
theorem State.censusLocal_ok {s : State} {x1 : Nat} {x2 : Nat} (hs : State.Ok s) : State.Ok (State.censusLocal s x1 x2) := by
  unfold State.censusLocal
  exact (by
    split
    · exact hs
    · exact (iteP hs (iteP (State.censusAdd_ok hs) (State.updSec_ok hs))))
theorem State.censusEdge_ok {s : State} (hs : State.Ok s) : State.Ok (State.censusEdge s) := by
  unfold State.censusEdge
  exact (by
    split
    · exact hs
    · exact (iteP (State.censusAdd_ok hs) hs))
theorem execCensusStart_ok {x0 : Word} {s : State} (hs : State.Ok s) : OkOut (execCensusStart x0 s) := by
  unfold execCensusStart
  exact (State.live_ok hs (OkOut.next (State.censusClose_ok (State.originateTree_ok (State.censusRecord_ok (State.updSec_ok (State.wr_ok
      (State.wr_ok (State.wr_ok hs)))))))))
theorem execCensusRx_ok {x0 : Fin 13} {x1 : Packet} {s : State} (hs : State.Ok s) : OkOut (execCensusRx x0 x1 s) := by
  unfold execCensusRx
  exact (State.live_ok hs (OkOut.next (iteP hs (State.censusClose_ok (State.receive_ok (iteP (State.updSec_ok hs) hs) (fun _ _ h2 =>
      (State.censusLocal_ok (State.leave_ok h2))))))))
theorem State.censusReport_ok {s : State} {x1 : Nat} {x2 : Lcf} {x3 : Lcf} (hs : State.Ok s) : State.Ok (State.censusReport s x1 x2 x3) :=
    by
  unfold State.censusReport
  exact (by
    dsimp -failIfUnchanged only
    split
    · exact hs
    · exact (iteP hs (State.censusAdd_ok hs)))
theorem execCensusLcfRx_ok {x0 : Fin 12} {x1 : CensusGroups} {s : State} (hs : State.Ok s) : OkOut (execCensusLcfRx x0 x1 s) := by
  unfold execCensusLcfRx
  exact (State.live_ok hs (OkOut.next (iteP hs (cut (fun h1 => (iteP (State.censusReport_ok h1) h1)) (State.takeGroup_ok
      (State.takeGroup_ok hs (fun _ h2 => h2)) (fun _ h3 => h3))))))
theorem execCensusTimeout_ok {s : State} (hs : State.Ok s) : OkOut (execCensusTimeout s) := by
  unfold execCensusTimeout
  exact (State.live_ok hs (OkOut.next (by
    split
    · exact hs
    · exact (iteP (State.secReport_ok (State.censusRecord_ok (State.updSec_ok hs))) hs))))

end Sys2Proof.Machine
end

