-- ==== Sys2Proof/Laws/KeepB.lean ====
section
/-!
SUPPORT. Every operation and every command of the files named below keeps the register tables and the memories in
their canonical form: Scalar, Observe, Sequencer, Wcp, Waits, MemInstr, Snapshot, Locker, Intake, Course, Relay.
-/

namespace Sys2Proof.Machine

/-! Scalar. -/

theorem State.alu_ok {s : State} {x1 : Nat} {x2 : Bool} {x3 : Nat} {x4 : BitVec 52} {x5 : Word → Word → Word} (hs : State.Ok s) : State.Ok
    (State.alu s x1 x2 x3 x4 x5) := by
  unfold State.alu
  exact (State.issue_ok hs (fun _ h1 => (State.retire_ok (State.setS_ok h1))))
theorem State.alu1_ok {s : State} {x1 : Nat} {x2 : Nat} {x3 : BitVec 52} {x4 : Word → Word} (hs : State.Ok s) : State.Ok (State.alu1 s x1
    x2 x3 x4) := by
  unfold State.alu1
  exact (State.issue_ok hs (fun _ h1 => (State.retire_ok (State.setS_ok h1))))
theorem State.cmp_ok {s : State} {x1 : Nat} {x2 : Bool} {x3 : Nat} {x4 : BitVec 52} {x5 : Word → Word → Bool} (hs : State.Ok s) : State.Ok
    (State.cmp s x1 x2 x3 x4 x5) := by
  unfold State.cmp
  exact (State.issue_ok hs (fun _ h1 => (State.retire_ok (State.setP_ok h1))))
theorem State.pred_ok {s : State} {x1 : Nat} {x2 : Nat} {x3 : BitVec 52} {x4 : Pred → Pred → Pred} (hs : State.Ok s) : State.Ok (State.pred
    s x1 x2 x3 x4) := by
  unfold State.pred
  exact (State.issue_ok hs (fun _ h1 => (State.retire_ok (State.setP_ok h1))))
theorem execNop_ok {x0 : Fin 50} {x1 : BitVec 52} {s : State} (hs : State.Ok s) : OkOut (execNop x0 x1 s) := by
  unfold execNop
  exact (OkOut.next (State.issue_ok hs (fun _ h1 => (State.retire_ok h1))))
theorem execEndInstance_ok {x0 : Fin 50} {x1 : BitVec 52} {s : State} (hs : State.Ok s) : OkOut (execEndInstance x0 x1 s) := by
  unfold execEndInstance
  exact (OkOut.next (State.issue_ok hs (fun _ h1 => (State.fenceDone_ok (State.updStream_ok h1)))))
theorem execTrap_ok {x0 : Fin 50} {x1 : BitVec 52} {s : State} (hs : State.Ok s) : OkOut (execTrap x0 x1 s) := by
  unfold execTrap
  exact (OkOut.next (State.issue_ok hs (fun _ h1 => h1)))
theorem execBrk_ok {x0 : Fin 50} {x1 : BitVec 52} {s : State} (hs : State.Ok s) : OkOut (execBrk x0 x1 s) := by
  unfold execBrk
  exact (OkOut.next (State.issue_ok hs (fun _ h1 => (State.setEngState_ok (State.retire_ok h1)))))
theorem execFence_ok {x0 : Fin 50} {x1 : BitVec 52} {s : State} (hs : State.Ok s) : OkOut (execFence x0 x1 s) := by
  unfold execFence
  exact (OkOut.next (State.issue_ok hs (fun _ h1 => (State.fenceDone_ok (State.updStream_ok h1)))))
theorem execMfsr_ok {x0 : Fin 50} {x1 : BitVec 52} {s : State} (hs : State.Ok s) : OkOut (execMfsr x0 x1 s) := by
  unfold execMfsr
  exact (OkOut.next (State.issue_ok hs (fun _ h1 => (State.retire_ok (State.setS_ok h1)))))
theorem execMtsr_ok {x0 : Fin 50} {x1 : BitVec 52} {s : State} (hs : State.Ok s) : OkOut (execMtsr x0 x1 s) := by
  unfold execMtsr
  exact (OkOut.next (State.issue_ok hs (fun _ h1 => (State.retire_ok (iteP (State.wr_ok h1) (State.updStream_ok h1))))))
theorem execAdd_ok {x0 : Fin 50} {x1 : Bool} {x2 : BitVec 52} {s : State} (hs : State.Ok s) : OkOut (execAdd x0 x1 x2 s) := by
  unfold execAdd
  exact (OkOut.next (State.alu_ok hs))
theorem execSub_ok {x0 : Fin 50} {x1 : Bool} {x2 : BitVec 52} {s : State} (hs : State.Ok s) : OkOut (execSub x0 x1 x2 s) := by
  unfold execSub
  exact (OkOut.next (State.alu_ok hs))
theorem execAnd_ok {x0 : Fin 50} {x1 : Bool} {x2 : BitVec 52} {s : State} (hs : State.Ok s) : OkOut (execAnd x0 x1 x2 s) := by
  unfold execAnd
  exact (OkOut.next (State.alu_ok hs))
theorem execOr_ok {x0 : Fin 50} {x1 : Bool} {x2 : BitVec 52} {s : State} (hs : State.Ok s) : OkOut (execOr x0 x1 x2 s) := by
  unfold execOr
  exact (OkOut.next (State.alu_ok hs))
theorem execXor_ok {x0 : Fin 50} {x1 : Bool} {x2 : BitVec 52} {s : State} (hs : State.Ok s) : OkOut (execXor x0 x1 x2 s) := by
  unfold execXor
  exact (OkOut.next (State.alu_ok hs))
theorem execShl_ok {x0 : Fin 50} {x1 : Bool} {x2 : BitVec 52} {s : State} (hs : State.Ok s) : OkOut (execShl x0 x1 x2 s) := by
  unfold execShl
  exact (OkOut.next (State.alu_ok hs))
theorem execShr_ok {x0 : Fin 50} {x1 : Bool} {x2 : BitVec 52} {s : State} (hs : State.Ok s) : OkOut (execShr x0 x1 x2 s) := by
  unfold execShr
  exact (OkOut.next (State.alu_ok hs))
theorem execSra_ok {x0 : Fin 50} {x1 : Bool} {x2 : BitVec 52} {s : State} (hs : State.Ok s) : OkOut (execSra x0 x1 x2 s) := by
  unfold execSra
  exact (OkOut.next (State.alu_ok hs))
theorem execMul_ok {x0 : Fin 50} {x1 : Bool} {x2 : BitVec 52} {s : State} (hs : State.Ok s) : OkOut (execMul x0 x1 x2 s) := by
  unfold execMul
  exact (OkOut.next (State.alu_ok hs))
theorem execMulhu_ok {x0 : Fin 50} {x1 : BitVec 52} {s : State} (hs : State.Ok s) : OkOut (execMulhu x0 x1 s) := by
  unfold execMulhu
  exact (OkOut.next (State.alu_ok hs))
theorem execMulhs_ok {x0 : Fin 50} {x1 : BitVec 52} {s : State} (hs : State.Ok s) : OkOut (execMulhs x0 x1 s) := by
  unfold execMulhs
  exact (OkOut.next (State.alu_ok hs))
theorem execMin_ok {x0 : Fin 50} {x1 : Bool} {x2 : BitVec 52} {s : State} (hs : State.Ok s) : OkOut (execMin x0 x1 x2 s) := by
  unfold execMin
  exact (OkOut.next (State.alu_ok hs))
theorem execMinu_ok {x0 : Fin 50} {x1 : Bool} {x2 : BitVec 52} {s : State} (hs : State.Ok s) : OkOut (execMinu x0 x1 x2 s) := by
  unfold execMinu
  exact (OkOut.next (State.alu_ok hs))
theorem execMax_ok {x0 : Fin 50} {x1 : Bool} {x2 : BitVec 52} {s : State} (hs : State.Ok s) : OkOut (execMax x0 x1 x2 s) := by
  unfold execMax
  exact (OkOut.next (State.alu_ok hs))
theorem execMaxu_ok {x0 : Fin 50} {x1 : Bool} {x2 : BitVec 52} {s : State} (hs : State.Ok s) : OkOut (execMaxu x0 x1 x2 s) := by
  unfold execMaxu
  exact (OkOut.next (State.alu_ok hs))
theorem execClz_ok {x0 : Fin 50} {x1 : BitVec 52} {s : State} (hs : State.Ok s) : OkOut (execClz x0 x1 s) := by
  unfold execClz
  exact (OkOut.next (State.alu1_ok hs))
theorem execPopc_ok {x0 : Fin 50} {x1 : BitVec 52} {s : State} (hs : State.Ok s) : OkOut (execPopc x0 x1 s) := by
  unfold execPopc
  exact (OkOut.next (State.alu1_ok hs))
theorem execSel_ok {x0 : Fin 50} {x1 : BitVec 52} {s : State} (hs : State.Ok s) : OkOut (execSel x0 x1 s) := by
  unfold execSel
  exact (OkOut.next (State.issue_ok hs (fun _ h1 => (State.retire_ok (State.setS_ok h1)))))
theorem execMovi_ok {x0 : Fin 50} {x1 : BitVec 52} {s : State} (hs : State.Ok s) : OkOut (execMovi x0 x1 s) := by
  unfold execMovi
  exact (OkOut.next (State.issue_ok hs (fun _ h1 => (State.retire_ok (State.setS_ok h1)))))
theorem execMovhi_ok {x0 : Fin 50} {x1 : BitVec 52} {s : State} (hs : State.Ok s) : OkOut (execMovhi x0 x1 s) := by
  unfold execMovhi
  exact (OkOut.next (State.issue_ok hs (fun _ h1 => (State.retire_ok (State.setS_ok h1)))))
theorem execCmpEq_ok {x0 : Fin 50} {x1 : Bool} {x2 : BitVec 52} {s : State} (hs : State.Ok s) : OkOut (execCmpEq x0 x1 x2 s) := by
  unfold execCmpEq
  exact (OkOut.next (State.cmp_ok hs))
theorem execCmpNe_ok {x0 : Fin 50} {x1 : Bool} {x2 : BitVec 52} {s : State} (hs : State.Ok s) : OkOut (execCmpNe x0 x1 x2 s) := by
  unfold execCmpNe
  exact (OkOut.next (State.cmp_ok hs))
theorem execCmpLt_ok {x0 : Fin 50} {x1 : Bool} {x2 : BitVec 52} {s : State} (hs : State.Ok s) : OkOut (execCmpLt x0 x1 x2 s) := by
  unfold execCmpLt
  exact (OkOut.next (State.cmp_ok hs))
theorem execCmpGe_ok {x0 : Fin 50} {x1 : Bool} {x2 : BitVec 52} {s : State} (hs : State.Ok s) : OkOut (execCmpGe x0 x1 x2 s) := by
  unfold execCmpGe
  exact (OkOut.next (State.cmp_ok hs))
theorem execCmpLtu_ok {x0 : Fin 50} {x1 : Bool} {x2 : BitVec 52} {s : State} (hs : State.Ok s) : OkOut (execCmpLtu x0 x1 x2 s) := by
  unfold execCmpLtu
  exact (OkOut.next (State.cmp_ok hs))
theorem execCmpGeu_ok {x0 : Fin 50} {x1 : Bool} {x2 : BitVec 52} {s : State} (hs : State.Ok s) : OkOut (execCmpGeu x0 x1 x2 s) := by
  unfold execCmpGeu
  exact (OkOut.next (State.cmp_ok hs))
theorem execPand_ok {x0 : Fin 50} {x1 : BitVec 52} {s : State} (hs : State.Ok s) : OkOut (execPand x0 x1 s) := by
  unfold execPand
  exact (OkOut.next (State.pred_ok hs))
theorem execPor_ok {x0 : Fin 50} {x1 : BitVec 52} {s : State} (hs : State.Ok s) : OkOut (execPor x0 x1 s) := by
  unfold execPor
  exact (OkOut.next (State.pred_ok hs))
theorem execPxor_ok {x0 : Fin 50} {x1 : BitVec 52} {s : State} (hs : State.Ok s) : OkOut (execPxor x0 x1 s) := by
  unfold execPxor
  exact (OkOut.next (State.pred_ok hs))
theorem execPandn_ok {x0 : Fin 50} {x1 : BitVec 52} {s : State} (hs : State.Ok s) : OkOut (execPandn x0 x1 s) := by
  unfold execPandn
  exact (OkOut.next (State.pred_ok hs))
theorem execAmov_ok {x0 : Fin 50} {x1 : BitVec 52} {s : State} (hs : State.Ok s) : OkOut (execAmov x0 x1 s) := by
  unfold execAmov
  exact (OkOut.next (State.issue_ok hs (fun _ h1 => (State.retire_ok (State.setA_ok h1)))))
theorem execSmov_ok {x0 : Fin 50} {x1 : BitVec 52} {s : State} (hs : State.Ok s) : OkOut (execSmov x0 x1 s) := by
  unfold execSmov
  exact (OkOut.next (State.issue_ok hs (fun _ h1 => (State.retire_ok (State.setS_ok h1)))))
theorem State.addrAdd_ok {s : State} {x1 : Nat} {x2 : Nat} {x3 : Form} {x4 : Int} (hs : State.Ok s) : State.Ok (State.addrAdd s x1 x2 x3
    x4) := by
  unfold State.addrAdd
  exact (State.issue_ok hs (fun _ h1 => (State.retire_ok (State.setA_ok h1))))
theorem execAadd_ok {x0 : Fin 50} {x1 : BitVec 52} {s : State} (hs : State.Ok s) : OkOut (execAadd x0 x1 s) := by
  unfold execAadd
  exact (OkOut.next (State.addrAdd_ok hs))
theorem execAaddi_ok {x0 : Fin 50} {x1 : BitVec 52} {s : State} (hs : State.Ok s) : OkOut (execAaddi x0 x1 s) := by
  unfold execAaddi
  exact (OkOut.next (State.addrAdd_ok hs))
theorem execBr_ok {x0 : Fin 50} {x1 : BitVec 52} {s : State} (hs : State.Ok s) : OkOut (execBr x0 x1 s) := by
  unfold execBr
  exact (OkOut.next (State.issue_ok hs (fun _ h1 => (State.retireTo_ok h1))))
theorem execCall_ok {x0 : Fin 50} {x1 : BitVec 52} {s : State} (hs : State.Ok s) : OkOut (execCall x0 x1 s) := by
  unfold execCall
  exact (OkOut.next (State.issue_ok hs (fun _ h1 => (State.retireTo_ok (State.setA_ok h1)))))
theorem execRet_ok {x0 : Fin 50} {x1 : BitVec 52} {s : State} (hs : State.Ok s) : OkOut (execRet x0 x1 s) := by
  unfold execRet
  exact (OkOut.next (State.issue_ok hs (fun _ h1 => (State.retireTo_ok h1))))
theorem execLoop_ok {x0 : Fin 50} {x1 : BitVec 52} {s : State} (hs : State.Ok s) : OkOut (execLoop x0 x1 s) := by
  unfold execLoop
  exact (OkOut.next (State.issue_ok hs (fun _ h1 => (cut (fun h2 => (iteP (State.retire_ok h2) (State.retireTo_ok h2))) (State.setS_ok
      h1)))))

/-! Observe. -/

theorem execTelemetrySample_ok {s : State} (hs : State.Ok s) : OkOut (execTelemetrySample s) := by
  unfold execTelemetrySample
  exact (State.granting_ok hs (OkOut.next (iteP hs (State.Ok.upd (State.telPush_ok hs)))))
theorem State.ringWrite_ok {s : State} {x1 : Nat} {x2 : List Byte} (hs : State.Ok s) : State.Ok (State.ringWrite s x1 x2) := by
  unfold State.ringWrite
  exact (State.setRink_ok (State.present_ok hs))
theorem State.ringTo_ok {s : State} {x1 : Nat} (hs : State.Ok s) : State.Ok (State.ringTo s x1) := by
  unfold State.ringTo
  exact (iteP (State.addMod_ok (State.wr_ok hs)) (State.wr_ok hs))
theorem State.ringPut_ok {s : State} {x1 : List Byte} (hs : State.Ok s) : State.Ok (State.ringPut s x1) := by
  unfold State.ringPut
  exact (cut (fun h1 => (iteP (State.ringTo_ok (State.ringWrite_ok h1)) (State.ringTo_ok (State.ringWrite_ok (State.addMod_ok
      (State.ringWrite_ok h1)))))) (State.repeatEvent_ok hs))
theorem execTelemetryRecordWrite_ok {s : State} (hs : State.Ok s) : OkOut (execTelemetryRecordWrite s) := by
  unfold execTelemetryRecordWrite
  exact (State.granting_ok hs (OkOut.next (by
    dsimp -failIfUnchanged only
    split
    · exact hs
    · exact (cut (fun h1 => (iteP (State.ringPut_ok h1) (State.addSat_ok h1))) (State.Ok.upd hs)))))
theorem State.telCtl_ok {s : State} {x1 : Word} (hs : State.Ok s) : State.Ok (State.telCtl s x1) := by
  unfold State.telCtl
  exact (cut (fun h2 => (iteP (State.setBit_ok h2) (iteP (State.setBit_ok h2) (iteP h2 (State.setBit_ok h2))))) (State.setBit_ok
      (State.wr_ok (State.wr_ok hs))))
theorem execTelCtlWrite_ok {x0 : Word} {s : State} (hs : State.Ok s) : OkOut (execTelCtlWrite x0 s) := by
  unfold execTelCtlWrite
  exact (State.live_ok hs (OkOut.next (State.telCtl_ok hs)))
theorem State.windowRead_ok {s : State} {x1 : Nat} (hs : State.Ok s) : OkSnd (State.windowRead s x1) := by
  unfold State.windowRead
  exact (OkSnd.mk (State.repeatEvent_ok (State.checkRead_ok hs)))
theorem execReadWindowRead_ok {x0 : BitVec 24} {s : State} (hs : State.Ok s) : OkOut (execReadWindowRead x0 s) := by
  unfold execReadWindowRead
  exact (State.granting_ok hs (OkOut.next (iteP hs (iteP (State.emit_ok (OkSnd.snd (State.windowRead_ok hs))) (State.emit_ok hs)))))
theorem execStandstillArmed_ok {s : State} (hs : State.Ok s) : OkOut (execStandstillArmed s) := by
  unfold execStandstillArmed
  exact (State.live_ok hs (OkOut.next (iteP (State.standstill_ok hs) hs)))
theorem State.ssControl_ok {s : State} {x1 : Word} {x2 : Bool} (hs : State.Ok s) : State.Ok (State.ssControl s x1 x2) := by
  unfold State.ssControl
  exact (cut (fun h1 => (cut (fun h2 => (iteP (State.standstill_ok h2) h2)) (iteP (State.setBit_ok h1) (iteP (State.setBit_ok
      (State.armAt_ok h1)) (State.setBit_ok h1))))) (State.setBit_ok hs))
theorem execStandstillNow_ok {x0 : Word} {s : State} (hs : State.Ok s) : OkOut (execStandstillNow x0 s) := by
  unfold execStandstillNow
  exact (State.live_ok hs (OkOut.next (State.ssControl_ok hs)))
theorem execStandstillWriteDone_ok {s : State} (hs : State.Ok s) : OkOut (execStandstillWriteDone s) := by
  unfold execStandstillWriteDone
  exact (State.granting_ok hs (OkOut.next (iteP hs (State.Ok.upd (State.setBit_ok (State.setBit_ok (State.repeatEvent_ok (State.setRink_ok
      (State.present_ok hs)))))))))
theorem State.dbgStream_ok {s : State} {x1 : Word} {x2 : Nat} (hs : State.Ok s) : State.Ok (State.dbgStream s x1 x2) := by
  unfold State.dbgStream
  exact (cut (fun h1 => (iteP h1 (iteP (State.setEngState_ok h1) (iteP (State.setEngState_ok (State.updStream_ok h1)) h1)))) (State.wr_ok
      hs))
theorem execDbgResume_ok {x0 : Word} {s : State} (hs : State.Ok s) : OkOut (execDbgResume x0 s) := by
  unfold execDbgResume
  exact (State.live_ok hs (OkOut.next (State.dbgStream_ok hs)))
theorem execDbgStep_ok {x0 : Word} {s : State} (hs : State.Ok s) : OkOut (execDbgStep x0 s) := by
  unfold execDbgStep
  exact (State.live_ok hs (OkOut.next (State.dbgStream_ok hs)))
theorem execFreezeAssert_ok {s : State} (hs : State.Ok s) : OkOut (execFreezeAssert s) := by
  unfold execFreezeAssert
  exact (OkOut.next (iteP hs (State.Ok.upd (OkSnd.snd (State.free_ok (State.trouble_ok (State.setBit_ok hs)))))))
theorem execFreezeMemStop_ok {s : State} (hs : State.Ok s) : OkOut (execFreezeMemStop s) := by
  unfold execFreezeMemStop
  exact (OkOut.next (iteP hs (foldl_ok (fun _ _ h1 => (iteP (foldl_ok (fun _ _ h2 => (State.emit_ok h2)) (State.wr_ok h1)) h1)) hs)))
theorem execFreezeClockStop_ok {s : State} (hs : State.Ok s) : OkOut (execFreezeClockStop s) := by
  unfold execFreezeClockStop
  exact (OkOut.next (iteP (State.Ok.upd hs) hs))
theorem State.tapIr_ok {s : State} {x1 : Nat} (hs : State.Ok s) : State.Ok (State.tapIr s x1) := by
  unfold State.tapIr
  exact (State.updPower_ok hs)
theorem State.tapBypass_ok {s : State} (hs : State.Ok s) : State.Ok (State.tapBypass s) := by
  unfold State.tapBypass
  exact (State.tapIr_ok hs)
theorem execScanDump_ok {s : State} (hs : State.Ok s) : OkOut (execScanDump s) := by
  unfold execScanDump
  exact (OkOut.next (iteP (State.emit_ok (State.tapIr_ok hs)) (State.tapBypass_ok hs)))
theorem execRoStart_ok {x0 : BitVec 16} {s : State} (hs : State.Ok s) : OkOut (execRoStart x0 s) := by
  unfold execRoStart
  exact (OkOut.next (iteP (State.emit_ok (State.tapIr_ok hs)) (State.tapBypass_ok hs)))
theorem execIdcode_ok {s : State} (hs : State.Ok s) : OkOut (execIdcode s) := by
  unfold execIdcode
  exact (OkOut.next (State.emit_ok (State.tapIr_ok hs)))
theorem execBypass_ok {s : State} (hs : State.Ok s) : OkOut (execBypass s) := by
  unfold execBypass
  exact (OkOut.next (State.tapIr_ok hs))
theorem execSamplePreload_ok {s : State} (hs : State.Ok s) : OkOut (execSamplePreload s) := by
  unfold execSamplePreload
  exact (OkOut.next (iteP (State.tapBypass_ok hs) (State.emit_ok (State.updPower_ok (State.tapIr_ok (OkSnd.snd (State.free_ok hs)))))))
theorem execExtest_ok {x0 : Word} {s : State} (hs : State.Ok s) : OkOut (execExtest x0 s) := by
  unfold execExtest
  exact (OkOut.next (iteP (State.tapBypass_ok hs) (State.emit_ok (State.updPower_ok (State.tapIr_ok hs)))))
theorem execTapReset_ok {s : State} (hs : State.Ok s) : OkOut (execTapReset s) := by
  unfold execTapReset
  exact (OkOut.next (State.updPower_ok (State.tapIr_ok hs)))

/-! Sequencer. -/

theorem execTemplateRelease_ok {s : State} (hs : State.Ok s) : OkOut (execTemplateRelease s) := by
  unfold execTemplateRelease
  exact (State.live_ok hs (OkOut.next (by
    dsimp -failIfUnchanged only
    split
    · exact hs
    · exact (cut (fun h2 => (iteP (State.issueFault_ok h2) (State.updStream_ok h2))) (State.trace_ok (State.addMod_ok (State.updCtx_ok
        hs)))))))
theorem execInstanceStart_ok {x0 : Fin 50} {s : State} (hs : State.Ok s) : OkOut (execInstanceStart x0 s) := by
  unfold execInstanceStart
  exact (State.live_ok hs (OkOut.next (iteP hs (by
    split
    · exact hs
    · exact (State.startInstance_ok (State.updStream_ok hs))))))
theorem State.commitTemplates_ok {s : State} {x1 : Nat} (hs : State.Ok s) : State.Ok (State.commitTemplates s x1) := by
  unfold State.commitTemplates
  exact (iteP (State.report_ok hs) (iteP (State.setBit_ok hs) (State.wr_ok hs)))
theorem execCommitGen_ok {s : State} (hs : State.Ok s) : OkOut (execCommitGen s) := by
  unfold execCommitGen
  exact (State.live_ok hs (OkOut.next (State.commitTemplates_ok hs)))
theorem execCommitRt_ok {s : State} (hs : State.Ok s) : OkOut (execCommitRt s) := by
  unfold execCommitRt
  exact (State.live_ok hs (OkOut.next (State.commitTemplates_ok hs)))

/-! Wcp. -/

theorem State.setHostState_ok {s : State} {x1 : Nat} {x2 : Nat} (hs : State.Ok s) : State.Ok (State.setHostState s x1 x2) := by
  unfold State.setHostState
  exact (State.wr_ok hs)
theorem State.writeHpCtl_ok {s : State} {x1 : Nat} {x2 : Word} {x3 : Bool} (hs : State.Ok s) : State.Ok (State.writeHpCtl s x1 x2 x3) := by
  unfold State.writeHpCtl
  exact (State.setBit_ok (State.wr_ok (State.wr_ok (State.wr_ok (State.wr_ok hs)))))
theorem execHostPortEnable_ok {x0 : Fin 2} {x1 : Word} {s : State} (hs : State.Ok s) : OkOut (execHostPortEnable x0 x1 s) := by
  unfold execHostPortEnable
  exact (State.live_ok hs (cut (fun h1 => (OkOut.next (iteP (State.setHostState_ok h1) h1))) (State.writeHpCtl_ok hs)))
theorem execHostPortDisable_ok {x0 : Fin 2} {x1 : Word} {s : State} (hs : State.Ok s) : OkOut (execHostPortDisable x0 x1 s) := by
  unfold execHostPortDisable
  exact (State.live_ok hs (cut (fun h1 => (OkOut.next (iteP h1 (State.setHostState_ok h1)))) (State.writeHpCtl_ok hs)))
theorem execHostTrainingDone_ok {x0 : Fin 2} {s : State} (hs : State.Ok s) : OkOut (execHostTrainingDone x0 s) := by
  unfold execHostTrainingDone
  exact (State.live_ok hs (OkOut.next (iteP hs (State.setHostState_ok hs))))
theorem execHostLinkLoss_ok {x0 : Fin 2} {s : State} (hs : State.Ok s) : OkOut (execHostLinkLoss x0 s) := by
  unfold execHostLinkLoss
  exact (State.live_ok hs (OkOut.next (iteP (State.report_ok (State.setHostState_ok (State.wr_ok hs))) (iteP (State.setHostState_ok hs)
      hs))))
theorem State.releaseHost_ok {s : State} (hs : State.Ok s) : State.Ok (State.releaseHost s) := by
  unfold State.releaseHost
  exact (foldl_ok (fun _ _ h1 => (iteP (State.setHostState_ok h1) h1)) hs)
theorem State.discardHost_ok {s : State} (hs : State.Ok s) : State.Ok (State.discardHost s) := by
  unfold State.discardHost
  exact (foldl_ok (fun _ _ h1 => (State.setHostState_ok h1)) hs)
theorem State.onFrame_ok {s : State} {x1 : Nat} {x2 : Frame} {x3 : State → State} (hs : State.Ok s) (g3 : ∀ y0, State.Ok y0 → State.Ok (x3
    y0)) : State.Ok (State.onFrame s x1 x2 x3) := by
  unfold State.onFrame
  exact (iteP (g3 _ (State.addSat_ok hs)) hs)
theorem execArpRx_ok {x0 : Fin 2} {x1 : Frame} {s : State} (hs : State.Ok s) : OkOut (execArpRx x0 x1 s) := by
  unfold execArpRx
  exact (State.live_ok hs (OkOut.next (State.onFrame_ok hs (fun _ h1 => (by
    split
    · exact (State.hostDrop_ok h1)
    · exact (iteP (State.emit_ok h1) (State.hostDrop_ok h1)))))))
theorem execNeighbourSolicitationRx_ok {x0 : Fin 2} {x1 : Frame} {s : State} (hs : State.Ok s) : OkOut (execNeighbourSolicitationRx x0 x1
    s) := by
  unfold execNeighbourSolicitationRx
  exact (State.live_ok hs (OkOut.next (State.onFrame_ok hs (fun _ h1 => (by
    split
    · exact (State.hostDrop_ok h1)
    · exact (iteP (State.emit_ok h1) (State.hostDrop_ok h1)))))))
theorem execFrameDiscard_ok {x0 : DiscardedFrame} {s : State} (hs : State.Ok s) : OkOut (execFrameDiscard x0 s) := by
  unfold execFrameDiscard
  exact (State.live_ok hs (OkOut.next (State.onFrame_ok hs (fun _ h1 => (State.hostDrop_ok (State.addSat_ok h1))))))
theorem State.wcpFrame_ok {s : State} {x1 : Nat} {x2 : Nat} {x3 : Frame} {x4 : State → Dgram → State} (hs : State.Ok s) (g4 : ∀ y0 y1,
    State.Ok y0 → State.Ok (x4 y0 y1)) : State.Ok (State.wcpFrame s x1 x2 x3 x4) := by
  unfold State.wcpFrame
  exact (State.onFrame_ok hs (fun _ h1 => (iteP h1 (iteP (State.hostDrop_ok h1) (by
    split
    · exact (State.hostDrop_ok h1)
    · exact (iteP (State.hostDrop_ok h1) (iteP (State.addSat_ok h1) (g4 _ _ h1))))))))
theorem State.tagFail_ok {s : State} {x1 : Nat} (hs : State.Ok s) : State.Ok (State.tagFail s x1) := by
  unfold State.tagFail
  exact (cut (fun h1 => (iteP h1 (State.report_ok (State.updSess_ok h1)))) (State.addSat_ok hs))
theorem State.verified_ok {s : State} {x1 : Nat} {x2 : Dgram} {x3 : State → Nat → List Byte → State} (hs : State.Ok s) (g3 : ∀ y0 y1 y2,
    State.Ok y0 → State.Ok (x3 y0 y1 y2)) : State.Ok (State.verified s x1 x2 x3) := by
  unfold State.verified
  exact (iteP hs (by
    split
    · exact (State.tagFail_ok hs)
    · exact (g3 _ _ _ (State.updSess_ok (State.wr_ok hs)))))
theorem State.closeSession_ok {s : State} {x1 : Nat} (hs : State.Ok s) : State.Ok (State.closeSession s x1) := by
  unfold State.closeSession
  exact (State.settleLost_ok (State.freeSession_ok (State.purgeCapsules_ok hs)))
theorem State.randomBytes_ok {s : State} {x1 : Nat} (hs : State.Ok s) : OkSnd (State.randomBytes s x1) := by
  unfold State.randomBytes
  exact (OkSnd.mk (State.Ok.upd hs))
theorem execInitRx_ok {x0 : Fin 2} {x1 : Frame} {s : State} (hs : State.Ok s) : OkOut (execInitRx x0 x1 s) := by
  unfold execInitRx
  exact (State.live_ok hs (OkOut.next (State.wcpFrame_ok hs (fun _ _ h1 => (iteP (State.addSat_ok h1) (by
    dsimp -failIfUnchanged only
    split
    · exact (iteP (State.report_ok h1) (State.sendUdp_ok (State.wr_ok (State.wr_ok (State.wr_ok (State.wr_ok (State.setSess_ok
        (State.purgeCapsules_ok (OkSnd.snd (State.randomBytes_ok (OkSnd.snd (State.randomBytes_ok (OkSnd.snd (State.randomBytes_ok
        h1))))))))))))))
    · exact (State.report_ok h1)))))))
theorem execFinRx_ok {x0 : Fin 2} {x1 : Frame} {s : State} (hs : State.Ok s) : OkOut (execFinRx x0 x1 s) := by
  unfold execFinRx
  exact (State.live_ok hs (OkOut.next (State.wcpFrame_ok hs (fun _ _ h1 => (iteP h1 (iteP (cut (fun h4 => (iteP (State.drainRing_ok h4)
      h4)) (State.wr_ok (State.wr_ok (State.wr_ok (State.wr_ok (State.wr_ok (State.setSess_ok h1))))))) (State.report_ok
      (State.closeSession_ok h1))))))))
theorem execHandshakeTimeout_ok {x0 : Fin 16} {s : State} (hs : State.Ok s) : OkOut (execHandshakeTimeout x0 s) := by
  unfold execHandshakeTimeout
  exact (State.live_ok hs (OkOut.next (iteP (State.report_ok (State.closeSession_ok hs)) hs)))
theorem execCloseRx_ok {x0 : Fin 2} {x1 : Frame} {s : State} (hs : State.Ok s) : OkOut (execCloseRx x0 x1 s) := by
  unfold execCloseRx
  exact (State.live_ok hs (OkOut.next (State.wcpFrame_ok hs (fun _ _ h1 => (State.verified_ok h1 (fun _ _ _ h2 => (State.closeSession_ok
      h2)))))))
theorem execSessionIdleTimeout_ok {x0 : Fin 16} {s : State} (hs : State.Ok s) : OkOut (execSessionIdleTimeout x0 s) := by
  unfold execSessionIdleTimeout
  exact (State.live_ok hs (OkOut.next (iteP (State.closeSession_ok hs) hs)))
theorem execSessionKill_ok {x0 : Fin 16} {s : State} (hs : State.Ok s) : OkOut (execSessionKill x0 s) := by
  unfold execSessionKill
  exact (State.live_ok hs (OkOut.next (State.closeSession_ok hs)))
theorem State.popCap_ok {s : State} {x1 : Nat} {x2 : AccCap} {x3 : Bool} (hs : State.Ok s) : State.Ok (State.popCap s x1 x2 x3) := by
  unfold State.popCap
  exact (cut (fun h1 => (iteP (State.devReleaseOpt_ok h1) h1)) (State.updSess_ok hs))
theorem State.skipBad_ok {s : State} {x1 : Nat} {x2 : Nat} (hs : State.Ok s) : State.Ok (State.skipBad s x1 x2) := by
  induction x2 generalizing s with
  | zero => exact hs
  | succ n ih =>
    unfold State.skipBad
    split
    · exact hs
    · exact iteP (ih (State.report_ok (State.popCap_ok hs))) hs
theorem execCapsuleRx_ok {x0 : Fin 2} {x1 : Frame} {s : State} (hs : State.Ok s) : OkOut (execCapsuleRx x0 x1 s) := by
  unfold execCapsuleRx
  exact (State.live_ok hs (OkOut.next (State.wcpFrame_ok hs (fun _ _ h1 => (State.verified_ok h1 (fun _ _ _ h2 => (iteP (State.updSess_ok
      (State.addSat_ok h2)) (iteP (State.addSat_ok h2) (iteP (State.addSat_ok h2) (by
    dsimp -failIfUnchanged only
    split
    · exact (State.noQuota_ok h2)
    · rename_i q3; exact (State.skipBad_ok (State.wr_ok (State.setSess_ok (State.setRink_ok ((State.ingressTake_ok h2) _ q3)))))))))))))))
theorem execWcpAckSend_ok {x0 : Fin 16} {s : State} (hs : State.Ok s) : OkOut (execWcpAckSend x0 s) := by
  unfold execWcpAckSend
  exact (State.live_ok hs (OkOut.next (iteP hs (State.closeExhausted_ok (State.sendWcp_ok (State.setSess_ok hs))))))
theorem State.pumpCapsules_ok {s : State} {x1 : Nat} {x2 : Nat} (hs : State.Ok s) : State.Ok (State.pumpCapsules s x1 x2) := by
  induction x2 generalizing s with
  | zero => exact hs
  | succ n ih =>
    unfold State.pumpCapsules
    dsimp only
    split
    · exact hs
    · exact iteP hs (ih (State.updSess_ok (State.sendCapsule_ok (State.setSess_ok hs))))
theorem State.drainAcked_ok {s : State} {x1 : Option (Nat × Nat × Nat × Nat)} (hs : State.Ok s) : State.Ok (State.drainAcked s x1) := by
  unfold State.drainAcked
  exact (by
    split
    · exact hs
    · exact (by
      split
      · exact (by
        split
        · exact (State.endOp_ok (State.addCc_ok hs))
        · exact hs)
      · exact hs))
theorem execAckRx_ok {x0 : Fin 2} {x1 : Frame} {s : State} (hs : State.Ok s) : OkOut (execAckRx x0 x1 s) := by
  unfold execAckRx
  exact (State.live_ok hs (OkOut.next (State.wcpFrame_ok hs (fun _ _ h1 => (State.verified_ok h1 (fun _ _ _ h2 => (State.closeExhausted_ok
      (State.pumpCapsules_ok (foldl_ok (fun _ _ h5 => (State.drainAcked_ok h5)) (State.setSess_ok h2))))))))))
theorem execWcpRetransmit_ok {x0 : Fin 16} {s : State} (hs : State.Ok s) : OkOut (execWcpRetransmit x0 s) := by
  unfold execWcpRetransmit
  exact (State.live_ok hs (OkOut.next (iteP hs (iteP (State.report_ok (State.closeSession_ok hs)) (foldl_ok (fun _ _ h2 =>
      (State.sendWcp_ok h2)) (State.setSess_ok hs))))))
theorem State.runCapsule_ok {s : State} {x1 : Nat} {x2 : Nat} {x3 : Nat} {x4 : State → AccCap → State} (hs : State.Ok s) (g4 : ∀ y0 y1,
    State.Ok y0 → State.Ok (x4 y0 y1)) : State.Ok (State.runCapsule s x1 x2 x3 x4) := by
  unfold State.runCapsule
  exact (by
    split
    · exact hs
    · exact (iteP hs (iteP (State.skipBad_ok (State.report_ok (State.popCap_ok hs))) (State.skipBad_ok (g4 _ _ hs)))))
theorem execPut_ok {x0 : Fin 16} {s : State} (hs : State.Ok s) : OkOut (execPut x0 s) := by
  unfold execPut
  exact (State.granting_ok hs (OkOut.next (State.runCapsule_ok hs (fun _ _ h1 => (iteP (State.report_ok (State.popCap_ok h1)) (iteP h1
      (iteP (State.updCtx_ok (State.popCap_ok h1)) (iteP (State.saturate_ok h1) (State.popCap_ok (State.repeatEvent_ok (State.addCc_ok
      (State.putWrite_ok h1))))))))))))
theorem execWcpNop_ok {x0 : Fin 16} {s : State} (hs : State.Ok s) : OkOut (execWcpNop x0 s) := by
  unfold execWcpNop
  exact (State.live_ok hs (OkOut.next (State.runCapsule_ok hs (fun _ _ h1 => (State.popCap_ok h1)))))
theorem State.applyHeldPuts_ok {s : State} {x1 : Nat} (hs : State.Ok s) : State.Ok (State.applyHeldPuts s x1) := by
  unfold State.applyHeldPuts
  exact (State.applyPuts_ok (State.updCtx_ok hs))

/-! Waits. -/

theorem State.ccWrite_ok {s : State} {x1 : Nat} {x2 : Nat} {x3 : Nat} {x4 : Bool} (hs : State.Ok s) : State.Ok (State.ccWrite s x1 x2 x3
    x4) := by
  unfold State.ccWrite
  exact (iteP (iteP (State.writeCc_ok hs) (State.addCc_ok hs)) (State.updStream_ok hs))
theorem execCcSet_ok {x0 : Fin 50} {x1 : BitVec 52} {s : State} (hs : State.Ok s) : OkOut (execCcSet x0 x1 s) := by
  unfold execCcSet
  exact (OkOut.next (State.issue_ok hs (fun _ h1 => (State.retire_ok (State.ccWrite_ok h1)))))
theorem execCcAdd_ok {x0 : Fin 50} {x1 : BitVec 52} {s : State} (hs : State.Ok s) : OkOut (execCcAdd x0 x1 s) := by
  unfold execCcAdd
  exact (OkOut.next (State.issue_ok hs (fun _ h1 => (State.retire_ok (State.ccWrite_ok h1)))))
theorem execCcRd_ok {x0 : Fin 50} {x1 : BitVec 52} {s : State} (hs : State.Ok s) : OkOut (execCcRd x0 x1 s) := by
  unfold execCcRd
  exact (OkOut.next (State.issue_ok hs (fun _ h1 => (State.retire_ok (State.setS_ok h1)))))
theorem execCcSetr_ok {x0 : Fin 50} {x1 : BitVec 52} {s : State} (hs : State.Ok s) : OkOut (execCcSetr x0 x1 s) := by
  unfold execCcSetr
  exact (OkOut.next (State.issue_ok hs (fun _ h1 => (State.retire_ok (State.ccWrite_ok h1)))))
theorem State.setWait_ok {s : State} {x1 : Nat} {x2 : Nat} {x3 : Nat} {x4 : Nat} (hs : State.Ok s) : State.Ok (State.setWait s x1 x2 x3 x4)
    := by
  unfold State.setWait
  exact (State.wr_ok (State.wr_ok (State.wr_ok hs)))
theorem State.waitCounter_ok {s : State} {x1 : Nat} {x2 : Nat} {x3 : Nat} (hs : State.Ok s) : State.Ok (State.waitCounter s x1 x2 x3) := by
  unfold State.waitCounter
  exact (iteP (State.retire_ok hs) (State.updStream_ok (State.setWait_ok (State.setEngState_ok hs))))
theorem execWaitCc_ok {x0 : Fin 50} {x1 : BitVec 52} {s : State} (hs : State.Ok s) : OkOut (execWaitCc x0 x1 s) := by
  unfold execWaitCc
  exact (OkOut.next (State.issue_ok hs (fun _ h1 => (State.waitCounter_ok h1))))
theorem execWaitCcr_ok {x0 : Fin 50} {x1 : BitVec 52} {s : State} (hs : State.Ok s) : OkOut (execWaitCcr x0 x1 s) := by
  unfold execWaitCcr
  exact (OkOut.next (State.issue_ok hs (fun _ h1 => (State.waitCounter_ok h1))))
theorem State.waitLap_ok {s : State} {x1 : Nat} {x2 : Nat} (hs : State.Ok s) : State.Ok (State.waitLap s x1 x2) := by
  unfold State.waitLap
  exact (cut (fun h1 => (iteP (State.retire_ok h1) (State.updStream_ok (State.setWait_ok (State.setEngState_ok h1))))) (State.armAt_ok hs))
theorem execWaitSt_ok {x0 : Fin 50} {x1 : BitVec 52} {s : State} (hs : State.Ok s) : OkOut (execWaitSt x0 x1 s) := by
  unfold execWaitSt
  exact (OkOut.next (State.issue_ok hs (fun _ h1 => (State.waitLap_ok h1))))
theorem execWaitCt_ok {x0 : Fin 50} {x1 : BitVec 52} {s : State} (hs : State.Ok s) : OkOut (execWaitCt x0 x1 s) := by
  unfold execWaitCt
  exact (OkOut.next (State.issue_ok hs (fun _ h1 => (State.waitLap_ok h1))))
theorem execWaitSatisfied_ok {x0 : Fin 50} {s : State} (hs : State.Ok s) : OkOut (execWaitSatisfied x0 s) := by
  unfold execWaitSatisfied
  exact (State.granting_ok hs (OkOut.next (iteP (State.retire_ok (State.setReg_ok (State.setEngState_ok hs))) hs)))
theorem execWaitLimitExpiry_ok {x0 : Fin 50} {s : State} (hs : State.Ok s) : OkOut (execWaitLimitExpiry x0 s) := by
  unfold execWaitLimitExpiry
  exact (State.granting_ok hs (OkOut.next (iteP (State.issueFault_ok hs) hs)))
theorem State.requestBuf_ok {s : State} {x1 : Nat} {x2 : Nat} {x3 : Nat} (hs : State.Ok s) : State.Ok (State.requestBuf s x1 x2 x3) := by
  unfold State.requestBuf
  exact (State.grantUpTo_ok (State.joinWait_ok (State.updStream_ok (State.setWait_ok (State.setEngState_ok hs)))))
theorem execBufAlloc_ok {x0 : Fin 50} {x1 : BitVec 52} {s : State} (hs : State.Ok s) : OkOut (execBufAlloc x0 x1 s) := by
  unfold execBufAlloc
  exact (OkOut.next (State.issue_ok hs (fun _ h1 => (State.requestBuf_ok h1))))
theorem execBufTry_ok {x0 : Fin 50} {x1 : BitVec 52} {s : State} (hs : State.Ok s) : OkOut (execBufTry x0 x1 s) := by
  unfold execBufTry
  exact (OkOut.next (State.issue_ok hs (fun _ h1 => (cut (fun h2 => (iteP (State.retire_ok (State.setS_ok (State.setReg_ok
      (State.setEngState_ok (State.addSat_ok (State.dropWaits_ok h2)))))) h2)) (State.requestBuf_ok h1)))))
theorem execBufRef_ok {x0 : Fin 50} {x1 : BitVec 52} {s : State} (hs : State.Ok s) : OkOut (execBufRef x0 x1 s) := by
  unfold execBufRef
  exact (OkOut.next (State.issue_ok hs (fun _ h1 => (State.retire_ok (State.changeRef_ok h1)))))
theorem execBufFree_ok {x0 : Fin 50} {x1 : BitVec 52} {s : State} (hs : State.Ok s) : OkOut (execBufFree x0 x1 s) := by
  unfold execBufFree
  exact (OkOut.next (State.issue_ok hs (fun _ h1 => (State.retire_ok (State.changeRef_ok h1)))))
theorem execBufAddr_ok {x0 : Fin 50} {x1 : BitVec 52} {s : State} (hs : State.Ok s) : OkOut (execBufAddr x0 x1 s) := by
  unfold execBufAddr
  exact (OkOut.next (State.issue_ok hs (fun _ h1 => (State.retire_ok (State.setA_ok h1)))))
theorem execBufSize_ok {x0 : Fin 50} {x1 : BitVec 52} {s : State} (hs : State.Ok s) : OkOut (execBufSize x0 x1 s) := by
  unfold execBufSize
  exact (OkOut.next (State.issue_ok hs (fun _ h1 => (State.retire_ok (State.setS_ok h1)))))

/-! MemInstr. -/

theorem State.enterMem_ok {s : State} {x1 : Nat} {x2 : List (Nat × Nat × Nat)} {x3 : Bool} {x4 : State → State} (hs : State.Ok s) (g4 : ∀
    y0, State.Ok y0 → State.Ok (x4 y0)) : State.Ok (State.enterMem s x1 x2 x3 x4) := by
  unfold State.enterMem
  exact (iteP (State.stall_ok hs) (iteP (foldl_ok (fun _ _ h1 => (State.chEntered_ok (State.overflow_ok h1))) (g4 _ hs)) (g4 _ hs)))
theorem execLd_ok {x0 : Fin 50} {x1 : BitVec 52} {s : State} (hs : State.Ok s) : OkOut (execLd x0 x1 s) := by
  unfold execLd
  exact (OkOut.next (State.issue_ok hs (fun _ h1 => (iteP (State.remoteIssue_ok h1) (State.enterMem_ok h1 (fun _ h2 => (cut (fun h3 =>
      (State.sendOn_ok (iteP h3 (State.updStream_ok h3)))) (State.beginOp_ok (OkSnd.snd (State.besideRead_ok (State.checkRead_ok
      h2)))))))))))
theorem execSt_ok {x0 : Fin 50} {x1 : BitVec 52} {s : State} (hs : State.Ok s) : OkOut (execSt x0 x1 s) := by
  unfold execSt
  exact (OkOut.next (State.issue_ok hs (fun _ h1 => (iteP (State.remoteIssue_ok h1) (State.enterMem_ok h1 (fun _ h2 => (cut (fun h3 =>
      (State.sendOn_ok (iteP (State.unplace_ok h3) h3))) (State.streamWrite_ok (State.beginOp_ok (OkSnd.snd (State.besideWrite_ok
      h2)))))))))))
theorem State.served_ok {s : State} {x1 : MemOp} (hs : State.Ok s) : State.Ok (State.served s x1) := by
  unfold State.served
  exact (by
    dsimp -failIfUnchanged only
    split
    · exact (iteP (State.demand_ok hs) hs)
    · exact (cut (fun h1 => (iteP (State.demand_ok h1) h1)) (iteP (State.demand_ok hs) hs))
    · exact (iteP (State.demand_ok hs) hs))
theorem execLdComplete_ok {x0 : Fin 50} {x1 : Nat} {x2 : Upsets} {s : State} (hs : State.Ok s) : OkOut (execLdComplete x0 x1 x2 s) := by
  unfold execLdComplete
  exact (State.granting_ok hs (cut (fun h1 => (OkOut.next (by
    split
    · exact h1
    · exact (iteP h1 (by
      split
      · exact (by
        split
        · exact (State.streamFault_ok (State.served_ok h1))
        · exact (State.endOp_ok (State.updStream_ok (State.setS_ok (State.served_ok h1)))))
      · exact (by
        split
        · exact (State.streamFault_ok h1)
        · exact (State.endOp_ok (State.updStream_ok (State.setV_ok h1))))
      · exact h1))))) (State.upset_ok hs)))
theorem execStoreComplete_ok {x0 : Fin 50} {x1 : Nat} {s : State} (hs : State.Ok s) : OkOut (execStoreComplete x0 x1 s) := by
  unfold execStoreComplete
  exact (State.granting_ok hs (OkOut.next (by
    split
    · exact hs
    · exact (by
      split
      · exact (iteP (State.endOp_ok (State.served_ok hs)) hs)
      · exact (iteP (State.endOp_ok (State.served_ok hs)) hs)
      · exact hs))))
theorem execXmov_ok {x0 : Fin 50} {x1 : BitVec 52} {s : State} (hs : State.Ok s) : OkOut (execXmov x0 x1 s) := by
  unfold execXmov
  exact (OkOut.next (State.issue_ok hs (fun _ h1 => (iteP (State.retire_ok (State.addCc_ok h1)) (State.enterMem_ok h1 (fun _ h2 => (cut
      (fun h3 => (cut (fun h4 => (State.sendOn_ok (iteP (State.streamWrite_ok h4) h4))) (State.beginOp_ok (OkSnd.snd (State.besideWrite_ok
      (OkSnd.snd (iteP (State.freeBytes_ok h3) (State.besideRead_ok h3)))))))) (State.checkRead_ok h2))))))))
theorem execXmovComplete_ok {x0 : Fin 50} {x1 : Nat} {x2 : Upsets} {s : State} (hs : State.Ok s) : OkOut (execXmovComplete x0 x1 x2 s) := by
  unfold execXmovComplete
  exact (State.granting_ok hs (cut (fun h1 => (OkOut.next (by
    split
    · exact h1
    · exact (iteP h1 (by
      split
      · exact (by
        split
        · exact (State.streamFault_ok (State.served_ok h1))
        · exact (State.endOp_ok (State.addCc_ok (State.copyEnds_ok (State.served_ok h1)))))
      · exact h1))))) (State.upset_ok hs)))

/-! Snapshot. -/

theorem State.allPending_ok {s : State} {x1 : Nat} (hs : State.Ok s) : State.Ok (State.allPending s x1) := by
  unfold State.allPending
  exact (State.updSnap_ok hs)
theorem execSnpCfgWrite_ok {x0 : BitVec 24} {x1 : Word} {s : State} (hs : State.Ok s) : OkOut (execSnpCfgWrite x0 x1 s) := by
  unfold execSnpCfgWrite
  exact (State.live_ok hs (OkOut.next (iteP (iteP (State.applySetting_ok hs) (State.report_ok hs)) (by
    split
    · exact hs
    · exact (iteP (State.applySetting_ok hs) (iteP (State.allPending_ok (State.applySetting_ok hs)) (State.report_ok hs)))))))
theorem State.snapCopy_ok {s : State} {x1 : Nat} {x2 : Nat} {x3 : Nat} {x4 : State → State} (hs : State.Ok s) (g4 : ∀ y0, State.Ok y0 →
    State.Ok (x4 y0)) : State.Ok (State.snapCopy s x1 x2 x3 x4) := by
  unfold State.snapCopy
  exact (iteP hs (cut (fun h1 => (iteP (State.contextFault_ok h1) (g4 _ (State.copyMem_ok (State.demand_ok h1))))) (State.memRead_ok
      (State.demand_ok hs))))
theorem execSnpSweepPage_ok {x0 : Fin 2} {x1 : Upsets} {s : State} (hs : State.Ok s) : OkOut (execSnpSweepPage x0 x1 s) := by
  have g3 : (s.upset x1).Ok := State.upset_ok hs
  have key : ∀ a b (f : State → State), (∀ s : State, s.Ok → (f s).Ok) → ((s.upset x1).snapCopy x0 a b f).Ok := fun _ _ _ h =>
      State.snapCopy_ok g3 h
  have all : ∀ (n : Nat) (g : Nat → Nat → (State → State) → State) (f : Nat → Option Nat) (q : Option Nat),
      (∀ a b (f : State → State), (∀ s : State, s.Ok → (f s).Ok) → (g a b f).Ok) → State.Ok (match q with
        | none => (s.upset x1)
        | some p => match f p with
          | none => (s.upset x1)
          | some o => g (p * n) ((s.upset x1).imageBase x0 false + o) (fun (s : State) => (s.setPage x0 p PageSt.clean).retryHeld)) := by
    intro n g f q key
    cases q with
    | none => exact g3
    | some p =>
      dsimp only
      cases f p with
      | none => exact g3
      | some o => exact key _ _ _ (fun _ h => State.retryHeld_ok (State.setPage_ok h))
  exact State.granting_ok hs (OkOut.next (iteP g3 (all 4096 ((s.upset x1).snapCopy x0) ((s.upset x1).imageOffset x0) _ key)))
theorem execWritePreserveDone_ok {x0 : Fin 2} {x1 : Nat} {x2 : Upsets} {s : State} (hs : State.Ok s) : OkOut (execWritePreserveDone x0 x1
    x2 s) := by
  unfold execWritePreserveDone
  exact (State.granting_ok hs (cut (fun h1 => (OkOut.next (iteP h1 (cut (fun h2 => (iteP (State.contextFault_ok h2) (State.retryHeld_ok
      (State.preservePage_ok h2)))) (State.memRead_ok (State.demand_ok h1)))))) (State.upset_ok hs)))
theorem State.copyBackPages_ok {s : State} {x1 : Nat} (hs : State.Ok s) : State.Ok (State.copyBackPages s x1) := by
  unfold State.copyBackPages
  exact (foldl_ok (fun _ _ h1 => (by
    split
    · exact h1
    · exact (State.setPage_ok (State.copyMem_ok h1)))) hs)
theorem execRollbackCopyDone_ok {x0 : Fin 2} {x1 : Upsets} {s : State} (hs : State.Ok s) : OkOut (execRollbackCopyDone x0 x1 s) := by
  unfold execRollbackCopyDone
  exact (State.granting_ok hs (cut (fun h1 => (OkOut.next (iteP h1 (cut (fun h2 => (iteP (State.contextFault_ok h2) (State.retryHeld_ok
      (State.updCtx_ok (State.updSnap_ok (State.copyBackPages_ok h2)))))) (State.readRanges_ok h1))))) (State.upset_ok hs)))
theorem execCkptRequest_ok {x0 : Fin 2} {x1 : Word} {s : State} (hs : State.Ok s) : OkOut (execCkptRequest x0 x1 s) := by
  unfold execCkptRequest
  exact (State.live_ok hs (cut (fun h1 => (OkOut.next (iteP (State.report_ok h1) (State.updSnap_ok h1)))) (State.wr_ok hs)))
theorem execCkptRelease_ok {x0 : Fin 2} {x1 : Word} {s : State} (hs : State.Ok s) : OkOut (execCkptRelease x0 x1 s) := by
  unfold execCkptRelease
  exact (State.live_ok hs (OkOut.next (State.retryHeld_ok (State.dropDrain_ok (State.wr_ok hs)))))
theorem State.takeCheckpoint_ok {s : State} {x1 : Nat} (hs : State.Ok s) : State.Ok (State.takeCheckpoint s x1) := by
  unfold State.takeCheckpoint
  exact (by
    dsimp -failIfUnchanged only
    split
    · exact hs
    · exact (iteP hs (State.wr_ok (State.wr_ok (State.updSnap_ok hs)))))
theorem execDrainCopyPage_ok {x0 : Fin 2} {x1 : Upsets} {s : State} (hs : State.Ok s) : OkOut (execDrainCopyPage x0 x1 s) := by
  have g3 : (s.upset x1).Ok := State.upset_ok hs
  have key : ∀ a b (f : State → State), (∀ s : State, s.Ok → (f s).Ok) → ((s.upset x1).snapCopy x0 a b f).Ok := fun _ _ _ h =>
      State.snapCopy_ok g3 h
  have all : ∀ (n : Nat) (g : Nat → Nat → (State → State) → State) (f : Nat → Option Nat) (q : Option Nat),
      (∀ a b (f : State → State), (∀ s : State, s.Ok → (f s).Ok) → (g a b f).Ok) → State.Ok (match q with
        | none => (s.upset x1).wr (drainFld x0) DrainSt.sealed
        | some p => match f p with
          | none => (s.upset x1)
          | some o => g (p * n) ((s.upset x1).imageBase x0 true + o) (fun (s : State) => (s.drained x0 p).retryHeld)) := by
    intro n g f q key
    cases q with
    | none => exact State.wr_ok g3
    | some p =>
      dsimp only
      cases f p with
      | none => exact g3
      | some o => exact key _ _ _ (fun _ h => State.retryHeld_ok (State.drained_ok h))
  exact State.granting_ok hs (OkOut.next (iteP g3 (all 4096 ((s.upset x1).snapCopy x0) ((s.upset x1).imageOffset x0) _ key)))
theorem State.snapIssue_ok {s : State} {x1 : Nat} {x2 : Nat} {x3 : Nat} {x4 : BitVec 52} (hs : State.Ok s) : State.Ok (State.snapIssue s x1
    x2 x3 x4) := by
  unfold State.snapIssue
  exact (State.issue_ok hs (fun _ h1 => (State.retire_ok (State.beginOp_ok h1))))
theorem execSrd_ok {x0 : Fin 50} {x1 : BitVec 52} {s : State} (hs : State.Ok s) : OkOut (execSrd x0 x1 s) := by
  unfold execSrd
  exact (OkOut.next (State.snapIssue_ok hs))
theorem execSdig_ok {x0 : Fin 50} {x1 : BitVec 52} {s : State} (hs : State.Ok s) : OkOut (execSdig x0 x1 s) := by
  unfold execSdig
  exact (OkOut.next (State.snapIssue_ok hs))
theorem execSman_ok {x0 : Fin 50} {x1 : BitVec 52} {s : State} (hs : State.Ok s) : OkOut (execSman x0 x1 s) := by
  unfold execSman
  exact (OkOut.next (State.snapIssue_ok hs))
theorem State.snapDone_ok {s : State} {x1 : Nat} {x2 : MemOp} {x3 : Nat} (hs : State.Ok s) : State.Ok (State.snapDone s x1 x2 x3) := by
  unfold State.snapDone
  exact (State.endOp_ok (State.addCc_ok hs))
theorem State.sendDrain_ok {s : State} {x1 : Nat} {x2 : Nat × Nat × Nat × Nat} {x3 : List (List Byte)} (hs : State.Ok s) : State.Ok
    (State.sendDrain s x1 x2 x3) := by
  induction x3 generalizing s with
  | nil => exact hs
  | cons h l ih =>
    cases l with
    | nil => exact State.sendCapsule_ok hs
    | cons h' l' => exact ih (State.sendCapsule_ok hs)
theorem State.snapRead_ok {s : State} {x1 : Nat} {x2 : MemOp} {x3 : List (Nat × Nat × Nat)} {x4 : State → State} (hs : State.Ok s) (g4 : ∀
    y0, State.Ok y0 → State.Ok (x4 y0)) : State.Ok (State.snapRead s x1 x2 x3 x4) := by
  unfold State.snapRead
  exact (cut (fun h1 => (by
    dsimp -failIfUnchanged only
    split
    · exact (State.streamFault_ok h1)
    · exact (g4 _ h1))) (State.readRanges_ok hs))
theorem State.runSrd_ok {s : State} {x1 : Nat} {x2 : MemOp} {x3 : Nat} (hs : State.Ok s) : State.Ok (State.runSrd s x1 x2 x3) := by
  unfold State.runSrd
  exact (by
    dsimp -failIfUnchanged only
    split
    · exact (State.streamFault_ok hs)
    · exact (iteP (State.streamFault_ok hs) (State.snapRead_ok hs (fun _ h1 => (cut (fun h3 => (iteP (State.sendDrain_ok
        (State.updStream_ok h3)) (State.snapDone_ok h3))) (State.updSnap_ok (State.rinkWrite_ok (State.present_ok h1))))))))
theorem State.runSdig_ok {s : State} {x1 : Nat} {x2 : MemOp} {x3 : Nat} (hs : State.Ok s) : State.Ok (State.runSdig s x1 x2 x3) := by
  unfold State.runSdig
  exact (by
    dsimp -failIfUnchanged only
    split
    · exact (State.streamFault_ok hs)
    · exact (by
      split
      · exact (State.streamFault_ok hs)
      · exact (iteP (State.streamFault_ok hs) (State.snapDone_ok (State.updSnap_ok (State.rinkWrite_ok (State.present_ok hs)))))))
theorem State.runSman_ok {s : State} {x1 : Nat} {x2 : MemOp} {x3 : Nat} (hs : State.Ok s) : State.Ok (State.runSman s x1 x2 x3) := by
  unfold State.runSman
  exact (iteP (State.streamFault_ok hs) (State.snapRead_ok hs (fun _ h1 => (by
    dsimp -failIfUnchanged only
    split
    · exact (State.snapDone_ok (State.report_ok h1))
    · exact (iteP (State.snapDone_ok (State.report_ok h1)) (State.snapDone_ok (State.wr_ok (State.rinkWrite_ok (State.present_ok h1)))))))))
theorem execSnapshotInstrComplete_ok {x0 : Fin 2} {s : State} (hs : State.Ok s) : OkOut (execSnapshotInstrComplete x0 s) := by
  unfold execSnapshotInstrComplete
  exact (State.granting_ok hs (cut (fun h1 => (OkOut.next (by
    split
    · exact h1
    · exact (by
      split
      · exact (iteP h1 (State.snapRead_ok h1 (fun _ h2 => (iteP (State.runSrd_ok h2) (iteP (State.runSdig_ok h2) (State.runSman_ok h2))))))
      · exact h1)))) (State.settleLost_ok hs)))
theorem State.setRst_ok {s : State} {x1 : Nat} (hs : State.Ok s) : State.Ok (State.setRst s x1) := by
  unfold State.setRst
  exact (State.wr_ok hs)
theorem State.rstRefuse_ok {s : State} (hs : State.Ok s) : State.Ok (State.rstRefuse s) := by
  unfold State.rstRefuse
  exact (State.report_ok hs)
theorem State.rstReject_ok {s : State} {x1 : Nat} (hs : State.Ok s) : State.Ok (State.rstReject s x1) := by
  unfold State.rstReject
  exact (State.clearRestore_ok (State.setRst_ok (State.report_ok (iteP (State.wr_ok hs) hs))))
theorem State.putRstCtl_ok {s : State} {x1 : Word} (hs : State.Ok s) : State.Ok (State.putRstCtl s x1) := by
  unfold State.putRstCtl
  exact (State.wr_ok (State.wr_ok hs))
theorem execRestoreStart_ok {x0 : Word} {s : State} (hs : State.Ok s) : OkOut (execRestoreStart x0 s) := by
  unfold execRestoreStart
  exact (State.live_ok hs (cut (fun h1 => (OkOut.next (iteP (State.rstRefuse_ok h1) (State.Ok.upd (State.wr_ok (State.wr_ok
      (State.setRst_ok (State.dropDrain_ok h1)))))))) (State.putRstCtl_ok hs)))
theorem State.blockRead_ok {s : State} {x1 : Nat} {x2 : Nat} {x3 : Nat} (hs : State.Ok s) : OkSnd (State.blockRead s x1 x2 x3) := by
  unfold State.blockRead
  exact (OkSnd.mk (State.checkRead_ok hs))
theorem State.readManifests_ok {s : State} {x1 : List Nat} (hs : State.Ok s) : OkSnd (State.readManifests s x1) := by
  induction x1 generalizing s with
  | nil => exact hs
  | cons a l ih => exact ih (OkSnd.snd (State.blockRead_ok hs))
theorem execRestoreCheckDone_ok {s : State} (hs : State.Ok s) : OkOut (execRestoreCheckDone s) := by
  unfold execRestoreCheckDone
  exact (State.granting_ok hs (OkOut.next (iteP hs (iteP (State.rstReject_ok (OkSnd.snd (State.blockRead_ok hs))) (iteP (State.rstReject_ok
      (OkSnd.snd (State.readManifests_ok (OkSnd.snd (State.blockRead_ok hs))))) (iteP (State.rstReject_ok (OkSnd.snd
      (State.readManifests_ok (OkSnd.snd (State.blockRead_ok hs))))) (iteP (State.rstReject_ok (OkSnd.snd (State.readManifests_ok
      (OkSnd.snd (State.blockRead_ok hs))))) (iteP (State.rstReject_ok (OkSnd.snd (State.readManifests_ok (OkSnd.snd (State.blockRead_ok
      hs))))) (State.Ok.upd (State.setRst_ok (OkSnd.snd (State.readManifests_ok (OkSnd.snd (State.blockRead_ok hs))))))))))))))
theorem State.stagePiece_ok {s : State} {x1 : Nat} {x2 : Nat} {x3 : List Byte} {x4 : List Nat} (hs : State.Ok s) : State.Ok
    (State.stagePiece s x1 x2 x3 x4) := by
  unfold State.stagePiece
  exact (by
    dsimp -failIfUnchanged only
    split
    · exact hs
    · exact (iteP (State.setMem_ok hs) hs))
theorem State.closeShard_ok {s : State} {x1 : Nat × Nat} {x2 : List Byte} {x3 : List Byte} (hs : State.Ok s) : State.Ok (State.closeShard s
    x1 x2 x3) := by
  unfold State.closeShard
  exact (iteP (State.rstReject_ok hs) (iteP (State.rstReject_ok hs) (iteP (State.rstReject_ok hs) (State.addMod_ok (State.Ok.upd hs)))))
theorem execRestoreFeed_ok {x0 : Word} {s : State} (hs : State.Ok s) : OkOut (execRestoreFeed x0 s) := by
  unfold execRestoreFeed
  exact (State.granting_ok hs (OkOut.next (iteP (State.rstRefuse_ok hs) (by
    dsimp -failIfUnchanged only
    split
    · exact (State.rstReject_ok hs)
    · exact (iteP (State.rstReject_ok hs) (iteP (OkSnd.snd (State.blockRead_ok hs)) (cut (fun h2 => (iteP (State.closeShard_ok h2) h2))
        (foldl_ok (fun _ _ h3 => (State.stagePiece_ok h3)) (State.Ok.upd (OkSnd.snd (State.blockRead_ok hs)))))))))))
theorem execRestoreCommit_ok {x0 : Word} {s : State} (hs : State.Ok s) : OkOut (execRestoreCommit x0 s) := by
  unfold execRestoreCommit
  exact (State.live_ok hs (cut (fun h1 => (OkOut.next (iteP (State.rstRefuse_ok h1) (iteP (State.rstReject_ok h1) (State.setRst_ok h1)))))
      (State.putRstCtl_ok hs)))
theorem execRestoreCopyDone_ok {s : State} (hs : State.Ok s) : OkOut (execRestoreCopyDone s) := by
  unfold execRestoreCopyDone
  exact (State.granting_ok hs (OkOut.next (iteP hs (cut (fun h1 => (iteP (State.contextFault_ok h1) (State.clearRestore_ok (State.setRst_ok
      (State.wr_ok (State.allPending_ok (foldl_ok (fun _ _ h6 => (State.copyMem_ok (State.demand_ok h6))) (foldl_ok (fun _ _ h7 =>
      (State.Ok.with_lpddr h7 (twf_tclear _ _ _ _ (State.Ok.lpddr h7)))) (State.readRanges_ok (foldl_ok (fun _ _ h8 =>
      (State.preservePage_ok h8)) h1)))))))))) (State.readRanges_ok hs)))))
theorem execRestoreAbandon_ok {x0 : Word} {s : State} (hs : State.Ok s) : OkOut (execRestoreAbandon x0 s) := by
  unfold execRestoreAbandon
  exact (State.live_ok hs (cut (fun h1 => (OkOut.next (iteP (State.rstRefuse_ok h1) (State.clearRestore_ok (State.setRst_ok (iteP (foldl_ok
      (fun _ _ h3 => (State.setMem_ok (OkSnd.snd (State.freeBytes_ok h3)))) h1) h1)))))) (State.putRstCtl_ok hs)))

/-! Locker. -/

theorem execRinkLock_ok {x0 : Word} {s : State} (hs : State.Ok s) : OkOut (execRinkLock x0 s) := by
  unfold execRinkLock
  exact (State.live_ok hs (OkOut.next (iteP hs (State.wr_ok (State.wr_ok hs)))))
theorem execLockerLock_ok {x0 : Word} {s : State} (hs : State.Ok s) : OkOut (execLockerLock x0 s) := by
  unfold execLockerLock
  exact (State.live_ok hs (OkOut.next (iteP hs (cut (fun h1 => (iteP (State.wr_ok (foldl_ok (fun _ _ h3 => (State.setFreeQ_ok h3))
      (State.Ok.upd h1))) (State.report_ok h1))) (State.wr_ok hs)))))
theorem State.quotaWrite_ok {s : State} {x1 : Nat} {x2 : Nat} {x3 : Word} (hs : State.Ok s) : State.Ok (State.quotaWrite s x1 x2 x3) := by
  unfold State.quotaWrite
  exact (iteP hs (iteP (State.report_ok hs) (iteP (State.applySetting_ok hs) (State.writeSetting_ok hs))))
theorem execLkrQuotaWrite_ok {x0 : Fin 64} {x1 : Fin 6} {x2 : Word} {s : State} (hs : State.Ok s) : OkOut (execLkrQuotaWrite x0 x1 x2 s) :=
    by
  unfold execLkrQuotaWrite
  exact (State.live_ok hs (OkOut.next (State.quotaWrite_ok hs)))
theorem execLockerGrant_ok {s : State} (hs : State.Ok s) : OkOut (execLockerGrant s) := by
  unfold execLockerGrant
  exact (State.granting_ok hs (OkOut.next (by
    split
    · rename_i q1; exact ((State.grantOne_ok hs) _ q1)
    · exact hs)))
theorem execBufferZeroDone_ok {s : State} (hs : State.Ok s) : OkOut (execBufferZeroDone s) := by
  unfold execBufferZeroDone
  exact (State.granting_ok hs (OkOut.next (by
    dsimp -failIfUnchanged only
    split
    · exact hs
    · exact (State.joinFree_ok (State.wr_ok (State.clearRink_ok (State.updLocker_ok hs)))))))
theorem State.settleRef_ok {s : State} {x1 : Nat} {x2 : List RefChange} (hs : State.Ok s) : State.Ok (State.settleRef s x1 x2) := by
  unfold State.settleRef
  exact (cut (fun h1 => (iteP h1 (iteP (cut (fun h2 => (iteP h2 (by
    split
    · exact (State.streamFault_ok h2)
    · exact (State.Ok.upd h2)))) (State.freeBuf_ok h1)) (cut (fun h3 => (iteP h3 (by
    split
    · exact (State.streamFault_ok h3)
    · exact h3))) (State.setBuf_ok h1))))) (iteP (State.Ok.upd hs) hs))
theorem State.settleRefs_ok {s : State} (hs : State.Ok s) : State.Ok (State.settleRefs s) := by
  unfold State.settleRefs
  exact (foldl_ok (fun _ _ h3 => (State.joinFree_ok h3)) (State.updLocker_ok (foldl_ok (fun _ _ h4 => (State.settleRef_ok h4))
      (State.updLocker_ok hs))))
theorem execBufferAudit_ok {s : State} (hs : State.Ok s) : OkOut (execBufferAudit s) := by
  unfold execBufferAudit
  exact (State.live_ok hs (OkOut.next (iteP hs (cut (fun h3 => (iteP h3 (State.auditBreach_ok h3))) (State.Ok.upd (State.addMod_ok
      (State.updLocker_ok (State.settleRefs_ok hs))))))))
theorem execRinkScrub_ok {x0 : List RinkError} {s : State} (hs : State.Ok s) : OkOut (execRinkScrub x0 s) := by
  unfold execRinkScrub
  exact (State.granting_ok hs (OkOut.next (iteP hs (cut (fun h3 => (iteP (State.Ok.upd (State.addMod_ok h3)) (State.Ok.upd h3)))
      (State.Ok.upd (State.rinkRead_ok (foldl_ok (fun _ _ h5 => (State.rinkUpset_ok h5)) hs)))))))

/-! Intake. -/

theorem State.setGroup_ok {s : State} {x1 : Nat} {x2 : Nat} {x3 : Group} (hs : State.Ok s) : State.Ok (State.setGroup s x1 x2 x3) := by
  unfold State.setGroup
  exact (State.updGate_ok hs)
theorem State.updGroup_ok {s : State} {x1 : Nat} {x2 : Nat} {x3 : Group → Group} (hs : State.Ok s) : State.Ok (State.updGroup s x1 x2 x3)
    := by
  unfold State.updGroup
  exact (by
    split
    · exact hs
    · exact (State.setGroup_ok hs))
theorem State.intakeStat_ok {s : State} {x1 : Nat} (hs : State.Ok s) : State.Ok (State.intakeStat s x1) := by
  unfold State.intakeStat
  exact (State.wr_ok (State.wr_ok (State.wr_ok (State.wr_ok hs))))
theorem State.linkRec_ok {s : State} {x1 : Nat} {x2 : Option HeldRec} {x3 : HeldRec} (hs : State.Ok s) : State.Ok (State.linkRec s x1 x2
    x3) := by
  unfold State.linkRec
  exact (State.rinkWrite_ok (by
    split
    · exact (State.rinkWrite_ok hs)
    · exact hs))
theorem State.holdLater_ok {s : State} {x1 : Nat} {x2 : Nat} {x3 : Nat} {x4 : HeldRec} (hs : State.Ok s) : State.Ok (State.holdLater s x1
    x2 x3 x4) := by
  unfold State.holdLater
  exact (State.intakeStat_ok (State.updGate_ok (State.linkRec_ok hs)))
theorem State.intakeFault_ok {s : State} {x1 : Nat} {x2 : Nat} {x3 : HeldRec} (hs : State.Ok s) : State.Ok (State.intakeFault s x1 x2 x3)
    := by
  unfold State.intakeFault
  exact (State.contextFault_ok (State.devReleaseOpt_ok hs))
theorem State.toIntake_ok {s : State} {x1 : Nat} {x2 : Nat} {x3 : HeldRec} (hs : State.Ok s) : State.Ok (State.toIntake s x1 x2 x3) := by
  unfold State.toIntake
  exact (iteP (State.intakeFault_ok hs) (iteP (State.intakeStat_ok (State.updGate_ok hs)) (State.holdLater_ok hs)))
theorem State.placeToken_ok {s : State} {x1 : Nat} {x2 : Nat} {x3 : Group} {x4 : HeldRec} (hs : State.Ok s) : OkOpt (State.placeToken s x1
    x2 x3 x4) := by
  unfold State.placeToken
  exact (iteP OkOpt.none (cut (fun h1 => (OkOpt.some (State.addMod_ok (State.addCc_ok (by
    dsimp -failIfUnchanged only
    split
    · exact (State.updGate_ok (State.setBuf_ok h1))
    · exact h1))))) (State.rinkWrite_ok (State.rinkWrite_ok hs))))
theorem State.placeHeld_ok {s : State} {x1 : Nat} {x2 : Nat} {x3 : Nat} {x4 : Group} {x5 : List HeldRec} (hs : State.Ok s) : State.Ok
    (State.placeHeld s x1 x2 x3 x4 x5) := by
  induction x5 generalizing s with
  | nil => exact hs
  | cons r l ih =>
    unfold State.placeHeld
    split
    · exact State.contextFault_ok hs
    · rename_i q; exact ih (State.updGroup_ok (State.placeToken_ok hs _ q))
theorem State.writeCnt_ok {s : State} {x1 : Nat} {x2 : Nat} (hs : State.Ok s) : OkOpt (State.writeCnt s x1 x2) := by
  unfold State.writeCnt
  exact (iteP OkOpt.none (OkOpt.some (State.wr_ok (State.wr_ok hs))))
theorem State.finishGroup_ok {s : State} {x1 : Nat} {x2 : Nat} {x3 : Nat} (hs : State.Ok s) : State.Ok (State.finishGroup s x1 x2 x3) := by
  unfold State.finishGroup
  exact (by
    dsimp -failIfUnchanged only
    split
    · exact hs
    · exact (iteP (State.contextFault_ok hs) (cut (fun h1 => (by
      split
      · exact (State.contextFault_ok h1)
      · rename_i q3; exact (State.placeHeld_ok (State.updGroup_ok ((iteP (by
        split
        · exact OkOpt.none
        · rename_i q4; exact (State.writeCnt_ok ((State.writeCnt_ok h1) _ q4))) (OkOpt.some h1)) _ q3))))) (foldl_ok (fun _ _ h5 =>
            (State.rinkWrite_ok h5)) hs))))
theorem State.useGroup_ok {s : State} {x1 : Nat} {x2 : Nat} {x3 : Nat} (hs : State.Ok s) : OkSum (State.useGroup s x1 x2 x3) := by
  unfold State.useGroup
  exact (by
    dsimp -failIfUnchanged only
    split
    · exact (OkSum.inr hs)
    · exact (by
      split
      · exact OkSum.inl
      · exact (OkSum.inr (State.setGroup_ok hs))))
theorem State.takeTally_ok {s : State} {x1 : Nat} {x2 : Nat} {x3 : Nat} {x4 : HeldRec} (hs : State.Ok s) : State.Ok (State.takeTally s x1
    x2 x3 x4) := by
  unfold State.takeTally
  exact (by
    dsimp -failIfUnchanged only
    split
    · exact hs
    · exact (iteP (State.intakeFault_ok hs) (cut (fun h3 => (iteP (State.finishGroup_ok h3) h3)) (State.setGroup_ok (State.devReleaseOpt_ok
        (State.addSat_ok (State.addCc_ok (State.setGate_ok hs))))))))
theorem State.takeToken_ok {s : State} {x1 : Nat} {x2 : Nat} {x3 : Nat} {x4 : HeldRec} (hs : State.Ok s) : State.Ok (State.takeToken s x1
    x2 x3 x4) := by
  unfold State.takeToken
  exact (by
    split
    · exact hs
    · exact (iteP (State.intakeFault_ok hs) (iteP (by
      split
      · exact (State.intakeFault_ok hs)
      · rename_i q1; exact ((State.placeToken_ok hs) _ q1)) (State.updGroup_ok (State.linkRec_ok hs)))))
theorem State.takeNext_ok {s : State} {x1 : Nat} {x2 : Nat} {x3 : State → Nat → Nat → HeldRec → State} (hs : State.Ok s) (g3 : ∀ y0 y1 y2
    y3, State.Ok y0 → State.Ok (x3 y0 y1 y2 y3)) : State.Ok (State.takeNext s x1 x2 x3) := by
  unfold State.takeNext
  exact (iteP hs (by
    dsimp -failIfUnchanged only
    split
    · exact hs
    · exact (cut (fun h2 => (iteP (State.intakeStat_ok (State.devReleaseOpt_ok h2)) (iteP (State.intakeFault_ok h2) (by
      split
      · exact (State.intakeFault_ok h2)
      · rename_i q3; exact (State.intakeStat_ok (g3 _ _ _ _ ((State.useGroup_ok h2) _ q3))))))) (State.checkRead_ok (State.updGate_ok
          hs)))))
theorem execIntakeTokenRx_ok {x0 : Fin 8} {s : State} (hs : State.Ok s) : OkOut (execIntakeTokenRx x0 s) := by
  unfold execIntakeTokenRx
  exact (State.granting_ok hs (OkOut.next (State.takeNext_ok hs (fun _ _ _ _ h1 => (State.takeToken_ok h1)))))
theorem execIntakeTallyRx_ok {x0 : Fin 8} {s : State} (hs : State.Ok s) : OkOut (execIntakeTallyRx x0 s) := by
  unfold execIntakeTallyRx
  exact (State.granting_ok hs (OkOut.next (State.takeNext_ok hs (fun _ _ _ _ h1 => (State.takeTally_ok h1)))))

/-! Course. -/

theorem execCourseLoad_ok {x0 : Word} {s : State} (hs : State.Ok s) : OkOut (execCourseLoad x0 s) := by
  unfold execCourseLoad
  exact (State.live_ok hs (cut (fun h1 => (OkOut.next (iteP (State.report_ok h1) (State.Ok.upd (State.setBit_ok (State.setCourse_ok
      (State.setBit_ok (State.setBit_ok h1)))))))) (State.wr_ok hs)))
theorem execCourseLoadDone_ok {s : State} (hs : State.Ok s) : OkOut (execCourseLoadDone s) := by
  unfold execCourseLoadDone
  exact (State.granting_ok hs (OkOut.next (by
    dsimp -failIfUnchanged only
    split
    · exact hs
    · exact (cut (fun h2 => (iteP h2 (iteP (State.report_ok h2) (iteP (State.report_ok h2) (State.setBit_ok (State.setBit_ok
        (State.setCourse_ok h2))))))) (State.checkRead_ok (State.Ok.upd (State.setBit_ok hs)))))))
theorem State.activateCourse_ok {s : State} (hs : State.Ok s) : State.Ok (State.activateCourse s) := by
  unfold State.activateCourse
  exact (State.trace_ok (foldl_ok (fun _ _ h6 => (State.setGate_ok h6)) (State.updRouter_ok (State.wr_ok (State.setBit_ok (State.setBit_ok
      (State.wr_ok (State.setCourse_ok hs))))))))
theorem State.endSlot_ok {s : State} {x1 : Nat} (hs : State.Ok s) : State.Ok (State.endSlot s x1) := by
  unfold State.endSlot
  exact (by
    dsimp -failIfUnchanged only
    split
    · exact hs
    · exact (iteP hs (cut (fun h1 => (iteP (State.addSat_ok h1) h1)) (State.updPort_ok hs))))
theorem State.decideSlot_ok {s : State} {x1 : Nat} (hs : State.Ok s) : State.Ok (State.decideSlot s x1) := by
  unfold State.decideSlot
  exact (iteP hs (State.chooseNext_ok (State.updPort_ok (State.endSlot_ok hs))))
theorem execSlotStart_ok {x0 : Fin 12} {s : State} (hs : State.Ok s) : OkOut (execSlotStart x0 s) := by
  unfold execSlotStart
  exact (State.live_ok hs (OkOut.next (iteP hs (iteP (State.decideSlot_ok (State.decideSlot_ok hs)) (State.decideSlot_ok hs)))))
theorem execSlotEnd_ok {x0 : Fin 12} {s : State} (hs : State.Ok s) : OkOut (execSlotEnd x0 s) := by
  unfold execSlotEnd
  exact (State.live_ok hs (OkOut.next (by
    split
    · exact hs
    · exact (iteP (State.chooseNext_ok (State.endSlot_ok hs)) hs))))
theorem State.countIngress_ok {s : State} {x1 : Nat} {x2 : State → State} (hs : State.Ok s) (g2 : ∀ y0, State.Ok y0 → State.Ok (x2 y0)) :
    State.Ok (State.countIngress s x1 x2) := by
  unfold State.countIngress
  exact (iteP (g2 _ hs) (iteP (State.report_ok (State.addSat_ok hs)) (g2 _ (State.updPort_ok hs))))
theorem State.dspStray_ok {s : State} {x1 : Nat} (hs : State.Ok s) : State.Ok (State.dspStray s x1) := by
  unfold State.dspStray
  exact (State.report_ok (State.lapFlag_ok (State.addSat_ok hs)))
theorem State.dspStale_ok {s : State} (hs : State.Ok s) : State.Ok (State.dspStale s) := by
  unfold State.dspStale
  exact (State.lapFlag_ok (State.addSat_ok hs))
theorem State.epochCheck_ok {s : State} {x1 : Option Nat} {x2 : Nat} {x3 : Nat} (hs : State.Ok s) : OkSum (State.epochCheck s x1 x2 x3) :=
    by
  unfold State.epochCheck
  exact (by
    split
    · exact (OkSum.inr (State.dspStray_ok hs))
    · exact (iteP (OkSum.inr (State.dspStray_ok hs)) (iteP (OkSum.inr (State.dspStale_ok hs)) (by
      split
      · exact (OkSum.inr (State.dspStray_ok hs))
      · exact (iteP OkSum.inl (OkSum.inr (State.dspStray_ok hs)))))))
theorem State.dspCheck_ok {s : State} {x1 : Option Nat} {x2 : Nat} {x3 : State → Nat → Nat → State} {x4 : State → State} (hs : State.Ok s)
    (g3 : ∀ y0 y1 y2, State.Ok y0 → State.Ok (x3 y0 y1 y2)) (g4 : ∀ y0, State.Ok y0 → State.Ok (x4 y0)) : State.Ok (State.dspCheck s x1 x2
    x3 x4) := by
  unfold State.dspCheck
  exact (by
    split
    · rename_i q1; exact (g4 _ ((State.epochCheck_ok hs) _ q1))
    · exact (g3 _ _ _ hs))
theorem State.acceptReturn_ok {s : State} {x1 : Nat} {x2 : Option Nat} {x3 : Nat} {x4 : List Byte} {x5 : State → State} (hs : State.Ok s)
    (g5 : ∀ y0, State.Ok y0 → State.Ok (x5 y0)) : State.Ok (State.acceptReturn s x1 x2 x3 x4 x5) := by
  unfold State.acceptReturn
  exact (by
    dsimp -failIfUnchanged only
    split
    · rename_i q1; exact ((State.epochCheck_ok hs) _ q1)
    · exact (iteP (State.contextFault_ok hs) (iteP (State.contextFault_ok hs) (iteP (State.report_ok hs) (g5 _ (State.addCc_ok
        (State.updGate_ok (State.setRecWord_ok (State.setRecWord_ok (iteP hs (State.rinkWrite_ok (State.present_ok hs))))))))))))
theorem State.landRecord_ok {s : State} {x1 : Packet} {x2 : List Byte} (hs : State.Ok s) : State.Ok (State.landRecord s x1 x2) := by
  unfold State.landRecord
  exact (State.dspCheck_ok hs (fun _ _ _ h1 => (by
    dsimp -failIfUnchanged only
    split
    · exact (State.noQuota_ok h1)
    · rename_i q2; exact (State.acceptPoison_ok (State.toIntake_ok (State.setRink_ok ((State.ingressTake_ok h1) _ q2)))))) (fun _ h4 =>
        (State.latePoison_ok h4)))
theorem State.ecrcDrop_ok {s : State} (hs : State.Ok s) : State.Ok (State.ecrcDrop s) := by
  unfold State.ecrcDrop
  exact (State.fabReport_ok (State.addSat_ok hs))
theorem State.arrive_ok {s : State} {x1 : Nat} {x2 : Packet} {x3 : State → State} (hs : State.Ok s) (g3 : ∀ y0, State.Ok y0 → State.Ok (x3
    y0)) : State.Ok (State.arrive s x1 x2 x3) := by
  unfold State.arrive
  exact (iteP hs (cut (fun h1 => (iteP (State.prunePacket_ok h1) (iteP (State.dropHops_ok h1) (iteP (State.countIngress_ok h1 g3) (g3 _
      h1))))) (State.countRx_ok hs)))
theorem State.lineOn_ok {s : State} {x1 : Nat} {x2 : Packet} {x3 : Nat} (hs : State.Ok s) : State.Ok (State.lineOn s x1 x2 x3) := by
  unfold State.lineOn
  exact (iteP hs (iteP (State.countPruned_ok hs) (iteP (State.countNoPath_ok (State.countPruned_ok hs)) (iteP (State.fabReport_ok
      (State.addSat_ok hs)) (by
    split
    · exact (State.noQuota_ok hs)
    · rename_i q1; exact (State.queueFlow_ok ((State.ingressTake_ok hs) _ q1)))))))
theorem State.receiveLine_ok {s : State} {x1 : Nat} {x2 : Packet} (hs : State.Ok s) : State.Ok (State.receiveLine s x1 x2) := by
  unfold State.receiveLine
  exact (iteP (iteP (State.ecrcDrop_ok hs) (State.lineOn_ok (State.landRecord_ok hs))) (State.lineOn_ok hs))
theorem State.transit_ok {s : State} {x1 : Nat} {x2 : Packet} (hs : State.Ok s) : State.Ok (State.transit s x1 x2) := by
  unfold State.transit
  exact (State.drawIngress_ok hs (fun _ _ h1 => (State.forward_ok h1)))
theorem execDspPacketRx_ok {x0 : Fin 12} {x1 : Packet} {s : State} (hs : State.Ok s) : OkOut (execDspPacketRx x0 x1 s) := by
  unfold execDspPacketRx
  exact (State.granting_ok hs (OkOut.next (iteP hs (iteP (State.arrive_ok hs (fun _ h1 => (State.receiveLine_ok h1))) (iteP
      (State.arrive_ok hs (fun _ h2 => (iteP (State.ecrcDrop_ok h2) (State.landRecord_ok h2)))) hs)))))
theorem execRetPacketRx_ok {x0 : Fin 12} {x1 : Packet} {s : State} (hs : State.Ok s) : OkOut (execRetPacketRx x0 x1 s) := by
  unfold execRetPacketRx
  exact (State.granting_ok hs (OkOut.next (iteP hs (State.arrive_ok hs (fun _ h1 => (iteP (State.ecrcDrop_ok h1) (by
    split
    · rename_i q2; exact (State.latePoison_ok ((State.epochCheck_ok h1) _ q2))
    · exact (by
      split
      · exact (State.noQuota_ok h1)
      · rename_i q3; exact (State.acceptReturn_ok (State.devRelease_ok ((State.ingressTake_ok h1) _ q3)) (fun _ h4 =>
          (State.acceptPoison_ok h4)))))))))))
theorem execPacketTransit_ok {x0 : Fin 12} {x1 : Packet} {s : State} (hs : State.Ok s) : OkOut (execPacketTransit x0 x1 s) := by
  unfold execPacketTransit
  exact (State.granting_ok hs (OkOut.next (iteP hs (iteP (State.arrive_ok hs (fun _ h1 => (State.lineOn_ok h1))) (iteP (State.receive_ok hs
      (fun _ _ h2 => (State.leave_ok h2))) (State.arrive_ok hs (fun _ h3 => (State.transit_ok h3))))))))
theorem execCancelListExpiry_ok {x0 : Fin 2} {s : State} (hs : State.Ok s) : OkOut (execCancelListExpiry x0 s) := by
  unfold execCancelListExpiry
  exact (State.live_ok hs (OkOut.next (State.updCtx_ok hs)))
theorem State.injectRecord_ok {s : State} {x1 : Nat} {x2 : Nat} {x3 : Nat} {x4 : List Byte} {x5 : Option Nat} (hs : State.Ok s) : State.Ok
    (State.injectRecord s x1 x2 x3 x4 x5) := by
  unfold State.injectRecord
  exact (iteP (State.prunePacket_ok (OkSnd.snd (State.nextSeq_ok hs))) (iteP (State.forward_ok (OkSnd.snd (State.nextSeq_ok hs)))
      (State.contextFault_ok (State.devReleaseOpt_ok (OkSnd.snd (State.nextSeq_ok hs))))))
theorem State.injectLine_ok {s : State} {x1 : Nat} {x2 : LinePkt} (hs : State.Ok s) : State.Ok (State.injectLine s x1 x2) := by
  unfold State.injectLine
  exact (iteP (State.countPruned_ok (foldl_ok (fun _ _ h1 => (State.devRelease_ok h1)) (OkSnd.snd (State.nextSeq_ok hs)))) (iteP
      (State.countNoPath_ok (State.countPruned_ok (foldl_ok (fun _ _ h2 => (State.devRelease_ok h2)) (OkSnd.snd (State.nextSeq_ok hs)))))
      (iteP (State.contextFault_ok (foldl_ok (fun _ _ h3 => (State.devRelease_ok h3)) (OkSnd.snd (State.nextSeq_ok hs))))
      (State.queueFlow_ok (OkSnd.snd (State.nextSeq_ok hs))))))

/-! Relay. -/

theorem State.setRs_ok {s : State} {x1 : Nat} {x2 : Nat} {x3 : List Byte} (hs : State.Ok s) : State.Ok (State.setRs s x1 x2 x3) := by
  unfold State.setRs
  exact (State.Ok.with_rstore hs (twf_tsetMany _ _ _ _ (State.Ok.rstore hs)))
theorem State.setGuard_ok {s : State} {x1 : Nat} {x2 : Nat} {x3 : Nat} (hs : State.Ok s) : State.Ok (State.setGuard s x1 x2 x3) := by
  unfold State.setGuard
  exact (State.Ok.with_guard hs (twf_tset _ _ _ _ (State.Ok.guard hs)))
theorem State.setXp_ok {s : State} {x1 : Nat} {x2 : Nat} {x3 : Int} (hs : State.Ok s) : State.Ok (State.setXp s x1 x2 x3) := by
  unfold State.setXp
  exact (State.setGuard_ok (State.setRs_ok hs))
theorem State.freeEntry_ok {s : State} {x1 : Nat} (hs : State.Ok s) : State.Ok (State.freeEntry s x1) := by
  unfold State.freeEntry
  exact (State.setRsEntry_ok hs)
theorem State.orCol_ok {s : State} {x1 : Nat} {x2 : Nat} (hs : State.Ok s) : State.Ok (State.orCol s x1 x2) := by
  unfold State.orCol
  exact (State.wr_ok hs)
theorem execRpost_ok {x0 : Fin 50} {x1 : BitVec 52} {s : State} (hs : State.Ok s) : OkOut (execRpost x0 x1 s) := by
  unfold execRpost
  exact (OkOut.next (State.issue_ok hs (fun _ h1 => (iteP (State.stall_ok h1) (cut (fun h2 => (iteP (State.streamFault_ok h2) (iteP
      (State.setRelay_ok h2) (State.streamFault_ok h2)))) (State.checkRead_ok (State.retire_ok h1)))))))
theorem execRcancel_ok {x0 : Fin 50} {x1 : BitVec 52} {s : State} (hs : State.Ok s) : OkOut (execRcancel x0 x1 s) := by
  unfold execRcancel
  exact (OkOut.next (State.issue_ok hs (fun _ h1 => (State.retire_ok (State.addCc_ok (State.setRelay_ok h1))))))
theorem State.admitAsked_ok {s : State} {x1 : Admit} {x2 : Nat} (hs : State.Ok s) : State.Ok (State.admitAsked s x1 x2) := by
  unfold State.admitAsked
  exact (iteP hs (iteP (State.preciseFault_ok hs) (iteP (State.stall_ok hs) (cut (fun h2 => (iteP (State.streamFault_ok h2) (iteP
      (State.setAdmits_ok h2) (State.streamFault_ok h2)))) (State.checkRead_ok (State.retire_ok (State.wr_ok (State.updCtx_ok hs))))))))
theorem State.settleAdmits_ok {s : State} (hs : State.Ok s) : State.Ok (State.settleAdmits s) := by
  unfold State.settleAdmits
  exact (foldl_ok (fun _ _ h1 => (State.admitAsked_ok h1)) (State.updCol_ok hs))
theorem execRadmit_ok {x0 : Fin 50} {x1 : BitVec 52} {s : State} (hs : State.Ok s) : OkOut (execRadmit x0 x1 s) := by
  unfold execRadmit
  exact (OkOut.next (State.issue_ok hs (fun _ h1 => (State.updCol_ok h1))))
theorem State.sendNotice_ok {s : State} {x1 : Nat} {x2 : Nat} {x3 : Nat} {x4 : Nat} {x5 : Nat} (hs : State.Ok s) : State.Ok
    (State.sendNotice s x1 x2 x3 x4 x5) := by
  unfold State.sendNotice
  exact (State.originateTree_ok (OkSnd.snd (State.nextSeq_ok hs)))
theorem State.admitEntry_ok {s : State} {x1 : Nat} {x2 : Admit} {x3 : Nat} {x4 : Nat} (hs : State.Ok s) : State.Ok (State.admitEntry s x1
    x2 x3 x4) := by
  unfold State.admitEntry
  exact (cut (fun h2 => (iteP (foldl_ok (fun _ _ h3 => (State.setGuard_ok h3)) h2) h2)) (State.setRs_ok (State.setRsEntry_ok hs)))
theorem execRsAdmitGrant_ok {x0 : Fin 2} {s : State} (hs : State.Ok s) : OkOut (execRsAdmitGrant x0 s) := by
  unfold execRsAdmitGrant
  exact (State.granting_ok hs (cut (fun h1 => (OkOut.next (by
    dsimp -failIfUnchanged only
    split
    · exact h1
    · exact (iteP h1 (cut (fun h3 => (iteP (State.sendNotice_ok h3) h3)) (State.addSat_ok (State.addCc_ok (foldl_ok (fun _ _ h4 =>
        (State.admitEntry_ok h4)) (State.setAdmits_ok h1))))))))) (State.settleAdmits_ok hs)))
theorem execRfree_ok {x0 : Fin 50} {x1 : BitVec 52} {s : State} (hs : State.Ok s) : OkOut (execRfree x0 x1 s) := by
  unfold execRfree
  exact (OkOut.next (State.issue_ok hs (fun _ h1 => (State.retire_ok (foldl_ok (fun _ _ h2 => (State.freeEntry_ok h2)) h1)))))
theorem execRsCfgWrite_ok {x0 : Word} {s : State} (hs : State.Ok s) : OkOut (execRsCfgWrite x0 s) := by
  unfold execRsCfgWrite
  exact (State.live_ok hs (OkOut.next (iteP (State.report_ok hs) (State.wr_ok hs))))
theorem State.relayFault_ok {s : State} {x1 : Nat} {x2 : Nat} {x3 : Nat} {x4 : Nat} (hs : State.Ok s) : State.Ok (State.relayFault s x1 x2
    x3 x4) := by
  unfold State.relayFault
  exact (State.streamFault_ok hs)
theorem execTriggerFire_ok {x0 : Fin 4} {x1 : Fin 2} {s : State} (hs : State.Ok s) : OkOut (execTriggerFire x0 x1 s) := by
  unfold execTriggerFire
  exact (State.granting_ok hs (OkOut.next (iteP hs (by
    dsimp -failIfUnchanged only
    split
    · exact (State.relayFault_ok hs)
    · exact (State.setRelay_ok hs)))))
theorem State.queueCombine_ok {s : State} {x1 : Contribution} (hs : State.Ok s) : State.Ok (State.queueCombine s x1) := by
  unfold State.queueCombine
  exact (State.updCol_ok hs)
theorem State.colLand_ok {s : State} {x1 : Nat} {x2 : Nat} {x3 : Nat} {x4 : Nat} {x5 : Nat} {x6 : List Byte} (hs : State.Ok s) : OkOpt
    (State.colLand s x1 x2 x3 x4 x5 x6) := by
  unfold State.colLand
  exact (iteP OkOpt.none (OkOpt.some (State.addCc_ok (State.rinkWrite_ok (State.present_ok hs)))))
theorem State.relayTake_ok {s : State} {x1 : Nat} {x2 : Nat} (hs : State.Ok s) : State.Ok (State.relayTake s x1 x2) := by
  unfold State.relayTake
  exact (iteP hs (by
    dsimp -failIfUnchanged only
    split
    · exact (iteP (State.setRelay_ok hs) hs)
    · exact hs))
theorem State.putRun_ok {s : State} {x1 : Nat} {x2 : Nat} {x3 : Posted} (hs : State.Ok s) : State.Ok (State.putRun s x1 x2 x3) := by
  unfold State.putRun
  exact (State.addMod_ok (State.setRelay_ok hs))
theorem State.flowWaited_ok {s : State} {x1 : Nat} (hs : State.Ok s) : State.Ok (State.flowWaited s x1) := by
  unfold State.flowWaited
  exact (State.addSat_ok (OkSnd.snd (State.free_ok hs)))
theorem State.sendCol_ok {s : State} {x1 : Nat} {x2 : Posted} {x3 : ColDest} {x4 : Nat} {x5 : Nat} {x6 : Bool} {x7 : List Byte} {x8 : List
    Byte} (hs : State.Ok s) : OkSnd (State.sendCol s x1 x2 x3 x4 x5 x6 x7 x8) := by
  unfold State.sendCol
  exact (OkSnd.mk (iteP (State.originateTree_ok (OkSnd.snd (State.nextSeq_ok hs))) (State.inject_ok (OkSnd.snd (State.nextSeq_ok hs)))))
theorem State.relayData_ok {s : State} {x1 : Nat} {x2 : Nat} {x3 : Posted} {x4 : ColDest} {x5 : Nat} {x6 : Nat} {x7 : Bool} {x8 : List
    Byte} (hs : State.Ok s) : State.Ok (State.relayData s x1 x2 x3 x4 x5 x6 x7 x8) := by
  unfold State.relayData
  exact (iteP (State.relayFault_ok hs) (by
    dsimp -failIfUnchanged only
    split
    · exact (State.relayFault_ok hs)
    · exact (iteP (by
      split
      · exact (State.contextFault_ok hs)
      · rename_i q1; exact (iteP (State.poison_ok (State.addSat_ok ((State.colLand_ok (State.putRun_ok hs)) _ q1))) ((State.colLand_ok
          (State.putRun_ok hs)) _ q1))) (cut (fun h2 => (iteP (State.flowWaited_ok (State.putRun_ok (OkSnd.snd h2))) (OkSnd.snd h2)))
          (State.sendCol_ok hs)))))
theorem State.relayRead_ok {s : State} {x1 : Nat} {x2 : Nat} {x3 : Posted} {x4 : List (Nat × Nat)} {x5 : State → State} (hs : State.Ok s)
    (g5 : ∀ y0, State.Ok y0 → State.Ok (x5 y0)) : State.Ok (State.relayRead s x1 x2 x3 x4 x5) := by
  unfold State.relayRead
  exact (cut (fun h1 => (iteP (State.relayFault_ok h1) (g5 _ h1))) (State.readRanges_ok hs))
theorem State.residueFault_ok {s : State} {x1 : Nat} {x2 : Nat} (hs : State.Ok s) : State.Ok (State.residueFault s x1 x2) := by
  unfold State.residueFault
  exact (cut (fun h1 => (State.updCtx_ok (iteP h1 (State.sendNotice_ok h1)))) (State.report_ok (State.addSat_ok (State.setRsEntry_ok hs))))
theorem State.relayBytes_ok {s : State} {x1 : Posted} {x2 : List Byte} (hs : State.Ok s) : OkSnd (State.relayBytes s x1 x2) := by
  unfold State.relayBytes
  exact (State.spoil_ok hs)
theorem State.exportChecked_ok {s : State} {x1 : Nat} {x2 : List Word} {x3 x4 : Bool} {x5 : List Byte} (hs : State.Ok s) : State.Ok
    (State.exportChecked s x1 x2 x3 x4 x5).2.2 := by
  unfold State.exportChecked
  split
  · split
    · exact OkSnd.snd (State.freeBytes_ok (State.residueFault_ok hs))
    · exact hs
  · exact hs
theorem execRelayPut_ok {x0 : RelayTurn} {s : State} (hs : State.Ok s) : OkOut (execRelayPut x0 s) := by
  unfold execRelayPut
  refine State.granting_ok hs (OkOut.next ?_)
  have h1 : (s.relayTake x0.engine 1).Ok := State.relayTake_ok hs
  generalize s.relayTake x0.engine 1 = s at h1 ⊢
  split
  · exact h1
  · split
    · exact State.relayFault_ok h1
    · exact iteP h1 (State.relayRead_ok h1 (fun _ h => State.relayData_ok (State.exportChecked_ok (State.orCol_ok (OkSnd.snd
        (State.relayBytes_ok h))))))
theorem State.relayContribute_ok {s : State} {x1 : Nat} {x2 : Nat} {x3 : Posted} {x4 : Bool} {x5 : List Byte} (hs : State.Ok s) : State.Ok
    (State.relayContribute s x1 x2 x3 x4 x5) := by
  unfold State.relayContribute
  exact (iteP (State.relayFault_ok hs) (by
    dsimp -failIfUnchanged only
    split
    · exact (State.relayFault_ok hs)
    · exact (iteP (by
      split
      · exact (State.contextFault_ok hs)
      · exact (State.queueCombine_ok (State.putRun_ok hs))) (cut (fun h1 => (iteP (State.flowWaited_ok (State.putRun_ok (OkSnd.snd h1)))
          (OkSnd.snd h1))) (State.sendCol_ok hs)))))
theorem execRelayRput_ok {x0 : RelayTurn} {s : State} (hs : State.Ok s) : OkOut (execRelayRput x0 s) := by
  unfold execRelayRput
  refine State.granting_ok hs (OkOut.next ?_)
  have h1 : (s.relayTake x0.engine 2).Ok := State.relayTake_ok hs
  generalize s.relayTake x0.engine 2 = s at h1 ⊢
  split
  · exact h1
  · refine iteP h1 ?_
    split
    · exact State.relayFault_ok h1
    · exact State.relayRead_ok h1 (fun _ h => State.relayContribute_ok (State.exportChecked_ok (State.orCol_ok (OkSnd.snd
        (State.relayBytes_ok h)))))
theorem execRelayGather_ok {x0 : Fin 4} {s : State} (hs : State.Ok s) : OkOut (execRelayGather x0 s) := by
  unfold execRelayGather
  exact (State.granting_ok hs (cut (fun h1 => (OkOut.next (by
    dsimp -failIfUnchanged only
    split
    · exact h1
    · exact (iteP (State.relayFault_ok h1) (iteP (State.relayRead_ok h1 (fun _ h2 => h2)) (iteP (State.relayFault_ok h1) (iteP
        (State.relayFault_ok h1) (iteP h1 (State.relayRead_ok h1 (fun _ h3 => (State.relayData_ok (OkSnd.snd (State.relayBytes_ok
        h3))))))))))))) (State.relayTake_ok hs)))
theorem State.relayReturn_ok {s : State} {x1 : Nat} {x2 : Nat} {x3 : Posted} {x4 : List Byte} {x5 : List Byte} (hs : State.Ok s) : State.Ok
    (State.relayReturn s x1 x2 x3 x4 x5) := by
  unfold State.relayReturn
  exact (by
    dsimp -failIfUnchanged only
    split
    · exact (State.relayFault_ok hs)
    · exact (iteP (State.acceptReturn_ok (State.putRun_ok hs) (fun _ h1 => h1)) (iteP (State.relayFault_ok hs) (cut (fun h2 => (iteP
        (State.flowWaited_ok (State.putRun_ok h2)) h2)) (State.inject_ok (OkSnd.snd (State.nextSeq_ok hs)))))))
theorem execRelayScatter_ok {x0 : Fin 4} {s : State} (hs : State.Ok s) : OkOut (execRelayScatter x0 s) := by
  unfold execRelayScatter
  exact (State.granting_ok hs (cut (fun h1 => (OkOut.next (by
    dsimp -failIfUnchanged only
    split
    · exact h1
    · exact (iteP h1 (iteP (State.relayFault_ok h1) (iteP (State.relayRead_ok h1 (fun _ h2 => h2)) (iteP (State.relayFault_ok h1) (iteP
        (State.relayRead_ok h1 (fun _ h3 => (State.relayReturn_ok (OkSnd.snd (State.relayBytes_ok h3))))) (State.relayRead_ok h1 (fun _ h5
        => (iteP (State.relayFault_ok h5) (State.relayData_ok (OkSnd.snd (State.relayBytes_ok h5)))))))))))))) (State.relayTake_ok hs)))
theorem execRelayOpEnd_ok {x0 : Fin 4} {s : State} (hs : State.Ok s) : OkOut (execRelayOpEnd x0 s) := by
  unfold execRelayOpEnd
  exact (State.granting_ok hs (OkOut.next (by
    dsimp -failIfUnchanged only
    split
    · exact hs
    · exact (by
      split
      · exact hs
      · exact (iteP hs (cut (fun h2 => (iteP (by
        split
        · exact (State.freeEntry_ok h2)
        · exact h2) h2)) (State.addCc_ok (State.addSat_ok (State.setRelay_ok hs)))))))))
theorem State.colCheck_ok {s : State} {x1 : Packet} (hs : State.Ok s) : OkSum (State.colCheck s x1) := by
  unfold State.colCheck
  exact (by
    dsimp -failIfUnchanged only
    split
    · exact (OkSum.inr (State.report_ok (State.lapFlag_ok (State.addSat_ok hs))))
    · exact (iteP (OkSum.inr (State.lapFlag_ok (State.addSat_ok hs))) (iteP OkSum.inl (OkSum.inr (State.latePoison_ok (State.report_ok
        (State.lapFlag_ok (State.addSat_ok hs))))))))
theorem execColPutRx_ok {x0 : Fin 13} {x1 : Packet} {s : State} (hs : State.Ok s) : OkOut (execColPutRx x0 x1 s) := by
  unfold execColPutRx
  exact (State.granting_ok hs (OkOut.next (iteP hs (State.receive_ok hs (fun _ _ h1 => (cut (fun h2 => (by
    dsimp -failIfUnchanged only
    split
    · rename_i q3; exact (State.aggLocal_ok ((State.colCheck_ok h2) _ q3))
    · exact (by
      split
      · exact (State.contextFault_ok (State.aggLocal_ok h2))
      · rename_i q4; exact (State.acceptPoison_ok (State.aggLocal_ok ((State.colLand_ok h2) _ q4)))))) (State.leave_ok h1)))))))
theorem execColRputRx_ok {x0 : Fin 13} {x1 : Packet} {s : State} (hs : State.Ok s) : OkOut (execColRputRx x0 x1 s) := by
  unfold execColRputRx
  exact (State.granting_ok hs (OkOut.next (iteP hs (State.receive_ok hs (fun _ _ h1 => (by
    dsimp -failIfUnchanged only
    split
    · rename_i q2; exact (State.aggLocal_ok (State.leave_ok ((State.colCheck_ok h1) _ q2)))
    · exact (by
      split
      · exact (State.contextFault_ok (State.aggLocal_ok (State.leave_ok h1)))
      · exact (State.acceptPoison_ok (State.queueCombine_ok (State.aggLocal_ok h1))))))))))
theorem State.combineElem_ok {s : State} {x1 : Nat} {x2 : Nat} {x3 : List Byte} {x4 : Nat} {x5 : Nat} (hs : State.Ok s) : OkFst
    (State.combineElem s x1 x2 x3 x4 x5) := by
  unfold State.combineElem
  exact (iteP (OkFst.mk (State.setXp_ok hs)) (OkFst.mk (State.setRs_ok hs)))
theorem State.freeElem_ok {s : State} {x1 : Nat} {x2 : Nat} {x3 : Nat} (hs : State.Ok s) : State.Ok (State.freeElem s x1 x2 x3) := by
  unfold State.freeElem
  exact (State.setRs_ok (OkSnd.snd (State.freeBytes_ok hs)))
theorem foldl_okSnd {α β : Type} {f : α × State → β → α × State} {l : List β} {p : α × State} (hf : ∀ p x, p.2.Ok → (f p x).2.Ok) (h :
    p.2.Ok) :
    OkSnd (l.foldl f p) := by
  induction l generalizing p with
  | nil => exact h
  | cons x l ih => exact ih (hf p x h)
theorem State.combineAll_ok {s : State} {x1 : Nat} {x2 : List Byte} {x3 : List AdderFault} (hs : State.Ok s) : OkSnd (State.combineAll s x1
    x2 x3) := by
  unfold State.combineAll
  refine foldl_okSnd (fun p x h => ?_) hs
  exact iteP (P := OkSnd) (State.freeElem_ok (OkFst.fst (State.combineElem_ok h))) (OkFst.fst (State.combineElem_ok h))
theorem State.chunkDone_ok {s : State} {x1 : Nat} {x2 : RsEntry} {x3 : Contribution} (hs : State.Ok s) : State.Ok (State.chunkDone s x1 x2
    x3) := by
  unfold State.chunkDone
  exact (State.addCc_ok (State.addSat_ok (State.wr_ok (State.wr_ok (State.wr_ok (State.wr_ok hs))))))
theorem execRsCombineDone_ok {x0 : List AdderFault} {s : State} (hs : State.Ok s) : OkOut (execRsCombineDone x0 s) := by
  unfold execRsCombineDone
  exact (State.granting_ok hs (OkOut.next (by
    dsimp -failIfUnchanged only
    split
    · exact hs
    · exact (cut (fun h1 => (by
      split
      · exact (State.contextFault_ok h1)
      · exact (cut (fun h4 => (cut (fun h5 => (iteP (State.chunkDone_ok h5) h5)) (iteP h4 (State.residueFault_ok h4)))) (State.addCc_ok
          (State.addMod_ok (State.setRsEntry_ok (OkSnd.snd (State.combineAll_ok h1)))))))) (State.endContribution_ok (State.updCol_ok
          hs))))))
theorem execPoisonNoticeRx_ok {x0 : Fin 13} {x1 : Packet} {s : State} (hs : State.Ok s) : OkOut (execPoisonNoticeRx x0 x1 s) := by
  unfold execPoisonNoticeRx
  exact (State.live_ok hs (OkOut.next (iteP hs (State.receive_ok hs (fun _ _ h1 => (cut (fun h2 => (by
    dsimp -failIfUnchanged only
    split
    · exact (State.aggLocal_ok (State.report_ok (State.lapFlag_ok (State.addSat_ok h2))))
    · exact (iteP (State.aggLocal_ok (State.lapFlag_ok (State.addSat_ok h2))) (iteP (State.poison_ok (State.aggLocal_ok h2))
        (State.aggLocal_ok (State.report_ok (State.lapFlag_ok (State.addSat_ok h2)))))))) (State.leave_ok h1)))))))

end Sys2Proof.Machine
end

