-- ==== Sys2Proof/Laws/KeepC.lean ====
section
/-!
SUPPORT. Every operation and every command of the files named below keeps the register tables and the memories in
their canonical form: Contexts, Power, Vector, Gmm, Gate, Boundary, Lap, RegSpace, Host, Tick, Step.
-/

namespace Sys2Proof.Machine

/-! Contexts. -/

theorem State.prepare_ok {s : State} {x1 : Nat} (hs : State.Ok s) : State.Ok (State.prepare s x1) := by
  unfold State.prepare
  exact (State.setCtxState_ok (State.allPending_ok (State.wr_ok (foldl_ok (fun _ _ h4 => (State.wr_ok h4)) (State.wr_ok (State.updCtx_ok
      hs))))))
theorem State.cmdIgnored_ok {s : State} {x1 : Nat} (hs : State.Ok s) : State.Ok (State.cmdIgnored s x1) := by
  unfold State.cmdIgnored
  exact (State.report_ok hs)
theorem State.putCmdLap_ok {s : State} {x1 : Nat} {x2 : Word} (hs : State.Ok s) : State.Ok (State.putCmdLap s x1 x2) := by
  unfold State.putCmdLap
  exact (State.wr_ok (State.settleFaults_ok (State.settleAdmits_ok hs)))
theorem execCreate_ok {x0 : Fin 2} {x1 : Word} {s : State} (hs : State.Ok s) : OkOut (execCreate x0 x1 s) := by
  unfold execCreate
  exact (State.live_ok hs (cut (fun h1 => (OkOut.next (iteP (State.cmdIgnored_ok h1) (iteP (State.prepare_ok h1) (State.report_ok h1)))))
      (State.putCmdLap_ok hs)))
theorem State.suspend_ok {s : State} {x1 : Nat} (hs : State.Ok s) : State.Ok (State.suspend s x1) := by
  unfold State.suspend
  exact (iteP (State.setEngState_ok (State.setReg_ok (State.updStream_ok hs))) hs)
theorem execPreempt_ok {x0 : Fin 2} {x1 : Word} {s : State} (hs : State.Ok s) : OkOut (execPreempt x0 x1 s) := by
  unfold execPreempt
  exact (State.live_ok hs (cut (fun h1 => (OkOut.next (iteP (State.cmdIgnored_ok h1) (State.setCtxState_ok (State.addSat_ok
      (State.updCol_ok (State.dropWaits_ok (foldl_ok (fun _ _ h4 => (State.suspend_ok h4)) h1)))))))) (State.putCmdLap_ok hs)))
theorem State.imageCells_ok {s : State} {x1 : Nat} {x2 : Nat} {x3 : List Host.Cell} (hs : State.Ok s) : State.Ok (State.imageCells s x1 x2
    x3) := by
  unfold State.imageCells
  exact (foldl_ok (fun _ _ h1 => (State.setMem_ok h1)) (State.Ok.with_lpddr hs (twf_tclear _ _ _ _ (State.Ok.lpddr hs))))
theorem State.writeImage_ok {s : State} (hs : State.Ok s) : State.Ok (State.writeImage s) := by
  unfold State.writeImage
  exact (State.updCtx_ok (foldl_ok (fun _ _ h5 => (State.imageCells_ok h5)) (foldl_ok (fun _ _ h6 => (State.imageCells_ok h6)) (foldl_ok
      (fun _ _ h7 => (State.imageCells_ok h7)) (State.setMem_ok (OkSnd.snd (State.freeBytes_ok hs)))))))
theorem execSaveComplete_ok {x0 : Upsets} {s : State} (hs : State.Ok s) : OkOut (execSaveComplete x0 s) := by
  unfold execSaveComplete
  exact (State.granting_ok hs (cut (fun h1 => (OkOut.next (iteP h1 (State.setCtxState_ok (State.writeImage_ok h1))))) (State.upset_ok hs)))
theorem execResume_ok {x0 : Fin 2} {x1 : Word} {s : State} (hs : State.Ok s) : OkOut (execResume x0 x1 s) := by
  unfold execResume
  exact (State.live_ok hs (cut (fun h1 => (OkOut.next (iteP (State.cmdIgnored_ok h1) (State.wake_ok (State.updCtx_ok h1)))))
      (State.putCmdLap_ok hs)))
theorem State.readImage_ok {s : State} (hs : State.Ok s) : State.Ok (State.readImage s) := by
  unfold State.readImage
  exact (by
    dsimp -failIfUnchanged only
    split
    · exact hs
    · exact (cut (fun h1 => (foldl_ok (fun _ _ h5 => (State.setReg_ok h5)) (foldl_ok (fun _ _ h6 => (State.setRelay_ok h6)) (foldl_ok (fun
        _ _ h7 => (State.updGate_ok (foldl_ok (fun _ _ h9 => (State.setGate_ok h9)) (State.Ok.with_gsram h7 (twf_tclear _ _ _ _
        (State.Ok.gsram h7)))))) (foldl_ok (fun _ _ h10 => (State.setGmu_ok (foldl_ok (fun _ _ h12 => (State.setStore_ok h12))
        (State.Ok.with_store h10 (twf_tclear _ _ _ _ (State.Ok.store h10)))))) h1))))) (foldl_ok (fun _ _ h13 => (State.setStream_ok h13))
        hs)))
theorem execSaveImageReadbackDone_ok {x0 : Upsets} {s : State} (hs : State.Ok s) : OkOut (execSaveImageReadbackDone x0 s) := by
  unfold execSaveImageReadbackDone
  exact (State.granting_ok hs (cut (fun h1 => (OkOut.next (iteP h1 (cut (fun h2 => (iteP (State.contextFault_ok h2) (State.updCtx_ok
      (State.readImage_ok h2)))) (foldl_ok (fun _ _ h3 => (State.memRead_ok h3)) h1))))) (State.upset_ok hs)))
theorem execHalt_ok {x0 : Fin 2} {x1 : Word} {s : State} (hs : State.Ok s) : OkOut (execHalt x0 x1 s) := by
  unfold execHalt
  exact (State.live_ok hs (cut (fun h1 => (OkOut.next (iteP (State.updCtx_ok h1) (State.cmdIgnored_ok h1)))) (State.putCmdLap_ok hs)))
theorem execDestroy_ok {x0 : Fin 2} {x1 : Word} {s : State} (hs : State.Ok s) : OkOut (execDestroy x0 x1 s) := by
  unfold execDestroy
  exact (State.live_ok hs (cut (fun h1 => (OkOut.next (iteP (State.setCtxState_ok h1) (iteP (State.setCtxState_ok (State.release_ok h1))
      (State.cmdIgnored_ok h1))))) (State.putCmdLap_ok hs)))
theorem execTeardown_ok {x0 : Fin 2} {x1 : Word} {s : State} (hs : State.Ok s) : OkOut (execTeardown x0 x1 s) := by
  unfold execTeardown
  exact (State.live_ok hs (cut (fun h1 => (OkOut.next (iteP (State.cmdIgnored_ok h1) (State.contextFault_ok h1)))) (State.putCmdLap_ok hs)))
theorem execCtxRsetWrite_ok {x0 : Word} {s : State} (hs : State.Ok s) : OkOut (execCtxRsetWrite x0 s) := by
  unfold execCtxRsetWrite
  exact (State.live_ok hs (OkOut.next (iteP (State.applySetting_ok hs) (State.report_ok hs))))
theorem execCtxJobWrite_ok {x0 : Fin 2} {x1 : Word} {s : State} (hs : State.Ok s) : OkOut (execCtxJobWrite x0 x1 s) := by
  unfold execCtxJobWrite
  exact (State.live_ok hs (OkOut.next (iteP (State.setReg_ok hs) (iteP (cut (fun h1 => (iteP (State.setCtxState_ok (State.allPending_ok
      (State.wr_ok (State.updCtx_ok h1)))) h1)) (State.setReg_ok hs)) (State.report_ok hs)))))
theorem execCtxPisteWrite_ok {x0 : Fin 2} {x1 : Word} {s : State} (hs : State.Ok s) : OkOut (execCtxPisteWrite x0 x1 s) := by
  unfold execCtxPisteWrite
  exact (State.live_ok hs (OkOut.next (iteP (State.applySetting_ok hs) (iteP (iteP (State.applySetting_ok hs) hs) (State.report_ok hs)))))
theorem State.writeJdig_ok {s : State} {x1 : Nat} {x2 : Word} (hs : State.Ok s) : State.Ok (State.writeJdig s x1 x2) := by
  unfold State.writeJdig
  exact (iteP (State.setReg_ok hs) (State.report_ok hs))
theorem State.writeWindow_ok {s : State} {x1 : Nat} {x2 : Nat} {x3 : Word} (hs : State.Ok s) : State.Ok (State.writeWindow s x1 x2 x3) := by
  unfold State.writeWindow
  exact (iteP (State.applySetting_ok hs) (State.report_ok hs))
theorem State.jobRefuse_ok {s : State} {x1 : Nat} (hs : State.Ok s) : State.Ok (State.jobRefuse s x1) := by
  unfold State.jobRefuse
  exact (State.report_ok (State.addSat_ok hs))
theorem State.member_ok {s : State} {x1 : Packet} {x2 : State → Nat → Option (State × Bool)} (hs : State.Ok s) (g2 : ∀ s c, State.Ok s → ∀
    r, x2 s c = some r → State.Ok r.1) : OkFst (State.member s x1 x2) := by
  unfold State.member
  have g1 : s.settleFaults.Ok := State.settleFaults_ok hs
  generalize s.settleFaults = s at g1 ⊢
  dsimp only
  cases s.memberOf (pkJob x1) with
  | none => exact OkFst.mk (State.jobRefuse_ok g1)
  | some c =>
    dsimp only
    cases q : x2 s c with
    | some r => exact g2 _ _ g1 _ q
    | none => exact iteP (P := OkFst) (OkFst.mk (State.addSat_ok g1)) (OkFst.mk (State.jobRefuse_ok g1))
theorem execDeliverRx_ok {x0 : Fin 13} {x1 : Packet} {s : State} (hs : State.Ok s) : OkOut (execDeliverRx x0 x1 s) := by
  unfold execDeliverRx
  refine (State.live_ok hs (OkOut.next (iteP hs (State.receive_ok hs (fun _ _ h1 => (State.aggLocal_ok (OkFst.fst (State.member_ok
      (State.leave_ok h1) ?_))))))))
  intro s c h r hr
  dsimp only at hr
  split at hr
  · injection hr with hr; subst hr; exact OkFst.fst (OkFst.mk (State.setCtxState_ok h))
  · cases hr
theorem execCommitRx_ok {x0 : Fin 13} {x1 : Packet} {s : State} (hs : State.Ok s) : OkOut (execCommitRx x0 x1 s) := by
  unfold execCommitRx
  refine (State.live_ok hs (OkOut.next (iteP hs (State.receive_ok hs (fun _ _ h1 => (State.aggLocal_ok (OkFst.fst (State.member_ok
      (State.leave_ok h1) ?_))))))))
  intro s c h r hr
  dsimp only at hr
  split at hr
  · split at hr
    · injection hr with hr; subst hr; exact OkFst.fst (OkFst.mk (State.wake_ok (State.updCtx_ok h)))
    · injection hr with hr; subst hr; exact OkFst.fst (OkFst.mk (State.report_ok h))
  · cases hr
theorem State.leadPhase_ok {s : State} {x1 : Nat} (hs : State.Ok s) : State.Ok (State.leadPhase s x1) := by
  unfold State.leadPhase
  exact (State.originateTree_ok (State.wr_ok (State.Ok.upd hs)))
theorem State.leadEnd_ok {s : State} {x1 : Nat} {x2 : Option Nat} (hs : State.Ok s) : State.Ok (State.leadEnd s x1 x2) := by
  unfold State.leadEnd
  exact (cut (fun h1 => (by
    dsimp -failIfUnchanged only
    split
    · exact (State.report_ok h1)
    · exact h1)) (State.Ok.upd (State.wr_ok hs)))
theorem execJobLeadStart_ok {x0 : Word} {s : State} (hs : State.Ok s) : OkOut (execJobLeadStart x0 s) := by
  unfold execJobLeadStart
  exact (State.live_ok hs (cut (fun h1 => (OkOut.next (iteP (State.leadPhase_ok (State.Ok.upd h1)) (State.report_ok h1))))
      (State.applySetting_ok hs)))
theorem execLeadPhaseComplete_ok {s : State} (hs : State.Ok s) : OkOut (execLeadPhaseComplete s) := by
  unfold execLeadPhaseComplete
  exact (State.live_ok hs (OkOut.next (iteP hs (cut (fun h1 => (iteP (iteP (State.leadPhase_ok h1) (State.leadEnd_ok h1)) (iteP
      (State.leadEnd_ok h1) (State.leadEnd_ok h1)))) (State.wr_ok (State.wr_ok hs))))))
theorem execLeadPhaseTimeout_ok {s : State} (hs : State.Ok s) : OkOut (execLeadPhaseTimeout s) := by
  unfold execLeadPhaseTimeout
  exact (State.live_ok hs (OkOut.next (iteP hs (State.leadEnd_ok hs))))

/-! Power. -/

theorem State.supplyReading_ok {s : State} {x1 : Nat} {x2 : Nat} (hs : State.Ok s) : State.Ok (State.supplyReading s x1 x2) := by
  unfold State.supplyReading
  exact (State.wr_ok (State.wr_ok (State.wr_ok hs)))
theorem execSupplyExcursion_ok {x0 : Fin 9} {x1 : BitVec 16} {s : State} (hs : State.Ok s) : OkOut (execSupplyExcursion x0 x1 s) := by
  unfold execSupplyExcursion
  exact (cut (fun h1 => (OkOut.next (iteP hs (iteP (State.updPower_ok h1) (cut (fun h2 => (iteP h2 (State.pwrReport_ok (State.updPower_ok
      h2)))) (State.setLimit_ok (State.setBit_ok h1))))))) (State.supplyReading_ok hs))
theorem execSupplyInBand_ok {x0 : Fin 9} {s : State} (hs : State.Ok s) : OkOut (execSupplyInBand x0 s) := by
  unfold execSupplyInBand
  exact (OkOut.next (State.updPower_ok hs))
theorem execPowerAverage10ms_ok {x0 : BitVec 16} {s : State} (hs : State.Ok s) : OkOut (execPowerAverage10ms x0 s) := by
  unfold execPowerAverage10ms
  exact (cut (fun h1 => (OkOut.next (iteP (State.pwrReport_ok (State.setLimit_ok h1)) h1))) (State.wr_ok hs))
theorem execPowerAverage1s_ok {x0 : BitVec 16} {s : State} (hs : State.Ok s) : OkOut (execPowerAverage1s x0 s) := by
  unfold execPowerAverage1s
  exact (cut (fun h1 => (OkOut.next (iteP (State.pwrReport_ok h1) h1))) (State.wr_ok hs))
theorem State.thermalTrip_ok {s : State} (hs : State.Ok s) : State.Ok (State.thermalTrip s) := by
  unfold State.thermalTrip
  exact (iteP hs (State.emit_ok (State.interrupt_ok (State.deviceFault_ok (State.updPower_ok hs)))))
theorem execThermalSample_ok {x0 : List (BitVec 16)} {s : State} (hs : State.Ok s) : OkOut (execThermalSample x0 s) := by
  unfold execThermalSample
  exact (OkOut.next (by
    dsimp -failIfUnchanged only
    split
    · exact hs
    · exact (cut (fun h1 => (cut (fun h2 => (iteP h2 (State.thermalTrip_ok h2))) (iteP (State.updPower_ok h1) (cut (fun h3 => (iteP
        (State.pwrReport_ok (State.updPower_ok h3)) h3)) (State.setLimit_ok (State.setBit_ok h1)))))) (State.wr_ok (State.wr_ok
        (State.wr_ok hs))))))
theorem execPwrDomWrite_ok {x0 : Fin 2} {x1 : Word} {s : State} (hs : State.Ok s) : OkOut (execPwrDomWrite x0 x1 s) := by
  unfold execPwrDomWrite
  exact (OkOut.next (State.updPower_ok hs))
theorem State.applyDomain_ok {s : State} {x1 : Nat} {x2 : Word} (hs : State.Ok s) : State.Ok (State.applyDomain s x1 x2) := by
  unfold State.applyDomain
  exact (iteP (State.pwrReport_ok hs) (State.bringDomains_ok (State.setReg_ok hs)))
theorem State.clearRegs_ok {s : State} {x1 : Nat} {x2 : Nat} (hs : State.Ok s) : State.Ok (State.clearRegs s x1 x2) := by
  unfold State.clearRegs
  exact (State.Ok.with_regs hs (twf_tclear _ _ _ _ (State.Ok.regs hs)))
theorem State.loseStream_ok {s : State} {x1 : Nat} (hs : State.Ok s) : State.Ok (State.loseStream s x1) := by
  unfold State.loseStream
  exact (State.Ok.upd (State.setStream_ok (iteP hs (State.clearRegs_ok hs))))
theorem State.loseDomain_ok {s : State} {x1 : Nat} (hs : State.Ok s) : State.Ok (State.loseDomain s x1) := by
  unfold State.loseDomain
  exact (iteP (State.setGmu_ok (State.setStore_ok (OkSnd.snd (State.freeBytes_ok (State.loseStream_ok hs))))) (iteP (State.updGate_ok
      (State.setGate_ok (OkSnd.snd (State.freeBytes_ok (State.loseStream_ok hs))))) (iteP (State.clearRegs_ok (State.setPort_ok
      (State.portDown_ok hs))) (iteP (State.clearRegs_ok hs) hs))))
theorem State.setDomain_ok {s : State} {x1 : Nat} {x2 : Bool} (hs : State.Ok s) : State.Ok (State.setDomain s x1 x2) := by
  unfold State.setDomain
  exact (iteP (State.setBit_ok hs) (State.setBit_ok hs))
theorem execDomainSwitch_ok {s : State} (hs : State.Ok s) : OkOut (execDomainSwitch s) := by
  unfold execDomainSwitch
  exact (OkOut.next (by
    dsimp -failIfUnchanged only
    split
    · exact hs
    · exact (cut (fun h1 => (iteP (State.updPower_ok (State.setDomain_ok h1)) (State.setDomain_ok (State.loseDomain_ok h1))))
        (State.updPower_ok hs))))
theorem State.coldState_ok {s : State} {x1 : Nat} (hs : State.Ok s) : State.Ok (State.coldState s x1) := by
  constructor <;> first | exact twf_nil _ | exact hs.lpddr
theorem rwsOnly_wf (regs : List (Nat × Word)) : twf resetWord (rwsOnly regs) = true := by
  unfold rwsOnly
  refine foldl_twf _ _ ?_ _ (twf_nil _)
  intro t e h
  split
  · exact h
  · exact twf_tset _ _ _ _ h
theorem State.warmState_ok {s : State} {x1 : Nat} (hs : State.Ok s) : State.Ok (State.warmState s x1) := by
  unfold State.warmState
  have h : ∀ t : State, t.Ok → (alwaysOn.foldl (fun t f => t.wr f (s.rd f)) t).Ok := fun t h => foldl_ok (fun _ _ h2 => State.wr_ok h2) h
  refine cut (fun h1 => iteP h1 (State.interrupt_ok h1)) (h _ ?_)
  exact State.Ok.with_regs (State.coldState_ok (x1 := x1) hs) (rwsOnly_wf _)
theorem State.packagesReset_ok {s : State} (hs : State.Ok s) : State.Ok (State.packagesReset s) := by
  unfold State.packagesReset
  exact (foldl_ok (fun _ _ h1 => (State.emit_ok h1)) hs)
theorem execColdReset_ok {s : State} (hs : State.Ok s) : OkOut (execColdReset s) := by
  unfold execColdReset
  exact (OkOut.next (State.emit_ok (State.packagesReset_ok (State.coldState_ok hs))))
theorem execWarmReset_ok {s : State} (hs : State.Ok s) : OkOut (execWarmReset s) := by
  unfold execWarmReset
  exact (OkOut.next (iteP hs (State.warmState_ok hs)))
theorem State.writeRetention_ok {s : State} (hs : State.Ok s) : State.Ok (State.writeRetention s) := by
  unfold State.writeRetention
  exact (iteP hs (State.updCtx_ok (State.setMem_ok (OkSnd.snd (State.freeBytes_ok hs)))))
theorem State.finishRequests_ok {s : State} (hs : State.Ok s) : State.Ok (State.finishRequests s) := by
  unfold State.finishRequests
  exact (foldl_ok (fun _ _ h1 => (State.serve_ok (iteP (foldl_ok (fun _ _ h3 => (State.preservePage_ok h3)) h1) h1))) hs)
theorem State.enterSelfRefresh_ok {s : State} {x1 : Nat} (hs : State.Ok s) : State.Ok (State.enterSelfRefresh s x1) := by
  unfold State.enterSelfRefresh
  exact (iteP (foldl_ok (fun _ _ h1 => (State.emit_ok (State.emit_ok h1))) (State.setMemState_ok (State.setMemCtl_ok hs))) hs)
theorem execP2EntryDone_ok {s : State} (hs : State.Ok s) : OkOut (execP2EntryDone s) := by
  unfold execP2EntryDone
  exact (OkOut.next (iteP hs (cut (fun h1 => (State.Ok.upd (State.updPower_ok (State.setPwrState_ok (State.wr_ok (State.setBit_ok
      (State.setReg_ok (State.setReg_ok (foldl_ok (fun _ _ h8 => (State.enterSelfRefresh_ok h8)) (State.finishRequests_ok (foldl_ok (fun _
      _ h9 => (State.setHostState_ok (State.setBit_ok h9))) (foldl_ok (fun _ _ h10 => (State.portDown_ok h10)) h1))))))))))))
      (State.writeRetention_ok hs))))
theorem State.exitState_ok {s : State} (hs : State.Ok s) : State.Ok (State.exitState s) := by
  unfold State.exitState
  exact (cut (fun h4 => (iteP h4 (State.setCtx_ok h4))) (foldl_ok (fun _ _ h5 => (iteP (State.setMemState_ok h5) h5)) (State.setBit_ok
      (State.setBit_ok (State.setBit_ok (foldl_ok (fun _ _ h6 => (State.setReg_ok h6)) (State.warmState_ok hs)))))))
theorem State.restoreBuf_ok {s : State} {x1 : Nat} {x2 : Buf} (hs : State.Ok s) : State.Ok (State.restoreBuf s x1 x2) := by
  unfold State.restoreBuf
  exact (State.addMod_ok (State.setFreeQ_ok (State.setBuf_ok hs)))
theorem execRetentionRestoreDone_ok {s : State} (hs : State.Ok s) : OkOut (execRetentionRestoreDone s) := by
  unfold execRetentionRestoreDone
  exact (State.granting_ok hs (OkOut.next (by
    dsimp -failIfUnchanged only
    split
    · exact hs
    · exact (iteP hs (iteP (State.contextFault_ok hs) (State.updCtx_ok (foldl_ok (fun _ _ h4 => (State.setReg_ok h4)) (foldl_ok (fun _ _ h5
        => (State.restoreBuf_ok h5)) (foldl_ok (fun _ _ h6 => (State.setRink_ok h6)) hs)))))))))
theorem State.powerCommand_ok {s : State} {x1 : Nat} {x2 : Bool} {x3 : Bool} (hs : State.Ok s) : State.Ok (State.powerCommand s x1 x2 x3)
    := by
  unfold State.powerCommand
  exact (iteP (State.setPwrState_ok (State.bringDomains_ok hs)) (iteP (State.wake_ok hs) (iteP (iteP (State.setPwrState_ok hs)
      (State.report_ok hs)) (iteP (State.warmState_ok hs) (State.pwrReport_ok hs)))))
theorem State.writePwrCmd_ok {s : State} {x1 : Path} {x2 : Nat} {x3 : Bool} (hs : State.Ok s) : State.Ok (State.writePwrCmd s x1 x2 x3) :=
    by
  unfold State.writePwrCmd
  exact (iteP (State.pwrReport_ok hs) (iteP (State.pwrReport_ok hs) (iteP (State.updPower_ok hs) (iteP (State.exitState_ok hs)
      (State.pwrReport_ok hs)))))
theorem execP0_ok {x0 : Path} {s : State} (hs : State.Ok s) : OkOut (execP0 x0 s) := by
  unfold execP0
  exact (OkOut.next (State.writePwrCmd_ok hs))
theorem execP1_ok {x0 : Path} {s : State} (hs : State.Ok s) : OkOut (execP1 x0 s) := by
  unfold execP1
  exact (OkOut.next (State.writePwrCmd_ok hs))
theorem execP2_ok {x0 : Path} {s : State} (hs : State.Ok s) : OkOut (execP2 x0 s) := by
  unfold execP2
  exact (OkOut.next (State.writePwrCmd_ok hs))
theorem execWarm_ok {x0 : Path} {s : State} (hs : State.Ok s) : OkOut (execWarm x0 s) := by
  unfold execWarm
  exact (OkOut.next (State.writePwrCmd_ok hs))
theorem State.powerEdge_ok {s : State} (hs : State.Ok s) : State.Ok (State.powerEdge s) := by
  unfold State.powerEdge
  exact (foldl_ok (fun _ _ h3 => (iteP h3 (State.powerCommand_ok h3))) (foldl_ok (fun _ _ h4 => (State.applyDomain_ok h4))
      (State.updPower_ok hs)))
theorem State.avsStart_ok {s : State} (hs : State.Ok s) : State.Ok (State.avsStart s) := by
  unfold State.avsStart
  exact (State.emit_ok (State.wr_ok (OkSnd.snd (State.free_ok hs))))
theorem State.avsEdge_ok {s : State} (hs : State.Ok s) : State.Ok (State.avsEdge s) := by
  unfold State.avsEdge
  exact (iteP hs (iteP (State.pwrReport_ok (State.addSat_ok (OkSnd.snd (State.free_ok (OkSnd.snd (State.free_ok (OkSnd.snd (State.free_ok
      (OkSnd.snd (State.free_ok hs)))))))))) (cut (fun h1 => (iteP h1 (State.emit_ok (State.wr_ok h1)))) (State.wr_ok (State.wr_ok
      (OkSnd.snd (State.free_ok (OkSnd.snd (State.free_ok (OkSnd.snd (State.free_ok (OkSnd.snd (State.free_ok hs)))))))))))))
theorem execRefclkLoss_ok {s : State} (hs : State.Ok s) : OkOut (execRefclkLoss s) := by
  unfold execRefclkLoss
  exact (cut (fun h1 => (OkOut.next (State.pwrReport_ok (iteP (State.wr_ok h1) h1)))) (State.addSat_ok (State.setBit_ok hs)))
theorem execRefclkBothLost_ok {s : State} (hs : State.Ok s) : OkOut (execRefclkBothLost s) := by
  unfold execRefclkBothLost
  exact (OkOut.next (State.interrupt_ok (State.deviceFault_ok (State.setBit_ok (State.setBit_ok hs)))))
theorem execRefclkReturn_ok {s : State} (hs : State.Ok s) : OkOut (execRefclkReturn s) := by
  unfold execRefclkReturn
  exact (OkOut.next (State.setBit_ok hs))
theorem execSrefclkLoss_ok {x0 : Fin 2} {s : State} (hs : State.Ok s) : OkOut (execSrefclkLoss x0 s) := by
  unfold execSrefclkLoss
  exact (cut (fun h2 => (OkOut.next (iteP (State.report_ok (State.setHostState_ok (State.wr_ok h2))) h2))) (foldl_ok (fun _ _ h3 => (iteP
      h3 (State.portFail_ok h3))) (State.setBit_ok hs)))
theorem State.deriveIdentity_ok {s : State} (hs : State.Ok s) : State.Ok (State.deriveIdentity s) := by
  unfold State.deriveIdentity
  exact (iteP (State.wr_ok (State.updSec_ok hs)) hs)
theorem State.copyImage_ok {s : State} {x1 : Nat} (hs : State.Ok s) : State.Ok (State.copyImage s x1) := by
  unfold State.copyImage
  exact (State.updSec_ok (State.wr_ok (State.setRink_ok (State.wr_ok hs))))
theorem State.loadSetting_ok {s : State} {x1 : Nat} {x2 : Nat} (hs : State.Ok s) : State.Ok (State.loadSetting s x1 x2) := by
  unfold State.loadSetting
  exact (by
    split
    · exact (State.setReg_ok hs)
    · exact hs)
theorem State.zeroStores_ok {s : State} (hs : State.Ok s) : State.Ok (State.zeroStores s) := by
  unfold State.zeroStores
  refine (foldl_ok (fun _ _ h2 => (State.updStream_ok h2)) ?_)
  constructor
  all_goals first | exact twf_nil _ | exact hs.regs | exact hs.lpddr | exact hs.tmpl
theorem State.startClock_ok {s : State} (hs : State.Ok s) : State.Ok (State.startClock s) := by
  unfold State.startClock
  exact (cut (fun h1 => (cut (fun h2 => (State.wr_ok (iteP (foldl_ok (fun _ _ h4 => (State.setBit_ok h4)) h2) h2))) (iteP
      (State.pwrReport_ok (State.setLimit_ok (State.updPower_ok h1))) h1))) (State.wr_ok (State.updPower_ok hs)))
theorem State.startFuses_ok {s : State} (hs : State.Ok s) : State.Ok (State.startFuses s) := by
  unfold State.startFuses
  exact (State.wr_ok (State.wr_ok (State.newNonce_ok (State.wr_ok (State.wr_ok hs)))))
theorem State.startStores_ok {s : State} (hs : State.Ok s) : State.Ok (State.startStores s) := by
  unfold State.startStores
  exact (cut (fun h1 => (by
    dsimp -failIfUnchanged only
    split
    · exact (State.wr_ok (State.loadSetting_ok h1))
    · exact h1)) (State.zeroStores_ok (State.avsStart_ok (State.deriveIdentity_ok (State.Ok.upd hs)))))
theorem State.startTrain_ok {s : State} (hs : State.Ok s) : State.Ok (State.startTrain s) := by
  unfold State.startTrain
  exact (foldl_ok (fun _ _ h3 => (iteP (State.enterTrain_ok (State.setBit_ok h3)) h3)) (foldl_ok (fun _ _ h4 => (State.setHostState_ok
      (State.setBit_ok h4))) (foldl_ok (fun _ _ h5 => (iteP (foldl_ok (fun _ _ h6 => (State.emit_ok h6)) (State.memTrain_ok h5)) (iteP
      (State.memTrain_ok h5) h5))) hs)))
theorem State.startUp_ok {s : State} (hs : State.Ok s) : State.Ok (State.startUp s) := by
  unfold State.startUp
  exact (cut (fun h1 => (iteP h1 (State.copyImage_ok (State.startTrain_ok (State.startStores_ok h1))))) (State.Ok.upd (State.startFuses_ok
      (State.startClock_ok hs))))
theorem execResetRelease_ok {s : State} (hs : State.Ok s) : OkOut (execResetRelease s) := by
  unfold execResetRelease
  exact (OkOut.next (iteP (State.startUp_ok hs) hs))
theorem State.releasePorts_ok {s : State} (hs : State.Ok s) : State.Ok (State.releasePorts s) := by
  unfold State.releasePorts
  exact (foldl_ok (fun _ _ h1 => (State.helloAdvance_ok (State.sendHello_ok h1))) hs)
theorem State.portDiscard_ok {s : State} {x1 : Nat} (hs : State.Ok s) : State.Ok (State.portDiscard s x1) := by
  unfold State.portDiscard
  exact (State.setPortState_ok (State.updPort_ok (foldl_ok (fun _ _ h2 => (State.setReg_ok h2)) hs)))
theorem State.bootSetting_ok {s : State} {x1 : Nat} {x2 : Nat} (hs : State.Ok s) : State.Ok (State.bootSetting s x1 x2) := by
  unfold State.bootSetting
  exact (iteP (iteP (State.loadSetting_ok hs) hs) (cut (fun h1 => (iteP (State.setReg_ok h1) (iteP (State.setBit_ok h1) h1)))
      (State.loadSetting_ok hs)))
theorem State.bootFirmware_ok {s : State} (hs : State.Ok s) : State.Ok (State.bootFirmware s) := by
  unfold State.bootFirmware
  exact (State.setBit_ok (by
    split
    · exact (foldl_ok (fun _ _ h2 => (State.bootSetting_ok h2)) hs)
    · exact hs))
theorem State.bootPass_ok {s : State} {x1 : Nat} (hs : State.Ok s) : State.Ok (State.bootPass s x1) := by
  unfold State.bootPass
  exact (State.releaseHost_ok (State.releasePorts_ok (State.releaseMem_ok (State.bootFirmware_ok (State.setBit_ok (State.wr_ok (State.wr_ok
      (State.wr_ok (State.updSec_ok hs)))))))))
theorem State.bootFail_ok {s : State} (hs : State.Ok s) : State.Ok (State.bootFail s) := by
  unfold State.bootFail
  exact (State.setPwrState_ok (State.setBit_ok (State.wr_ok (State.setReg_ok (State.Ok.with_rink (foldl_ok (fun _ _ h6 =>
      (State.portDiscard_ok h6)) (State.discardHost_ok (State.discardMem_ok (State.wr_ok (State.wr_ok (State.secReport_ok (State.updSec_ok
      hs))))))) (twf_nil _))))))
theorem execBootSlotVerified_ok {s : State} (hs : State.Ok s) : OkOut (execBootSlotVerified s) := by
  unfold execBootSlotVerified
  exact (OkOut.next (iteP hs (by
    dsimp -failIfUnchanged only
    split
    · exact (State.bootPass_ok hs)
    · exact (cut (fun h1 => (iteP (State.copyImage_ok h1) (State.bootFail_ok h1))) (State.secReport_ok (State.wr_ok (State.wr_ok
        (State.trouble_ok (State.readSlot_ok hs)))))))))

/-! Vector. -/

theorem State.orFlags_ok {s : State} {x1 : Nat} {x2 : Nat} (hs : State.Ok s) : State.Ok (State.orFlags s x1 x2) := by
  unfold State.orFlags
  exact (State.setReg_ok hs)
theorem State.writeLanes_ok {s : State} {x1 : Nat} {x2 : Nat} {x3 : Nat → Nat × Nat} (hs : State.Ok s) : State.Ok (State.writeLanes s x1 x2
    x3) := by
  unfold State.writeLanes
  exact (State.orFlags_ok (State.setV_ok hs))
theorem State.vecOp_ok {s : State} {x1 : Nat} {x2 : Nat} {x3 : Nat} {x4 : BitVec 52} {x5 : VForm} {x6 : State → Nat → Nat → Nat × Nat} (hs
    : State.Ok s) : State.Ok (State.vecOp s x1 x2 x3 x4 x5 x6) := by
  unfold State.vecOp
  exact (State.issue_ok hs (fun _ h1 => (State.retire_ok (State.writeLanes_ok h1))))
theorem execVadd_ok {x0 : Fin 50} {x1 : BitVec 52} {s : State} (hs : State.Ok s) : OkOut (execVadd x0 x1 s) := by
  unfold execVadd
  exact (OkOut.next (State.vecOp_ok hs))
theorem execVsub_ok {x0 : Fin 50} {x1 : BitVec 52} {s : State} (hs : State.Ok s) : OkOut (execVsub x0 x1 s) := by
  unfold execVsub
  exact (OkOut.next (State.vecOp_ok hs))
theorem execVmul_ok {x0 : Fin 50} {x1 : BitVec 52} {s : State} (hs : State.Ok s) : OkOut (execVmul x0 x1 s) := by
  unfold execVmul
  exact (OkOut.next (State.vecOp_ok hs))
theorem execVfma_ok {x0 : Fin 50} {x1 : BitVec 52} {s : State} (hs : State.Ok s) : OkOut (execVfma x0 x1 s) := by
  unfold execVfma
  exact (OkOut.next (State.vecOp_ok hs))
theorem execVmin_ok {x0 : Fin 50} {x1 : BitVec 52} {s : State} (hs : State.Ok s) : OkOut (execVmin x0 x1 s) := by
  unfold execVmin
  exact (OkOut.next (State.vecOp_ok hs))
theorem execVmax_ok {x0 : Fin 50} {x1 : BitVec 52} {s : State} (hs : State.Ok s) : OkOut (execVmax x0 x1 s) := by
  unfold execVmax
  exact (OkOut.next (State.vecOp_ok hs))
theorem execVabs_ok {x0 : Fin 50} {x1 : BitVec 52} {s : State} (hs : State.Ok s) : OkOut (execVabs x0 x1 s) := by
  unfold execVabs
  exact (OkOut.next (State.vecOp_ok hs))
theorem execVneg_ok {x0 : Fin 50} {x1 : BitVec 52} {s : State} (hs : State.Ok s) : OkOut (execVneg x0 x1 s) := by
  unfold execVneg
  exact (OkOut.next (State.vecOp_ok hs))
theorem execVmov_ok {x0 : Fin 50} {x1 : BitVec 52} {s : State} (hs : State.Ok s) : OkOut (execVmov x0 x1 s) := by
  unfold execVmov
  exact (OkOut.next (State.vecOp_ok hs))
theorem execVbcast_ok {x0 : Fin 50} {x1 : BitVec 52} {s : State} (hs : State.Ok s) : OkOut (execVbcast x0 x1 s) := by
  unfold execVbcast
  exact (OkOut.next (State.issue_ok hs (fun _ h1 => (State.retire_ok (State.writeLanes_ok h1)))))
theorem execViota_ok {x0 : Fin 50} {x1 : BitVec 52} {s : State} (hs : State.Ok s) : OkOut (execViota x0 x1 s) := by
  unfold execViota
  exact (OkOut.next (State.vecOp_ok hs))
theorem execViadd_ok {x0 : Fin 50} {x1 : BitVec 52} {s : State} (hs : State.Ok s) : OkOut (execViadd x0 x1 s) := by
  unfold execViadd
  exact (OkOut.next (State.vecOp_ok hs))
theorem execVisub_ok {x0 : Fin 50} {x1 : BitVec 52} {s : State} (hs : State.Ok s) : OkOut (execVisub x0 x1 s) := by
  unfold execVisub
  exact (OkOut.next (State.vecOp_ok hs))
theorem execVand_ok {x0 : Fin 50} {x1 : BitVec 52} {s : State} (hs : State.Ok s) : OkOut (execVand x0 x1 s) := by
  unfold execVand
  exact (OkOut.next (State.vecOp_ok hs))
theorem execVor_ok {x0 : Fin 50} {x1 : BitVec 52} {s : State} (hs : State.Ok s) : OkOut (execVor x0 x1 s) := by
  unfold execVor
  exact (OkOut.next (State.vecOp_ok hs))
theorem execVxor_ok {x0 : Fin 50} {x1 : BitVec 52} {s : State} (hs : State.Ok s) : OkOut (execVxor x0 x1 s) := by
  unfold execVxor
  exact (OkOut.next (State.vecOp_ok hs))
theorem execVshl_ok {x0 : Fin 50} {x1 : BitVec 52} {s : State} (hs : State.Ok s) : OkOut (execVshl x0 x1 s) := by
  unfold execVshl
  exact (OkOut.next (State.vecOp_ok hs))
theorem execVshr_ok {x0 : Fin 50} {x1 : BitVec 52} {s : State} (hs : State.Ok s) : OkOut (execVshr x0 x1 s) := by
  unfold execVshr
  exact (OkOut.next (State.vecOp_ok hs))
theorem State.vecCmp_ok {s : State} {x1 : Nat} {x2 : Nat} {x3 : BitVec 52} {x4 : Nat → Nat → Bool} (hs : State.Ok s) : State.Ok
    (State.vecCmp s x1 x2 x3 x4) := by
  unfold State.vecCmp
  exact (State.issue_ok hs (fun _ h1 => (State.retire_ok (State.setP_ok h1))))
theorem execVcmpEq_ok {x0 : Fin 50} {x1 : BitVec 52} {s : State} (hs : State.Ok s) : OkOut (execVcmpEq x0 x1 s) := by
  unfold execVcmpEq
  exact (OkOut.next (State.vecCmp_ok hs))
theorem execVcmpLt_ok {x0 : Fin 50} {x1 : BitVec 52} {s : State} (hs : State.Ok s) : OkOut (execVcmpLt x0 x1 s) := by
  unfold execVcmpLt
  exact (OkOut.next (State.vecCmp_ok hs))
theorem execVcmpLe_ok {x0 : Fin 50} {x1 : BitVec 52} {s : State} (hs : State.Ok s) : OkOut (execVcmpLe x0 x1 s) := by
  unfold execVcmpLe
  exact (OkOut.next (State.vecCmp_ok hs))
theorem execVcmpUn_ok {x0 : Fin 50} {x1 : BitVec 52} {s : State} (hs : State.Ok s) : OkOut (execVcmpUn x0 x1 s) := by
  unfold execVcmpUn
  exact (OkOut.next (State.vecCmp_ok hs))
theorem execVicmpEq_ok {x0 : Fin 50} {x1 : BitVec 52} {s : State} (hs : State.Ok s) : OkOut (execVicmpEq x0 x1 s) := by
  unfold execVicmpEq
  exact (OkOut.next (State.vecCmp_ok hs))
theorem execVicmpLt_ok {x0 : Fin 50} {x1 : BitVec 52} {s : State} (hs : State.Ok s) : OkOut (execVicmpLt x0 x1 s) := by
  unfold execVicmpLt
  exact (OkOut.next (State.vecCmp_ok hs))
theorem execVsel_ok {x0 : Fin 50} {x1 : BitVec 52} {s : State} (hs : State.Ok s) : OkOut (execVsel x0 x1 s) := by
  unfold execVsel
  exact (OkOut.next (State.issue_ok hs (fun _ h1 => (State.retire_ok (State.setV_ok h1)))))
theorem execVcvt_ok {x0 : Fin 50} {x1 : BitVec 52} {s : State} (hs : State.Ok s) : OkOut (execVcvt x0 x1 s) := by
  unfold execVcvt
  exact (OkOut.next (State.issue_ok hs (fun _ h1 => (iteP (cut (fun h2 => (State.retire_ok (State.orFlags_ok (iteP (State.setV_ok h2)
      h2)))) (State.setV_ok h1)) (State.retire_ok (State.Ok.upd (State.writeLanes_ok h1)))))))
theorem execVext_ok {x0 : Fin 50} {x1 : BitVec 52} {s : State} (hs : State.Ok s) : OkOut (execVext x0 x1 s) := by
  unfold execVext
  exact (OkOut.next (State.issue_ok hs (fun _ h1 => (State.retire_ok (State.setS_ok h1)))))
theorem execVld_ok {x0 : Fin 50} {x1 : BitVec 52} {s : State} (hs : State.Ok s) : OkOut (execVld x0 x1 s) := by
  unfold execVld
  exact (OkOut.next (State.issue_ok hs (fun _ h1 => (State.sendOn_ok (State.updStream_ok (State.beginOp_ok (OkSnd.snd (State.besideRead_ok
      (State.checkRead_ok h1)))))))))
theorem State.vecStore_ok {s : State} {x1 : Nat} {x2 : Nat} {x3 : Nat} {x4 : Vec} {x5 : Nat → Bool} (hs : State.Ok s) : State.Ok
    (State.vecStore s x1 x2 x3 x4 x5) := by
  unfold State.vecStore
  exact (foldl_ok (fun _ _ h2 => (iteP h2 (foldl_ok (fun _ _ h3 => (State.trailBlock_ok h3)) h2))) (State.setSpace_ok
      (State.presentWrite_ok hs)))
theorem execVst_ok {x0 : Fin 50} {x1 : BitVec 52} {s : State} (hs : State.Ok s) : OkOut (execVst x0 x1 s) := by
  unfold execVst
  exact (OkOut.next (State.issue_ok hs (fun _ h1 => (State.sendOn_ok (State.vecStore_ok (State.beginOp_ok (OkSnd.snd (State.besideWrite_ok
      h1))))))))
theorem State.vecReduce_ok {s : State} {x1 : Nat} {x2 : Nat} {x3 : BitVec 52} {x4 : VForm} {x5 : Nat} {x6 : Nat → Nat → Nat → Nat × Nat}
    (hs : State.Ok s) : State.Ok (State.vecReduce s x1 x2 x3 x4 x5 x6) := by
  unfold State.vecReduce
  exact (State.issue_ok hs (fun _ h1 => (State.retire_ok (State.orFlags_ok (State.setV_ok h1)))))
theorem execVrsum_ok {x0 : Fin 50} {x1 : BitVec 52} {s : State} (hs : State.Ok s) : OkOut (execVrsum x0 x1 s) := by
  unfold execVrsum
  exact (OkOut.next (State.vecReduce_ok hs))
theorem execVrmax_ok {x0 : Fin 50} {x1 : BitVec 52} {s : State} (hs : State.Ok s) : OkOut (execVrmax x0 x1 s) := by
  unfold execVrmax
  exact (OkOut.next (State.vecReduce_ok hs))
theorem execVrmin_ok {x0 : Fin 50} {x1 : BitVec 52} {s : State} (hs : State.Ok s) : OkOut (execVrmin x0 x1 s) := by
  unfold execVrmin
  exact (OkOut.next (State.vecReduce_ok hs))
theorem execVexp2_ok {x0 : Fin 50} {x1 : BitVec 52} {s : State} (hs : State.Ok s) : OkOut (execVexp2 x0 x1 s) := by
  unfold execVexp2
  exact (OkOut.next (State.vecOp_ok hs))
theorem execVlog2_ok {x0 : Fin 50} {x1 : BitVec 52} {s : State} (hs : State.Ok s) : OkOut (execVlog2 x0 x1 s) := by
  unfold execVlog2
  exact (OkOut.next (State.vecOp_ok hs))
theorem execVrcp_ok {x0 : Fin 50} {x1 : BitVec 52} {s : State} (hs : State.Ok s) : OkOut (execVrcp x0 x1 s) := by
  unfold execVrcp
  exact (OkOut.next (State.vecOp_ok hs))
theorem execVrsqrt_ok {x0 : Fin 50} {x1 : BitVec 52} {s : State} (hs : State.Ok s) : OkOut (execVrsqrt x0 x1 s) := by
  unfold execVrsqrt
  exact (OkOut.next (State.vecOp_ok hs))
theorem execVsqrt_ok {x0 : Fin 50} {x1 : BitVec 52} {s : State} (hs : State.Ok s) : OkOut (execVsqrt x0 x1 s) := by
  unfold execVsqrt
  exact (OkOut.next (State.vecOp_ok hs))

/-! Gmm. -/

theorem State.gmmWrite_ok {s : State} {x1 : Nat} {x2 : Nat} {x3 : Gdt} {x4 : Bool} (hs : State.Ok s) : State.Ok (State.gmmWrite s x1 x2 x3
    x4) := by
  unfold State.gmmWrite
  exact (State.Ok.upd (foldl_ok (fun _ _ h2 => (State.orFlags_ok (State.streamWrite_ok h2))) hs))
theorem State.countEntry_ok {s : State} {x1 : Nat} {x2 : Gdt} (hs : State.Ok s) : State.Ok (State.countEntry s x1 x2) := by
  unfold State.countEntry
  exact (State.addSat_ok (State.addSat_ok (State.Ok.upd hs)))
theorem State.gmuReach_ok {s : State} {x1 : Nat} (hs : State.Ok s) : State.Ok (State.gmuReach s x1) := by
  unfold State.gmuReach
  exact (by
    dsimp -failIfUnchanged only
    split
    · exact hs
    · exact (iteP (State.setGmu_ok hs) hs))
theorem State.gmuAdd_ok {s : State} {x1 : Nat} {x2 : GmmOp} (hs : State.Ok s) : State.Ok (State.gmuAdd s x1 x2) := by
  unfold State.gmuAdd
  exact (cut (fun h1 => (State.gmuReach_ok (iteP (State.gmmBegins_ok h1) h1))) (State.setGmu_ok hs))
theorem execGmm_ok {x0 : Fin 50} {x1 : BitVec 52} {s : State} (hs : State.Ok s) : OkOut (execGmm x0 x1 s) := by
  unfold execGmm
  exact (OkOut.next (State.issue_ok hs (fun _ h1 => (iteP (State.retire_ok (iteP (State.addCc_ok h1) h1)) (iteP (State.stall_ok h1)
      (State.retire_ok (State.gmuAdd_ok (State.beginOp_ok h1))))))))
theorem State.entryOver_ok {s : State} {x1 : Nat} {x2 : GmmOp} {x3 : List GmmOp} (hs : State.Ok s) : State.Ok (State.entryOver s x1 x2 x3)
    := by
  unfold State.entryOver
  exact (cut (fun h1 => (iteP (State.endOp_ok (State.gmuReach_ok (State.gmmBegins_ok (State.setGmu_ok h1)))) (State.gmuReach_ok
      (State.setGmu_ok h1)))) (iteP (State.addCc_ok hs) hs))
theorem execGmmEntryDone_ok {x0 : Fin 32} {x1 : Upsets} {s : State} (hs : State.Ok s) : OkOut (execGmmEntryDone x0 x1 s) := by
  unfold execGmmEntryDone
  exact (State.granting_ok hs (cut (fun h2 => (OkOut.next (iteP h2 (by
    dsimp -failIfUnchanged only
    split
    · exact h2
    · exact (iteP h2 (iteP h2 (cut (fun h3 => (by
      split
      · exact (State.streamFault_ok h3)
      · exact (iteP (State.entryOver_ok h3) (iteP (State.entryOver_ok (State.countEntry_ok h3)) (by
        split
        · exact (State.streamFault_ok h3)
        · exact (State.entryOver_ok (State.countEntry_ok (State.gmmWrite_ok h3)))))))) (State.readRanges_ok h2)))))))) (State.gmuReach_ok
            (State.upset_ok hs))))

/-! Gate. -/

theorem State.beginToken_ok {s : State} {x1 : Nat} {x2 : GateOp} (hs : State.Ok s) : OkSnd (State.beginToken s x1 x2) := by
  unfold State.beginToken
  exact (OkSnd.mk (State.Ok.upd (State.wr_ok (State.addMod_ok (State.orFlags_ok hs)))))
theorem State.raiseUsed_ok {s : State} {x1 : Nat} {x2 : Nat} (hs : State.Ok s) : State.Ok (State.raiseUsed s x1 x2) := by
  unfold State.raiseUsed
  exact (State.updGate_ok (State.setGate_ok hs))
theorem State.setHead_ok {s : State} {x1 : Nat} {x2 : GateOp} (hs : State.Ok s) : State.Ok (State.setHead s x1 x2) := by
  unfold State.setHead
  exact (State.updGate_ok hs)
theorem State.gateFault_ok {s : State} {x1 : Nat} {x2 : GateOp} {x3 : Nat} (hs : State.Ok s) : State.Ok (State.gateFault s x1 x2 x3) := by
  unfold State.gateFault
  exact (State.streamFault_ok hs)
theorem State.openRecord_ok {s : State} {x1 : Nat} {x2 : Nat} {x3 : Nat} {x4 : Nat} {x5 : Bool} (hs : State.Ok s) : OkOptP
    (State.openRecord s x1 x2 x3 x4 x5) := by
  unfold State.openRecord
  exact (iteP OkOptP.none (OkOptP.some (OkSnd.mk (State.updGate_ok (State.setGate_ok hs)))))
theorem State.putCombine_ok {s : State} {x1 : Nat} {x2 : Nat} {x3 : GateOp} {x4 : Nat} {x5 : Nat} {x6 : Nat} {x7 : Bool} {x8 : Nat} {x9 :
    Nat} {x10 : Nat} (hs : State.Ok s) : State.Ok (State.putCombine s x1 x2 x3 x4 x5 x6 x7 x8 x9 x10) := by
  unfold State.putCombine
  exact (State.streamWrite_ok hs)
theorem State.flushLines_ok {s : State} {x1 : Nat} {x2 : Nat} (hs : State.Ok s) : State.Ok (State.flushLines s x1 x2) := by
  unfold State.flushLines
  exact (foldl_ok (fun _ _ h1 => (State.injectLine_ok h1)) (State.updGate_ok hs))
theorem State.nextChoice_ok {s : State} {x1 : Nat} {x2 : Nat} {x3 : GateOp} (hs : State.Ok s) : State.Ok (State.nextChoice s x1 x2 x3) := by
  unfold State.nextChoice
  exact (iteP (State.setHead_ok hs) (State.flushLines_ok (State.setHead_ok hs)))
theorem State.joinLine_ok {s : State} {x1 : Nat} {x2 : Nat} {x3 : Nat} {x4 : Nat} {x5 : List Byte} {x6 : List Byte} {x7 : Option Nat} (hs :
    State.Ok s) : State.Ok (State.joinLine s x1 x2 x3 x4 x5 x6 x7) := by
  unfold State.joinLine
  exact (by
    dsimp -failIfUnchanged only
    split
    · exact (State.updGate_ok hs)
    · exact (iteP (State.updGate_ok hs) (State.updGate_ok (State.injectLine_ok hs))))
theorem State.handLocal_ok {s : State} {x1 : Nat} {x2 : HeldRec} (hs : State.Ok s) : State.Ok (State.handLocal s x1 x2) := by
  unfold State.handLocal
  exact (State.dspCheck_ok hs (fun _ _ _ h1 => (State.toIntake_ok h1)) (fun _ h2 => (State.devReleaseOpt_ok h2)))
theorem State.sendChoice_ok {s : State} {x1 : Nat} {x2 : Nat} {x3 : GateOp} {x4 : Fate} (hs : State.Ok s) : State.Ok (State.sendChoice s x1
    x2 x3 x4) := by
  unfold State.sendChoice
  exact (by
    dsimp -failIfUnchanged only
    split
    · exact (State.gateFault_ok hs)
    · rename_i q1; exact (cut (fun h4 => (cut (fun h5 => (iteP (State.handLocal_ok (State.nextChoice_ok h5)) (iteP (State.gateFault_ok h5)
        (iteP (by
      split
      · exact (State.gateFault_ok h5)
      · exact (State.nextChoice_ok (State.joinLine_ok h5))) (State.nextChoice_ok (State.injectRecord_ok h5)))))) (iteP (State.addSat_ok h4)
          h4))) (State.addMod_ok (State.putCombine_ok (State.updGate_ok (State.setRink_ok (State.present_ok ((State.openRecord_ok hs) _
          q1))))))))
theorem State.dropChoice_ok {s : State} {x1 : Nat} {x2 : Nat} {x3 : GateOp} {x4 : Nat} {x5 : Nat} {x6 : Nat} {x7 : Nat} (hs : State.Ok s) :
    State.Ok (State.dropChoice s x1 x2 x3 x4 x5 x6 x7) := by
  unfold State.dropChoice
  exact (by
    dsimp -failIfUnchanged only
    split
    · exact (State.gateFault_ok hs)
    · rename_i q1; exact (State.nextChoice_ok (State.addSat_ok (State.putCombine_ok ((State.openRecord_ok hs) _ q1)))))
theorem State.askBuffer_ok {s : State} {x1 : Nat} {x2 : Nat} {x3 : Nat} (hs : State.Ok s) : State.Ok (State.askBuffer s x1 x2 x3) := by
  unfold State.askBuffer
  exact (State.grantUpTo_ok (State.joinWait_ok (State.updGate_ok hs)))
theorem State.gatherBuffers_ok {s : State} {x1 : Nat} {x2 : Nat} {x3 : GateOp} {x4 : Fate} {x5 : Nat} (hs : State.Ok s) : State.Ok
    (State.gatherBuffers s x1 x2 x3 x4 x5) := by
  induction x5 generalizing s with
  | zero => exact hs
  | succ n ih =>
    unfold State.gatherBuffers
    split
    · exact State.sendChoice_ok hs
    · exact iteP (State.gateFault_ok hs) (iteP (State.gateFault_ok hs) (iteP (State.askBuffer_ok hs) (ih (State.askBuffer_ok hs))))
theorem State.dispatchChoice_ok {s : State} {x1 : Nat} {x2 : Nat} {x3 : GateOp} (hs : State.Ok s) : State.Ok (State.dispatchChoice s x1 x2
    x3) := by
  unfold State.dispatchChoice
  exact (by
    dsimp -failIfUnchanged only
    split
    · exact (State.gatherBuffers_ok hs)
    · exact (by
      split
      · exact (State.gateFault_ok hs)
      · exact (State.dropChoice_ok hs)
      · exact (State.dropChoice_ok hs)
      · exact (iteP (State.gateFault_ok hs) (State.gatherBuffers_ok (State.setHead_ok (State.raiseUsed_ok hs))))))
theorem State.handTally_ok {s : State} {x1 : Nat} {x2 : Nat} {x3 : GateOp} {x4 : (Nat × Nat × Nat) × Nat × List (Nat × Nat)} (hs : State.Ok
    s) : State.Ok (State.handTally s x1 x2 x3 x4) := by
  unfold State.handTally
  exact (by
    dsimp -failIfUnchanged only
    split
    · exact (State.gateFault_ok hs)
    · exact (iteP (State.handLocal_ok hs) (iteP (State.gateFault_ok hs) (iteP (by
      split
      · exact (State.gateFault_ok hs)
      · exact (State.injectLine_ok hs)) (State.injectRecord_ok hs)))))
theorem State.handTallies_ok {s : State} {x1 : Nat} {x2 : Nat} {x3 : GateOp} {x4 : List ((Nat × Nat × Nat) × Nat × List (Nat × Nat))} (hs :
    State.Ok s) : State.Ok (State.handTallies s x1 x2 x3 x4) := by
  induction x4 generalizing s with
  | nil => exact hs
  | cons y l ih =>
    unfold State.handTallies
    exact iteP (ih (State.handTally_ok hs)) (State.handTally_ok hs)
theorem State.gateDone_ok {s : State} {x1 : Nat} {x2 : Nat} {x3 : GateOp} (hs : State.Ok s) : State.Ok (State.gateDone s x1 x2 x3) := by
  unfold State.gateDone
  exact (cut (fun h2 => (iteP h2 (State.endOp_ok h2))) (State.addCc_ok (State.wr_ok (State.updGate_ok hs))))
theorem State.gateShow_ok {s : State} {x1 : Nat} (hs : State.Ok s) : State.Ok (State.gateShow s x1) := by
  unfold State.gateShow
  exact (cut (fun h1 => (by
    dsimp -failIfUnchanged only
    split
    · exact (State.wr_ok (State.wr_ok (State.wr_ok h1)))
    · exact (State.wr_ok (State.wr_ok (State.wr_ok (State.wr_ok h1)))))) (State.wr_ok hs))
theorem State.runClose_ok {s : State} {x1 : Nat} {x2 : Nat} {x3 : GateOp} (hs : State.Ok s) : State.Ok (State.runClose s x1 x2 x3) := by
  unfold State.runClose
  exact (cut (fun h1 => (by
    dsimp -failIfUnchanged only
    split
    · exact (State.gateFault_ok h1)
    · exact (cut (fun h2 => (iteP (State.gateDone_ok h2) h2)) (State.handTallies_ok h1)))) (State.updGate_ok hs))
theorem State.gateHeadStarts_ok {s : State} {x1 : Nat} (hs : State.Ok s) : OkFst (State.gateHeadStarts s x1) := by
  unfold State.gateHeadStarts
  exact (by
    dsimp -failIfUnchanged only
    split
    · exact (OkFst.mk hs)
    · exact (iteP (OkFst.mk hs) (cut (fun h1 => (by
      split
      · exact (OkFst.mk (iteP (State.streamFault_ok h1) (State.gateFault_ok h1)))
      · exact (iteP (OkFst.mk (State.gateFault_ok h1)) (cut (fun h2 => (iteP (OkFst.mk (State.runClose_ok h2)) (iteP (OkFst.mk
          (State.gateDone_ok h2)) (OkFst.mk h2)))) (State.gateShow_ok h1))))) (State.setHead_ok (State.readRanges_ok hs)))))
theorem State.gateReach_ok {s : State} {x1 : Nat} {x2 : Nat} (hs : State.Ok s) : State.Ok (State.gateReach s x1 x2) := by
  induction x2 generalizing s with
  | zero => exact hs
  | succ n ih =>
    have h := OkFst.fst (State.gateHeadStarts_ok (x1 := x1) hs)
    exact iteP (State.gateShow_ok (ih h)) h
theorem State.issueGate_ok {s : State} {x1 : Nat} {x2 : Nat} {x3 : Nat} (hs : State.Ok s) : State.Ok (State.issueGate s x1 x2 x3) := by
  unfold State.issueGate
  exact (State.issue_ok hs (fun _ h1 => (iteP (State.stall_ok h1) (State.gateReach_ok (State.wr_ok (State.retire_ok (State.updGate_ok (iteP
      h1 (State.beginOp_ok h1)))))))))
theorem execGroute_ok {x0 : Fin 50} {x1 : BitVec 52} {s : State} (hs : State.Ok s) : OkOut (execGroute x0 x1 s) := by
  unfold execGroute
  exact (OkOut.next (State.issueGate_ok hs))
theorem execGselect_ok {x0 : Fin 50} {x1 : BitVec 52} {s : State} (hs : State.Ok s) : OkOut (execGselect x0 x1 s) := by
  unfold execGselect
  exact (OkOut.next (State.issueGate_ok hs))
theorem execGclose_ok {x0 : Fin 50} {x1 : BitVec 52} {s : State} (hs : State.Ok s) : OkOut (execGclose x0 x1 s) := by
  unfold execGclose
  exact (OkOut.next (State.issueGate_ok hs))
theorem State.scoreToken_ok {s : State} {x1 : Nat} {x2 : GateOp} {x3 : State → State} (hs : State.Ok s) (g3 : ∀ y0, State.Ok y0 → State.Ok
    (x3 y0)) : State.Ok (State.scoreToken s x1 x2 x3) := by
  unfold State.scoreToken
  exact (cut (fun h1 => (by
    dsimp -failIfUnchanged only
    split
    · exact (State.streamFault_ok h1)
    · exact (g3 _ h1))) (State.readRanges_ok hs))
theorem execGateDispatchChoice_ok {x0 : Fin 8} {s : State} (hs : State.Ok s) : OkOut (execGateDispatchChoice x0 s) := by
  unfold execGateDispatchChoice
  exact (State.granting_ok hs (cut (fun h1 => (OkOut.next (by
    dsimp -failIfUnchanged only
    split
    · exact h1
    · exact (iteP h1 (iteP (State.scoreToken_ok h1 (fun _ h2 => (State.dispatchChoice_ok (State.setHead_ok (OkSnd.snd (State.beginToken_ok
        h2)))))) (State.dispatchChoice_ok h1)))))) (State.gateReach_ok hs)))
theorem State.selectOnly_ok {s : State} {x1 : Nat} {x2 : Nat} {x3 : GateOp} {x4 : State → GateOp → State} {x5 : Nat} (hs : State.Ok s) (g4
    : ∀ y0 y1, State.Ok y0 → State.Ok (x4 y0 y1)) : State.Ok (State.selectOnly s x1 x2 x3 x4 x5) := by
  induction x5 generalizing s x3 with
  | zero => exact g4 _ _ hs
  | succ n ih =>
    unfold State.selectOnly
    exact State.scoreToken_ok hs (fun _ h => ih (foldl_ok (fun _ _ h => State.putCombine_ok h) (OkSnd.snd (State.beginToken_ok h))))
theorem execGateInstrComplete_ok {x0 : Fin 8} {s : State} (hs : State.Ok s) : OkOut (execGateInstrComplete x0 s) := by
  unfold execGateInstrComplete
  exact (State.granting_ok hs (cut (fun h1 => (OkOut.next (by
    dsimp -failIfUnchanged only
    split
    · exact h1
    · exact (iteP h1 (iteP (State.gateShow_ok (State.gateReach_ok (State.gateDone_ok h1))) (iteP (State.selectOnly_ok h1 (fun _ _ h2 =>
        (State.gateShow_ok (State.gateReach_ok (State.gateDone_ok h2))))) (iteP (State.selectOnly_ok h1 (fun _ _ h3 => (iteP
        (State.gateShow_ok (State.gateDone_ok h3)) (State.setHead_ok h3)))) h1))))))) (State.gateReach_ok hs)))
theorem execGeLedgerWrite_ok {x0 : Fin 8} {x1 : Word} {s : State} (hs : State.Ok s) : OkOut (execGeLedgerWrite x0 x1 s) := by
  unfold execGeLedgerWrite
  exact (State.live_ok hs (OkOut.next (iteP (State.report_ok hs) (State.writeSetting_ok hs))))
theorem execLedgerZeroingDone_ok {x0 : Fin 8} {s : State} (hs : State.Ok s) : OkOut (execLedgerZeroingDone x0 s) := by
  unfold execLedgerZeroingDone
  exact (State.granting_ok hs (OkOut.next (State.updGate_ok hs)))

/-! Boundary. -/

theorem State.auditLedger_ok {s : State} {x1 : Nat} (hs : State.Ok s) : State.Ok (State.auditLedger s x1) := by
  unfold State.auditLedger
  exact (iteP hs (State.auditBreach_ok hs))
theorem State.closeOpen_ok {s : State} {x1 : Nat} {x2 : Nat} (hs : State.Ok s) : State.Ok (State.closeOpen s x1 x2) := by
  unfold State.closeOpen
  exact (iteP hs (State.report_ok (State.addSat_ok (State.addCancel_ok (State.cancelRecords_ok hs)))))
theorem State.freeUnfreed_ok {s : State} {x1 : Nat} (hs : State.Ok s) : State.Ok (State.freeUnfreed s x1) := by
  unfold State.freeUnfreed
  exact (iteP (State.report_ok (State.freeEntriesOf_ok hs)) (State.freeEntriesOf_ok hs))
theorem State.keepTrails_ok {s : State} {x1 : Nat} {x2 : Nat} (hs : State.Ok s) : State.Ok (State.keepTrails s x1 x2) := by
  unfold State.keepTrails
  exact (State.Ok.upd (foldl_ok (fun _ _ h2 => (iteP h2 (State.wr_ok (State.wr_ok (State.setBit_ok (State.wr_ok (State.wr_ok (State.wr_ok
      h2)))))))) hs))
theorem State.pagesToPending_ok {s : State} {x1 : Nat} (hs : State.Ok s) : State.Ok (State.pagesToPending s x1) := by
  unfold State.pagesToPending
  exact (foldl_ok (fun _ _ h1 => (State.setPage_ok h1)) hs)
theorem State.clearGates_ok {s : State} {x1 : Nat} (hs : State.Ok s) : State.Ok (State.clearGates s x1) := by
  unfold State.clearGates
  exact (State.clearCnt_ok (foldl_ok (fun _ _ h1 => (State.updGate_ok (State.clearUsed_ok (State.clearIntake_ok h1)))) hs))
theorem State.stepBoundary_ok {s : State} {x1 : Nat} (hs : State.Ok s) : State.Ok (State.stepBoundary s x1) := by
  unfold State.stepBoundary
  exact (cut (fun h2 => (State.applySettings_ok (State.applyHeldPuts_ok (by
    dsimp -failIfUnchanged only
    split
    · exact (State.keepTrails_ok h2)
    · exact h2)))) (State.updCtx_ok (State.takeCheckpoint_ok (State.pagesToPending_ok (by
    split
    · exact (State.clearGates_ok (State.freeRecords_ok hs))
    · exact (State.updCtx_ok (State.clearGates_ok (State.freeUnfreed_ok (State.closeOpen_ok (State.freeRecords_ok (State.auditLedger_ok
        hs)))))))))))
theorem State.enterLater_ok {s : State} {x1 : Nat} {x2 : Nat} (hs : State.Ok s) : State.Ok (State.enterLater s x1 x2) := by
  unfold State.enterLater
  exact (State.intakeStat_ok (State.updGate_ok (foldl_ok (fun _ _ h2 => (State.devReleaseOpt_ok h2)) hs)))
theorem State.beginStep_ok {s : State} {x1 : Nat} (hs : State.Ok s) : State.Ok (State.beginStep s x1) := by
  unfold State.beginStep
  exact (State.checkDone_ok (foldl_ok (fun _ _ h3 => (State.enterLater_ok h3)) (State.trace_ok (State.wr_ok (State.wr_ok (State.wr_ok
      (State.updCtx_ok hs)))))))
theorem State.overrunCancel_ok {s : State} {x1 : Nat} (hs : State.Ok s) : State.Ok (State.overrunCancel s x1) := by
  unfold State.overrunCancel
  exact (State.report_ok (State.addSat_ok (State.cancelStep_ok (State.auditLedger_ok hs))))
theorem State.rollBack_ok {s : State} {x1 : Nat} (hs : State.Ok s) : OkFst (State.rollBack s x1) := by
  unfold State.rollBack
  exact (cut (fun h1 => (iteP (OkFst.mk (State.contextFault_ok h1)) (OkFst.mk h1))) (State.trouble_ok (State.updCtx_ok (State.cancelStep_ok
      (State.auditLedger_ok hs)))))
theorem State.edgeStep_ok {s : State} {x1 : Nat} {x2 : Step} (hs : State.Ok s) : OkFst (State.edgeStep s x1 x2) := by
  unfold State.edgeStep
  exact (iteP (State.rollBack_ok hs) (iteP (iteP (OkFst.mk (State.stepBoundary_ok hs)) (OkFst.mk (State.overrunCancel_ok hs))) (iteP (iteP
      (OkFst.mk (State.updCtx_ok (State.addSat_ok hs))) (OkFst.mk (State.overrunCancel_ok hs))) (iteP (OkFst.mk (State.stepBoundary_ok hs))
      (OkFst.mk hs)))))
theorem State.haltNow_ok {s : State} {x1 : Nat} (hs : State.Ok s) : State.Ok (State.haltNow s x1) := by
  unfold State.haltNow
  exact (cut (fun h1 => (iteP h1 (State.setCtxState_ok (State.updCtx_ok (State.updCtx_ok h1))))) (by
    split
    · exact (State.applySettings_ok hs)
    · exact (iteP (State.stepBoundary_ok hs) (State.applySettings_ok (State.cancelStep_ok (State.auditLedger_ok hs))))))
theorem State.resumeNow_ok {s : State} {x1 : Nat} (hs : State.Ok s) : State.Ok (State.resumeNow s x1) := by
  unfold State.resumeNow
  exact (foldl_ok (fun _ _ h4 => (State.gateReach_ok h4)) (foldl_ok (fun _ _ h5 => (iteP (State.gmuReach_ok h5) h5)) (State.setCtxState_ok
      (State.updCtx_ok (foldl_ok (fun _ _ h6 => (iteP (State.setEngState_ok h6) h6)) hs)))))
theorem State.enterRun_ok {s : State} {x1 : Nat} (hs : State.Ok s) : State.Ok (State.enterRun s x1) := by
  unfold State.enterRun
  exact (State.stepBoundary_ok (State.setBit_ok (State.setCtxState_ok (State.updCtx_ok hs))))
theorem State.edgeContext_ok {s : State} {x1 : Nat} (hs : State.Ok s) : OkFst (State.edgeContext s x1) := by
  unfold State.edgeContext
  exact (iteP (OkFst.mk (State.haltNow_ok hs)) (iteP (by
    split
    · exact (State.edgeStep_ok hs)
    · exact (OkFst.mk hs)) (iteP (OkFst.mk (State.resumeNow_ok hs)) (iteP (OkFst.mk (State.enterRun_ok hs)) (OkFst.mk hs)))))
theorem State.courseEdge_ok {s : State} (hs : State.Ok s) : State.Ok (State.courseEdge s) := by
  unfold State.courseEdge
  exact (cut (fun h1 => (iteP (State.activateCourse_ok h1) h1)) (iteP (State.setBit_ok hs) hs))
theorem State.slotEdge_ok {s : State} {x1 : Nat} (hs : State.Ok s) : State.Ok (State.slotEdge s x1) := by
  unfold State.slotEdge
  exact (cut (fun h3 => (iteP (State.auditBreach_ok h3) h3)) (State.updPort_ok (State.wr_ok (State.wr_ok (State.wr_ok (State.endSlot_ok
      hs))))))
theorem State.accountEdge_ok {s : State} (hs : State.Ok s) : State.Ok (State.accountEdge s) := by
  unfold State.accountEdge
  exact (foldl_ok (fun _ _ h1 => (iteP (State.addSat_ok h1) (iteP (State.addSat_ok h1) h1))) hs)
theorem State.levelEdge_ok {s : State} (hs : State.Ok s) : State.Ok (State.levelEdge s) := by
  unfold State.levelEdge
  exact (State.Ok.upd (State.wr_ok (State.wr_ok (foldl_ok (fun _ _ h6 => (State.wr_ok (State.wr_ok h6))) (iteP (OkSnd.snd (State.free_ok
      (OkSnd.snd (State.free_ok hs)))) hs)))))
theorem State.flagEdge_ok {s : State} (hs : State.Ok s) : State.Ok (State.flagEdge s) := by
  unfold State.flagEdge
  exact (State.Ok.upd (foldl_ok (fun _ _ h2 => (State.trouble_ok h2)) hs))
theorem State.repeatEdge_ok {s : State} {x1 : Nat} (hs : State.Ok s) : State.Ok (State.repeatEdge s x1) := by
  unfold State.repeatEdge
  exact (State.Ok.upd (State.setBit_ok (State.wr_ok (State.wr_ok (State.wr_ok (State.wr_ok (State.wr_ok (State.wr_ok (State.wr_ok
      hs)))))))))
theorem State.memEdge_ok {s : State} {x1 : Nat} (hs : State.Ok s) : State.Ok (State.memEdge s x1) := by
  unfold State.memEdge
  exact (State.wr_ok (State.updMem_ok (State.wr_ok (foldl_ok (fun _ _ h3 => (State.wr_ok h3)) hs))))
theorem State.lapSettings_ok {s : State} {x1 : Bool} (hs : State.Ok s) : State.Ok (State.lapSettings s x1) := by
  unfold State.lapSettings
  exact (cut (fun h1 => (iteP (State.wr_ok h1) h1)) (foldl_ok (fun _ _ h2 => (State.applySetting_ok h2)) (State.Ok.upd hs)))
theorem State.beginIf_ok {s : State} {x1 : Nat} {x2 : Bool} (hs : State.Ok s) : State.Ok (State.beginIf s x1 x2) := by
  unfold State.beginIf
  exact (iteP (State.beginStep_ok hs) hs)
theorem State.lapEdgeActions_ok {s : State} {x1 : Nat} (hs : State.Ok s) : State.Ok (State.lapEdgeActions s x1) := by
  unfold State.lapEdgeActions
  dsimp only
  have h1 : ((List.range 12).foldl (fun s n => s.slotEdge n) s).accountEdge.Ok := State.accountEdge_ok (foldl_ok (fun _ _ h =>
      State.slotEdge_ok h) hs)
  generalize ((List.range 12).foldl (fun s n => s.slotEdge n) s).accountEdge = a at h1 ⊢
  have h2 : (a.edgeContext 0).1.Ok := OkFst.fst (State.edgeContext_ok h1)
  generalize a.edgeContext 0 = b at h2 ⊢
  have h3 : (b.1.edgeContext 1).1.Ok := OkFst.fst (State.edgeContext_ok h2)
  generalize b.1.edgeContext 1 = c at h3 ⊢
  exact State.censusEdge_ok (State.avsEdge_ok (State.powerEdge_ok (foldl_ok (fun _ _ h8 => (State.memEdge_ok h8)) (State.repeatEdge_ok
      (State.flagEdge_ok (State.levelEdge_ok
    (State.beginIf_ok (State.beginIf_ok (State.lapSettings_ok (State.courseEdge_ok h3))))))))))
theorem execOverrunSend_ok {x0 : Fin 2} {s : State} (hs : State.Ok s) : OkOut (execOverrunSend x0 s) := by
  unfold execOverrunSend
  exact (State.live_ok hs (OkOut.next (by
    dsimp -failIfUnchanged only
    split
    · exact hs
    · exact (iteP hs (State.trace_ok (State.originateTree_ok (State.updCtx_ok hs)))))))
theorem execOverrunRx_ok {x0 : Fin 13} {x1 : Packet} {s : State} (hs : State.Ok s) : OkOut (execOverrunRx x0 x1 s) := by
  unfold execOverrunRx
  exact (State.live_ok hs (OkOut.next (iteP hs (State.receive_ok hs (fun _ _ h1 => (cut (fun h2 => (by
    dsimp -failIfUnchanged only
    split
    · exact h2
    · exact (cut (fun h3 => (iteP h3 (by
      split
      · exact (iteP (State.contextFault_ok h3) h3)
      · exact (iteP (State.updCtx_ok h3) (iteP (State.contextFault_ok h3) h3))))) (State.acceptPoison_ok h2)))) (State.leave_ok h1)))))))

/-! Lap. -/

theorem State.addUnits_ok {s : State} {x1 : Fld} {x2 : Nat} {x3 : Nat} (hs : State.Ok s) : OkSnd (State.addUnits s x1 x2 x3) := by
  unfold State.addUnits
  exact (OkSnd.mk (State.addSat_ok hs))
theorem State.unitClk_ok {s : State} {x1 : Nat} (hs : State.Ok s) : State.Ok (State.unitClk s x1) := by
  unfold State.unitClk
  exact (cut (fun h1 => (cut (fun h4 => (cut (fun h5 => (iteP (State.updSnap_ok (State.saturateFor_ok (OkSnd.snd (State.addUnits_ok h5))))
      h5)) (iteP (State.updCol_ok (OkSnd.snd (State.addUnits_ok h4))) h4))) (foldl_ok (fun _ _ h8 => (State.updGate_ok (OkSnd.snd
      (State.addUnits_ok h8)))) (foldl_ok (fun _ _ h10 => (State.addSat_ok h10)) (iteP (State.addSat_ok h1) h1))))) (foldl_ok (fun _ _ h11
      => (State.addSat_ok h11)) hs))
theorem State.fetchOne_ok {s : State} {x1 : Nat} (hs : State.Ok s) : State.Ok (State.fetchOne s x1) := by
  unfold State.fetchOne
  exact (iteP hs (iteP (State.issueFault_ok (State.checkRead_ok hs)) (iteP hs (State.issueFault_ok hs))))
theorem State.fetchAll_ok {s : State} (hs : State.Ok s) : State.Ok (State.fetchAll s) := by
  unfold State.fetchAll
  exact (iteP hs (foldl_ok (fun _ _ h1 => (State.fetchOne_ok h1)) hs))
theorem State.endClk_ok {s : State} (hs : State.Ok s) : State.Ok (State.endClk s) := by
  unfold State.endClk
  exact (cut (fun h1 => (iteP h1 (State.promote_ok h1))) (State.settleFaults_ok (State.fetchAll_ok (State.settleAdmits_ok
      (State.settleRefs_ok hs)))))
theorem State.advance_ok {s : State} {x1 : Nat} (hs : State.Ok s) : State.Ok (State.advance s x1) := by
  unfold State.advance
  exact (cut (fun h1 => (cut (fun h3 => (foldl_ok (fun _ _ h5 => (State.linkClk_ok h5)) (State.fenceClk_ok (iteP (State.wr_ok
      (State.updLap_ok h3)) h3)))) (State.Ok.upd (iteP h1 (State.rinkRun_ok h1))))) (State.unitClk_ok (State.endClk_ok hs)))
theorem State.enterLocked_ok {s : State} (hs : State.Ok s) : State.Ok (State.enterLocked s) := by
  unfold State.enterLocked
  exact (State.updLap_ok (State.wr_ok (State.wr_ok hs)))
theorem State.enterHoldover_ok {s : State} (hs : State.Ok s) : State.Ok (State.enterHoldover s) := by
  unfold State.enterHoldover
  exact (cut (fun h2 => (iteP h2 (State.updLap_ok (State.wr_ok h2)))) (State.updLap_ok (State.trouble_ok (State.wr_ok (State.wr_ok
      (State.wr_ok hs))))))
theorem State.loopUpdate_ok {s : State} {x1 : Int} (hs : State.Ok s) : State.Ok (State.loopUpdate s x1) := by
  unfold State.loopUpdate
  exact (cut (fun h2 => (iteP (State.enterHoldover_ok (State.report_ok h2)) (iteP (State.enterLocked_ok h2) h2))) (State.wr_ok (State.wr_ok
      (State.wr_ok (State.updLap_ok hs)))))
theorem State.switchSource_ok {s : State} (hs : State.Ok s) : State.Ok (State.switchSource s) := by
  unfold State.switchSource
  exact (State.updLap_ok (State.wr_ok hs))
theorem State.sendMarkers_ok {s : State} (hs : State.Ok s) : State.Ok (State.sendMarkers s) := by
  unfold State.sendMarkers
  exact (iteP hs (foldl_ok (fun _ _ h1 => (iteP h1 (by
    dsimp -failIfUnchanged only
    split
    · exact h1
    · exact (State.queuePort_ok h1)))) hs))
theorem State.beginLap_ok {s : State} {x1 : Nat} {x2 : Nat} (hs : State.Ok s) : State.Ok (State.beginLap s x1 x2) := by
  unfold State.beginLap
  exact (State.wr_ok (State.wr_ok hs))
theorem State.countMissed_ok {s : State} (hs : State.Ok s) : State.Ok (State.countMissed s) := by
  unfold State.countMissed
  exact (cut (fun h1 => (iteP (by
    split
    · exact (iteP (State.switchSource_ok h1) (State.enterHoldover_ok h1))
    · exact (State.enterHoldover_ok h1)) h1)) (State.updLap_ok (State.wr_ok (State.addSat_ok hs))))
theorem State.countBackup_ok {s : State} (hs : State.Ok s) : State.Ok (State.countBackup s) := by
  unfold State.countBackup
  exact (cut (fun h1 => (iteP (State.enterLocked_ok (State.switchSource_ok h1)) h1)) (State.updLap_ok hs))
theorem State.disciplineEdge_ok {s : State} (hs : State.Ok s) : State.Ok (State.disciplineEdge s) := by
  unfold State.disciplineEdge
  exact (cut (fun h1 => (iteP h1 (cut (fun h4 => (by
    dsimp -failIfUnchanged only
    split
    · exact (State.loopUpdate_ok h4)
    · exact h4)) (State.updLap_ok (State.countBackup_ok (iteP h1 (State.countMissed_ok h1))))))) (iteP (State.addSat_ok hs) (iteP
        (State.updLap_ok hs) hs)))
theorem execLapEdge_ok {s : State} (hs : State.Ok s) : OkOut (execLapEdge s) := by
  unfold execLapEdge
  exact (State.live_ok hs (OkOut.next (by
    dsimp -failIfUnchanged only
    split
    · exact hs
    · exact (State.lapEdgeActions_ok (State.sendMarkers_ok (State.disciplineEdge_ok (State.wr_ok (State.beginLap_ok (State.advance_ok
        hs)))))))))
theorem State.phaseStep_ok {s : State} {x1 : Nat} {x2 : Nat} (hs : State.Ok s) : State.Ok (State.phaseStep s x1 x2) := by
  unfold State.phaseStep
  exact (State.lapEdgeActions_ok (State.sendMarkers_ok (State.loopUpdate_ok (State.wr_ok (State.updLap_ok (State.beginLap_ok
      (State.settleFaults_ok (State.settleAdmits_ok hs))))))))
theorem State.glitch_ok {s : State} (hs : State.Ok s) : State.Ok (State.glitch s) := by
  unfold State.glitch
  exact (State.trouble_ok (State.addSat_ok hs))
theorem State.activeEdge_ok {s : State} {x1 : RefPlace} (hs : State.Ok s) : State.Ok (State.activeEdge s x1) := by
  unfold State.activeEdge
  exact (by
    split
    · exact (iteP hs (State.loopUpdate_ok (State.updLap_ok hs)))
    · exact (State.updLap_ok hs)
    · exact (State.glitch_ok hs))
theorem State.backupEdge_ok {s : State} {x1 : RefPlace} (hs : State.Ok s) : State.Ok (State.backupEdge s x1) := by
  unfold State.backupEdge
  exact (by
    split
    · exact (State.updLap_ok hs)
    · exact (State.updLap_ok hs)
    · exact (State.glitch_ok hs))
theorem State.reference_ok {s : State} {x1 : Nat} {x2 : Nat} {x3 : Nat} {x4 : Int} (hs : State.Ok s) : State.Ok (State.reference s x1 x2 x3
    x4) := by
  unfold State.reference
  exact (iteP hs (iteP (iteP (State.phaseStep_ok hs) (State.activeEdge_ok hs)) (iteP (State.backupEdge_ok hs) hs)))
theorem execLapInEdge_ok {x0 : BitVec 8} {s : State} (hs : State.Ok s) : OkOut (execLapInEdge x0 s) := by
  unfold execLapInEdge
  exact (State.live_ok hs (OkOut.next (State.reference_ok hs)))
theorem State.takeMarker_ok {s : State} {x1 : Nat} {x2 : Nat} {x3 : Nat} {x4 : Bool} {x5 : Int} (hs : State.Ok s) : State.Ok
    (State.takeMarker s x1 x2 x3 x4 x5) := by
  unfold State.takeMarker
  exact (iteP (State.report_ok (State.addSat_ok hs)) (iteP hs (State.reference_ok hs)))
theorem execLapMarkerRx_ok {x0 : MarkerArrival} {s : State} (hs : State.Ok s) : OkOut (execLapMarkerRx x0 s) := by
  unfold execLapMarkerRx
  exact (State.live_ok hs (OkOut.next (iteP hs (State.receive_ok hs (fun _ _ h1 => (cut (fun h2 => (iteP h2 (State.takeMarker_ok h2)))
      (State.leave_ok h1)))))))
theorem State.setPtpClock_ok {s : State} {x1 : Nat} {x2 : PtpClock} (hs : State.Ok s) : State.Ok (State.setPtpClock s x1 x2) := by
  unfold State.setPtpClock
  exact (State.updLap_ok hs)
theorem execPtpLapEdge_ok {x0 : Fin 2} {x1 : BitVec 48} {x2 : BitVec 32} {s : State} (hs : State.Ok s) : OkOut (execPtpLapEdge x0 x1 x2 s)
    := by
  unfold execPtpLapEdge
  exact (State.live_ok hs (OkOut.next (iteP hs (State.reference_ok hs))))
theorem State.ptpSynced_ok {s : State} {x1 : Nat} {x2 : Bool} {x3 : Int} (hs : State.Ok s) : State.Ok (State.ptpSynced s x1 x2 x3) := by
  unfold State.ptpSynced
  exact (State.sendUdp_ok (State.setPtpClock_ok hs))
theorem State.ptpMessage_ok {s : State} {x1 : Nat} {x2 : Dgram} (hs : State.Ok s) : State.Ok (State.ptpMessage s x1 x2) := by
  unfold State.ptpMessage
  exact (iteP hs (iteP (cut (fun h1 => (iteP h1 (State.ptpSynced_ok h1))) (State.setPtpClock_ok hs)) (iteP (iteP hs (State.ptpSynced_ok
      hs)) (iteP (iteP hs (State.setPtpClock_ok hs)) hs))))
theorem execPtpMessageRx_ok {x0 : Fin 2} {x1 : Frame} {s : State} (hs : State.Ok s) : OkOut (execPtpMessageRx x0 x1 s) := by
  unfold execPtpMessageRx
  exact (State.live_ok hs (OkOut.next (State.onFrame_ok hs (fun _ h1 => (by
    split
    · exact (State.hostDrop_ok h1)
    · exact (iteP (State.ptpMessage_ok h1) (State.hostDrop_ok h1)))))))
theorem execLapHoldexp_ok {s : State} (hs : State.Ok s) : OkOut (execLapHoldexp s) := by
  unfold execLapHoldexp
  exact (State.live_ok hs (OkOut.next (iteP (State.report_ok (State.updLap_ok hs)) hs)))
theorem State.startLoop_ok {s : State} (hs : State.Ok s) : State.Ok (State.startLoop s) := by
  unfold State.startLoop
  exact (State.wr_ok (State.wr_ok (State.wr_ok (State.updLap_ok hs))))
theorem State.startLap_ok {s : State} (hs : State.Ok s) : State.Ok (State.startLap s) := by
  unfold State.startLap
  exact (State.wr_ok (State.setBit_ok (State.wr_ok (State.setReg_ok (State.setBit_ok (State.startLoop_ok hs))))))
theorem State.stopLap_ok {s : State} (hs : State.Ok s) : State.Ok (State.stopLap s) := by
  unfold State.stopLap
  exact (State.wr_ok (State.wr_ok (State.setBit_ok (State.wr_ok (State.wr_ok (State.setBit_ok hs))))))
theorem State.relock_ok {s : State} (hs : State.Ok s) : State.Ok (State.relock s) := by
  unfold State.relock
  exact (iteP (State.updLap_ok (State.wr_ok (State.wr_ok (State.wr_ok (State.wr_ok hs))))) hs)
theorem State.lapCtrl_ok {s : State} {x1 : Word} (hs : State.Ok s) : State.Ok (State.lapCtrl s x1) := by
  unfold State.lapCtrl
  exact (cut (fun h1 => (cut (fun h2 => (iteP (State.relock_ok h2) h2)) (iteP (iteP (State.report_ok h1) (State.startLap_ok h1)) (iteP
      (iteP (State.report_ok h1) (State.stopLap_ok h1)) h1)))) (State.wr_ok (State.applySetting_ok hs)))
theorem execLapEnable_ok {x0 : Word} {s : State} (hs : State.Ok s) : OkOut (execLapEnable x0 s) := by
  unfold execLapEnable
  exact (State.live_ok hs (OkOut.next (State.lapCtrl_ok hs)))
theorem execLapDisable_ok {x0 : Word} {s : State} (hs : State.Ok s) : OkOut (execLapDisable x0 s) := by
  unfold execLapDisable
  exact (State.live_ok hs (OkOut.next (State.lapCtrl_ok hs)))
theorem execLapRelock_ok {x0 : Word} {s : State} (hs : State.Ok s) : OkOut (execLapRelock x0 s) := by
  unfold execLapRelock
  exact (State.live_ok hs (OkOut.next (State.lapCtrl_ok hs)))
theorem execLapCfgWrite_ok {x0 : Word} {s : State} (hs : State.Ok s) : OkOut (execLapCfgWrite x0 s) := by
  unfold execLapCfgWrite
  exact (State.live_ok hs (cut (fun h1 => (OkOut.next (iteP (iteP h1 (State.report_ok h1)) (cut (fun h2 => (iteP (State.wr_ok h2)
      (State.report_ok h2))) (State.wr_ok (State.wr_ok (State.wr_ok h1))))))) (State.wr_ok hs)))

/-! RegSpace. -/

theorem after_ok {s : State} {x1 : Res} (hs : State.Ok s) (hr : OkOut x1) : State.Ok (after s x1) := by
  unfold after
  split
  · exact hr _ rfl
  · exact hs
theorem State.hole_ok {s : State} {x1 : Path} {x2 : Bool} {x3 : Nat} (hs : State.Ok s) : State.Ok (State.hole s x1 x2 x3) := by
  unfold State.hole
  exact (iteP (State.wr_ok (State.setBit_ok (State.wr_ok (State.addSat_ok hs)))) hs)
theorem State.settingWrite_ok {s : State} {x1 : RegRow} {x2 : Nat} {x3 : Word} (hs : State.Ok s) : State.Ok (State.settingWrite s x1 x2 x3)
    := by
  unfold State.settingWrite
  exact (iteP (State.quotaWrite_ok hs) (iteP (after_ok hs (execRmemCtlWrite_ok hs)) (iteP (after_ok hs (execGeLedgerWrite_ok hs)) (iteP
      (State.report_ok hs) (foldl_ok (fun _ _ h1 => (State.writeBits_ok h1)) hs)))))
theorem execDeferredSettingWrite_ok {x0 : Path} {x1 : BitVec 24} {x2 : Word} {s : State} (hs : State.Ok s) : OkOut
    (execDeferredSettingWrite x0 x1 x2 s) := by
  unfold execDeferredSettingWrite
  exact (State.live_ok hs (OkOut.next (by
    split
    · exact hs
    · exact (iteP (State.settingWrite_ok hs) hs))))
theorem State.plainWrite_ok {s : State} {x1 : RegRow} {x2 : Nat} {x3 : Word} (hs : State.Ok s) : State.Ok (State.plainWrite s x1 x2 x3) :=
    by
  unfold State.plainWrite
  exact (State.setReg_ok hs)
theorem State.writeCtxCmd_ok {s : State} {x1 : Nat} {x2 : Word} (hs : State.Ok s) : State.Ok (State.writeCtxCmd s x1 x2) := by
  unfold State.writeCtxCmd
  exact (after_ok hs (iteP (execCreate_ok hs) (iteP (execPreempt_ok hs) (iteP (execResume_ok hs) (iteP (execHalt_ok hs) (iteP
      (execDestroy_ok hs) (iteP (execTeardown_ok hs) (iteP (OkOut.next (State.putCmdLap_ok hs)) (OkOut.next (State.cmdIgnored_ok
      (State.putCmdLap_ok hs)))))))))))
theorem State.writeSecCmd_ok {s : State} {x1 : Word} (hs : State.Ok s) : State.Ok (State.writeSecCmd s x1) := by
  unfold State.writeSecCmd
  exact (after_ok hs (iteP (execLcAdvance_ok hs) (iteP (execDbgSet_ok hs) (iteP (execCredInstall_ok hs) (iteP (execCredRevoke_ok hs) (iteP
      (execCertInstall_ok hs) (iteP (execAttest_ok hs) (iteP (execSvnCommit_ok hs) (OkOut.next hs)))))))))
theorem State.writeSsCmd_ok {s : State} {x1 : Word} (hs : State.Ok s) : State.Ok (State.writeSsCmd s x1) := by
  unfold State.writeSsCmd
  exact (after_ok hs (iteP (execSsWrite_ok hs) (iteP (execSsVerify_ok hs) (iteP (execSsActivate_ok hs) (iteP (execSsStore_ok hs)
      (OkOut.next hs))))))
theorem State.writeSnap_ok {s : State} {x1 : RegRow} {x2 : Nat} {x3 : Word} (hs : State.Ok s) : State.Ok (State.writeSnap s x1 x2 x3) := by
  unfold State.writeSnap
  exact (iteP (iteP (after_ok hs (execCkptRelease_ok hs)) (iteP (after_ok hs (execCkptRequest_ok hs)) (State.plainWrite_ok hs))) (iteP
      (iteP (after_ok hs (execRestoreStart_ok hs)) (iteP (after_ok hs (execRestoreCommit_ok hs)) (iteP (after_ok hs (execRestoreAbandon_ok
      hs)) (State.plainWrite_ok hs)))) (iteP (after_ok hs (execRestoreFeed_ok hs)) (iteP (after_ok hs (execSnpCfgWrite_ok hs))
      (State.plainWrite_ok hs)))))
theorem State.writeHost_ok {s : State} {x1 : RegRow} {x2 : Nat} {x3 : Word} (hs : State.Ok s) : State.Ok (State.writeHost s x1 x2 x3) := by
  unfold State.writeHost
  exact (iteP (iteP (after_ok hs (execHostPortEnable_ok hs)) (after_ok hs (execHostPortDisable_ok hs))) (iteP (State.report_ok (State.wr_ok
      hs)) (iteP (iteP (after_ok hs (execSessionKill_ok hs)) hs) (State.plainWrite_ok hs))))
theorem State.writeRouter_ok {s : State} {x1 : RegRow} {x2 : Nat} {x3 : Word} (hs : State.Ok s) : State.Ok (State.writeRouter s x1 x2 x3)
    := by
  unfold State.writeRouter
  exact (iteP (after_ok hs (execFabCfgWrite_ok hs)) (iteP (iteP (after_ok hs (execMgroupWrite_ok hs)) (iteP (after_ok hs (execMgroupRead_ok
      hs)) (State.plainWrite_ok hs))) (iteP (after_ok hs (execFenceTableWrite_ok hs)) (iteP (after_ok hs (execRsCfgWrite_ok hs))
      (State.plainWrite_ok hs)))))
theorem State.writeMemReg_ok {s : State} {x1 : RegRow} {x2 : Nat} {x3 : Word} (hs : State.Ok s) : State.Ok (State.writeMemReg s x1 x2 x3)
    := by
  unfold State.writeMemReg
  exact (iteP (after_ok hs (execMemCtlWrite_ok hs)) (iteP (State.plainWrite_ok hs) (State.memReport_ok hs)))
theorem State.writeContext_ok {s : State} {x1 : RegRow} {x2 : Nat} {x3 : Word} (hs : State.Ok s) : State.Ok (State.writeContext s x1 x2 x3)
    := by
  unfold State.writeContext
  exact (iteP (after_ok hs (execCtxRsetWrite_ok hs)) (iteP (State.writeCtxCmd_ok hs) (iteP (after_ok hs (execCtxJobWrite_ok hs)) (iteP
      (State.writeJdig_ok hs) (iteP (after_ok hs (execCtxPisteWrite_ok hs)) (iteP (State.writeWindow_ok hs) (iteP (after_ok hs
      (execJobLeadStart_ok hs)) (iteP (after_ok hs (execRmemCtlWrite_ok hs)) (iteP (State.report_ok hs) (iteP (State.plainWrite_ok hs)
      (State.plainWrite_ok hs)))))))))))
theorem State.writeTrouble_ok {s : State} {x1 : RegRow} {x2 : Nat} {x3 : Word} (hs : State.Ok s) : State.Ok (State.writeTrouble s x1 x2 x3)
    := by
  unfold State.writeTrouble
  exact (foldl_ok (fun _ _ h1 => (State.addSat_ok h1)) (State.plainWrite_ok hs))
theorem State.writeSystem_ok {s : State} {x1 : Path} {x2 : Bool} {x3 : RegRow} {x4 : Nat} {x5 : Word} (hs : State.Ok s) : State.Ok
    (State.writeSystem s x1 x2 x3 x4 x5) := by
  unfold State.writeSystem
  exact (iteP (State.writeSecCmd_ok hs) (iteP (State.Ok.upd hs) (iteP (after_ok hs (execCensusStart_ok hs)) (iteP (State.writePwrCmd_ok hs)
      (iteP (after_ok hs (execPwrDomWrite_ok hs)) (iteP (State.telCtl_ok hs) (iteP (State.ssControl_ok hs) (iteP (State.dbgStream_ok hs)
      (iteP (State.writeSsCmd_ok hs) (iteP (State.writeTrouble_ok hs) (State.plainWrite_ok hs)))))))))))
theorem State.writeUnit_ok {s : State} {x1 : RegRow} {x2 : Nat} {x3 : Word} (hs : State.Ok s) : State.Ok (State.writeUnit s x1 x2 x3) := by
  unfold State.writeUnit
  exact (iteP (State.lapCtrl_ok hs) (iteP (after_ok hs (execLapCfgWrite_ok hs)) (iteP (iteP hs (State.plainWrite_ok hs)) (iteP (after_ok hs
      (execCourseLoad_ok hs)) (iteP (cut (fun h1 => (iteP (State.commitTemplates_ok h1) h1)) (iteP (State.commitTemplates_ok hs) hs)) (iteP
      (after_ok hs (execLockerLock_ok hs)) (iteP (after_ok hs (execLkrQuotaWrite_ok hs)) (iteP hs (iteP (after_ok hs (execRinkLock_ok hs))
      (iteP (after_ok hs (execGeLedgerWrite_ok hs)) (iteP (iteP (after_ok hs (execPortEnable_ok hs)) (after_ok hs (execPortDisable_ok hs)))
      (State.plainWrite_ok hs))))))))))))
theorem State.writeRegister_ok {s : State} {x1 : Path} {x2 : Bool} {x3 : RegRow} {x4 : Nat} {x5 : Word} (hs : State.Ok s) : State.Ok
    (State.writeRegister s x1 x2 x3 x4 x5) := by
  unfold State.writeRegister
  exact (iteP (State.settingWrite_ok hs) (iteP (State.writeContext_ok hs) (iteP (State.writeRouter_ok hs) (iteP (State.writeMemReg_ok hs)
      (iteP (State.writeSnap_ok hs) (iteP (State.writeHost_ok hs) (iteP (State.writeSystem_ok hs) (State.writeUnit_ok hs))))))))
theorem State.csWrite_ok {s : State} {x1 : Path} {x2 : Bool} {x3 : Nat} {x4 : Word} (hs : State.Ok s) : State.Ok (State.csWrite s x1 x2 x3
    x4) := by
  unfold State.csWrite
  exact (iteP hs (by
    split
    · exact (iteP (State.writeRegister_ok hs) hs)
    · exact (iteP (State.Ok.with_tmpl hs (twf_tset _ _ _ _ (State.Ok.tmpl hs))) (iteP (State.setWindow_ok hs) (iteP hs (State.hole_ok
        hs))))))
theorem execRegWrite_ok {x0 : Path} {x1 : BitVec 24} {x2 : Word} {s : State} (hs : State.Ok s) : OkOut (execRegWrite x0 x1 x2 s) := by
  unfold execRegWrite
  exact (OkOut.next (iteP hs (State.csWrite_ok hs)))
theorem State.noteClear_ok {s : State} {x1 : RegRow} {x2 : Nat} (hs : State.Ok s) : State.Ok (State.noteClear s x1 x2) := by
  unfold State.noteClear
  exact (cut (fun h1 => (iteP h1 (State.Ok.upd h1))) (State.setReg_ok hs))
theorem State.readRegister_ok {s : State} {x1 : Path} {x2 : RegRow} {x3 : Nat} (hs : State.Ok s) : OkSnd (State.readRegister s x1 x2 x3) :=
    by
  unfold State.readRegister
  exact (iteP (OkSnd.mk hs) (iteP (OkSnd.mk hs) (iteP (OkSnd.mk hs) (OkSnd.mk (State.noteClear_ok hs)))))
theorem State.csRead_ok {s : State} {x1 : Path} {x2 : Nat} (hs : State.Ok s) : OkSnd (State.csRead s x1 x2) := by
  unfold State.csRead
  exact (iteP (OkSnd.mk hs) (by
    split
    · exact (State.readRegister_ok hs)
    · exact (iteP (OkSnd.mk hs) (iteP (OkSnd.mk hs) (iteP (iteP (State.windowRead_ok hs) (OkSnd.mk hs)) (OkSnd.mk (State.hole_ok hs)))))))
theorem execCspace_ok {x0 : Bool} {x1 : BitVec 24} {x2 : Word} {s : State} (hs : State.Ok s) : OkOut (execCspace x0 x1 x2 s) := by
  unfold execCspace
  exact (OkOut.next (iteP (State.tapBypass_ok hs) (cut (fun h1 => (iteP (cut (fun h2 => (by
    dsimp -failIfUnchanged only
    split
    · exact (iteP h2 (State.setReg_ok h2))
    · exact h2)) (State.csWrite_ok h1)) (State.emit_ok (State.updPower_ok (OkSnd.snd (State.csRead_ok h1)))))) (State.tapIr_ok hs))))
theorem execI3cPrivateWrite_ok {x0 : BitVec 24} {x1 : Word} {s : State} (hs : State.Ok s) : OkOut (execI3cPrivateWrite x0 x1 s) := by
  unfold execI3cPrivateWrite
  exact (OkOut.next (iteP (State.csWrite_ok hs) hs))
theorem execI3cPrivateRead_ok {x0 : BitVec 24} {s : State} (hs : State.Ok s) : OkOut (execI3cPrivateRead x0 s) := by
  unfold execI3cPrivateRead
  exact (OkOut.next (iteP hs (State.emit_ok (OkSnd.snd (iteP (State.csRead_ok hs) (OkSnd.mk hs))))))
theorem execSetdasa_ok {x0 : BitVec 7} {s : State} (hs : State.Ok s) : OkOut (execSetdasa x0 s) := by
  unfold execSetdasa
  exact (OkOut.next (iteP (State.updPower_ok hs) hs))
theorem execEntdaa_ok {x0 : BitVec 7} {s : State} (hs : State.Ok s) : OkOut (execEntdaa x0 s) := by
  unfold execEntdaa
  exact (OkOut.next (iteP (State.updPower_ok hs) hs))

/-! Host. -/

theorem State.mgmtAnswer_ok {s : State} {x1 : Nat} {x2 : AccCap} {x3 : Nat} {x4 : List Word} (hs : State.Ok s) : State.Ok (State.mgmtAnswer
    s x1 x2 x3 x4) := by
  unfold State.mgmtAnswer
  exact (State.popCap_ok (iteP (State.sendCapsule_ok hs) hs))
theorem State.readAll_ok {s : State} {x1 : List Nat} (hs : State.Ok s) : OkSnd (State.readAll s x1) := by
  induction x1 generalizing s with
  | nil => exact hs
  | cons o l ih => exact ih (State.csRead_ok hs)
theorem State.writeAll_ok {s : State} {x1 : Bool} {x2 : List (Nat × Word)} (hs : State.Ok s) : State.Ok (State.writeAll s x1 x2) := by
  induction x2 generalizing s with
  | nil => exact hs
  | cons p l ih => exact ih (State.csWrite_ok hs)
theorem execMread_ok {x0 : Fin 16} {s : State} (hs : State.Ok s) : OkOut (execMread x0 s) := by
  unfold execMread
  exact (State.live_ok hs (OkOut.next (iteP hs (State.runCapsule_ok hs (fun _ _ h1 => (iteP (State.mgmtAnswer_ok h1) (iteP
      (State.mgmtAnswer_ok h1) (State.mgmtAnswer_ok (OkSnd.snd (State.readAll_ok h1))))))))))
theorem execMwrite_ok {x0 : Fin 16} {s : State} (hs : State.Ok s) : OkOut (execMwrite x0 s) := by
  unfold execMwrite
  exact (State.live_ok hs (OkOut.next (iteP hs (State.runCapsule_ok hs (fun _ _ h1 => (iteP (State.mgmtAnswer_ok h1) (iteP
      (State.mgmtAnswer_ok h1) (State.mgmtAnswer_ok (State.repeatEvent_ok (State.writeAll_ok h1))))))))))

/-! Tick. -/

theorem State.tick_ok {s : State} (hs : State.Ok s) : State.Ok (State.tick s) := by
  unfold State.tick
  exact (iteP hs (iteP (State.Ok.upd hs) (State.advance_ok hs)))

/-! Step. -/

theorem State.withFetchWord_ok {s : State} {x1 : Nat} {x2 : Nat} (hs : State.Ok s) : State.Ok (State.withFetchWord s x1 x2) := by
  unfold State.withFetchWord
  exact (by
    split
    · exact (State.Ok.upd hs)
    · exact hs)

end Sys2Proof.Machine
end

