-- ==== Sys2Proof/Laws/Velim.lean ====
section
/-!
SUPPORT. What the issue of a Velim instruction comes to (R60, R63, R78, R81).
-/

namespace Sys2Proof.Machine

/-- The fields below bit 52 do not depend on MAJ and MIN. -/
theorem bitsOf_velimWord (maj min : Nat) (b : BitVec 52) (hi lo : Nat) (h : hi < 52) (h' : lo ≤ hi) :
    bitsOf (velimWord maj min b) hi lo = bitsOf b.toNat hi lo := by
  unfold bitsOf velimWord
  have e : maj * 2 ^ 58 + min * 2 ^ 52 + b.toNat = b.toNat + 2 ^ lo * (2 ^ (hi - lo + 1) * ((maj * 2 ^ 6 + min) * 2 ^ (51 - hi))) := by
    have p : 2 ^ lo * (2 ^ (hi - lo + 1) * 2 ^ (51 - hi)) = 2 ^ 52 := by
      rw [← pow_add, ← pow_add]; congr 1; omega
    calc maj * 2 ^ 58 + min * 2 ^ 52 + b.toNat = b.toNat + (maj * 2 ^ 6 + min) * 2 ^ 52 := by ring
      _ = _ := by rw [← p]; ring
  rw [Nat.shiftRight_eq_div_pow, Nat.shiftRight_eq_div_pow, e, Nat.add_mul_div_left _ _ (Nat.two_pow_pos lo), Nat.add_mul_mod_self_left]

@[simp] theorem fd_velimWord (maj min : Nat) (b : BitVec 52) : fd (velimWord maj min b) = fd b.toNat :=
  bitsOf_velimWord _ _ _ _ _ (by decide) (by decide)
@[simp] theorem fa_velimWord (maj min : Nat) (b : BitVec 52) : fa (velimWord maj min b) = fa b.toNat :=
  bitsOf_velimWord _ _ _ _ _ (by decide) (by decide)
@[simp] theorem fb_velimWord (maj min : Nat) (b : BitVec 52) : fb (velimWord maj min b) = fb b.toNat :=
  bitsOf_velimWord _ _ _ _ _ (by decide) (by decide)
@[simp] theorem fcc_velimWord (maj min : Nat) (b : BitVec 52) : fcc (velimWord maj min b) = fcc b.toNat :=
  bitsOf_velimWord _ _ _ _ _ (by decide) (by decide)
@[simp] theorem fsr_velimWord (maj min : Nat) (b : BitVec 52) : fsr (velimWord maj min b) = fsr b.toNat :=
  bitsOf_velimWord _ _ _ _ _ (by decide) (by decide)
theorem simm_velimWord (maj min : Nat) (b : BitVec 52) (hi lo : Nat) (h : hi < 52) (h' : lo ≤ hi) :
    simm (velimWord maj min b) hi lo = simm b.toNat hi lo := by
  unfold simm sfield; rw [bitsOf_velimWord _ _ _ _ _ h h']
theorem sfield_velimWord (maj min : Nat) (b : BitVec 52) (hi lo : Nat) (h : hi < 52) (h' : lo ≤ hi) :
    sfield (velimWord maj min b) hi lo = sfield b.toNat hi lo := by
  unfold sfield; rw [bitsOf_velimWord _ _ _ _ _ h h']
@[simp] theorem guardOf_velimWord (s : State) (k maj min : Nat) (b : BitVec 52) :
    s.guardOf k (velimWord maj min b) = s.guardOf k b.toNat := by
  unfold State.guardOf
  rw [bitsOf_velimWord _ _ _ _ _ (by decide) (by decide), bitsOf_velimWord _ _ _ _ _ (by decide) (by decide)]
@[simp] theorem badGuard_velimWord (maj min : Nat) (b : BitVec 52) : badGuard (velimWord maj min b) = badGuard b.toNat := by
  unfold badGuard; rw [bitsOf_velimWord _ _ _ _ _ (by decide) (by decide)]
theorem badZero_velimWord (maj min : Nat) (b : BitVec 52) (hi lo : Nat) (h : hi < 52) (h' : lo ≤ hi) :
    badZero (velimWord maj min b) hi lo = badZero b.toNat hi lo := by
  unfold badZero; rw [bitsOf_velimWord _ _ _ _ _ h h']

/-- An instruction that may issue, with no fault, acts. -/
theorem issue_acts {s : State} {k w : Nat} {f : Form} {fails : List (Nat × Nat)} (act : State → State)
    (hs : s.stopped = false) (hf : s.frozen = false) (hr : s.engState k = EngSt.run) (hw : (s.stream k).fenceWait = none)
    (hp : s.inRinkWindow (s.ctxOf k) (s.rd (ENG_PC.PC k)) 8 = true) (hg : bitsOf w 51 48 ≠ 1) (hb : f.bad = []) (he : f.engine = true)
    (ha : s.guardOf k w = true ∨ f.sel = true) (hn : s.blocked k f = false) (hx : fails = []) :
    s.issue k w f fails act = act s := by
  subst hx
  have hff : s.formFaults k w f = [] := by simp [State.formFaults, hp, badGuard, hg, hb, he]
  have e1 : (EngSt.run = EngSt.waitCc) = False := by simp [EngSt.run, EngSt.waitCc]
  have e2 : (EngSt.run = EngSt.waitLap) = False := by simp [EngSt.run, EngSt.waitLap]
  have e3 : (EngSt.run = EngSt.waitBuf) = False := by simp [EngSt.run, EngSt.waitBuf]
  unfold State.issue
  simp only [hs, hf, hr, hw, hff, e1, e2, e3, firstFault, List.foldl_nil, hn]
  rcases ha with ha | ha <;> simp [ha]

end Sys2Proof.Machine
end

