-- ==== Sys2Proof/Tests/Slice0.lean ====
section
/-!
SUPPORT. Tests: what WellFormed refuses, one step of a few commands with results taken from the spec's own rules and examples, and, for
every statement with hypotheses, states and operands that meet them.
-/

set_option Elab.async false

namespace Sys2Proof.Tests

open Sys2Proof.Machine Sys2Proof.Claims

/-! ## States -/

/-- The reset state with some register fields written. -/
def regs (l : List (Fld × Nat)) (s : State := State.reset) : State := l.foldl (fun s e => s.wr e.1 e.2) s

/-- Context `c` in state `st` with a Rink window of 16 MiB at 16 MiB and an LPDDR window of 16 MiB at 0. -/
def context (c st : Nat) (s : State := State.reset) : State :=
  regs [(CTX_STATE.STATE c, st), (CTX_RWIN.VALID c 0, 1), (CTX_RWIN.SIZE c 0, 0x1000), (CTX_RWIN.BASE c 0, 0x1000),
    (CTX_LWIN.VALID c 0, 1), (CTX_LWIN.SIZE c 0, 8), (CTX_LWIN.BASE c 0, 0)] s

/-- Stream `k`, of context `k % 2` or 0, runs at the first word of its context's Rink window. -/
def running (k : Nat) (c : Nat := 0) : State :=
  regs [(ENG_STATUS.STATE k, EngSt.run), (ENG_PC.PC k, 0x1000000)] (context c CtxSt.run)

/-- The state at a course time. -/
def atCt (lap stride : Nat) (s : State) : State := { s.wr LAP_CT.LAP lap with lap := { s.lap with acc := BitVec.ofNat 64 (stride * 2 ^ 44) } }

/-- The word with fields set at their low bits, as an instruction's 52 low bits. -/
def ins (l : List (Nat × Nat)) : BitVec 52 := BitVec.ofNat 52 (l.foldl (fun n e => n + e.2 * 2 ^ e.1) 0)

/-- Rink address `off`, LPDDR address, cluster store address. -/
def rinkAt (off : Nat) : Word := BitVec.ofNat 64 (2 ^ 60 + off)
def memAt (off : Nat) : Word := BitVec.ofNat 64 (2 * 2 ^ 60 + off)

/-! ## WellFormed refuses -/

theorem test_wf_offset : (Instr.regWrite .management 0x010001 0).wf = false := by decide
theorem test_wf_offset_snp : (Instr.snpCfgWrite 0x200401 0).wf = false := by decide
theorem test_wf_payload : (Instr.dspPacketRx 0 ⟨1, 0, 0, 0, []⟩).wf = false := by decide
theorem test_wf_length : (Instr.reqRx 0 ⟨1089, 0, 0, 0, List.replicate (16 * 1089) 0⟩).wf = false := by decide +kernel
theorem test_wf_frame : (Instr.ackRx 0 ⟨List.replicate 13 0, 0⟩).wf = false := by decide
theorem test_wf_rink_word : (Instr.rinkScrub [⟨8, false⟩]).wf = false := by decide
theorem test_wf_rink_end : (Instr.rinkScrub [⟨0x18000000, false⟩]).wf = false := by decide
theorem test_wf_block : (Instr.memRequestServed 0 ⟨1968, 2, []⟩).wf = false := by decide
theorem test_wf_rates : (Instr.mr4Poll 0 [0]).wf = false := by decide
theorem test_wf_temps : (Instr.thermalSample []).wf = false := by decide
theorem test_wf_report : (Instr.lcfGroupRx 0 ⟨[0, 0], ⟨0, 0, 0, 0, 0, 0, 0, 0⟩, 0, 0⟩).wf = false := by decide
theorem test_wf_block_number : (Instr.ssWearScan (2 ^ 20) false).wf = false := by decide
theorem test_wf_accepts : (Instr.regWrite .management 0x010008 0).wf = true := by decide

/-! ## Scalar instructions -/

/-- CanIssue, Runs and Settled hold of a running stream. -/
theorem test_runs : Runs (running 0) 0 (ins [(43, 5), (38, 1), (33, 2)]) ∧ Settled (running 0) 0 [5, 1, 2] := by decide +kernel
theorem test_runs_last_stream : Runs (running 49 1) 49 0 := by decide +kernel
theorem test_scalar_register_form : Runs (running 3) 3 (ins [(43, 5), (38, 1), (33, 2)]) ∧ bitsOf (ins [(43, 5), (38, 1), (33, 2)]).toNat 32 0 = 0 ∧
    bitsOf (ins [(43, 31), (38, 31)]).toNat 37 0 = 0 ∧ CanIssue (running 3) 3 (ins [(49, 1)]) := by decide +kernel
theorem test_scalar_illegal : Runs (running 0) 0 (ins [(33, 31)]) ∧ bitsOf (ins [(33, 31)]).toNat 32 0 = 0 ∧
    bitsOf (ins [(33, 31)]).toNat 37 33 ≠ 0 ∧ Runs (running 0) 0 (ins [(21, 1)]) ∧ bitsOf (ins [(21, 1)]).toNat 42 21 ≠ 0 := by decide +kernel
theorem test_movhi_field : Runs (running 0) 0 (ins [(43, 5), (0, 2 ^ 21 - 1)]) ∧ bitsOf (ins [(43, 5), (0, 2 ^ 21 - 1)]).toNat 42 21 = 0 := by
  decide +kernel
theorem test_compare_fields : Runs (running 0) 0 (ins [(43, 7), (38, 7), (33, 7)]) ∧ bitsOf (ins [(43, 7), (38, 7), (33, 7)]).toNat 47 46 = 0 ∧
    bitsOf (ins [(43, 7), (38, 7), (33, 7)]).toNat 42 41 = 0 ∧ bitsOf (ins [(43, 7), (38, 7), (33, 7)]).toNat 37 36 = 0 ∧
    bitsOf (ins [(43, 7), (38, 7), (33, 7)]).toNat 32 0 = 0 := by decide +kernel
theorem test_address_sum : effOff (rinkAt (2 ^ 60 - 1)) 0 = some (2 ^ 60 - 1) ∧ effOff (rinkAt (2 ^ 60 - 1)) 1 = none ∧ effOff (rinkAt 0) (-1) = none ∧
    Runs (running 0) 0 (ins [(43, 15), (38, 15)]) ∧ bitsOf (ins [(43, 15), (38, 15)]).toNat 47 47 = 0 := by decide +kernel
theorem test_branch_targets :
    (0x1000000 : Int) + 8 * sfield (ins [(0, 2 ^ 46 - 0x200000)]).toNat 45 0 = 0 ∧
    (0x1000000 : Int) + 8 * sfield (ins [(0, 2 ^ 46 - 0x200001)]).toNat 45 0 < 0 ∧
    (0x1000000 : Int) + 8 * sfield (ins [(0, (2 ^ 29 - 0x1000000) / 8)]).toNat 45 0 = 2 ^ 29 ∧
    Runs (running 0) 0 (ins [(0, (2 ^ 29 - 0x1000000) / 8)]) ∧ (running 0).rd (ENG_PC.PC 0) = 0x1000000 := by decide +kernel
theorem test_branch_outside : (regs [(ENG_PC.PC 0, 0xFFFFF8)] (running 0)).inRinkWindow 0 0xFFFFF8 8 = false ∧
    (running 0).inRinkWindow 0 0x1FFFFF8 8 = true ∧ (running 0).inRinkWindow 0 0x2000000 8 = false := by decide +kernel
theorem test_ret_space : spaceOf (((running 0).setA 0 15 (rinkAt 0x1000008)).areg 0 15).toNat = 1 ∧
    Runs ((running 0).setA 0 15 (rinkAt 0x1000008)) 0 0 ∧ spaceOf ((running 0).areg 0 15).toNat ≠ 1 ∧ bitsOf (ins [(0, 1)]).toNat 45 0 ≠ 0 ∧
    bitsOf (ins [(0, 1)]).toNat 47 46 = 0 := by decide +kernel
theorem test_loop_counts : ((running 0).setS 0 4 1).sreg 0 4 - 1 = 0 ∧ ((running 0).setS 0 4 0).sreg 0 4 - 1 = BitVec.allOnes 64 ∧
    Runs ((running 0).setS 0 4 2) 0 (ins [(43, 4)]) := by decide +kernel
theorem test_control_states : ((running 0).stream 0).ops = [] ∧ (regs [(SEC_STATE.DBG, 3)] (running 0)).dbg = 3 ∧ (running 0).dbg ≠ 3 ∧
    Runs (regs [(SEC_STATE.DBG, 3)] (running 0)) 0 0 ∧ bitsOf (ins [(0, 9)]).toNat 37 0 = 9 ∧ 9 < bitsOf (ins [(0, 10)]).toNat 37 0 ∧
    bitsOf (ins [(0, 0xFFFF)]).toNat 47 16 = 0 ∧ Runs (running 0) 0 (ins [(0, 0xFFFF)]) := by decide +kernel
theorem test_guard_false : (running 0).guardOf 0 (ins [(49, 1)]).toNat = false ∧ CanIssue (running 0) 0 (ins [(49, 1)]) ∧
    CanIssue (running 0) 0 (ins [(32, 1)]) ∧ bitsOf (ins [(32, 1)]).toNat 32 0 ≠ 0 := by decide +kernel
theorem test_waiting_state : (regs [(ENG_STATUS.STATE 0, EngSt.waitCc)] (running 0)).engState 0 = EngSt.waitCc ∧ (running 0).stopped = false := by
  decide +kernel

/-- ADD wraps modulo 2^64 (R64): a is all ones, b is 2. -/
theorem test_add_wraps : (match execAdd 0 false (ins [(43, 5), (38, 1), (33, 2)]) (((running 0).setS 0 1 (BitVec.allOnes 64)).setS 0 2 2) with
    | .next t => t.sreg 0 5 == 1 && t.rd (ENG_PC.PC 0) == 0x1000008 && t.rd (ENG_COUNT.RETIRED 0) == 1
    | _ => false) = true := by decide +kernel
/-- MULHS of -1 and 2 has the high half -1 (R64); the source is also the destination. -/
theorem test_mulhs_negative : (match execMulhs 0 (ins [(43, 1), (38, 1), (33, 2)]) (((running 0).setS 0 1 (BitVec.allOnes 64)).setS 0 2 2) with
    | .next t => t.sreg 0 1 == BitVec.allOnes 64
    | _ => false) = true := by decide +kernel
/-- A shift count is b[5:0] (R64): 65 shifts by 1. -/
theorem test_shift_count : (match execShl 0 true (ins [(43, 1), (38, 1), (0, 65)]) ((running 0).setS 0 1 1) with
    | .next t => t.sreg 0 1 == 2
    | _ => false) = true := by decide +kernel
/-- A write to s0 is discarded (R58). -/
theorem test_s0_discards : (match execMovi 0 (ins [(0, 7)]) (running 0) with | .next t => t.sreg 0 0 == 0 | _ => false) = true := by decide +kernel
/-- LOOP with a count of 0 wraps to 2^64 - 1 and branches (R71). -/
theorem test_loop_wraps : (match execLoop 0 (ins [(43, 4), (0, 2)]) (running 0) with
    | .next t => t.sreg 0 4 == BitVec.allOnes 64 && t.rd (ENG_PC.PC 0) == 0x1000010
    | _ => false) = true := by decide +kernel
/-- An odd PG and PN pair (PG 0, PN 1) is illegal and names bit 48 (R60, R81); the context is torn down (R80). -/
theorem test_illegal_guard : (match execNop 0 (ins [(48, 1)]) (running 0) with
    | .next t => t.rd (ENG_FAULT.CODE 0) == F_ISA_ENC && t.rd (ENG_FAULT.INFO 0) == 48 && t.engState 0 == EngSt.fault && t.ctxState 0 == CtxSt.run &&
      t.settleFaults.ctxState 0 == CtxSt.torn
    | _ => false) = true := by decide +kernel

/-! ## Counters, waits, buffers -/

theorem test_counter_fields : (running 0).storesInFlight 0 = [] ∧ ((running 0).stream 0).heldCc = [] ∧
    bitsOf (ins [(36, 4095), (0, 2 ^ 32 - 1)]).toNat 35 32 = 0 ∧ Runs (running 0) 0 (ins [(36, 4095), (0, 2 ^ 32 - 1)]) ∧
    bitsOf (ins [(36, 4095), (27, 3)]).toNat 26 0 = 0 ∧ bitsOf (ins [(0, 2 ^ 21 - 1)]).toNat 47 21 = 0 := by decide +kernel
/-- A counter one short of a target has not reached it, and one 2^31 - 1 beyond it has (R74). -/
theorem test_counter_reached : (((State.reset.setCc 0 7 3).cc 0 7 + 2 ^ 32 - 4) % 2 ^ 32 ≥ 2 ^ 31) ∧
    (((State.reset.setCc 0 7 3).cc 0 7 + 2 ^ 32 - (2 ^ 32 - 2 ^ 31 + 4)) % 2 ^ 32 < 2 ^ 31) := by decide +kernel
/-- A stream that waits for a counter that its target has not reached, and one whose limit has passed. -/
def waiting : State := atCt 0 5 (regs [(ENG_STATUS.STATE 0, EngSt.waitCc), (ENG_WAIT.KIND 0, 1), (ENG_WAIT.TARGET 0, 1), (ENG_CTL.WAITLIM 0, 5)] (running 0))
theorem test_wait_limit : waiting.waitMet 0 = false ∧ waiting.rd (ENG_CTL.WAITLIM 0) ≠ 0 ∧
    (waiting.stream 0).waitFrom + waiting.rd (ENG_CTL.WAITLIM 0) ≤ waiting.ct ∧ waiting.engState 0 = EngSt.waitCc := by decide +kernel
theorem test_wait_met : (waiting.setCc 0 0 1).waitMet 0 = true := by decide +kernel
/-- WAIT.CC on a counter at its target retires, and on one below it waits (R73, R74). -/
theorem test_wait_cc : (match execWaitCc 0 (ins [(36, 9), (0, 1)]) (running 0) with
    | .next t => t.engState 0 == EngSt.waitCc && t.rd (ENG_PC.PC 0) == 0x1000000 | _ => false) = true ∧
    (match execWaitCc 0 (ins [(36, 9), (0, 1)]) ((running 0).setCc 0 9 1) with
    | .next t => t.engState 0 == EngSt.run && t.rd (ENG_PC.PC 0) == 0x1000008 | _ => false) = true := by decide +kernel

/-- Pool 1 with six buffers and requester 5 of the general context with reserve 0 and limit 6, as in R197's example; the Locker is locked. -/
def pool : State :=
  let s := regs [(LKR_POOL.COUNT 1, 6), (LKR_POOL.BASE 1, 0x800), (ENG_CTL.REQID 0, 5), (LKR_REQ.EN 5, 1), (LKR_QUOTA.LIMIT 5 1, 6), (LKR_CTL.LOCK, 1),
    (LKR_CTL.ZERO, 0)] (running 0)
  s.setFreeQ 1 (List.range 6)
theorem test_buffer_request : pool.requestFault 0 1500 = [] ∧ pool.requestFault 0 0x10000000 ≠ [] := by decide +kernel
/-- BUF.ALLOC of 1,500 bytes is granted a buffer of pool 1, whose size BUF.SIZE gives (R76, R186, R191). -/
def held : State := match execBufAlloc 0 (ins [(43, 6), (38, 1)]) (pool.setS 0 1 1500) with | .next t => (match t.grantOne with | some u => u | none => t) | _ => pool
theorem test_buffer_granted : (held.checkHandle 0 (held.sreg 0 6)).isLeft = true ∧ held.sreg 0 6 ≠ 0 ∧ (held.checkHandle 0 0).isLeft = false := by decide +kernel
theorem test_buffer_size : (match execBufSize 0 (ins [(43, 7), (38, 6)]) held with | .next t => t.sreg 0 7 == 2048 | _ => false) = true := by decide +kernel

/-! ## Loads, stores, copies, vectors -/

/-- The state after a command. -/
def after (i : Instr) (s : State) : State := match exec i s with | .next t => t | _ => s

/-- a2 at the Rink window, a3 in LPDDR, s3 = 32, s4 = 0. -/
def loading : State := (((running 0).setA 0 2 (rinkAt 0x1000100)).setA 0 3 (memAt 0x1000)).setS 0 3 32

/-- LD s5 and ST s3 of 8 bytes at a2 + 8. -/
def ld5 : BitVec 52 := ins [(43, 5), (39, 2), (37, 3), (0, 8)]
def st3 : BitVec 52 := ins [(43, 3), (39, 2), (37, 3), (0, 8)]
theorem test_load_hyps : Runs loading 0 ld5 ∧ Settled loading 0 [5] ∧ OpsFree loading 0 ∧ effOff (msAddr loading 0 ld5) (sfield ld5.toNat 35 0) = some 0x1000108 ∧
    loading.accessFault 0 0 1 0x1000108 (msBytes ld5.toNat) (msBytes ld5.toNat) true = none := by decide +kernel
theorem test_load_overflow : effOff (msAddr (loading.setA 0 2 (rinkAt (2 ^ 60 - 1))) 0 ld5) (sfield ld5.toNat 35 0) = none ∧ spaceAllowed 0 1 = true := by
  decide +kernel
theorem test_load_in_flight : ((after (.ld 0 ld5) loading).findOp 0 0).map (fun o => (o.kind, (after (.ld 0 ld5) loading).memReady o)) = some (.ld 5 0 8 false, true) := by
  decide +kernel
/-- A load from LPDDR whose controller is in RUN, on the channel of the address 0x1000. -/
def loadMem : State := after (.ld 0 (ins [(43, 5), (39, 3), (37, 3)]))
  ((List.range 12).foldl (fun s m => regs [(MEM_STATUS.STATE m, MemSt.run)] s) loading)
theorem test_load_mem : (loadMem.findOp 0 0).map (fun o => (o.space, loadMem.memReady o)) = some (2, true) := by decide +kernel
/-- ST then LD of the same bytes gives the value (R68, R177). -/
theorem test_store_load : (after (.ldComplete 0 1 {}) (after (.ld 0 ld5) (after (.st 0 st3) loading))).sreg 0 5 = 32 := by decide +kernel
theorem test_store_complete : ((after (.st 0 st3) loading).findOp 0 0).map (fun o => (o.kind == .st 8, (after (.st 0 st3) loading).memReady o)) = some (true, true) ∧
    (after (.st 0 st3) loading).writeHeld 0 0 = false := by decide +kernel
/-- XMOV of s3 bytes from a2 to a3, counting cc 7. -/
def xm : BitVec 52 := ins [(44, 3), (40, 2), (35, 3), (23, 7)]
theorem test_copy_hyps : Runs loading 0 xm ∧ bitsOf xm.toNat 22 0 = 0 ∧ loading.accessFault 0 0 2 0x1000 32 16 true = none ∧
    loading.accessFault 0 0 1 0x1000100 32 16 true = none ∧ loading.accessFault 0 0 2 0x1000 0 16 true = none ∧
    loading.accessFault 0 0 1 0x1000100 0 16 true = none := by decide +kernel
theorem test_copy_in_flight : ((after (.xmov 0 xm) ((List.range 12).foldl (fun s m => regs [(MEM_STATUS.STATE m, MemSt.run)] s) loading)).findOp 0 0).map
    (fun o => (o.kind, (after (.xmov 0 xm) loading).writeHeld 0 0)) = some (.xmov 7 (memAt 0x1000).toNat 32, false) := by decide +kernel
theorem test_copy_counts_zero : (after (.xmov 0 xm) (loading.setS 0 3 0)).cc 0 7 = 1 := by decide +kernel

/-- VADD v1, v2, v3 with the full mask; VFMA; VCVT from FP32 to E4M3, part 3, the last. -/
theorem test_vector_fields : Vectorial 39 ∧ Runs (running 32) 32 (ins [(43, 1), (38, 2), (33, 3)]) ∧ MaskOk (ins [(43, 1), (38, 2), (33, 3)]) ∧
    bitsOf (ins [(43, 1), (38, 2), (33, 3)]).toNat 32 28 = 0 ∧ bitsOf (ins [(43, 1), (38, 2), (33, 3)]).toNat 21 0 = 0 ∧
    VSettled (running 32) 32 [1, 2, 3] := by decide +kernel
theorem test_convert_fields : ffd (ins [(13, 2), (10, 3)]).toNat = 2 ∧ packed 2 = true ∧ isMx 2 = false ∧
    fq (ins [(13, 2), (10, 3)]).toNat < parts 2 ∧ ffs (ins [(13, 2), (10, 3)]).toNat = 0 ∧ bitsOf (ins [(13, 2), (10, 3)]).toNat 9 0 = 0 ∧
    bitsOf (ins [(13, 2), (10, 3)]).toNat 37 28 = 0 := by decide +kernel
/-- 1 + 2 = 3, 2^25 + 1 = 2^25 rounded to nearest even (R121's example of the order), and the reduction's identity (R104). -/
theorem test_f32 : f32Add 0 0x3F800000 0x40000000 = (0x40400000, 0) ∧ (f32Add 0 0x4C000000 0x3F800000).1 = 0x4C000000 ∧
    (f32Add 0 0x80000000 0x80000000).1 = 0x80000000 := by decide +kernel
theorem test_vld_hyps : loading.vmFaults 0 (ins [(43, 4), (39, 2), (0, 2 ^ 35 - 0x100)]).toNat = [] ∧ Runs loading 0 (ins [(43, 4), (39, 2), (0, 2 ^ 35 - 0x100)]) ∧
    ¬ (bitsOf (ins [(43, 4), (39, 2), (0, 2 ^ 35 - 0x100)]).toNat 38 36 = 0 ∧ bitsOf (ins [(43, 4), (39, 2), (0, 2 ^ 35 - 0x100)]).toNat 35 35 = 1) := by
  decide +kernel
/-- VIOTA puts its index in every lane (R100). -/
theorem test_viota : lane ((after (.viota 0 (ins [(43, 4)])) (running 0)).vreg 0 4) 511 = 511 := by decide +kernel
/-- A masked vector write keeps the lanes that are inactive (R98): p1 is all zeros. -/
theorem test_masked_lane : lane ((after (.viota 0 (ins [(43, 4), (25, 1)])) (running 0)).vreg 0 4) 511 = 0 := by decide +kernel

/-! ## GMM, gates, remote atomics, relay, snapshot -/

/-- GMM of s3 entries at a2: none, and one. -/
def gmmIns : BitVec 52 := ins [(44, 2), (39, 3), (27, 9)]
theorem test_gmm_hyps : Runs (loading.setS 0 3 1) 0 gmmIns ∧ bitsOf gmmIns.toNat 25 0 = 0 ∧ (loading.setS 0 3 1).accessFault 0 0 1 0x1000100 64 64 true = none ∧
    ((loading.setS 0 3 1).gmu 0).length < 2 ∧ bitsOf gmmIns.toNat 26 26 = 0 ∧ (loading.setS 0 3 0).accessFault 0 0 1 0x1000100 0 64 true = none := by decide +kernel
/-- A GDT entry of FP32 C with E4M3 operands, K 32, N 16 and one row, in the Rink window. -/
def gdtWords : List Nat := [2 ^ 63 + 2 * 2 ^ 58 + 2 * 2 ^ 54, 32 * 2 ^ 48 + 16 * 2 ^ 32 + 1 * 2 ^ 16, 2 ^ 60 + 0x1001000, 2 ^ 60 + 0x1002000, 2 ^ 60 + 0x1003000, 0, 0,
  32 * 2 ^ 32 + 64]
def multiplying : State := (running 0).setGmu 0 [{ stream := 0, op := 0, pc := 0x1000000, addr := 2 ^ 60 + 0x1000100, count := 1, entry := 0, cc := 9, ce := 0, desc := gdtWords }]
theorem test_gmm_entry : (Gdt.mk gdtWords).valid = true ∧ (Gdt.mk gdtWords).rows ≠ 0 ∧ (Gdt.mk gdtWords).malformed = false ∧
    multiplying.entryFault 0 ⟨gdtWords⟩ = none ∧ multiplying.ctxState (multiplying.ctxOf 0) = CtxSt.run := by decide +kernel
/-- A write over A of the running entry, and a freed buffer that holds it, make its outputs undefined; a write past it does not; a read of its
C gives free bytes (R119, R194). -/
theorem test_beside_gmm : ((multiplying.besideWrite 0 (2 ^ 60 + 0x1001000) (fun _ => true) [1]).2.gmu 0).map (fun x => x.loose) = [[0]] ∧
    multiplying.besideWrite 0 (2 ^ 60 + 0x1001020) (fun _ => true) [1] = ([1], multiplying) ∧
    ((multiplying.looseUsers 0x1001000 512).gmu 0).map (fun x => x.loose) = [[0]] ∧
    (multiplying.besideRead 0 (2 ^ 60 + 0x100303F) [0, 0]).2.freeCtr = 2 ∧
    multiplying.besideRead 0 (2 ^ 60 + 0x1003040) [1] = ([1], multiplying) := by decide +kernel
/-- GROUTE of s3 tokens with its descriptor at a2, on Gate Engine 7. -/
def gating : State := ((running 39).setA 39 2 (rinkAt 0x1000100)).setS 39 3 65535
theorem test_gate_hyps : Runs gating 39 gmmIns ∧ bitsOf gmmIns.toNat 26 0 = 0 ∧ gating.accessFault 39 0 1 0x1000100 64 1 true = none ∧
    (gating.gate 7).ops.length < 2 ∧ Settled gating 39 [3] ∧ OpsFree gating 39 ∧ 0x1000100 % 64 = 0 := by decide +kernel
theorem test_gclose_hyps : Runs gating 39 (ins [(44, 2), (27, 9)]) ∧ bitsOf (ins [(44, 2), (27, 9)]).toNat 43 39 = 0 := by decide +kernel

/-- The RADD of R282's example: MAJ 0x3C, MIN 0, d 10, ab 3, sv 11, sz 1. -/
def radd : BitVec 52 := ins [(43, 10), (39, 3), (34, 11), (28, 1)]
theorem test_radd_word : velimWord 0x3C 0 radd = 0xF00051AC10000000 := by decide +kernel
/-- A stream whose context may reach index 42 at local address 0xBA000, as in that example. -/
def remote : State :=
  ((regs [(RMEM_CTL.EN 0, 1), (RMEM_CTL.DSIZE_M1 0, 63), (RMEM_DMAP.VALID 0 42, 1), (RMEM_DMAP.CHIPID 0 42, 0x1942), (RMEM_SEGB.VALID 0 0, 1),
    (RMEM_SEGB.W 0 0, 1), (RMEM_SEGB.A 0 0, 1), (RMEM_SEGL.LIMIT 0 0, 2 ^ 34 - 1)] (running 0)).setA 0 3 (BitVec.ofNat 64 0x30002A00000BA000)).setS 0 11 1
theorem test_remote_hyps : Runs remote 0 radd ∧ bitsOf radd.toNat 33 29 = 0 ∧ bitsOf radd.toNat 27 27 = 0 ∧ bitsOf radd.toNat 26 15 = 0 ∧
    spaceOf (msAddr remote 0 radd).toNat = 3 ∧ effOff (msAddr remote 0 radd) (sfield radd.toNat 14 0) = some 0x2A00000BA000 ∧
    remote.remoteFault 0 0x2A00000BA000 (atomicBytes radd) 2 false = none ∧ remote.remoteFault 0 0x2A00000BA000 (atomicBytes radd) 1 false = none ∧
    Settled remote 0 [10, 11, 0] ∧ OpsFree remote 0 := by decide +kernel
/-- On chip 0x1521 of the 16 x 32 x 32 torus its REQ has OPC 0x32 and LEN 1, goes to chip 0x1942 and leaves on port 6 (R282's example). -/
def torus (s : State) : State := (List.range 12).foldl (fun s n => regs [(PORT_STATUS.STATE n, PortSt.up), (PORT_STATUS.LANES_OK n, 255)] s)
  (regs [(FAB_CFG.XS_M1, 15), (FAB_CFG.YS_M1, 31), (FAB_CFG.ZS_M1, 31), (FAB_CFG.CHIPID, 0x1521)] s)
theorem test_radd_packet : ((after (.radd 0 radd) (torus remote)).router.ports.flatMap (fun e =>
      (e.2.vcq.flatMap (fun q => q.2) ++ e.2.sending.toList).map (fun q => (e.1, q)))).map
    (fun q => (q.1, pkDest q.2.pkt, pkOpc q.2.pkt, bitsOf q.2.pkt.w0.toNat 10 0)) = [(6, 0x1942, 0x32, 1)] := by decide +kernel

/-- A general Relay stream with an operation descriptor at a2: PUT of 16 bytes to chip 5, waiting on cc 1 for 1; RADMIT's at a4 (R307's example). -/
def words (l : List Nat) : List Byte := l.flatMap (fun w => leBytes 8 w)
def putWords : List Nat := [2 ^ 60 + 1 * 2 ^ 35, 1 * 2 ^ 32 + 16, 2 ^ 60 + 0x1004000, 5 * 2 ^ 50, 0, 0, 0, 0]
def relaying : State :=
  (((((running 40).setRink 0x1000100 (words putWords)).setRink 0x1000200 (words [0x001E0CE002000000, 0x1F41F21F22118000, 0, 0])).setA 40 2 (rinkAt 0x1000100)).setA 40 4
    (rinkAt 0x1000200)).setS 40 5 3 |>.setS 40 6 0x910
theorem test_rpost_hyps : Runs relaying 40 (ins [(44, 2)]) ∧ bitsOf (ins [(44, 2)]).toNat 43 0 = 0 ∧ relaying.accessFault 40 0 1 0x1000100 64 64 true = none ∧
    odOk (relaying.rinkWords 0x1000100 8) = true ∧ odOk (relaying.rinkWords 0x1000400 8) = false ∧
    (((relaying.relay 0).posted.filter (fun o => ! o.fired)).length < 256) := by decide +kernel
/-- RADMIT a4, s5, s6 is 0xE400_4298_0000_0000 (R307's example). -/
def radmit : BitVec 52 := ins [(44, 4), (39, 5), (34, 6)]
theorem test_radmit_word : velimWord 0x39 0 radmit = 0xE400429800000000 := by decide +kernel
theorem test_radmit_hyps : Runs relaying 40 radmit ∧ bitsOf radmit.toNat 33 0 = 0 ∧ relaying.accessFault 40 0 1 0x1000200 32 32 true = none ∧
    3 ≤ (relaying.partition 0).length ∧ (relaying.ctx 0).lastCol = none ∧ (relaying.admits 0).length < 16 ∧
    adOk (relaying.rinkWords 0x1000200 4) = true ∧ (relaying.sreg 40 6).toNat % 2 ^ 32 = 0x910 := by decide +kernel
/-- The descriptor's fields as that example gives them: XANCHOR 30, EXPECT_M1 3, FOP 3, CBYTES 1,024, LBYTES 512. -/
theorem test_radmit_fields : odF [0x001E0CE002000000] 0 63 48 = 30 ∧ odF [0x001E0CE002000000] 0 47 42 = 3 ∧ odF [0x001E0CE002000000] 0 41 38 = 3 ∧
    odF [0x001E0CE002000000] 0 37 27 = 1024 ∧ odF [0x001E0CE002000000] 0 26 16 = 512 := by decide +kernel
theorem test_rcancel_hyps : bitsOf (ins [(22, 9)]).toNat 47 34 = 0 ∧ bitsOf (ins [(22, 9)]).toNat 21 0 = 0 ∧ Runs relaying 40 (ins [(22, 9)]) := by decide +kernel
/-- A collective with an entry of context 0 that is ADMITTED, and one that is FILLING. -/
def admitted (st : Nat) : State := relaying.updCol (fun x => { x with entries := [(3, { st := st, colid := 0x910, ctx := 0 })] })
theorem test_rfree_hyps : ((admitted 1).colEntries 0 0x910).all (fun i => ((admitted 1).rsEntry i).st != 2) = true ∧
    ((admitted 2).colEntries 0 0x910).any (fun i => ((admitted 2).rsEntry i).st == 2) = true ∧ Runs (admitted 2) 40 (ins [(34, 6)]) ∧
    bitsOf (ins [(34, 6)]).toNat 47 39 = 0 ∧ bitsOf (ins [(34, 6)]).toNat 33 0 = 0 := by decide +kernel
/-- SRD of the Snapshot Engine's stream 48 with its descriptor at a2. -/
def snapping : State := (running 48).setA 48 2 (rinkAt 0x1000100)
theorem test_snap_hyps : Runs snapping 48 (ins [(44, 2), (32, 4095)]) ∧ bitsOf (ins [(44, 2), (32, 4095)]).toNat 31 0 = 0 ∧
    (∀ r ∈ snapRows, snapping.accessFault 48 0 1 0x1000100 r.2.2 64 true = none) ∧ OpsFree snapping 48 := by decide +kernel
theorem test_snap_in_flight : (∀ m : Fin 3, ((snapping.beginOp 48 (.snap m 4095) 1 0x1000100).stream 48).ops.map (fun o => o.kind) = [.snap m 4095]) ∧
    snapping.host.lost = [] := by decide +kernel

/-! ## Control space, lap time, sequencer -/

theorem test_plain_register : (findRow 0x020010).isSome = true ∧ (State.reset.settingParts 0x020010 = []) ∧ State.reset.domainOn (domainOf 0x020010) = true ∧
    (findRow 0x2430F8).isSome = false ∧ (findRow 0x243038).isSome = true ∧ State.reset.settingParts 0x243038 = [] := by decide +kernel
theorem test_hole : findRow 0x000010 = none ∧ tmplWindow 0x000010 = false ∧ plainWindow 0x000010 = false ∧ certAt 0x000010 = false ∧
    readWindow 0x000010 = false ∧ findRow 0xFFFFF8 = none ∧ State.reset.domainOn (domainOf 0xFFFFF8) = true := by decide +kernel
theorem test_context_busy : (context 1 CtxSt.saved).ctxBusy 1 = true ∧ (context 1 CtxSt.halted).ctxBusy 1 = false ∧
    State.reset.domainOn (domainOf 0x010048) = true := by decide +kernel
/-- An access to a hole counts once and leaves its offset (R472). -/
theorem test_hole_record : (match execRegWrite .management 0x000010 5 State.reset with
    | .next t => t.rd CS_HOLE.OFFSET == 0x000010 && t.rd CS_HOLE.COUNT == 1 && t.reg 0x000010 == 0 | _ => false) = true := by decide +kernel
/-- DEV_ID reads 0x0000_0001_5911_9416 and ignores writes (R2, R4). -/
theorem test_dev_id : (match execRegWrite .management 0 0 State.reset with | .next t => (t.csRead .management 0).1 == 0x0000000159119416 | _ => false) = true := by
  decide +kernel

/-- The Lap Unit in FREERUN at 20 ms, 10 clk into lap 6,682. -/
def lapping (st : Nat := LapSt.freerun) : State :=
  { regs [(LAP_CTRL.ENABLE, 1), (LAP_CTRL.SRC_PRI, 4), (LAP_STATUS.STATE, st), (LAP_CT.LAP, 6682), (LAP_LOOP.PHASE_INC, 981209791155)] State.reset with
    lap := { acc := BitVec.ofNat 64 (981209791155 * 10) } }
/-- PHASE_INC's nominal value at 20 ms (R36's example): the carry comes after 18,800,000 clk from phase 0. -/
theorem test_clk_to_carry : { lapping with lap := { acc := 0 } }.clkToCarry = some 18800000 ∧ lapping.clkToCarry = some 18799990 ∧
    (lapping LapSt.stopped).clkToCarry = none := by decide +kernel
theorem test_lap_cfg_range : State.reset.lapRuns = false ∧ fieldOf (2000 * 2 ^ 32) LAP_CFG.PERIOD_US = 2000 ∧ fieldOf (40000 * 2 ^ 32) LAP_CFG.PERIOD_US = 40000 ∧
    lapping.lapRuns = true ∧ fieldOf 0 LAP_CFG.PERIOD_US ≠ lapping.rd LAP_CFG.PERIOD_US := by decide +kernel
theorem test_holdover : (regs [(LAP_STATUS.HOLD_LAPS, 3000)] (lapping LapSt.holdover)).rd LAP_CFG.HOLD_MAX ≤
    (regs [(LAP_STATUS.HOLD_LAPS, 3000)] (lapping LapSt.holdover)).rd LAP_STATUS.HOLD_LAPS ∧ (lapping LapSt.holdover).lap.holdexp = false := by decide +kernel
theorem test_enable_sources : State.reset.rd LAP_CTRL.ENABLE = 0 ∧ (lapFields State.reset (lapSrc (1 * 2 ^ 8) 1)).rd LAP_CTRL.SRC_PRI = 1 ∧
    (lapFields State.reset (lapSrc (4 * 2 ^ 8) 1)).rd LAP_CTRL.SRC_PRI = 4 ∧ (lapFields State.reset (lapSrc (5 * 2 ^ 8) 1)).rd LAP_CTRL.SRC_PRI = 5 ∧
    (lapFields State.reset (lapSrc 0 1)).rd LAP_CTRL.SRC_PRI = 0 := by decide +kernel
theorem test_disable_states : lapping.rd LAP_CTRL.ENABLE = 1 ∧ (lapFields lapping (lapSrc 0 0)).ctxExists 0 = false ∧
    (lapFields (context 1 CtxSt.halted lapping) (lapSrc 0 0)).ctxExists 1 = true := by decide +kernel
theorem test_ptp_edge : (regs [(HP_CTL.PTP 1, 1)]).bit (HP_CTL.PTP 1) = true ∧ (20000000 * 7 - 0 : Word).toNat % (State.reset.rd LAP_CFG.PERIOD_US * 1000) = 0 := by
  decide +kernel
theorem test_markers : (lapping LapSt.locked).rd LAP_STATUS.STATE = LapSt.locked ∧ (7 : Nat) ≠ (lapping LapSt.locked).lapNo ∧
    (lapping LapSt.acquire).rd LAP_STATUS.STATE = LapSt.acquire := by decide +kernel

/-- Context 0 in RUN, in its step of lap 6,700 at 20 ms, at the deadline 1,048,320 (R53's example); the chip is the root of GROUP 0 for job 0x31. -/
def late : State :=
  let s := atCt 6700 1048320 (regs [(CTX_JOB.JOB 0, 0x31), (LAP_OVR.DEADLINE 0, 1048320)] (running 0))
  (s.updCtx 0 (fun x => { x with step := some { lap := 6700, epoch := 0x1A2C } })).updRouter (fun r => { r with
    mgroups := [(0, BitVec.ofNat 64 (2 ^ 63 + 2 ^ 62 + 0x31 * 2 ^ 34 + 1 * 2 ^ 19 + 2 ^ 18))] })
theorem test_overrun_hyps : (late.ctx 0).step = some { lap := 6700, epoch := 0x1A2C } ∧ late.ctxState 0 = CtxSt.run ∧
    6700 * 2 ^ 20 + late.rd (LAP_OVR.DEADLINE 0) ≤ late.ct ∧ late.mgValid 0 0x31 = true ∧ late.mgRoot 0 = true ∧ late.selfFenced = false := by decide +kernel
theorem test_overrun_packet : pkClass (noticePacket late 0 { lap := 6700, epoch := 0x1A2C }) = Cls.ctl ∧
    pkOpc (noticePacket late 0 { lap := 6700, epoch := 0x1A2C }) = 5 := by decide +kernel

/-- Bank 0 of the general templates with a good entry 0 for cluster 3, ENTRY at the window, no arguments. -/
def armed : State :=
  { (regs [(LAP_STATUS.STATE, LapSt.freerun)] (late.updCtx 0 (fun x => { x with armed := [0] }))) with tmpl := tset zeroWord (tset zeroWord [] 0 (BitVec.ofNat 64 (2 ^ 63 + 3 * 2 ^ 56))) 1 0x1000000 }
theorem test_bank : State.reset.bankOk 0 = true ∧ (context 0 CtxSt.run).ctxBusy 0 = true ∧ State.reset.ctxBusy 1 = false ∧
    { State.reset with tmpl := [(4096, BitVec.ofNat 64 (2 ^ 63))] }.bankOk 0 = false := by decide +kernel
theorem test_release : armed.nextRelease = some (0, 0) ∧ (armed.stream 3).queue.length < 8 ∧
    (armed.updStream 3 (fun x => { x with queue := List.replicate 8 (instanceOf armed 0 0 6700) })).nextRelease = some (0, 0) := by decide +kernel
theorem test_instance : ((armed.updStream 4 (fun x => { x with queue := [instanceOf armed 0 0 6700] })).stream 4).queue = [instanceOf armed 0 0 6700] ∧
    armed.engState 4 = EngSt.idle ∧ armed.ctxState (armed.ctxOf 4) = CtxSt.run ∧ (instanceOf armed 0 0 6700).args.length = 8 ∧
    (instanceOf armed 0 0 6700).entry < 2 ^ 29 := by decide +kernel

/-! ## Gate Engines, the Course -/

/-- Gate Engine 7 with its first GROUTE of two tokens read: layer 5, four experts, K 1, external scores, and the choice of its token ranked. -/
def routeWords : List Word := [BitVec.ofNat 64 (5 * 2 ^ 56 + 2 * 2 ^ 52 + 2 * 2 ^ 48 + 2 ^ 47 + 2 * 2 ^ 42 + 1 * 2 ^ 32), BitVec.ofNat 64 (32 * 2 ^ 48 + 3 * 2 ^ 28),
  BitVec.ofNat 64 (2 ^ 60 + 0x1004000), BitVec.ofNat 64 (2 ^ 60 + 0x1005000), 0, BitVec.ofNat 64 (2 ^ 60 + 0x1006000), 32, 0x1000]
def gateHead (tok : Nat) (sel : List (Nat × Nat × Nat)) : GateOp :=
  { kind := 0, op := 0, pc := 0x1000000, addr := 2 ^ 60 + 0x1000100, count := 2, cc := 9, desc := routeWords, tok := tok, sel := sel }
def routing (tok : Nat) : State := gating.updGate 7 (fun y => { y with ops := [gateHead tok [(3, 0x3F800000, 0x3F800000)]] })
theorem test_route_words : rdOk routeWords 2 = true ∧ rdOk (routeWords.set 1 0) 2 = false := by decide +kernel
theorem test_dispatch_hyps : (((routing 1).gateReach 7 2).gate 7).ops = [gateHead 1 [(3, 0x3F800000, 0x3F800000)]] ∧
    ((routing 1).gateReach 7 2).gateMay ((routing 1).ctxOf 39) 7 (gateHead 1 [(3, 0x3F800000, 0x3F800000)]) = true ∧ (routing 1).stopped = false ∧
    (routing 1).frozen = false := by decide +kernel
theorem test_gate_complete_hyps : (((routing 2).gateReach 7 2).gate 7).ops = [gateHead 2 [(3, 0x3F800000, 0x3F800000)]] ∧
    ((routing 2).gateReach 7 2).ctxState ((routing 2).ctxOf 39) = CtxSt.run := by decide +kernel
/-- A drop for capacity closes its record with reason 1 and a combine entry of FATE 2 (R137, R139, R140): the EHT entry of expert 3 names a replica
whose CAP and USED are 0. -/
theorem test_drop_cap : (let t := after (.gateDispatchChoice 7) ((routing 1).setGate 7 0x1018 (leBytes 8 0x2000));
    (t.rd (GE_COUNT1.DROP_CAP 7), bitsOf (t.recWord 7 0 0) 63 58, bitsOf (leNat (t.rinkBytes 0x1006010 8)) 43 41)) = (1, 25, 2) := by decide +kernel

/-- A TOKEN and a TALLY record for group 0 of Gate Engine 7, whose entry has one slot and two senders. -/
def tokenRec (ty sidx ord : Nat) : HeldRec := { addr := 0, buf := none, data := words ([ty * 2 ^ 60 + 0 * 2 ^ 44, 7 * 2 ^ 44 + sidx * 2 ^ 16 + ord, 0, 0, 1] ++ List.replicate 15 0) }
def taking (ty : Nat) : State :=
  ((((gating.updCtx 0 (fun x => { x with step := some { lap := 5, epoch := 0 } })).setGate 7 0x8000
      (words [2 ^ 63 + 0 * 2 ^ 57 + 1 * 2 ^ 45, 2 ^ 60 + 0x1008000, 2 ^ 60 + 0x1009000, 2 ^ 60 + 0x100A000, 0x3000 * 2 ^ 40 + 0x4000 * 2 ^ 16, 0x5000 * 2 ^ 40, 0, 0])).wr
      (GE_INTAKE.BASE 7) 0x8000).wr (GE_INTAKE.ENABLE 7) 1).updGate 7 (fun y => { y with inbox := [tokenRec ty 1 0] })
theorem test_token_hyps : (taking 1).ctxExists ((taking 1).ctxOf 39) = true ∧ ((taking 1).gate 7).inbox.find? (fun r => (taking 1).rType r == 1) = some (tokenRec 1 1 0) ∧
    ((taking 1).useGroup 0 7 0).isRight = true ∧ ((taking 2).gate 7).inbox.find? (fun r => (taking 2).rType r == 2) = some (tokenRec 2 1 0) ∧
    ((taking 2).useGroup 0 7 0).isRight = true := by decide +kernel
/-- The token waits for the last of its group's two tallies, and a tally of one token counts (R142). -/
theorem test_token_held : (((after (.intakeTokenRx 7) (taking 1)).groupOf 7 0).map (fun x => x.held.length)) = some 1 ∧
    (((after (.intakeTallyRx 7) (taking 2)).groupOf 7 0).map (fun x => x.rows 0)) = some 1 := by decide +kernel
theorem test_ledger_edge : fieldOf (BitVec.ofNat 64 (0xFFFFE0 * 2 ^ 40)) (GE_LEDGER.BASE 7) + 32 * (fieldOf (BitVec.ofNat 64 (0xFFFFE0 * 2 ^ 40)) (GE_LEDGER.SIZE_M1 7) + 1) ≤ sramSize ∧
    sramSize < fieldOf (BitVec.ofNat 64 (2 ^ 64 - 1)) (GE_LEDGER.BASE 7) + 32 * (fieldOf (BitVec.ofNat 64 (2 ^ 64 - 1)) (GE_LEDGER.SIZE_M1 7) + 1) := by decide +kernel

/-- A Course image at the Rink window, VERSION 1 with no slot table and no share, and its load in progress. -/
def image (w0 : Nat) : State := { ((running 0).setRink 0x1000000 (leBytes 8 w0)) with loading := some 0x1000000 }
theorem image_rink : (image (2 ^ 48)).rink = [(0x1000006, 1)] := by decide +kernel
theorem rink_zero (a n : Nat) (h : 0x1000006 < a) : leNat ((image (2 ^ 48)).rinkBytes a n) = 0 := by
  unfold State.rinkBytes
  rw [image_rink]
  induction n generalizing a with
  | zero => rfl
  | succ n ih => simp only [tgetMany, tget, leNat, if_neg (show ¬ (0x1000006 = a) by omega), ih (a + 1) (by omega)]; rfl
theorem image_flow (f : Nat) : (image (2 ^ 48)).imgFlow 0x1000000 f = 0 := rink_zero _ _ (by unfold courseFlows; omega)
theorem test_course_good : (image (2 ^ 48)).courseOk 0x1000000 = true ∧ (image (2 ^ 48)).depthOk 0x1000000 = true := by
  have h : (List.range 8192).all (fun f => bitsOf ((image (2 ^ 48)).imgFlow 0x1000000 f) 26 0 == 0 && (! flowLine ((image (2 ^ 48)).imgFlow 0x1000000 f) ||
      flowClass ((image (2 ^ 48)).imgFlow 0x1000000 f) == 2)) = true := by
    simp only [image_flow]; rw [List.all_eq_true]; intros; decide
  refine ⟨?_, by decide +kernel⟩
  unfold State.courseOk
  rw [h]
  decide +kernel
theorem test_course_bad : (image 0).courseOk 0x1000000 = false ∧ (image 0).loading = some 0x1000000 ∧ State.reset.bit COURSE_STATUS.LOADING = false := by
  decide +kernel
/-- INGRESS 1 with no quota of the ingress requester (R154). -/
theorem test_course_depth : ((image (2 ^ 48)).setRink 0x1000008 [1]).depthOk 0x1000000 = false := by decide +kernel
/-- A cancelled epoch of lap 7 is still listed in lap 1,030 and gone in lap 1,031 (R171). -/
theorem test_cancel_expiry : ((after (.cancelListExpiry 0) (atCt 1030 0 (State.reset.updCtx 0 (fun x => { x with cxl := [(3, 7)] })))).ctx 0).cxl = [(3, 7)] ∧
    ((after (.cancelListExpiry 0) (atCt 1031 0 (State.reset.updCtx 0 (fun x => { x with cxl := [(3, 7)] })))).ctx 0).cxl = [] := by decide +kernel

/-- Slots: the lap runs; port 0 has decided slot 15, and course time is in slot 16,383. -/
def slotted : State := (atCt 5 1048575 (lapping LapSt.locked)).updPort 0 (fun x => { x with slot := some { index := 15, kind := 3, since := 0 } })
theorem test_slot_hyps : slotted.stride / 64 = 16383 ∧ 15 ≠ slotted.slotNo ∧ slotted.rd LAP_STATUS.STATE ≠ LapSt.stopped ∧ (slotted.port 1).slot = none ∧
    slotted.stopped = false := by decide +kernel
theorem test_slot_open : ((after (.slotStart 1) slotted).port 1).slot.map (fun r => (r.index, r.kind)) = some (98303, 3) ∧ ((after (.slotEnd 0) slotted).port 0).slot.map (fun r => r.ended) = some true := by decide +kernel

/-- A packet of a class, from chip 0x1942, to a chip. -/
def packet (cls dest : Nat) (opc : Nat := 0) (payload : List Byte := []) : Packet :=
  mkPacket { cls := cls, dest := dest, src := 0x1942, job := 0x31, opc := opc } payload
theorem test_packet_hyps : pkMode (packet Cls.dsp 0x1521) = 0 ∧ pkDest (packet Cls.dsp 0x1521) = (torus State.reset).chipId ∧
    pkClass (packet Cls.dsp 0x1521) = Cls.dsp ∧ pkClass (packet Cls.ret 0x1521) = Cls.ret ∧ ecrcGood (packet Cls.ret 0x1521) = true ∧
    ecrcGood (putW3 (packet Cls.ret 0x1521) 0 0 (1 - pkEcrc (packet Cls.ret 0x1521) % 2)) = false ∧ pkDest (packet Cls.dsp 0x1520) ≠ (torus State.reset).chipId := by
  decide +kernel
theorem test_sent_hyps : (((torus State.reset).updPort 6 (fun x => { x with sending := some { pkt := packet Cls.req 0x1520 } })).port 6).sending ≠ none := by
  decide +kernel

/-! ## Rink, Locker, LPDDR -/

theorem test_lock_hyps : State.reset.bit RINK_CFG.LOCK = false ∧ (State.reset.wr RINK_CFG.LOCK 1).bit RINK_CFG.LOCK = true ∧ State.reset.bit LKR_CTL.LOCK = false ∧
    pool.bit LKR_CTL.LOCK = true ∧ State.reset.poolsOk = true ∧ State.reset.fixedOk = true := by decide +kernel
/-- A pool whose base is not a multiple of its buffers' size (R186). -/
theorem test_pool_layout : (regs [(LKR_POOL.COUNT 1, 6), (LKR_POOL.BASE 1, 0x800)]).poolsOk = false ∧
    (regs [(LKR_POOL.COUNT 1, 6), (LKR_POOL.BASE 1, 0x1000000)]).poolsOk = true ∧ (regs [(LKR_POOL.COUNT 1, 6), (LKR_POOL.BASE 1, 0x1000010)]).poolsOk = false := by
  decide +kernel
theorem test_quota_hyps : pool.resvSum 1 (fun x => x != 58) + max (pool.resvMax 58 1) (fieldOf 6 (LKR_QUOTA.RESV 58 1)) ≤ pool.poolCount 1 ∧ (59 : Nat) ≤ 63 := by
  decide +kernel
/-- A buffer under zeroing; a request that waits; the scrub's and the auditor's last clk. -/
theorem test_locker_hyps : ((pool.updLocker (fun l => { l with zero := [2 ^ 21] })).locker.zero = [2 ^ 21]) ∧
    ((pool.setWaitQ 1 [⟨0, 5, 1500, 6, 0⟩]).grantOne.isSome = true) ∧ ((pool.wr LAP_LCC.LCC 1023).lcc % 1024 = 1023) ∧ pool.buffersOk = true ∧
    pool.bufBreach = false ∧ (pool.setFreeQ 1 []).buffersOk = false ∧ (pool.wr LAP_LCC.LCC 65535).lcc % 65536 = 65535 ∧ pool.scrubLine + 1 ≠ 24576 := by decide +kernel

/-- Controller 0 in a state. -/
def memory (st : Nat) (s : State := State.reset) : State :=
  regs [(MEM_STATUS.STATE 0, st), (LAP_STATUS.STATE, LapSt.freerun)] s
theorem test_mem_start_hyps : State.reset.memState 0 = MemSt.off ∧ (memory MemSt.run).memState 0 ≠ MemSt.off ∧ fieldOf 0x1E0 (MEM_CTL.START 0) = 0 ∧
    (memory MemSt.run).memState 0 = MemSt.run ∧ (memory MemSt.training).memState 0 = MemSt.training ∧ (((memory MemSt.training).updMem 0 (fun x => { x with kept := true })).mem 0).kept = true ∧
    ((memory MemSt.training).mem 0).kept = false ∧ (memory MemSt.zeroing).memState 0 = MemSt.zeroing := by decide +kernel
/-- R205's example: the local address 0x01000000 lies on device channel 164, channel 4 of controller 10. -/
theorem test_channel_of : channelOf 0x01000000 = 164 ∧ channelOf 0 / 16 = 0 := by decide +kernel
theorem test_channel_first : channelOf 0 = 16 * (0 : Fin 12).val + (0 : Fin 16).val ∧ (0 : Nat) < memBytesUsable ∧ (memory MemSt.run).bit (MEM_CH.FAILED 0 0) = false := by
  decide +kernel
theorem test_refresh_hyps : (memory MemSt.run).sinceRefresh 0 = 0 ∧ (extraOffsets (memory MemSt.run).refreshRs 1).contains ((atCt 0 12 (memory MemSt.run)).sinceRefresh 0) = true ∧
    (memory MemSt.run).refreshRs = 25 ∧ (regs [(MEM_CH.RATE 0 0, 1)] (memory MemSt.run)).rd (MEM_CH.RATE 0 0) = 1 ∧
    (regs [(MEM_CTL.RFM_EN 0, 1)] (memory MemSt.run)).bit (MEM_CTL.RFM_EN 0) = true := by decide +kernel
theorem test_scrub_hyps : (atCt 0 61440 (memory MemSt.run)).scrubDue 0 15 = true ∧ (memory MemSt.run).rd (MEM_SCRUB.POS 0) + 1 ≠ 2 ^ 21 ∧
    (memory MemSt.run).stride % 65536 = 0 := by decide +kernel
/-- Slot 0 is a CAL slot and channel 2's pass has one step left. -/
def retraining : State :=
  ((regs [(MEM_CTL.TRAIN_EN 0, 1), (LAP_LOOP.PHASE_INC, 981209791155)] (memory MemSt.run)).updMem 0 (fun x => { x with rotCh := 2, rotStep := 7 })).setCourse 0
    { slots := [(0, BitVec.ofNat 64 (2 ^ 63 + 2 ^ 62)), (16383, 0)] }
theorem test_retrain_hyps : retraining.bit (MEM_CTL.TRAIN_EN 0) = true ∧ (retraining.mem 0).rotCh = (2 : Fin 16).val ∧ retraining.usableSlot 0 = 1 ∧
    retraining.passDue 0 = true ∧ 112 ≤ retraining.clkBefore (64 * (retraining.stride / 64 + 1)) ∧ (retraining.mem 0).rotStep = 7 ∧
    (-24 : BitVec 8).toInt.natAbs ≤ 24 ∧ 24 < (25 : BitVec 8).toInt.natAbs ∧ retraining.memState 0 = MemSt.run ∧ retraining.bit (MEM_CH.FAILED 0 2) = false := by
  decide +kernel
theorem test_trainlate_hyps : ((memory MemSt.run).mem 0).late.contains 2 = false ∧ 2 * (memory MemSt.run).rd (MEM_CTL.PERIOD_MS 0) * 1000 <
    ((atCt 11 0 (memory MemSt.run)).lapNo + 2 ^ 32 - (memory MemSt.run).rd (MEM_CH.LAST_PASS 0 2)) % 2 ^ 32 * (memory MemSt.run).rd LAP_CFG.PERIOD_US := by decide +kernel

/-! ## The fabric -/

theorem test_training_hyps : (torus State.reset).ring (6 % 6 / 2) ≠ 1 ∧ State.reset.ring (11 % 6 / 2) = 1 ∧ State.reset.portState 0 = PortSt.down ∧
    (regs [(PORT_STATUS.STATE 3, PortSt.train)]).portState 3 = PortSt.train ∧ (regs [(PORT_STATUS.STATE 3, PortSt.hello)]).portState 3 = PortSt.hello ∧
    bitsOf (0x0658 * 2 ^ 50 : Nat) 22 22 = 0 := by decide +kernel
theorem test_directions_up : ∀ d : Fin 6, ((regs [(PORT_STATUS.STATE 3, PortSt.train)] (torus State.reset)).dirDown d = true →
    (regs [(PORT_STATUS.STATE 3, PortSt.train)] (torus State.reset)).router.nopathSeen.contains d = true) := by decide +kernel
/-- Port 2 in service with a group in its retry buffer and a NAK run of seven. -/
def linked : State := (torus State.reset).updPort 2 (fun x => { x with gseqRx := 4095, retry := [⟨7, List.replicate 1984 0, [], [packet Cls.req 0x1520]⟩], nakRun := 7, nakSeq := 7 })
/-- A good group of 31 idle-free flits of zeros with an LCF of a TYPE, a GSEQ, an ACKSEQ and words 4 to 6. -/
def aGroup (type seq ack : Nat) (w4 w5 w6 : Nat := 0) : LcfGroup :=
  let w0 : Word := BitVec.ofNat 64 (type * 2 ^ 60 + seq * 2 ^ 48 + ack * 2 ^ 36)
  let l : List Word := [w0, 0, 0, 0, BitVec.ofNat 64 w4, BitVec.ofNat 64 w5, BitVec.ofNat 64 w6, 0]
  ⟨List.replicate 1984 0, ⟨w0, 0, 0, 0, BitVec.ofNat 64 w4, BitVec.ofNat 64 w5, BitVec.ofNat 64 w6, BitVec.ofNat 64 (groupCrc (List.replicate 1984 0) l)⟩, 0, 0⟩
theorem lcf_crc (l : List Byte) (ws : List Word) : bitsOf (BitVec.ofNat 64 (groupCrc l ws)).toNat 31 0 = groupCrc l ws := by
  have h : groupCrc l ws < 2 ^ 32 := (crc32 _).isLt
  simp only [bitsOf, BitVec.toNat_ofNat]
  omega
theorem test_group_good (type seq ack w4 w5 w6 : Nat) : groupGood (aGroup type seq ack w4 w5 w6) = true := by
  have h := lcf_crc (List.replicate 1984 0) [BitVec.ofNat 64 (type * 2 ^ 60 + seq * 2 ^ 48 + ack * 2 ^ 36), 0, 0, 0, BitVec.ofNat 64 w4,
    BitVec.ofNat 64 w5, BitVec.ofNat 64 w6, 0]
  simp only [groupGood, aGroup, h, List.length_replicate, lcfWords]
  simp only [groupCrc, List.take, groupBytes, beq_self_eq_true, Bool.and_self]
theorem test_group_bad : groupGood { aGroup 0 4095 6 with uncorrectable := 1 } = false := by
  simp only [groupGood, aGroup, List.length_replicate]
  decide
theorem test_link_hyps : linked.inService 2 = true ∧ (linked.port 2).nakSent = false ∧ lcfGseq (aGroup 0 4095 6).lcf = (linked.port 2).gseqRx ∧
    lcfType (aGroup 1 4095 6).lcf = 1 ∧ lcfType (aGroup 3 4095 7).lcf = 3 ∧ lcfAck (aGroup 3 4095 7).lcf = 7 ∧ (linked.port 2).retry ≠ [] ∧
    (((linked.takeAck 2 7).port 2).nakRun ≠ 0 ∧ ((linked.takeAck 2 6).port 2).nakSeq = 7) ∧ (linked.port 2).nakRun + 1 = 8 ∧
    (linked.port 2).ackAt + 9400 ≤ ({ linked with clk := 9400 } : State).clk := by decide +kernel
theorem test_group_sequence : ((after (.lcfGroupRx 2 (aGroup 0 4095 6)) linked).port 2).gseqRx = 0 := by
  simp only [after, exec, execLcfGroupRx, State.takeGroup, test_group_good]
  decide +kernel
/-- A failover HELLO of port 2 names the failed partner, port 8. -/
theorem test_failover_lcf : (let g := aGroup 2 4095 6 (2 ^ 22 + 8 * 2 ^ 18) 0 (9 * 2 ^ 52); (lcfType g.lcf, bitsOf g.lcf.w4.toNat 22 22,
    bitsOf g.lcf.w4.toNat 21 18, bitsOf g.lcf.w4.toNat 21 18 % 6 == opposite (3 % 6))) = (2, 1, 8, true) := by decide +kernel
theorem test_failover_hyps : (regs [(PORT_STATUS.STATE (partner 2), PortSt.failed)] linked).portState (partner 2) = PortSt.failed ∧
    ((regs [(PORT_STATUS.STATE (partner 2), PortSt.failed)] linked).port (partner 2)).vcq = [] ∧
    (regs [(PORT_STATUS.STATE (partner 2), PortSt.failed)] linked).inService 2 = true := by decide +kernel

/-- The torus with this chip as root and member of GROUP 0 for job 0x31, with a child below port 6, and context 0 of that job in RUN in a step. -/
def joined : State :=
  ((torus (regs [(CTX_JOB.JOB 0, 0x31)] (running 0))).updCtx 0 (fun x => { x with step := some { lap := 5, epoch := 0 } })).updRouter (fun r => { r with
    mgroups := [(0, BitVec.ofNat 64 (2 ^ 63 + 2 ^ 62 + 2 ^ 56 + 0x31 * 2 ^ 34 + 2 * 2 ^ 19 + 2 ^ 18)), (2, BitVec.ofNat 64 (1 * 2 ^ 32))] })
theorem test_joined : joined.mgValid 0 0x31 = true ∧ joined.mgRoot 0 = true ∧ joined.mgLocal 0 = true ∧ joined.mgMembers 0 = 2 ∧
    joined.ctxOfJob 0x31 = some 0 ∧ joined.carries 6 Cls.ctl = true := by decide +kernel
theorem test_heartbeat_hyps : linked.silenced = false ∧ linked.fenced (linked.neighbour 2) = false ∧ linked.bit (PORT_STATUS.HBLOST 2) = false ∧ (linked.nextSeq Cls.ctl).1 = 0 ∧
    (linked.port 2).hbSeen + linked.rd FAB_CFG.HB_MISS * linked.rd FAB_CFG.HB_SLOTS * 64 ≤ (atCt 1 0 linked).ct ∧
    linked.bit (PORT_STATUS.AUDIT 2) = false ∧ hbEpoch (heartbeatOf linked 2) = linked.rd CFG_EPOCH.EPOCH ∧
    hbDigest (heartbeatOf linked 2) = linked.rd CFG_DIGEST.VALUE := by decide +kernel
theorem test_ctl_data_hyps : pkClass (packet Cls.ctl 0x1521 4) = Cls.ctl ∧ pkOpc (packet Cls.ctl 0x1521 4) = 4 ∧ isPoisonNotice (packet Cls.ctl 0x1521 4) = false := by
  decide +kernel
def fencePacket (e : Nat) : Packet := mkPacket { cls := Cls.ctl, mode := 1, src := 0x1942, job := 0x31, opc := 3 } (leBytes 4 e ++ leBytes 12 0)
theorem test_fence_hyps : ecrcGood (fencePacket 1) = true ∧ leNat (((fencePacket 1).payload.drop 4).take 4) = 0 ∧ leNat ((fencePacket 1).payload.take 4) = 1 ∧
    leNat ((fencePacket (2 ^ 31 - 1)).payload.take 4) = 2 ^ 31 - 1 ∧ joined.rd FAB_FENCE_EPOCH.EPOCH = 0 ∧
    joined.mgValid (pkMgroup (fencePacket 1)) (pkJob (fencePacket 1)) = true := by decide +kernel
theorem test_mgroup_entry : mgEntryOk (2 ^ 63 + 2 ^ 62 + 2 ^ 56 + 0x31 * 2 ^ 34 + 2 * 2 ^ 19 + 2 ^ 18) (fun p => if p = 6 then 1 else 0) = true ∧
    mgEntryOk (2 ^ 63 + 2 ^ 62 + 2 ^ 56 + 0x31 * 2 ^ 34 + 3 * 2 ^ 19 + 2 ^ 18) (fun p => if p = 6 then 1 else 0) = false ∧
    mgEntryOk (2 ^ 56 + 2 ^ 50 + 2 * 2 ^ 19) (fun p => if p % 6 = 0 then 1 else 0) = false := by decide +kernel
theorem test_fab_cfg_hyps : (∀ n : Fin 12, State.reset.inService n = false ∧ State.reset.portState n ≠ PortSt.held) ∧ linked.inService 2 = true ∧
    coordOf (fieldOf (State.reset.reg FAB_CFG.XS_M1.off) FAB_CFG.CHIPID) 0 ≤ fieldOf (State.reset.reg FAB_CFG.XS_M1.off) FAB_CFG.XS_M1 := by decide +kernel
theorem test_rs_cfg_hyps : (∀ i : Fin 512, (State.reset.rsEntry i).st = 0) ∧ fieldOf 256 RS_CFG.RT_ENTRIES ≤ 256 ∧ ((admitted 1).rsEntry 3).st ≠ 0 := by decide +kernel

/-! ## Remote memory and collectives at their target -/

def aReq : Request := ⟨mkPacket { cls := Cls.req, dest := 0x1521, src := 0x1942, job := 0x31, opc := 0x32 } (leBytes 8 0xBA000 ++ leBytes 8 1), none, none, false, 0, true, none⟩
def targeted : State := (List.range 12).foldl (fun s m => regs [(MEM_STATUS.STATE m, MemSt.run)] s) { torus remote with requests := [aReq] }
theorem test_req_hyps : pkClass aReq.pkt = Cls.req ∧ targeted.requests[0]? = some aReq ∧ targeted.reqHeld aReq.pkt = false ∧
    (targeted.requests.take 0).any (fun x => reqAddr x.pkt / 64 == reqAddr aReq.pkt / 64) = false ∧ targeted.reqMustWait aReq = false := by decide +kernel
def outstanding : State := { atCt 5 0 remote with remotes := [⟨3, 0, 0, 0x1000000, 0x32, 10, false, 0x1942, 0, 5 * 2 ^ 20 - remote.rd (RMEM_CTL.TIMEOUT 0)⟩] }
theorem test_remote_timeout_hyps : (outstanding.remotes.find? (fun x => x.seq == 3)).map (fun r => decide (r.ct + outstanding.rd (RMEM_CTL.TIMEOUT (outstanding.ctxOf r.stream)) ≤ outstanding.ct)) =
    some true := by decide +kernel
theorem test_rmem_ctl_hyps : fieldOf (BitVec.ofNat 64 (2 ^ 32)) (RMEM_CTL.TIMEOUT 0) ≠ 0 ∧ bitsOf (BitVec.ofNat 64 (2 ^ 32) : Word).toNat 31 8 = 0 ∧
    fieldOf 1 (RMEM_CTL.TIMEOUT 0) = 0 := by decide +kernel

/-- Relay operations on this chip itself: mode 0 to chip 0 of a piste that maps it here. -/
def posted (d : List Word) (fired : Bool) : State := joined.setRelay 0 { posted := [{ desc := d, pc := 0x1000000, fired := fired }] }
def od (l : List Nat) : List Word := l.map (fun n => BitVec.ofNat 64 n)
theorem test_trigger_hyps : (posted (od putWords) false).ctxState 0 = CtxSt.run ∧ ((posted (od putWords) false).relay 0).posted.all (fun o =>
      (posted (od putWords) false).chunkReady 0 o.desc) = true ∧ reaches ((joined.setCc 0 1 1).cc 0 (odTcc (od putWords))) (odThresh (od putWords)) = true := by decide +kernel
/-- PUT; RPUT whose source the context does not own, and to an entry here; GATHER of one piece; SCATTER of a return. -/
def rputWords (mode src : Nat) : List Nat := [2 * 2 ^ 60 + mode * 2 ^ 57, 16, 2 ^ 60 + src, 0, 0x910 * 2 ^ 32, 0, 0, 0]
def gatherWords : List Nat := [3 * 2 ^ 60 + 2 * 2 ^ 57, 0, 0, 0, 0, 2 ^ 60 + 0x1002000, 1 * 2 ^ 48, 0]
def scatterWords : List Nat := [4 * 2 ^ 60 + 2 ^ 59, 16, 2 ^ 60 + 0x1004000, 0, 0, 2 ^ 60 + 0x1002000, 1 * 2 ^ 48 + 16, 0]
def gathering : State := (posted (od gatherWords) true).setRink 0x1002000 (words [2 ^ 60 + 0x1004000, 16])
theorem test_put_hyps : ((posted (od putWords) true).relayTake 0 1).running 0 1 = some (0, { desc := od putWords, pc := 0x1000000, fired := true }) ∧
    ((posted (od putWords) true).relayTake 0 1).relaySource 0 (od putWords) true = .inr (List.replicate 16 0, false, 0) := by decide +kernel
theorem test_rput_hyps : (((posted (od (rputWords 0 0)) true).relayTake 0 2).running 0 2).isSome = true ∧
    ((posted (od (rputWords 0 0)) true).relayTake 0 2).relaySource 0 (od (rputWords 0 0)) true = .inl F_ISA_OWN ∧
    ((posted (od (rputWords 2 0x1004000)) true).relayTake 0 2).relaySource 0 (od (rputWords 2 0x1004000)) true = .inr (List.replicate 16 0, false, 0) ∧
    (odDest (od (rputWords 2 0x1004000))).mode = 2 ∧
    (((posted (od (rputWords 2 0x1004000)) true).updCol (fun x => { x with entries := [(3, { st := 1, colid := 0x910, bytes := 16 })] })).contribution 0 0x910 0 0 16).isRight = true := by
  decide +kernel
theorem test_gather_hyps : ((gathering.relayTake 0 3).running 0 3).isSome = true ∧ (gathering.relayTake 0 3).pieces (od gatherWords) = [(2 ^ 60 + 0x1004000, 16)] ∧
    ((gathering.relayTake 0 3).pieces (od gatherWords)).all pieceOk = true ∧ (gathering.relayTake 0 3).rinkOwned 0 (offOf (odList (od gatherWords))) 16 = true ∧
    (gathering.relayTake 0 3).rinkOwned 0 (offOf (2 ^ 60 + 0x1004000)) 16 = true := by decide +kernel
theorem test_scatter_hyps : (((posted (od scatterWords) true).relayTake 0 4).running 0 4).isSome = true ∧ 0 < odCount (od scatterWords) ∧ odRetc (od scatterWords) = true ∧
    ((posted (od scatterWords) true).relayTake 0 4).scatterOwned 0 (od scatterWords) = true := by decide +kernel
def ending : State := joined.setRelay 0 { run := some { desc := od putWords, pc := 0, fired := true, next := 16 } }
theorem test_op_end_hyps : ending.relayOwner 0 = some 0 ∧ ending.relayMade 0 { desc := od putWords, pc := 0, fired := true, next := 16 } = true ∧ ending.col.combine = [] ∧
    odFree (od putWords) = false := by decide +kernel

/-- An admission of three chunks (R307's descriptor) at the head of its queue. -/
def admitting : State := joined.setAdmits 0 [⟨3, 0x910, od [0x001E0CE002000000, 0x1F41F21F22118000 &&& (2 ^ 64 - 1 - 2 ^ 15), 0, 0], 0x1000000, 40, 2 ^ 60 + 0x1000200⟩]
theorem test_admit_hyps : admitting.ctxExists 0 = true ∧ 3 ≤ (admitting.freeEntries 0).length ∧ (admitting.admits 0).length = 1 ∧
    (admitting.admits 0).all (fun r => odF r.desc 1 15 15 == 0) = true := by decide +kernel
/-- Two chunks of one 16-byte unit each are ADMITTED in the two lowest free entries (R299 to R302). -/
theorem test_admit_entries : (let s := joined.setAdmits 0 [⟨2, 0x910, od [2 ^ 27 + 2 ^ 16, 0, 0, 0], 0x1000000, 40, 2 ^ 60 + 0x1000200⟩]; let t := after (.rsAdmitGrant 0) s
    ((s.freeEntries 0).take 2).map (fun i => ((t.rsEntry i).st, (t.rsEntry i).chunk, (t.rsEntry i).bytes))) = [(1, 0, 16), (1, 1, 16)] := by decide +kernel
/-- A contribution of four FP32 ones from member 1 of 2 to a chunk of sums. -/
def one4 : List Byte := (List.range 4).flatMap (fun _ => leBytes 4 0x3F800000)
def combining (colid : Nat) : State := joined.updCol (fun x => { x with
  entries := [(3, { st := 1, colid := 0x910, bytes := 16, expectM1 := 1 })], combine := [⟨0, colid, 0, 1, false, 0x1942, 7, 0, one4, none, none, false, 0⟩] })
theorem test_combine_hyps : (combining 0x910).chunkEntry 0 0x910 0 = some 3 ∧ (combining 0x911).chunkEntry 0 0x911 0 = none ∧
    ((combining 0x910).rsEntry 3).expectM1 + 1 = 2 := by decide +kernel
theorem test_combine_counts : ((after (.rsCombineDone []) (combining 0x910)).rsEntry 3).st = 2 ∧ (after (.rsCombineDone []) (combining 0x910)).cc 0 7 = 1 ∧
    (after (.rsCombineDone []) (combining 0x910)).rsBytes 3 12 4 = leBytes 4 0x3F800000 := by decide +kernel
def colPacket (opc : Nat) (l : List Byte) : Packet := mkPacket { cls := Cls.col, dest := 0x1521, src := 0x1942, job := 0x31, opc := opc } (leBytes 8 (0x910 * 2 ^ 32) ++ leBytes 8 0 ++ l)
theorem test_col_packet_hyps : pkClass (colPacket 1 one4) = Cls.col ∧ pkOpc (colPacket 2 one4) = 2 ∧ (combining 0).colCheck (colPacket 2 one4) = .inl 0 ∧
    ((combining 0).contribution 0 0x910 0 0 ((colPacket 2 one4).payload.drop 16).length).isRight = true := by decide +kernel
theorem test_poison_hyps : isPoisonNotice (mkPacket { cls := Cls.ctl, mode := 1, src := 0x1942, job := 0x31, opc := 4 } (leBytes 8 (2 ^ 48) ++ leBytes 8 0)) = true ∧
    joined.cancelled 0 0 = false ∧ joined.epoch 0 = some 0 := by decide +kernel

/-! ## Contexts, jobs, snapshot -/

/-- Context 0 may be created: the chip is READY and its locks are set, job 0x31 is named, and a piste map in static space names this chip. -/
def creatable : State :=
  (torus (regs [(CTX_JOB.JOB 0, 0x31), (PWR_STATUS.READY, 1), (LKR_CTL.LOCK, 1), (RINK_CFG.LOCK, 1), (RINK_CFG.FWRES, 8), (CTX_PISTE.PMAP 0, 0x1000000),
    (CTX_SAVE.BASE, 100)])).setRink 0x1000000 (leBytes 2 (2 ^ 15 + 0x1521))
theorem test_create_hyps : (commanded creatable 0 0).ctxState 0 = CtxSt.none ∧ (commanded creatable 0 0).mayManage = true ∧ (commanded creatable 0 0).createOk 0 = true ∧
    (commanded State.reset 0 0).createOk 0 = false ∧ (commanded State.reset 1 0).createOk 1 = false ∧ (commanded (running 0) 0 0).ctxState 0 ≠ CtxSt.none := by
  decide +kernel
theorem test_command_hyps : (commanded (running 0) 0 0).ctxState 0 = CtxSt.run ∧ (commanded (running 0) 0 0).ctxBusy 0 = true ∧
    (commanded (context 1 CtxSt.halted) 1 0).ctxBusy 1 = false ∧ (commanded (context 1 CtxSt.torn) 1 0).ctxState 1 = CtxSt.torn ∧
    (commanded (context 1 CtxSt.halted) 1 0).ctxState 1 = CtxSt.halted := by decide +kernel
/-- The earliest lap of a return: lap 5 runs, and the edge of lap 7 is a whole lap ahead (R336). -/
def resuming (lap : Nat) : State := commanded (atCt 5 0 (context 0 CtxSt.saved)) 0 (BitVec.ofNat 64 (lap * 2 ^ (CTX_CMD.LAP 0).lo))
theorem test_resume_hyps : (resuming 7).ctxState 0 = CtxSt.saved ∧ (resuming 7).lapNo + 2 ≤ (resuming 7).rd (CTX_CMD.LAP 0) ∧ ((resuming 7).ctx 0).needRetain = false ∧
    ¬ ((resuming 6).lapNo + 2 ≤ (resuming 6).rd (CTX_CMD.LAP 0)) := by decide +kernel
theorem test_destroy_torn : (after (.destroy 1 0) (context 1 CtxSt.torn)).ctxState 1 = CtxSt.none := by decide +kernel
theorem test_save_hyps : (context 0 CtxSt.saving).ctxState 0 = CtxSt.saving ∧ (context 0 CtxSt.saving).settled = true ∧
    (((context 0 CtxSt.saved).updCtx 0 (fun x => { x with resumeLap := some 7 })).ctx 0).resumeLap ≠ none ∧ ((context 0 CtxSt.saved).ctx 0).readBack = false ∧
    State.reset.bothNone = true ∧ (context 1 CtxSt.torn).bothNone = false ∧ (context 1 CtxSt.halted).ctxOpen 1 = true ∧ (running 0).ctxOpen 0 = false ∧
    (running 0).ctxStarting 0 = false := by decide +kernel
/-- DELIVER and COMMIT packets, and a leader whose group has one member. -/
def jobPacket (opc : Nat) (w1 : Nat) : Packet := mkPacket { cls := Cls.ctl, mode := 1, src := 0x1942, job := 0x31, opc := opc } (leBytes 8 (0x31 * 2 ^ 48 + 0x1A2C) ++ leBytes 8 w1)
def member (st : Nat) : State := atCt 5 0 (regs [(CTX_JOB.JOB 0, 0x31), (CTX_JOB.SEPOCH 0, 0x1A2C), (CTX_JDIG.DIGEST 0, 77)] (context 0 st))
theorem test_deliver_hyps : pkOpc (jobPacket 0x10 77) = 0x10 ∧ pkClass (jobPacket 0x10 77) = Cls.ctl ∧ (member CtxSt.prepared).ctxState 0 = CtxSt.prepared ∧
    payWord (jobPacket 0x10 77) 0 % 2 ^ 32 = (member CtxSt.prepared).rd (CTX_JOB.SEPOCH 0) ∧ payWord (jobPacket 0x10 77) 1 = (member CtxSt.prepared).rd (CTX_JDIG.DIGEST 0) := by
  decide +kernel
theorem test_commit_hyps : pkOpc (jobPacket 0x11 0) = 0x11 ∧ (member CtxSt.delivered).ctxState 0 = CtxSt.delivered ∧
    (member CtxSt.delivered).lapNo < payWord (jobPacket 0x11 (6 * 2 ^ 20)) 1 / 2 ^ 20 ∧ payWord (jobPacket 0x11 (5 * 2 ^ 20)) 1 / 2 ^ 20 ≤ (member CtxSt.delivered).lapNo := by
  decide +kernel
def leading : State := regs [(CTX_STATE.STATE 0, CtxSt.prepared), (JOB_LEADT.START_LAP, 2)] joined
theorem test_lead_hyps : (leading.applySetting 0x030200 (BitVec.ofNat 64 (2 * 2 ^ JOB_LEAD.MEMBERS.lo))).rd JOB_LEAD.MEMBERS = 2 ∧ leading.mgMembers 0 = 2 ∧ leading.lapNo + 2 ≤ leading.rd JOB_LEADT.START_LAP ∧
    leading.rd JOB_LSTAT.PHASE = 0 ∧ leading.ctxState 0 = CtxSt.prepared ∧ joined.ctxState 0 ≠ CtxSt.prepared := by decide +kernel
def led : State := (leading.wr JOB_LSTAT.PHASE LeadPh.deliver).setCc 0 9 2
theorem test_lead_phase_hyps : (led.cc 0 9 + 2 ^ 32 - 0) % 2 ^ 32 = 2 ∧ led.cc 0 8 = 0 ∧ led.rd JOB_LSTAT.PHASE = LeadPh.deliver ∧ (led.cc 0 8 + 2 ^ 32 - 0) % 2 ^ 32 ≠ 2 := by
  decide +kernel

/-- Region 0 of the general context protects 2 MiB at LPDDR 4 MiB; the snapshot area lies at 1 GiB. -/
def protected_ (pages : Nat) : State :=
  (regs [(SNP_AREA.SIZE, 1), (SNP_AREA.BASE, 1), (SNP_REG.VALID 0 0, 1), (SNP_REG.SIZE 0 0, 1), (SNP_REG.BASE 0 0, 2)] (running 0)).updSnap 0 (fun x => { x with pageDef := pages })
theorem test_sweep_hyps : (protected_ 1).ctxLive 0 = true ∧ ((protected_ 1).snap 0).copyBack = false ∧
    (protected_ 1).firstPage 0 (fun p => (protected_ 1).page 0 p == PageSt.pending) = some 1024 ∧ (protected_ 1).imageOffset 0 1024 = some 0 ∧
    (protected_ 1).imageOffset 0 1535 = some 0x1FF000 ∧ (protected_ 1).isProtected 0 1536 = false := by decide +kernel
def preserving : State := (protected_ 1).updSnap 0 (fun x => { x with held := [⟨0, none, 0x5FFFF8, [1]⟩] })
theorem test_preserve_hyps : preserving.isProtected 0 1535 = true ∧ preserving.page 0 1535 = PageSt.pending ∧ preserving.waitsOn 1535 = true := by decide +kernel
theorem test_rollback_hyps : (((protected_ 2).updSnap 0 (fun x => { x with copyBack := true })).snap 0).copyBack = true ∧ ((protected_ 2).snap 0).copyBack = false := by decide +kernel
theorem test_ckpt_hyps : ((protected_ 0).wr (SNP_CKPT.LAP 0) 7).rd (drainFld 0) = DrainSt.idle ∧ ((protected_ 0).wr (SNP_CKPT.LAP 0) 7).validRegions 0 ≠ [] ∧
    (((protected_ 0).wr (drainFld 0) DrainSt.copying).wr (SNP_CKPT.LAP 0) 7).rd (drainFld 0) ≠ DrainSt.idle ∧
    ((protected_ 0).wr (drainFld 0) DrainSt.copying).nextDrain 0 = some 1024 ∧ (State.reset.wr (drainFld 0) DrainSt.copying).nextDrain 0 = none := by decide +kernel

/-- A restore of context 0, HALTED, with an empty list whose one entry is empty. -/
def restoring (st : Nat) : State := regs [(SNP_RSTSTAT.STATE, st)] (context 0 CtxSt.halted (protected_ 0))
theorem test_restore_hyps : (restoring RstSt.idle).rstCtxOk 0 = true ∧ (running 0).rstCtxOk 0 = false ∧ (restoring RstSt.idle).rstState = RstSt.idle ∧
    (restoring RstSt.checking).rstState = RstSt.checking ∧ (restoring RstSt.idle).rstState ≠ RstSt.feeding ∧ (restoring RstSt.feeding).rstState = RstSt.feeding ∧
    fieldOf 0 SNP_RSTCTL.CTX = (restoring RstSt.feeding).rd SNP_RSTCTL.CTX ∧ (restoring RstSt.committing).rstState = RstSt.committing := by decide +kernel
/-- A manifest of one shard of 32 bytes, whose list entry puts its 16 bytes at offset 16 into region 0. -/
def manifest1 : List Byte := leBytes 8 (2 ^ 63 * 0 + 1) ++ List.replicate 56 0 ++ (leBytes 16 0 ++ leBytes 8 32 ++ List.replicate 40 0)
def entry1 : List Nat := [0, 16, 16, 2 ^ 21 - 16]
theorem test_list_hyps : (restoring RstSt.checking).listOk 0 [manifest1] [entry1] = true ∧ (restoring RstSt.checking).listOk 0 [manifest1] [[0, 16, 16, 2 ^ 21]] = false ∧
    (restoring RstSt.checking).listOk 0 [manifest1] [entry1, entry1] = false := by decide +kernel
def feeding1 : State := { regs [(SNP_RSTFEED0.LEN, 1), (SNP_RSTFEED0.ADDR, 0x1000000)] (restoring RstSt.feeding) with restore := ⟨0, 0, [manifest1], [entry1], [], []⟩ }
theorem test_feed_hyps : feeding1.restore.mans[0]? = some manifest1 ∧ (0 : Nat) < manShards manifest1 ∧ feeding1.restore.closed.contains (0, 0) = false ∧
    feeding1.restore.fedOf (0, 0) = [] ∧ feeding1.restore.fed = [] ∧ 16 * feeding1.rd SNP_RSTFEED0.LEN < hdrLen (manHeader manifest1 0) ∧
    feeding1.rd SNP_RSTFEED0.ADDR % 16 = 0 ∧ feeding1.restore.entries.any (fun e => ! feeding1.restore.closed.contains (entMidx e, entSidx e)) = true ∧
    [entry1].all (fun e => [((0 : Nat), (0 : Nat))].contains (entMidx e, entSidx e)) = true := by decide +kernel

/-! ## The host -/

theorem test_host_port_hyps : (State.reset.writeHpCtl 0 1 true).hostState 0 = HpSt.down ∧ (State.reset.writeHpCtl 1 0 false).hostState 1 ≠ HpSt.discarded ∧
    (regs [(HP_STATUS.STATE 0, HpSt.train)]).hostState 0 = HpSt.train ∧ State.reset.discarded = false ∧ State.reset.released = false ∧
    (State.reset.updSec (fun x => { x with verdict := 1 })).released = true ∧ (regs [(HP_STATUS.STATE 0, HpSt.up)]).hostState 0 = HpSt.up := by decide +kernel
/-- Host port 0 is UP at 192.0.2.1 and 2001:db8::1. -/
def hosted : State := regs [(HP_STATUS.STATE 0, HpSt.up), (HP_IPV4.VALID 0, 1), (HP_IPV4.ADDR 0, 0xC0000201), (HP_IPV6_HI.ADDR 0, 0x20010DB800000000), (HP_IPV6_LO.ADDR 0, 1)]
theorem test_arp_hyps : hosted.hostLinked 0 = true ∧ hosted.bit (HP_IPV4.VALID 0) = true ∧ (0xC0000201 : BitVec 32).toNat = hosted.rd (HP_IPV4.ADDR 0) ∧
    (0xC0000202 : BitVec 32).toNat ≠ hosted.rd (HP_IPV4.ADDR 0) ∧ hosted.rd (HP_IPV6_LO.ADDR 0) ≠ 0 ∧
    (0x20010DB800000000 : Word).toNat = hosted.rd (HP_IPV6_HI.ADDR 0) := by decide +kernel
/-- An Ethernet frame to a port whose HP_MAC is 0 (its reset value). -/
def ether (type : Nat) (body : List Byte) : Frame := ⟨List.replicate 6 0 ++ beBytes 6 2 ++ beBytes 2 type ++ body, 3⟩
/-- An ARP request of 192.0.2.9 for an IPv4 address. -/
def arpFrame (ip : Nat) : Frame :=
  ether 0x0806 (beBytes 8 0x0001080006040001 ++ beBytes 6 2 ++ beBytes 4 0xC0000209 ++ List.replicate 6 0 ++ beBytes 4 ip ++ List.replicate 18 0)
/-- A neighbour solicitation of 2001:db8::9 for an IPv6 address. -/
def nsFrame (ip : Nat) : Frame :=
  let far := 0x20010DB8000000000000000000000009
  let m (ck : Nat) := beBytes 4 (135 * 2 ^ 24 + ck) ++ beBytes 4 0 ++ beBytes 16 ip ++ beBytes 8 0x0101000000000002
  ether 0x86DD (ipv6Header far ip 32 58 255 ++ m (icmpSum far ip (m 0)))
theorem test_arp_frame : (framed hosted 0 (arpFrame 1)).bit (HP_IPV4.VALID 0) = true ∧ (framed hosted 0 (arpFrame 1)).rd (HP_COUNT.FEC_CORR 0) = 3 ∧
    ((framed hosted 0 (arpFrame 1)).etherOf 0 (arpFrame 0xC0000201)).bind (fun e => arpOf e.1 e.2) = some ⟨0xC0000201, 2, 0xC0000209⟩ ∧
    ((framed hosted 0 (arpFrame 1)).etherOf 0 (nsFrame 1)).bind (fun e => arpOf e.1 e.2) = none ∧
    ((framed hosted 0 (arpFrame 1)).etherOf 0 (arpFrame 1)).bind (fun e => solicitationOf e.1 e.2) = none ∧
    ((framed hosted 0 (nsFrame 1)).etherOf 0 (nsFrame 0x20010DB8000000000000000000000001)).bind (fun e => solicitationOf e.1 e.2) =
      some ⟨0x20010DB8000000000000000000000001, 0x20010DB8000000000000000000000009⟩ ∧
    (framed hosted 0 (nsFrame 1)).ipv6 0 = 0x20010DB8000000000000000000000001 := by decide +kernel
/-- The answer is an Ethernet frame of TYPE 0x0806, padded to 60 bytes (R361). -/
theorem test_arp_answer : ((after (.arpRx 0 (arpFrame 0xC0000201)) hosted).out.head?.map (fun o => match o with
    | .frame 0 l => ((l.drop 12).take 4, l.length)
    | _ => ([], 0))) = some ([0x08, 0x06, 0, 1], 60) := by decide +kernel

/-- WCP datagrams of session 15 without a body but the tag; an INIT of the length it must have. -/
def frame (type : Nat) (n : Nat) (seq cum : Nat) : Dgram := ⟨false, 0xC0000209, 5000, 51730, leBytes 1 1 ++ leBytes 1 type ++ leBytes 1 15 ++ [0] ++
  leBytes 4 seq ++ leBytes 4 cum ++ leBytes 8 0 ++ leBytes 4 n ++ List.replicate (n + if type = 1 then 0 else 16) 0⟩
theorem test_frame_hyps : frGood (frame 0x12 0 0 0) 0x12 = true ∧ frGood (frame 0x12 0 0 1) 0x12 = false ∧ frGood (frame 0x10 32 (2 ^ 32 - 1) 0) 0x10 = true ∧
    frGood (frame 0x11 0 0 5) 0x11 = true ∧ frGood (frame 3 0 0 0) 3 = true ∧ frSess (frame 3 0 0 0) = 15 ∧ State.reset.sec.closed = false ∧
    frSeq (frame 0x10 32 (2 ^ 32 - 1) 0) = 2 ^ 32 - 1 := by decide +kernel
theorem test_init_length : (frBody (frame 1 initLen 0 0)).length = initLen ∧ frGood (frame 1 initLen 0 0) 1 = true := by
  constructor <;> decide +kernel
/-- The frame that brings such a datagram to a port of address 192.0.2.1. -/
def wcpFrame (d : Dgram) : Frame := ether 0x0800 (ipPacket d.addr ⟨false, 0xC0000201, d.near, d.far, d.data⟩)
theorem test_wcp_on : WcpOn hosted 0 (wcpFrame (frame 0x12 0 0 0)) (framed hosted 0 (wcpFrame (frame 0x12 0 0 0))) (frame 0x12 0 0 0) ∧
    WcpOn hosted 0 (wcpFrame (frame 3 0 0 0)) (framed hosted 0 (wcpFrame (frame 3 0 0 0))) (frame 3 0 0 0) ∧
    WcpOn hosted 0 (wcpFrame (frame 0x11 0 0 5)) (framed hosted 0 (wcpFrame (frame 0x11 0 0 5))) (frame 0x11 0 0 5) ∧
    WcpOn hosted 0 (wcpFrame (frame 0x10 32 7 0)) (framed hosted 0 (wcpFrame (frame 0x10 32 7 0))) (frame 0x10 32 7 0) ∧
    Up hosted ∧ (framed (regs [(WCP_SESS.STATE 15, SessSt.respSent)] hosted) 0 (arpFrame 1)).sessState 15 = SessSt.respSent := by decide +kernel
theorem test_wcp_init : (framed hosted 0 (wcpFrame (frame 1 initLen 0 0))).dgramOf 0 (wcpFrame (frame 1 initLen 0 0)) = some (frame 1 initLen 0 0) := by
  decide +kernel
theorem test_init_hyps : hosted.sessState 15 = SessSt.free ∧ (regs [(WCP_SESS.STATE 15, SessSt.respSent)] hosted).sessState 15 ≠ SessSt.free ∧
    (hosted.credOf 1).isNone = true ∧ (hosted.credOf 0).isSome = true ∧ hosted.mayManage = true ∧ (hosted.handshakeSeeds 0).isSome = true := by decide +kernel
/-- Session 15 opened, its latest frame at clk 0, with an ACK due and a capsule not acknowledged. -/
def opened (st : Nat) (clk : Nat) : State := { (regs [(WCP_SESS.STATE 15, st)] hosted).updSess 15 (fun y => { y with
  idle := 1, rto := 100, retryMax := 3, periods := 1, ackDue := true, unacked := [⟨1, [7], none⟩] }) with clk := clk }
theorem test_session_hyps : (opened SessSt.respSent (5 * clkPerMs)).sessState 15 = SessSt.respSent ∧ (opened SessSt.opened clkPerMs).sessState 15 = SessSt.opened ∧
    ((opened SessSt.respSent 0).sess 15).since + 5 * clkPerMs ≤ (opened SessSt.respSent (5 * clkPerMs)).clk ∧
    ((opened SessSt.opened 0).sess 15).since + ((opened SessSt.opened 0).sess 15).idle * clkPerMs ≤ (opened SessSt.opened clkPerMs).clk ∧
    ((opened SessSt.opened 0).sess 15).unacked ≠ [] ∧ ((opened SessSt.opened 0).sess 15).sentAt + ((opened SessSt.opened 0).sess 15).rto * clkPerUs ≤ (opened SessSt.opened clkPerMs).clk ∧
    ((opened SessSt.opened 0).sess 15).periods + 1 < ((opened SessSt.opened 0).sess 15).retryMax := by decide +kernel
/-- What the credential's check, the tags and the signatures give are free values: of the clauses that turn on them no state is written out. -/
theorem test_last_retry : (let y := (((opened SessSt.opened clkPerMs).updSess 15 (fun y => { y with periods := 2 })).sess 15); y.retryMax ≤ y.periods + 1) := by decide +kernel

/-- A capsule at the head of session 15: kind, words 1 to 3 and payload. -/
def capsule (kind rights w1 w2 : Nat) (payload : List Byte := []) (hold ctx : Nat := 0) (job : Nat := 0x31) : AccCap :=
  ⟨0, rights, 1, leBytes 8 (kind * 2 ^ 56 + ctx * 2 ^ 55 + hold * 2 ^ 54 + job * 2 ^ 32 + payload.length) ++ leBytes 8 w1 ++ leBytes 8 w2 ++ leBytes 8 0x77 ++ payload, none⟩
def heading (c : AccCap) : State := (regs [(CTX_JOB.JOB 0, 0x31)] (running 0)).updSess 15 (fun y => { y with accepted := [c] })
theorem test_capsule_head : (heading (capsule 1 1 0 0)).headCap 15 = some (capsule 1 1 0 0) ∧ (capsule 1 1 0 0).kind = 1 ∧ (capsule 2 1 0 0).kind = 2 ∧
    (capsule 0x10 2 0 0).kind = 0x10 ∧ (capsule 0x30 0 0 0).kind = 0x30 := by decide +kernel
theorem test_mread_hyps : (capsule 1 1 0xFFFFF8 0).outOfRange = false ∧ (capsule 1 1 (2 ^ 24 + 0xFFFFF8) 0).outOfRange = true ∧ (capsule 1 1 4 0).outOfRange = true ∧
    (heading (capsule 1 1 0 0)).mayManage = true ∧ (capsule 1 1 0xFFFFF8 0).regOffsets.all (fun o => ! readWindow o) = true ∧
    (capsule 1 1 0 0).rights.testBit 0 = true ∧ (capsule 1 2 0 0).rights.testBit 0 = false := by decide +kernel
theorem test_mwrite_hyps : ((capsule 2 1 0x220100 0 (leBytes 8 0)).regOffsets.zip (capsule 2 1 0x220100 0 (leBytes 8 0)).values).any (fun p => secBlock p.1) = true ∧
    (capsule 2 1 0x220100 0 (leBytes 8 0)).rights.testBit 4 = false ∧ (capsule 2 1 0x010008 0 (leBytes 8 0)).regOffsets = [0x010008] ∧
    ((capsule 2 1 0x010008 0 (leBytes 8 0)).regOffsets.zip (capsule 2 1 0x010008 0 (leBytes 8 0)).values).all (fun p => (heading (capsule 2 1 0 0)).writeAllowed false p.1 p.2) = true ∧
    0x010008 / 0x10000 ≠ 0x24 ∧ 0x010008 / 0x10000 ≠ 0 := by decide +kernel
def putCap (hold off : Nat) : AccCap := capsule 0x10 2 (2 ^ 60 + off) (9 * 2 ^ 52 + 1) (List.replicate 16 3) hold
theorem test_put_capsule_hyps : (heading (putCap 0 0x1FFFFF0)).putOk (putCap 0 0x1FFFFF0) = true ∧ (heading (putCap 0 0x2000000)).putOk (putCap 0 0x2000000) = false ∧
    (putCap 0 0).hold = false ∧ (putCap 1 0).hold = true ∧ (heading (putCap 0 0x1FFFFF0)).rangeBlocked 1 0x1FFFFF0 16 = false ∧ (putCap 0 0).rights.testBit 1 = true := by decide +kernel
/-- An applied PUT writes its bytes and adds CCADD to its counter (R376). -/
theorem test_put_applies : ((after (.put 15) (heading (putCap 0 0x1FFFFF0))).rinkBytes 0x1FFFFFF 1, (after (.put 15) (heading (putCap 0 0x1FFFFF0))).cc 0 9) = ([3], 1) := by decide +kernel

/-! ## Registers, security, configuration -/

theorem test_access_hyps : [LAP_CTRL.ENABLE, LAP_CTRL.SRC_PRI].all (fun f => decide (f.lo ≤ f.hi ∧ f.hi < 64)) = true ∧ State.reset.domainOn (domainOf 0x010008) = true ∧
    State.reset.dbg = 0 ∧ (regs [(SEC_STATE.DBG, 1)]).dbg ≠ 0 ∧ findRow 0x000010 = none := by decide +kernel
/-- Below D1 an RC field reads 0 and keeps its value; at D1 it reads and clears (R414). -/
theorem test_read_clear : ((regs [(RINK_ECC.CE, 9)]).csRead .management RINK_ECC.CE.off).1.toNat / 2 ^ RINK_ECC.CE.lo % 2 ^ RINK_ECC.CE.width = 0 ∧
    ((regs [(RINK_ECC.CE, 9), (SEC_STATE.DBG, 1)]).csRead .management RINK_ECC.CE.off).1.toNat / 2 ^ RINK_ECC.CE.lo % 2 ^ RINK_ECC.CE.width = 9 ∧
    ((regs [(RINK_ECC.CE, 9), (SEC_STATE.DBG, 1)]).csRead .management RINK_ECC.CE.off).2.rd RINK_ECC.CE = 0 ∧
    ((regs [(RINK_ECC.CE, 9)]).csRead .management RINK_ECC.CE.off).2.rd RINK_ECC.CE = 9 := by decide +kernel
theorem test_security_hyps : State.reset.bit SEC_STATUS.BUSY = false ∧ (State.reset.wr SEC_STATUS.BUSY 1).bit SEC_STATUS.BUSY = true ∧ State.reset.powered = true ∧
    State.reset.dbg = 0 ∧ State.reset.lc < 4 ∧ State.reset.transitionOk 0 = false ∧ State.reset.transitionOk 1 = true ∧ State.reset.needsToken 3 = false ∧
    State.reset.sec.identity = none ∧ State.reset.lc ≠ 2 ∧ (regs [(SEC_STATE.LC, 2)]).lc = 2 ∧ (regs [(SEC_STATE.LC, 1)]).mayAttest = true := by decide +kernel
/-- A token whose first word is 0 is none for any command. -/
theorem test_no_token : (State.reset.tokenSigner 1 1).isNone = true ∧ (State.reset.tokenSigner 3 0).isNone = true := by decide +kernel
theorem test_setting_store_hyps : (State.reset.wr SS_STATUS.BUSY 1).bit SS_STATUS.BUSY = true ∧ State.reset.bit SS_STATUS.BUSY = false ∧ State.reset.runningSlot 0 = false ∧
    (regs [(SEC_BOOT.STATE, 1), (SEC_BOOT.SLOT, 1)]).runningSlot (b01 true) = true ∧ (regs [(SS_STATUS.A_OK, 1)]).bit (slotOkFld (b01 false)) = true ∧
    State.reset.bit (slotOkFld (b01 true)) = false := by decide +kernel
theorem test_census_hyps : bitsOf (joined.mgWord 0 0) 63 63 = 1 ∧ joined.mgRoot 0 = true ∧ joined.selfFenced = false ∧ joined.fenced (joined.neighbour 5) = false ∧
    pkOpc (censusPacket joined 0 7) = 0x12 ∧ pkMode (censusPacket joined 0 7) = 1 ∧ censusCid (censusPacket joined 0 7) = 7 ∧
    ((0 : Nat) + joined.rd CFG_CENSUS.TIMEOUT ≤ (atCt 1000 0 joined).ct) := by decide +kernel

/-! ## Telemetry, debug, power -/

def sampling : State := atCt 5 0 (regs [(TEL_CTL.EN, 1), (SEC_STATE.DBG, 3), (TEL_RING.SIZE, 1), (RINK_CFG.FWRES, 8), (TEL_RING.BASE, 0x7FF000), (PWR_STATUS.STATE, 1), (DBG_SSCTL.ARM, 1)] lapping)
theorem test_sample_hyps : sampling.sampleDue = true ∧ sampling.ringOk = true ∧ State.reset.ringOk = false ∧ (sampling.wr TEL_RING.BASE 0x7FF010).ringOk = false ∧
    fieldOf (2 ^ TEL_CTL.EN.lo : Nat) TEL_CTL.EN = 1 ∧ sampling.bit DBG_SSCTL.ARM = true ∧ sampling.rd DBG_SSCT.TARGET ≤ sampling.ct ∧ sampling.mayScan = true ∧
    sampling.frozen = false ∧ State.reset.mayScan = false := by decide +kernel
theorem test_window_hyps : (sampling.wr DBG_RWSEL.BASE 0x7F8000).windowAllowed 0x24FFF8 = true ∧ (sampling.wr DBG_RWSEL.BASE 0x800000).windowAllowed 0x248000 = false ∧
    (sampling.wr DBG_SSSTAT.WRITING 1).bit DBG_SSSTAT.WRITING = true := by decide +kernel
theorem test_debug_stream_hyps : (regs [(ENG_STATUS.STATE 49, EngSt.brk)] sampling).engState 49 = EngSt.brk ∧ 3 ≤ sampling.dbg ∧ fieldOf (BitVec.ofNat 64 (49 * 2 ^ DBG_STREAM.NUM.lo)) DBG_STREAM.NUM = 49 ∧
    { sampling with frozen := true }.frozen = true := by decide +kernel
/-- IDCODE shifts out 0x19416D6B (R465). -/
theorem test_idcode : (after .idcode State.reset).out.head? = some (.shift "TDO" [0x19416D6B]) := by decide +kernel
/-- VDD_CORE of 750 mV stays within 2 % (R428): 735 and 765 are inside, 734 is outside. -/
theorem test_supply_hyps : State.reset.supplyUsed 5 = true ∧ (State.reset.band 5).1 ≤ 1000 * 735 ∧ 1000 * 765 ≤ (State.reset.band 5).2 ∧ 1000 * 734 < (State.reset.band 5).1 ∧
    State.reset.power.outside.contains 5 = false ∧ hottest [0x1A0, 0x1B0, 0x1B0] 0 = some (1, 0x1B0) ∧ celsius8 0x1B0 < 800 ∧ BitVec.ofNat 16 0x1B0 ≠ 0 := by decide +kernel
theorem test_clock_hyps : State.reset.rd CLK_STATUS.ACTIVE = 0 ∧ (regs [(CLK_STATUS.REF1, 1)]).bit (refFld (1 - 0)) = true ∧ State.reset.bit (refFld 1) = false ∧
    (∀ n : Fin 12, State.reset.portState n = PortSt.down) ∧ State.reset.hostState 1 = HpSt.down := by decide +kernel
theorem test_reset_hyps : State.reset.power.held = true ∧ State.reset.sec.verdict = 0 ∧ (State.reset.updPower (fun p => { p with held := false })).power.held = false := by decide +kernel
theorem test_power_hyps : (regs [(PWR_STATUS.STATE, PwrSt.p0)]).pwrState = PwrSt.p0 ∧ (regs [(PWR_STATUS.STATE, PwrSt.p2prep)]).pwrState = PwrSt.p2prep ∧
    (regs [(PWR_STATUS.STATE, PwrSt.p1)]).pwrState ≠ PwrSt.p2prep ∧ (State.reset.updPower (fun p => { p with inBand := [(0, 0), (1, 0)] })).i3cUp = true ∧
    bmcWrites 0x230000 = true ∧ bmcWrites 0x23FFF8 = true ∧ bmcWrites 0x240000 = false ∧ State.reset.bmcReads 0x000100 = true ∧ State.reset.bmcReads 0x243038 = true ∧
    State.reset.bmcReads 0x243040 = false := by decide +kernel
def retaining : Retention := ⟨[(0x1000000, 5)], [], State.reset.poolRegs, []⟩
def returning : State := (State.reset.wr LKR_CTL.LOCK 1).updCtx 0 (fun x => { x with retained := some retaining, needRetain := true })
theorem test_retention_hyps : (returning.ctx 0).retained = some retaining ∧ (returning.ctx 0).needRetain = true ∧ returning.bit LKR_CTL.LOCK = true ∧
    retaining.pools = returning.poolRegs ∧ retaining.pools ≠ (returning.wr (LKR_POOL.COUNT 5) 1).poolRegs := by decide +kernel
/-- A restored byte is back in the Rink, and the context needs no restore any more (R444, R445). -/
theorem test_retention_back : ((after .retentionRestoreDone returning).rinkBytes 0x1000000 1, ((after .retentionRestoreDone returning).ctx 0).needRetain) = ([5], false) := by decide +kernel

/-! ## The whole machine -/

theorem test_reset_ok : twf resetWord State.reset.regs = true ∧ twf zeroByte State.reset.rink = true ∧ State.reset.pending = [] := by decide +kernel
theorem test_stopped_hyps : { State.reset with stopped := true }.stopped = true ∧ actsWithoutClocks .lapEdge = false ∧ actsWithoutClocks .coldReset = true := by decide +kernel
/-- The command at the front of the queue runs, and the others stay (log entry 1). -/
theorem test_queue : (match step { State.reset with pending := [.idcode, .bypass] } with | .next t => t.pending == [.bypass] && t.out.length == 1 | _ => false) = true := by decide +kernel
/-- One clk before the carry the LAP_EDGE command comes (log entry 9). -/
theorem test_tick_edge : { lapping with lap := { acc := BitVec.ofNat 64 (2 ^ 64 - 1) } }.clkToCarry = some 1 ∧ lapping.clkToCarry ≠ some 1 := by decide +kernel
/-- No row of the table has bits, so no word spells a command. -/
theorem test_table_word : decodeTableWord 8 0 = none := by decide +kernel

/-! ## Clauses of the statements, at the edges of their hypotheses -/

theorem test_precise : Precise (running 0) 0 ∧ Grants (running 0) ∧ (running 0).stopped = false ∧
    (regs [(ENG_PC.PC 0, 0xFFFFF8)] (running 0)).inRinkWindow 0 0xFFFFF8 8 = false ∧ Precise (regs [(ENG_PC.PC 0, 0xFFFFF8)] (running 0)) 0 ∧
    pool.requestFault 0 0x10000000 = [(F_LKR_SIZE, 0)] ∧ (held.checkHandle 0 0).isRight = true := by decide +kernel
/-- A counter that stream 0 has written in this clk, and the ranks of the streams at LCC 0 (R182). -/
theorem test_counter_clk : (((running 0).writeCc 0 0 7 1).ccClk 0 7).2 = some 0 ∧ (running 0).rank 50 49 = 49 ∧ ((running 0).ccClk 0 7).2 = none ∧
    (((running 0).wr LAP_LCC.LCC 7).rank 50 0) = 43 ∧ (after (.st 0 st3) loading).storesInFlight 0 ≠ [] := by decide +kernel
/-- WAIT.CT in lap 0: a course time that has come, and one ahead. -/
theorem test_lap_wait : 5 ≤ (waiting).ct ∧ waiting.ct < 6 ∧ (regs [(ENG_STATUS.STATE 0, EngSt.waitBuf)] waiting).engState 0 = EngSt.waitBuf := by decide +kernel

/-- Every controller in RUN. -/
def allRun (s : State) : State := (List.range 12).foldl (fun s m => regs [(MEM_STATUS.STATE m, MemSt.run)] s) s
/-- Two bits of the block at 0x1000 of LPDDR are wrong, which the code does not correct (R207). -/
def torn : State := { allRun loading with flips := [(64, [3, 4])] }
theorem test_lpddr_ready : LpddrReady (allRun loading) 0x1000 32 ∧ (allRun loading).badCode 2 0x1000 32 = none ∧ torn.badCode 2 0x1000 32 = some F_MEM_UE ∧
    torn.badCode 2 0x1040 32 = none ∧ RemoteFree remote 0 0x2A00000BA000 { opc := 0x32, val := 1, cmp := 0, cc := 0, dst := 10 } := by decide +kernel
/-- The load of that block raises its error when it completes (R209). -/
theorem test_load_error : (((after (.ld 0 (ins [(43, 5), (39, 3), (37, 3)])) torn).findOp 0 0).map (fun o => o.err)) = some (some F_MEM_UE) := by decide +kernel
/-- One wrong bit is corrected: the load gives the bytes and MEM_ECC counts it (R207, R209). -/
theorem test_load_corrected : (let t := after (.ldComplete 0 0 {}) (after (.ld 0 (ins [(43, 5), (39, 3), (37, 3)])) { allRun loading with flips := [(64, [3])] });
    (t.sreg 0 5, (t.ctxState 0 == CtxSt.run))) = (0, true) := by decide +kernel
theorem test_copy_states : (((after (.xmov 0 xm) (allRun loading)).findOp 0 0).map (fun o => (o.err, o.loose))) = some (none, false) ∧
    ((((after (.xmov 0 xm) (allRun loading)).updStream 0 (fun y => { y with ops := y.ops.map (fun o => { o with loose := true }) })).findOp 0 0).map
      (fun o => o.loose)) = some true ∧ (allRun loading).badCode 1 0x1000100 32 = none := by decide +kernel

/-- GMM: the reads of its running entry, of one without rows, of one that is not valid and of one with a fault. -/
def gmmOp : GmmOp :=
  { stream := 0, op := 0, pc := 0x1000000, addr := 2 ^ 60 + 0x1000100, count := 1, entry := 0, cc := 9, ce := 0, desc := gdtWords }
def multiplyingBad : State := { multiplying with rinkErr := [(0x100010, 2)] }
theorem test_gmm_reads : multiplying.servesAll (entryReads multiplying 0 gmmOp) = true ∧ multiplying.badAll (entryReads multiplying 0 gmmOp) = none ∧
    multiplyingBad.badAll (entryReads multiplyingBad 0 gmmOp) = some F_LKR_RINKUE ∧
    (Gdt.mk (gdtWords.set 0 0)).valid = false ∧ (Gdt.mk (gdtWords.set 1 (32 * 2 ^ 48 + 16 * 2 ^ 32))).rows = 0 := by decide +kernel
/-- An instruction of the Relay and the Snapshot Engine whose descriptor cannot be read (R177). -/
theorem test_bad_descriptor : State.rinkBad { relaying with rinkErr := [(0x100010, 2)] } 0x1000100 64 = true ∧ relaying.rinkBad 0x1000100 64 = false ∧
    State.rinkBad { relaying with rinkErr := [(0x100010, 1)] } 0x1000100 64 = false ∧ Precise relaying 40 ∧ snapping.readsYield = false := by decide +kernel
/-- Admission requests of a clk (R300): a later collective and an earlier one, a good and a bad descriptor. -/
def askedFor (id : Nat) (last : Option Nat) (w0 : Nat) : State :=
  (relaying.updCtx 0 (fun x => { x with lastCol := last })).updCol (fun x => { x with
    asked := [⟨3, id, [BitVec.ofNat 64 w0, 0x1F41F21F22118000, 0, 0], 0x1000000, 40, 2 ^ 60 + 0x1000200⟩] })
theorem test_admit_asked : laterCol 0x911 0x910 = true ∧ laterCol 0x910 0x910 = false ∧ adOk [0x001E0CE002000000, 0x1F41F21F22118000, 0, 0] = true ∧
    adOk [0, 0x1F41F21F22118000, 0, 0] = false ∧ (askedFor 0x910 none 0).engState 40 = EngSt.run ∧ ((askedFor 0x910 none 0).admits 0).length < 16 ∧
    (askedFor 0x910 none 0).rinkBad 0x1000200 32 = false ∧
    ((askedFor 0x911 (some 0x910) 0x001E0CE002000000).settleAdmits.admits 0).map (fun r => r.colid) = [0x911] ∧
    (askedFor 0x910 (some 0x910) 0x001E0CE002000000).settleAdmits.rd (ENG_FAULT.CODE 40) = F_COL_ORDER := by decide +kernel

/-! Lap time and the sequencer. -/

/-- The parent's marker of a lap: its course time and fraction (R44). -/
def marker (lap : Nat) : Packet := mkPacket { cls := Cls.ctl, src := 0x1942, job := 0, opc := 2 } (leBytes 8 lap ++ leBytes 8 (lap * 2 ^ 20) ++ leBytes 16 0)
theorem test_marker_hyps : pkClass (marker 7) = Cls.ctl ∧ pkOpc (marker 7) = 2 ∧ leNat ((marker 7).payload.take 8) = 7 ∧ (lapping LapSt.locked).lapNo = 6682 ∧
    (lapping LapSt.acquire).rd LAP_LOOP.PHASE_INC ≠ 0 := by decide +kernel
/-- A Sync of one step and of two, a Follow_Up and a Delay_Resp (IEEE 1588 layouts, log entry on PTP). -/
def ptpMsg (type flags seq : Nat) (who : List Byte) : Dgram :=
  ⟨false, 0xC0000209, 319, 319, leBytes 1 type ++ leBytes 1 2 ++ beBytes 2 54 ++ leBytes 2 0 ++ leBytes 1 flags ++ leBytes 23 0 ++ beBytes 2 seq ++ leBytes 2 0 ++
    beBytes 10 1000 ++ who⟩
theorem test_ptp_hyps : 44 ≤ (ptpMsg 0 2 5 []).data.length ∧ ptpType (ptpMsg 0 2 5 []).data = 0 ∧ ptpTwoStep (ptpMsg 0 2 5 []).data = true ∧
    ptpTwoStep (ptpMsg 0 0 5 []).data = false ∧ ptpType (ptpMsg 8 0 5 []).data = 8 ∧ ptpSeq (ptpMsg 8 0 5 []).data = 5 ∧
    ptpType (ptpMsg 9 0 5 (hosted.ptpIdentity 0)).data = 9 ∧ ((ptpMsg 9 0 5 (hosted.ptpIdentity 0)).data.drop 44).take 10 = hosted.ptpIdentity 0 ∧
    (framed hosted 0 (wcpFrame (ptpMsg 0 2 5 []))).dgramOf 0 (wcpFrame (ptpMsg 0 2 5 [])) = some (ptpMsg 0 2 5 []) := by decide +kernel
theorem test_late_notice : (late.updCtx 0 (fun x => { x with begun := [6701] })).lapOfEpoch 0x1A2C = 6700 ∧ late.ctxOfJob 0x31 = some 0 ∧
    ((late.updCtx 0 (fun x => { x with begun := [6701] })).ctx 0).begun.contains 6701 = true := by decide +kernel
theorem test_instance_states : (regs [(ENG_STATUS.STATE 4, EngSt.fault)] armed).engState 4 = EngSt.fault ∧ (armed.ctx 0).faults = [] ∧ (armed.stream 4).ops = [] := by
  decide +kernel

/-! Gate Engines, the Course, slots. -/

theorem test_gate_more : (gateHead 0 []).sel = [] ∧ ((routing 0).updGate 7 (fun y => { y with ops := [gateHead 0 []] })).gateMay 0 7 (gateHead 0 []) = true ∧
    (taking 1).rinkBad 0 0 = false ∧ (taking 1).intakeShut 7 0 = false ∧ (taking 1).intakeShut 7 1 = true ∧ ((taking 1).ctx 0).step ≠ none := by decide +kernel
theorem test_course_read : (image (2 ^ 48)).rinkBad 0x1000000 courseShares = false ∧ Grants (image 0) := by decide +kernel
theorem test_slot_edges : ((slotted.port 0).slot.any (fun r => r.index == slotted.slotNo)) = false ∧ slotted.stride % 64 = 63 ∧
    slotValid (slotted.servedSlot 6 slotted.slotIdx) = false := by decide +kernel

/-! The Locker and LPDDR. -/

theorem test_quota_clauses : (pool.bit LKR_CTL.LOCK) = true ∧ State.reset.bit LKR_CTL.LOCK = false ∧
    State.reset.poolCount 1 < State.reset.resvSum 1 (fun x => x != 5) + max (State.reset.resvMax 5 1) (fieldOf (BitVec.ofNat 64 (2 ^ (LKR_QUOTA.RESV 5 1).lo)) (LKR_QUOTA.RESV 5 1)) := by
  decide +kernel
/-- One bit of a Rink word in the row that the scrub is at: corrected and counted (R177, R178). -/
theorem test_scrub_corrects : (let t := after (.rinkScrub [⟨0x10, false⟩]) (pool.wr LAP_LCC.LCC 65535); (t.rinkErr, t.rd RINK_ECC.CE, t.scrubLine)) = ([], 1, 1) := by
  decide +kernel
theorem test_mem_event_hyps : (allRun loading).channelOpen 0x1000 = true ∧ (memory MemSt.run).channelOn 0 15 = true ∧ (memory MemSt.run).refreshDue 0 0 = true ∧
    ((atCt 0 61440 (memory MemSt.run)).updMem 0 (fun x => { x with refreshed := [(15, 61441)] })).refreshDue 0 15 = false ∧ (atCt 0 61440 (memory MemSt.run)).stepHolds 0 15 = false ∧
    (((memory MemSt.run).wr (MEM_CTL.RFM_EN 0) 1).updMem 0 (fun x => { x with rfm := some 32, acts := [(5, 32)] })).rfmDue 0 0 5 = true ∧
    (((memory MemSt.run).wr (MEM_CTL.RFM_EN 0) 1).updMem 0 (fun x => { x with rfm := some 32, acts := [(5, 31)] })).rfmDue 0 0 5 = false := by decide +kernel
theorem test_service_wf : (Instr.memRequestServed 0 ⟨0, 124, [⟨64, [0]⟩]⟩).wf = true ∧ channelOf 0 / 16 = 0 ∧
    (0 + 16 * 124 : Nat) ≤ memBytesUsable := by decide +kernel
/-- The step of a pass at the start of its slot, refresh not due (R219). -/
theorem test_step_time : ((retraining.wr LAP_CT.LAP 1).updMem 0 (fun x => { x with refreshed := [(2, 2 ^ 20 + 1)] })).stepTime 0 2 = true ∧
    ((retraining.wr LAP_CT.LAP 1).updMem 0 (fun x => { x with stepEnd := 1 })).stepTime 0 2 = false := by decide +kernel

/-! The fabric, collectives, contexts. -/

theorem test_heartbeat_slot : linked.slotIdx % linked.rd FAB_CFG.HB_SLOTS = 0 ∧ (linked.port 2).hbSent ≠ some linked.slotNo ∧
    (regs [(LAP_STATUS.STATE, LapSt.locked)] linked).rd LAP_STATUS.STATE ≠ LapSt.stopped := by decide +kernel
/-- A FENCE for GROUP 0 that the router has a buffer for. -/
def fencing : State := (regs [(LKR_CTL.LOCK, 1), (LKR_POOL.COUNT 0, 8), (LKR_REQ.EN 62, 1), (LKR_QUOTA.RESV 62 0, 8), (LKR_QUOTA.LIMIT 62 0, 8)] joined).setFreeQ 0 (List.range 8)
theorem test_fence_taken : fencing.treeTaken 2 (fencePacket 1) = true ∧ joined.treeTaken 2 (fencePacket 1) = false := by decide +kernel
theorem test_hello_group : lcfType (aGroup 2 9 8).lcf = 2 ∧ bitsOf (aGroup 2 9 8).lcf.w4.toNat 22 22 = 0 := by decide +kernel
theorem test_relay_reads : RelayReads (posted (od putWords) true) (posted (od putWords) true) 0 [] ∧
    (gathering.relayTake 0 3).rinkBad 0x1002000 16 = false ∧ odRs (od putWords) = false ∧
    ((posted (od scatterWords) true).relayTake 0 4).scatterFlows 0 (od scatterWords) = true := by decide +kernel
theorem test_col_check : (combining 0).colCheck (colPacket 1 one4) = .inl 0 ∧
    ((combining 0).colLand 0 0 0 0 7 one4).isNone = true ∧
    (((regs [(COL_LZ.VALID 0 0, 1), (COL_LZ.SIZE 0 0, 1), (COL_LZ.BASE 0 0, 0x1004000)] (combining 0)).colLand 0 0 0 0 7 one4).isSome = true) := by decide +kernel
/-- A saved context with an uncorrectable block in its image. -/
def spoiled : State := { context 0 CtxSt.saved with flips := [(0, [1, 2])] }
theorem test_save_image_hyps : (context 0 CtxSt.saved).imageRanges ≠ [] ∧ (context 0 CtxSt.saved).imageRanges.any (fun x => (context 0 CtxSt.saved).memBad x.1 x.2) = false ∧
    (spoiled.imageRanges.any (fun x => spoiled.memBad x.1 x.2)) = true ∧
    (member CtxSt.delivered).ctxStarting 0 = true ∧ (member CtxSt.delivered).ctxOpen 0 = false := by decide +kernel

/-! Snapshot, restore, host. -/

theorem test_page_order : (protected_ 1).sweepYields = false ∧ (preserving).preserveDue = true ∧ preserving.sweepYields = true ∧ preserving.needsCopy 1535 = true ∧
    ((protected_ 0).wr (drainFld 0) DrainSt.copying).drainYields = false ∧ (protected_ 1).nextSweep 0 = some 1024 ∧
    CopyReady (allRun (protected_ 1)) (1024 * 4096) ((protected_ 1).imageBase 0 false) ∧
    State.memBad { allRun (protected_ 1) with flips := [(1024 * 64, [1, 2])] } (1024 * 4096) 4096 = true := by decide +kernel
theorem test_rst_hyps : (((restoring RstSt.feeding).putRstCtl 0).rstState = RstSt.feeding) ∧ ((restoring RstSt.feeding).putRstCtl 0).rstCtxOk 0 = true ∧
    neededPages (protected_ 0) 0 = [] ∧ (protected_ 0).badAll [] = none := by decide +kernel
theorem test_put_blocked : (preserving).rangeBlocked 2 (1535 * 4096) 16 = true ∧ (heading (capsule 1 1 0 0)).mgmtTurn 15 = true ∧
    (capsule 1 1 0 0).regOffsets.all (fun o => (heading (capsule 1 1 0 0)).readAllowed o) = true := by decide +kernel
theorem test_wear_scan : (State.reset.updSec (fun x => { x with badBlocks := [2 ^ 20 - 1] })).sec.badBlocks.contains (2 ^ 20 - 1) = true ∧
    State.reset.sec.badBlocks.contains 0 = false := by decide +kernel
/-- A pair of census LCFs in order on port 2. -/
theorem test_census_groups : lcfType (aGroup 4 4095 6).lcf = 4 ∧ lcfGseq (aGroup 4 4095 6).lcf = (linked.port 2).gseqRx ∧
    lcfGseq (aGroup 4 0 6).lcf = (lcfGseq (aGroup 4 4095 6).lcf + 1) % 4096 := by decide +kernel

end Sys2Proof.Tests
end

/-! # The Velim core: issue, scalar instructions, branches, templates -/

namespace Sys2Proof.Machine

open Sys2Proof.Claims

/-! ## Issue of a scalar instruction: it acts, or it raises a fault (R60, R63, R71, R78, R80, R81) -/

/-- Of a list of faults the first is reported where none after it has a lower code or, of its code, a lower field. -/
theorem firstFault_cons {x : Nat × Nat} {l : List (Nat × Nat)} (h : ∀ y ∈ l, ¬ (y.1 < x.1 ∨ (y.1 = x.1 ∧ y.2 < x.2))) :
    firstFault (x :: l) = some x := by
  unfold firstFault
  rw [List.foldl_cons]
  induction l with
  | nil => rfl
  | cons y l ih =>
    rw [List.foldl_cons]
    simp only [if_neg (h y List.mem_cons_self)]
    exact ih fun z hz => h z (List.mem_cons_of_mem _ hz)

theorem firstFault_singleton (x : Nat × Nat) : firstFault [x] = some x := rfl

/-- Where the fetch, the guard field and the engine are legal, only the instruction's own fields can be at fault. -/
theorem State.formFaults_eq_map {s : State} {k w : Nat} {f : Form} (hp : s.inRinkWindow (s.ctxOf k) (s.rd (ENG_PC.PC k)) 8 = true)
    (hg : bitsOf w 51 48 ≠ 1) (he : f.engine = true) : s.formFaults k w f = f.bad.map (fun b => (F_ISA_ENC, b)) := by
  simp [State.formFaults, badGuard, hp, hg, he]

/-- Outside the context's Rink window the fetch fault comes before every other one: no code is lower (R81). -/
theorem State.firstFault_formFaults_of_no_window {s : State} {k : Nat} (w : Nat) (f : Form)
    (hp : s.inRinkWindow (s.ctxOf k) (s.rd (ENG_PC.PC k)) 8 = false) : firstFault (s.formFaults k w f) = some (F_ISA_FETCH, 0) := by
  have hl : F_ISA_FETCH < F_ISA_ENC ∧ F_ISA_FETCH < F_ISA_ENGINE := by decide
  rw [State.formFaults, hp, if_neg Bool.false_ne_true, List.append_assoc, List.singleton_append]
  refine firstFault_cons fun y hy => ?_
  have hlt : F_ISA_FETCH < y.1 := by
    rcases List.mem_append.1 hy with hy | hy
    · obtain ⟨b, -, rfl⟩ := List.mem_map.1 hy
      exact hl.1
    · split at hy
      · exact absurd hy List.not_mem_nil
      · rw [List.mem_singleton.1 hy]
        exact hl.2
  dsimp only
  omega

/-- The scoreboard holds no instruction back whose registers await no result, which needs no place among the memory operations, on a
stream with no step in flight and no admission outstanding. -/
theorem State.blocked_eq_false {s : State} {k : Nat} {f : Form} (hstep : (s.stream k).stepOp = none) (hask : ∀ a ∈ s.col.asked, a.stream ≠ k)
    (hs : Settled s k f.s) (hv : VSettled s k f.v) (hm : f.mem = false) : s.blocked k f = false := by
  simp only [State.blocked, hstep, hm, Bool.or_eq_false_iff, List.any_eq_false, List.contains_iff_mem, beq_iff_eq,
    Bool.false_and, Option.isSome_none, and_true]
  exact ⟨⟨hs, hv⟩, hask⟩

theorem settled_nil {s : State} {k : Nat} : Settled s k [] := fun _ hr => absurd hr List.not_mem_nil

theorem vSettled_nil {s : State} {k : Nat} : VSettled s k [] := fun _ hr => absurd hr List.not_mem_nil

/-- A fault of the fetch or of a field is raised at the instruction once every earlier one has retired, whatever the guard says. -/
theorem State.issue_formFault {s : State} {k w : Nat} {f : Form} {fails : List (Nat × Nat)} {code info : Nat} (act : State → State)
    (hs : s.stopped = false) (hf : s.frozen = false) (hr : s.engState k = EngSt.run) (hw : (s.stream k).fenceWait = none)
    (hx : firstFault (s.formFaults k w f) = some (code, info)) (hp : Precise s k) :
    s.issue k w f fails act = s.streamFault k code info (s.rd (ENG_PC.PC k)) := by
  simp [State.issue, State.preciseFault, State.issueFault, hs, hf, hr, hw, hx, hp]

section ScalarInstructions

variable {s : State} {k maj min : Nat} {b : BitVec 52} {bad regs : List Nat} {sel : Bool} {fails : List (Nat × Nat)}

theorem State.formFaults_scalar (hc : CanIssue s k b) :
    s.formFaults k (velimWord maj min b) { bad := bad, s := regs, sel := sel } = bad.map (fun x => (F_ISA_ENC, x)) := by
  obtain ⟨-, -, -, -, hwin, hgf, -, -⟩ := hc
  exact State.formFaults_eq_map hwin (by rwa [bitsOf_velimWord _ _ _ _ _ (by decide) (by decide)]) rfl

/-- A scalar instruction with legal fields, with no fault of its operands and with no register in wait acts. -/
theorem State.issue_scalar (act : State → State) (hc : CanIssue s k b) (hbad : bad = []) (hs : Settled s k regs)
    (hg : s.guardOf k b.toNat = true ∨ sel = true) (hx : fails = []) :
    s.issue k (velimWord maj min b) { bad := bad, s := regs, sel := sel } fails act = act s := by
  obtain ⟨hstop, hfrz, hrun, hfence, hwin, hgf, hstep, hask⟩ := hc
  refine issue_acts act hstop hfrz hrun hfence hwin ?_ hbad rfl ?_ ?_ hx
  · rwa [bitsOf_velimWord _ _ _ _ _ (by decide) (by decide)]
  · rwa [guardOf_velimWord]
  · exact State.blocked_eq_false hstep hask hs vSettled_nil rfl

/-- A field that is not legal raises F_ISA_ENC with its lowest bit (R63). -/
theorem State.issue_scalar_encFault (act : State → State) {x : Nat} (hc : CanIssue s k b) (hp : Precise s k) (hbad : bad = [x]) :
    s.issue k (velimWord maj min b) { bad := bad, s := regs, sel := sel } fails act = s.streamFault k F_ISA_ENC x (s.rd (ENG_PC.PC k)) := by
  have hx : firstFault (s.formFaults k (velimWord maj min b) { bad := bad, s := regs, sel := sel }) = some (F_ISA_ENC, x) := by
    rw [State.formFaults_scalar hc, hbad]
    rfl
  obtain ⟨hstop, hfrz, hrun, hfence, -⟩ := hc
  exact State.issue_formFault act hstop hfrz hrun hfence hx hp

/-- A fault of the operands is raised where the guard is true, the fields are legal and no register is in wait. -/
theorem State.issue_scalar_operandFault (act : State → State) {code info : Nat} (hr : Runs s k b) (hp : Precise s k) (hbad : bad = [])
    (hs : Settled s k regs) (hx : fails = [(code, info)]) :
    s.issue k (velimWord maj min b) { bad := bad, s := regs, sel := sel } fails act = s.streamFault k code info (s.rd (ENG_PC.PC k)) := by
  obtain ⟨hc, hg⟩ := hr
  have hform : s.formFaults k (velimWord maj min b) { bad := bad, s := regs, sel := sel } = [] := by
    rw [State.formFaults_scalar hc, hbad]
    rfl
  obtain ⟨hstop, hfrz, hrun, hfence, -, -, hstep, hask⟩ := hc
  have hblk : s.blocked k { bad := bad, s := regs, sel := sel } = false :=
    State.blocked_eq_false hstep hask hs vSettled_nil rfl
  have hnone : firstFault [] = none := rfl
  simp [State.issue, State.preciseFault, State.issueFault, hstop, hfrz, hrun, hfence, hform, hnone, hg, hblk, hx, firstFault_singleton, hp]


/-! ## Fields of the instruction word -/

/-- A part of a field that is 0 is 0. -/
theorem bitsOf_eq_zero_of_le {n hi lo hi' lo' : Nat} (h : bitsOf n hi lo = 0) (hlo : lo ≤ lo') (hhi : hi' ≤ hi) (hle : lo' ≤ hi') :
    bitsOf n hi' lo' = 0 := by
  apply Nat.eq_of_testBit_eq
  intro i
  have hbit := bitsOf_testBit n hi lo (lo' - lo + i)
  rw [h, Nat.zero_testBit, show lo + (lo' - lo + i) = lo' + i by omega] at hbit
  rw [bitsOf_testBit, Nat.zero_testBit]
  by_cases hi' : i < hi' - lo' + 1
  · rw [decide_eq_true (by omega), Bool.true_and] at hbit
    rw [← hbit, Bool.and_false]
  · rw [decide_eq_false hi', Bool.false_and]

theorem badZero_eq_nil {hi lo : Nat} (h : bitsOf b.toNat hi lo = 0) (hhi : hi < 52) (hle : lo ≤ hi) :
    badZero (velimWord maj min b) hi lo = [] := by
  rw [badZero_velimWord _ _ _ _ _ hhi hle, badZero, if_pos h]

theorem badZero_eq_singleton {hi lo : Nat} (h : bitsOf b.toNat hi lo ≠ 0) (hhi : hi < 52) (hle : lo ≤ hi) :
    badZero (velimWord maj min b) hi lo = [lo] := by
  rw [badZero_velimWord _ _ _ _ _ hhi hle, badZero, if_neg h]

theorem badP_eq_nil {lo : Nat} (h : bitsOf b.toNat (lo + 4) (lo + 3) = 0) (hlo : lo + 4 < 52) : badP (velimWord maj min b) lo = [] := by
  rw [badP, bitsOf_velimWord _ _ _ _ _ hlo (by omega), if_pos h]

/-! ## ALU instructions (R64) -/

/-- An ALU instruction in either form writes its function of the two operands and retires. -/
theorem State.alu_acts (imm : Bool) (op : Word → Word → Word) (hr : Runs s k b) (hz : imm = false → bitsOf b.toNat 32 0 = 0)
    (hs : Settled s k [fd b.toNat, fa b.toNat]) (hb : imm = false → Settled s k [fb b.toNat]) :
    s.alu k imm min b op = (s.setS k (fd b.toNat) (op (s.sreg k (fa b.toNat)) (operandB s k imm b))).retire k := by
  obtain ⟨hc, hg⟩ := hr
  unfold State.alu
  cases imm with
  | true =>
    refine (State.issue_scalar _ hc rfl ?_ (.inl hg) rfl).trans ?_
    · simpa using hs
    · simp [operandB, simm_velimWord]
  | false =>
    refine (State.issue_scalar _ hc (badZero_eq_nil (hz rfl) (by decide) (by decide)) ?_ (.inl hg) rfl).trans ?_
    · simpa [Settled, and_assoc] using And.intro hs (hb rfl)
    · simp [operandB]

theorem State.alu1_acts (op : Word → Word) (hr : Runs s k b) (hz : bitsOf b.toNat 37 0 = 0) (hs : Settled s k [fd b.toNat, fa b.toNat]) :
    s.alu1 k min b op = (s.setS k (fd b.toNat) (op (s.sreg k (fa b.toNat)))).retire k := by
  obtain ⟨hc, hg⟩ := hr
  have hb : bitsOf b.toNat 37 33 = 0 := bitsOf_eq_zero_of_le hz (by decide) (by decide) (by decide)
  have hlow : bitsOf b.toNat 32 0 = 0 := bitsOf_eq_zero_of_le hz (by decide) (by decide) (by decide)
  unfold State.alu1
  refine (State.issue_scalar _ hc ?_ ?_ (.inl hg) rfl).trans ?_
  · rw [badZero_eq_nil hb (by decide) (by decide), badZero_eq_nil hlow (by decide) (by decide), List.append_nil]
  · simpa using hs
  · simp

/-- A register b that is not 0 raises F_ISA_ENC at its field. -/
theorem State.alu1_encFault (op : Word → Word) (hc : CanIssue s k b) (hp : Precise s k) (hz : bitsOf b.toNat 32 0 = 0)
    (hb : bitsOf b.toNat 37 33 ≠ 0) : s.alu1 k min b op = s.streamFault k F_ISA_ENC 33 (s.rd (ENG_PC.PC k)) := by
  unfold State.alu1
  refine State.issue_scalar_encFault _ hc hp ?_
  rw [badZero_eq_singleton hb (by decide) (by decide), badZero_eq_nil hz (by decide) (by decide), List.append_nil]

/-- Each row of the ALU table is an ALU instruction with the row's function. -/
theorem exec_aluRow {r : AluRow} (hr : r ∈ aluRows) (k : Fin 50) (imm : Bool) (b : BitVec 52) (s : State)
    (himm : registerOnly r.cmd = true → imm = false) : ∃ min, exec (r.cmd k imm b) s = .next (s.alu k imm min b r.op) := by
  have hslt : ∀ x y u v : Word, (if x.slt y then u else v) = if x.toInt < y.toInt then u else v := by simp [BitVec.slt]
  have hult : ∀ x y u v : Word, (if x.ult y then u else v) = if x.toNat < y.toNat then u else v := by simp [BitVec.ult]
  simp only [aluRows, List.mem_cons, List.not_mem_nil, or_false] at hr
  rcases hr with rfl | rfl | rfl | rfl | rfl | rfl | rfl | rfl | rfl | rfl | rfl | rfl | rfl | rfl | rfl
  · exact ⟨0x00, rfl⟩
  · exact ⟨0x01, rfl⟩
  · exact ⟨0x02, rfl⟩
  · exact ⟨0x03, rfl⟩
  · exact ⟨0x04, rfl⟩
  · exact ⟨0x05, rfl⟩
  · exact ⟨0x06, rfl⟩
  · exact ⟨0x07, rfl⟩
  · exact ⟨0x08, rfl⟩
  · exact ⟨0x0B, by simp only [← hslt]; rfl⟩
  · exact ⟨0x0C, by simp only [← hult]; rfl⟩
  · exact ⟨0x0D, by simp only [← hslt]; rfl⟩
  · exact ⟨0x0E, by simp only [← hult]; rfl⟩
  · obtain rfl := himm (beq_self_eq_true (Instr.mulhu 0 0))
    exact ⟨0x09, rfl⟩
  · obtain rfl := himm (beq_self_eq_true (Instr.mulhs 0 0))
    exact ⟨0x0A, rfl⟩

/-- SEL takes operand a where its guard is true and operand b otherwise. -/
theorem execSel_acts {k : Fin 50} (hc : CanIssue s k b) (hz : bitsOf b.toNat 32 0 = 0)
    (hs : Settled s k [fd b.toNat, fa b.toNat, fb b.toNat]) :
    execSel k b s = .next ((s.setS k (fd b.toNat)
      (if s.guardOf k b.toNat then s.sreg k (fa b.toNat) else s.sreg k (fb b.toNat))).retire k) := by
  unfold execSel
  refine congrArg _ ((State.issue_scalar _ hc (badZero_eq_nil hz (by decide) (by decide)) ?_ (.inr rfl) rfl).trans ?_)
  · simpa [rrForm] using hs
  · simp

theorem execMovi_acts {k : Fin 50} (hr : Runs s k b) (hs : Settled s k [fd b.toNat]) :
    execMovi k b s = .next ((s.setS k (fd b.toNat) (simm b.toNat 42 0)).retire k) := by
  obtain ⟨hc, hg⟩ := hr
  unfold execMovi
  refine congrArg _ ((State.issue_scalar _ hc rfl ?_ (.inl hg) rfl).trans ?_)
  · simpa using hs
  · simp [simm_velimWord]

theorem execMovhi_acts {k : Fin 50} (hr : Runs s k b) (hz : bitsOf b.toNat 42 21 = 0) (hs : Settled s k [fd b.toNat]) :
    execMovhi k b s = .next ((s.setS k (fd b.toNat)
      (BitVec.ofNat 64 (bitsOf b.toNat 20 0 * 2 ^ 43 + (s.sreg k (fd b.toNat)).toNat % 2 ^ 43))).retire k) := by
  obtain ⟨hc, hg⟩ := hr
  unfold execMovhi
  refine congrArg _ ((State.issue_scalar _ hc ?_ ?_ (.inl hg) rfl).trans ?_)
  · rw [badZero_eq_nil hz (by decide) (by decide), List.map_nil]
  · simpa using hs
  · simp [bitsOf_velimWord]

/-- The immediate of MOVHI is the field [42:0], so its bits above 20 are at fault at bit 0. -/
theorem execMovhi_encFault {k : Fin 50} (hc : CanIssue s k b) (hp : Precise s k) (hz : bitsOf b.toNat 42 21 ≠ 0) :
    execMovhi k b s = .next (s.streamFault k F_ISA_ENC 0 (s.rd (ENG_PC.PC k))) := by
  unfold execMovhi
  refine congrArg _ (State.issue_scalar_encFault _ hc hp ?_)
  rw [badZero_eq_singleton hz (by decide) (by decide)]
  rfl

/-! ## Compares and predicate logic (R65) -/

theorem State.cmp_acts (imm : Bool) (rel : Word → Word → Bool) (hr : Runs s k b) (hd : bitsOf b.toNat 47 46 = 0)
    (hz : imm = false → bitsOf b.toNat 32 0 = 0) (hs : Settled s k [fa b.toNat]) (hb : imm = false → Settled s k [fb b.toNat]) :
    s.cmp k imm min b rel = (s.setP k (fd b.toNat) (predOf (rel (s.sreg k (fa b.toNat)) (operandB s k imm b)))).retire k := by
  obtain ⟨hc, hg⟩ := hr
  have hbad : badP (velimWord (if imm then 0x05 else 0x04) min b) 43 = [] := badP_eq_nil hd (by decide)
  unfold State.cmp
  cases imm with
  | true =>
    refine (State.issue_scalar _ hc hbad ?_ (.inl hg) rfl).trans ?_
    · simpa using hs
    · simp [operandB, simm_velimWord]
  | false =>
    refine (State.issue_scalar _ hc ?_ ?_ (.inl hg) rfl).trans ?_
    · rw [hbad, badZero_eq_nil (hz rfl) (by decide) (by decide), List.append_nil]
    · simpa [Settled] using And.intro hs (hb rfl)
    · simp [operandB]

/-- Each row of the compare table is a compare with the row's relation. -/
theorem exec_cmpRow {r : CmpRow} (hr : r ∈ cmpRows) (k : Fin 50) (imm : Bool) (b : BitVec 52) (s : State) :
    ∃ min, exec (r.cmd k imm b) s = .next (s.cmp k imm min b r.rel) := by
  have hne : ∀ x y : Word, decide (x ≠ y) = (x != y) := fun x y => decide_not
  have hge : ∀ x y : Word, decide (y.toInt ≤ x.toInt) = ! x.slt y := fun x y => by simp [BitVec.slt, ← decide_not]
  have hgeu : ∀ x y : Word, decide (y.toNat ≤ x.toNat) = ! x.ult y := fun x y => by simp [BitVec.ult, ← decide_not]
  simp only [cmpRows, List.mem_cons, List.not_mem_nil, or_false] at hr
  rcases hr with rfl | rfl | rfl | rfl | rfl | rfl
  · exact ⟨0, rfl⟩
  · exact ⟨1, by simp only [hne]; rfl⟩
  · exact ⟨2, rfl⟩
  · exact ⟨3, by simp only [hge]; rfl⟩
  · exact ⟨4, rfl⟩
  · exact ⟨5, by simp only [hgeu]; rfl⟩

theorem State.pred_acts (op : Pred → Pred → Pred) (hr : Runs s k b) (hd : bitsOf b.toNat 47 46 = 0) (ha : bitsOf b.toNat 42 41 = 0)
    (hb : bitsOf b.toNat 37 36 = 0) (hz : bitsOf b.toNat 32 0 = 0) :
    s.pred k min b op = (s.setP k (fd b.toNat) (op (s.preg k (fa b.toNat)) (s.preg k (fb b.toNat)))).retire k := by
  obtain ⟨hc, hg⟩ := hr
  unfold State.pred
  refine (State.issue_scalar _ hc ?_ settled_nil (.inl hg) rfl).trans ?_
  · rw [badP_eq_nil hd (by decide), badP_eq_nil ha (by decide), badP_eq_nil hb (by decide), badZero_eq_nil hz (by decide) (by decide)]
    rfl
  · simp

/-- Each row of the table of predicate logic combines two predicates with the row's function. -/
theorem exec_predRow {r : (Fin 50 → BitVec 52 → Instr) × (Pred → Pred → Pred)} (hr : r ∈ predRows) (k : Fin 50) (b : BitVec 52) (s : State) :
    ∃ min, exec (r.1 k b) s = .next (s.pred k min b r.2) := by
  simp only [predRows, List.mem_cons, List.not_mem_nil, or_false] at hr
  rcases hr with rfl | rfl | rfl | rfl
  · exact ⟨0, rfl⟩
  · exact ⟨1, rfl⟩
  · exact ⟨2, rfl⟩
  · exact ⟨3, rfl⟩

/-! ## Branches (R71) -/

theorem State.targetFault_eq_nil {off : Int} (h0 : 0 ≤ s.target k off) (h1 : s.target k off < 2 ^ 29) : s.targetFault k off = [] :=
  if_pos ⟨h0, h1⟩

theorem State.targetFault_eq_singleton {off : Int} (h : s.target k off < 0 ∨ 2 ^ 29 ≤ s.target k off) :
    s.targetFault k off = [(F_ISA_FETCH, 0)] :=
  if_neg (by omega)

section Jumps

variable {k : Fin 50}

theorem execBr_acts (hr : Runs s k b) (hz : bitsOf b.toNat 47 46 = 0) (h0 : 0 ≤ s.target k (sfield b.toNat 45 0))
    (h1 : s.target k (sfield b.toNat 45 0) < 2 ^ 29) :
    execBr k b s = .next (s.retireTo k (s.target k (sfield b.toNat 45 0)).toNat) := by
  obtain ⟨hc, hg⟩ := hr
  unfold execBr
  simp only [sfield_velimWord 0x0A 0 b 45 0 (by decide) (by decide)]
  exact congrArg _ (State.issue_scalar _ hc (badZero_eq_nil hz (by decide) (by decide)) settled_nil (.inl hg)
    (State.targetFault_eq_nil h0 h1))

theorem execBr_fetchFault (hr : Runs s k b) (hp : Precise s k) (hz : bitsOf b.toNat 47 46 = 0)
    (h : s.target k (sfield b.toNat 45 0) < 0 ∨ 2 ^ 29 ≤ s.target k (sfield b.toNat 45 0)) :
    execBr k b s = .next (s.streamFault k F_ISA_FETCH 0 (s.rd (ENG_PC.PC k))) := by
  unfold execBr
  simp only [sfield_velimWord 0x0A 0 b 45 0 (by decide) (by decide)]
  exact congrArg _ (State.issue_scalar_operandFault _ hr hp (badZero_eq_nil hz (by decide) (by decide))
    settled_nil (State.targetFault_eq_singleton h))

theorem execCall_acts (hr : Runs s k b) (hz : bitsOf b.toNat 47 46 = 0) (h0 : 0 ≤ s.target k (sfield b.toNat 45 0))
    (h1 : s.target k (sfield b.toNat 45 0) < 2 ^ 29) :
    execCall k b s = .next ((s.setA k 15 (BitVec.ofNat 64 (2 ^ 60 + (s.rd (ENG_PC.PC k) + 8)))).retireTo k
      (s.target k (sfield b.toNat 45 0)).toNat) := by
  obtain ⟨hc, hg⟩ := hr
  unfold execCall
  simp only [sfield_velimWord 0x0A 1 b 45 0 (by decide) (by decide)]
  exact congrArg _ (State.issue_scalar _ hc (badZero_eq_nil hz (by decide) (by decide)) settled_nil (.inl hg)
    (State.targetFault_eq_nil h0 h1))

theorem execCall_fetchFault (hr : Runs s k b) (hp : Precise s k) (hz : bitsOf b.toNat 47 46 = 0)
    (h : s.target k (sfield b.toNat 45 0) < 0 ∨ 2 ^ 29 ≤ s.target k (sfield b.toNat 45 0)) :
    execCall k b s = .next (s.streamFault k F_ISA_FETCH 0 (s.rd (ENG_PC.PC k))) := by
  unfold execCall
  simp only [sfield_velimWord 0x0A 1 b 45 0 (by decide) (by decide)]
  exact congrArg _ (State.issue_scalar_operandFault _ hr hp (badZero_eq_nil hz (by decide) (by decide))
    settled_nil (State.targetFault_eq_singleton h))

theorem badFields_ret_eq_nil (hz : bitsOf b.toNat 47 46 = 0) (hlow : bitsOf b.toNat 45 0 = 0) :
    badZero (velimWord maj min b) 45 0 ++ badZero (velimWord maj min b) 47 46 = [] := by
  rw [badZero_eq_nil hlow (by decide) (by decide), badZero_eq_nil hz (by decide) (by decide), List.append_nil]

theorem execRet_acts (hr : Runs s k b) (hz : bitsOf b.toNat 47 46 = 0) (hlow : bitsOf b.toNat 45 0 = 0)
    (hsp : spaceOf (s.areg k 15).toNat = 1) : execRet k b s = .next (s.retireTo k ((s.areg k 15).toNat % 2 ^ 29)) := by
  obtain ⟨hc, hg⟩ := hr
  unfold execRet
  exact congrArg _ (State.issue_scalar _ hc (badFields_ret_eq_nil hz hlow) settled_nil (.inl hg) (if_pos hsp))

theorem execRet_fetchFault (hr : Runs s k b) (hp : Precise s k) (hz : bitsOf b.toNat 47 46 = 0) (hlow : bitsOf b.toNat 45 0 = 0)
    (hsp : spaceOf (s.areg k 15).toNat ≠ 1) : execRet k b s = .next (s.streamFault k F_ISA_FETCH 0 (s.rd (ENG_PC.PC k))) := by
  unfold execRet
  exact congrArg _ (State.issue_scalar_operandFault _ hr hp (badFields_ret_eq_nil hz hlow) settled_nil
    (if_neg hsp))

theorem execRet_encFault (hc : CanIssue s k b) (hp : Precise s k) (hz : bitsOf b.toNat 47 46 = 0) (hlow : bitsOf b.toNat 45 0 ≠ 0) :
    execRet k b s = .next (s.streamFault k F_ISA_ENC 0 (s.rd (ENG_PC.PC k))) := by
  unfold execRet
  refine congrArg _ (State.issue_scalar_encFault _ hc hp ?_)
  rw [badZero_eq_singleton hlow (by decide) (by decide), badZero_eq_nil hz (by decide) (by decide), List.append_nil]

/-- LOOP whose count comes to 0 goes on at the next instruction. -/
theorem execLoop_ends (hr : Runs s k b) (hs : Settled s k [fd b.toNat]) (hn : s.sreg k (fd b.toNat) - 1 = 0) :
    execLoop k b s = .next ((s.setS k (fd b.toNat) 0).retire k) := by
  obtain ⟨hc, hg⟩ := hr
  unfold execLoop
  simp only [fd_velimWord, hn, if_true]
  exact congrArg _ (State.issue_scalar _ hc rfl hs (.inl hg) rfl)

/-- LOOP whose count does not come to 0 takes its branch. -/
theorem execLoop_branches (hr : Runs s k b) (hs : Settled s k [fd b.toNat]) (hn : s.sreg k (fd b.toNat) - 1 ≠ 0)
    (h0 : 0 ≤ s.target k (sfield b.toNat 42 0)) (h1 : s.target k (sfield b.toNat 42 0) < 2 ^ 29) :
    execLoop k b s = .next ((s.setS k (fd b.toNat) (s.sreg k (fd b.toNat) - 1)).retireTo k (s.target k (sfield b.toNat 42 0)).toNat) := by
  obtain ⟨hc, hg⟩ := hr
  unfold execLoop
  simp only [fd_velimWord, sfield_velimWord 0x0A 3 b 42 0 (by decide) (by decide), if_neg hn]
  exact congrArg _ (State.issue_scalar _ hc rfl hs (.inl hg) (State.targetFault_eq_nil h0 h1))

theorem execLoop_fetchFault (hr : Runs s k b) (hs : Settled s k [fd b.toNat]) (hp : Precise s k) (hn : s.sreg k (fd b.toNat) - 1 ≠ 0)
    (h : s.target k (sfield b.toNat 42 0) < 0 ∨ 2 ^ 29 ≤ s.target k (sfield b.toNat 42 0)) :
    execLoop k b s = .next (s.streamFault k F_ISA_FETCH 0 (s.rd (ENG_PC.PC k))) := by
  unfold execLoop
  simp only [fd_velimWord, sfield_velimWord 0x0A 3 b 42 0 (by decide) (by decide), if_neg hn]
  exact congrArg _ (State.issue_scalar_operandFault _ hr hp rfl hs (State.targetFault_eq_singleton h))

/-- Where the stream's pc lies in no Rink window of its context, each of the four raises the fetch fault. -/
theorem exec_branch_fetchFault {i : Instr} (hi : i ∈ [Instr.br k b, .call k b, .ret k b, .loop k b]) (hstop : s.stopped = false)
    (hfrz : s.frozen = false) (hrun : s.engState k = EngSt.run) (hfence : (s.stream k).fenceWait = none)
    (hwin : s.inRinkWindow (s.ctxOf k) (s.rd (ENG_PC.PC k)) 8 = false) (hp : Precise s k) :
    exec i s = .next (s.streamFault k F_ISA_FETCH 0 (s.rd (ENG_PC.PC k))) := by
  have hissue (w : Nat) (f : Form) (fails : List (Nat × Nat)) (act : State → State) :
      s.issue k w f fails act = s.streamFault k F_ISA_FETCH 0 (s.rd (ENG_PC.PC k)) :=
    State.issue_formFault act hstop hfrz hrun hfence (State.firstFault_formFaults_of_no_window w f hwin) hp
  simp only [List.mem_cons, List.not_mem_nil, or_false] at hi
  rcases hi with rfl | rfl | rfl | rfl
  all_goals exact congrArg _ (hissue _ _ _ _)

end Jumps

end ScalarInstructions

/-! ## Commits and releases (R84 to R86) -/

theorem State.live_of_up {s : State} (h : Up s) (r : Res) : s.live r = r := if_neg (by simp [h])

theorem State.commitTemplates_of_bad {s : State} {c : Nat} (h : s.bankOk c = false) : s.commitTemplates c = s.report F_ISA_TMPL c 0 :=
  if_pos (by simp [h])

theorem State.commitTemplates_of_busy {s : State} {c : Nat} (h : s.bankOk c = true) (hb : s.ctxBusy c = true) :
    s.commitTemplates c = s.setBit (pendFld c) true := by
  rw [State.commitTemplates, if_neg (not_not_intro h), if_pos hb]

theorem State.commitTemplates_of_free {s : State} {c : Nat} (h : s.bankOk c = true) (hb : s.ctxBusy c = false) :
    s.commitTemplates c = s.wr (bankFld c) (1 - s.rd (bankFld c)) := by
  rw [State.commitTemplates, if_neg (not_not_intro h), if_neg (by simp [hb])]

/-- Each of the two commit commands commits its own context's partition. -/
theorem exec_commit {s : State} (h : Up s) {c : Nat} {i : Instr} (hi : (i = .commitGen ∧ c = 0) ∨ (i = .commitRt ∧ c = 1)) :
    exec i s = .next (s.commitTemplates c) := by
  rcases hi with ⟨rfl, rfl⟩ | ⟨rfl, rfl⟩
  · change execCommitGen s = _
    rw [execCommitGen, State.live_of_up h]
  · change execCommitRt s = _
    rw [execCommitRt, State.live_of_up h]

@[simp] theorem State.telPush_tmpl (s : State) (r : List Byte) : (s.telPush r).tmpl = s.tmpl := by
  unfold State.telPush
  split
  · rfl
  · exact State.wr_tmpl _ _ _

@[simp] theorem State.trace_tmpl (s : State) (kind k c info : Nat) : (s.trace kind k c info).tmpl = s.tmpl := by
  unfold State.trace
  split
  · exact State.telPush_tmpl _ _
  · rfl

/-- The state after entry `e` of context `c` has left the armed ones, before its work enters the queue of stream `k`. -/
def State.releaseEntry (s : State) (c e k : Nat) : State :=
  ((s.updCtx c (fun x => { x with armed := x.armed.erase e })).addMod (relFld c) 1).trace 1 k c e

@[simp] theorem State.releaseEntry_tmplWord (s : State) (c e k bank i w : Nat) :
    (s.releaseEntry c e k).tmplWord bank i w = s.tmplWord bank i w := by
  have h : (s.releaseEntry c e k).tmpl = s.tmpl := State.trace_tmpl _ _ _ _ _
  rw [State.tmplWord, h, State.tmplWord]

theorem exec_templateRelease (s : State) : exec .templateRelease s = execTemplateRelease s := rfl

/-- TEMPLATE_RELEASE queues the entry on its stream, whose queue holds eight, or finds that queue full (R86). -/
theorem execTemplateRelease_releases {s t : State} {c e k : Nat} {x : Step} (h : Up s) (hn : s.nextRelease = some (c, e))
    (hx : (s.ctx c).step = some x) (hk : k = streamFor c (tmplEngine (s.tmplWord (s.activeBank e) e 0))) (ht : t = s.releaseEntry c e k) :
    execTemplateRelease s = .next (if 8 ≤ (t.stream k).queue.length then t.issueFault k (F_ISA_TQOVF, 0)
      else t.updStream k (fun y => { y with queue := y.queue ++ [instanceOf s c e x.lap] })) := by
  subst hk ht
  have hword := s.releaseEntry_tmplWord c e (streamFor c (tmplEngine (s.tmplWord (s.activeBank e) e 0))) (s.activeBank e) e 1
  rw [execTemplateRelease, State.live_of_up h]
  simp only [hn, hx, instanceOf, ← hword]
  rfl

/-! ## The start of a queued template (R87) -/

section StartInstance

variable (s : State) (k : Nat) (i : Inst)

theorem State.startInstance_stream_same : (s.startInstance k i).stream k =
    { s.stream k with
      s := tsetMany zeroWord [] 24 i.args, a := [], p := [], scratch := 0, cur := some i, fenceWait := none } := by
  simp [State.startInstance, State.setEngState]

theorem State.startInstance_stream_ne {j : Nat} (h : j ≠ k) : (s.startInstance k i).stream j = s.stream j := by
  simp [State.startInstance, State.setEngState, State.stream_updStream_ne _ _ _ _ h]

@[simp] theorem State.startInstance_rink : (s.startInstance k i).rink = s.rink := by
  simp [State.startInstance, State.setEngState]

@[simp] theorem State.startInstance_lpddr : (s.startInstance k i).lpddr = s.lpddr := by
  simp [State.startInstance, State.setEngState]

/-- s0 to s23 are 0. -/
theorem State.startInstance_sreg_of_lt {r : Nat} (h : r < 24) : (s.startInstance k i).sreg k r = 0 := by
  have hbelow : ¬ (24 ≤ r ∧ r < 24 + i.args.length) := by omega
  rw [State.sreg, State.startInstance_stream_same, tget_tsetMany, if_neg hbelow]
  exact ite_self _

/-- s24 and those above it hold the arguments. -/
theorem State.startInstance_sreg_args {j : Nat} (h : j < i.args.length) : (s.startInstance k i).sreg k (24 + j) = (i.args[j]?).getD 0 := by
  rw [State.sreg, if_neg (by omega), State.startInstance_stream_same, tget_tsetMany, if_pos (by omega), Nat.add_sub_cancel_left]
  rfl

theorem State.startInstance_areg (r : Nat) : (s.startInstance k i).areg k r = 0 := by
  rw [State.areg, State.startInstance_stream_same]
  rfl

theorem State.startInstance_preg {r : Nat} (h : 0 < r) : (s.startInstance k i).preg k r = 0 := by
  rw [State.preg, if_neg (by omega), State.startInstance_stream_same]
  rfl

theorem State.startInstance_vreg (r : Nat) : (s.startInstance k i).vreg k r = s.vreg k r := by
  rw [State.vreg, State.startInstance_stream_same, State.vreg]

theorem State.startInstance_scratch : ((s.startInstance k i).stream k).scratch = 0 := by
  rw [State.startInstance_stream_same]

theorem State.startInstance_pc (h : i.entry < 2 ^ 29) : (s.startInstance k i).rd (ENG_PC.PC k) = i.entry := by
  have hstatus : (ENG_PC.PC k).off ≠ engBase k + 0x08 := by simp [ENG_PC.PC]
  have hwait : (ENG_PC.PC k).off ≠ engBase k + 0x18 := by simp [ENG_PC.PC]
  rw [State.startInstance, State.setEngState, State.rd_wr_ne _ _ _ _ hstatus, State.rd_setReg_ne _ _ _ hwait,
    State.rd_wr_ne _ _ _ _ hstatus, State.rd_wr_same _ _ _ (by simp [ENG_PC.PC]) (by simp [ENG_PC.PC])]
  exact Nat.mod_eq_of_lt h

theorem State.startInstance_engState : (s.startInstance k i).engState k = EngSt.run :=
  State.rd_wr_same _ _ _ (by simp [ENG_STATUS.STATE]) (by simp [ENG_STATUS.STATE])

/-- ENG_WAIT is clear. -/
theorem State.startInstance_wait : (s.startInstance k i).reg (engBase k + 0x18) = 0 := by
  rw [State.startInstance, State.setEngState, State.reg_wr_ne _ _ _ (by simp [ENG_STATUS.STATE]), State.reg_setReg_same]

end StartInstance

/-- INSTANCE_START takes the head of the queue of a free stream with no operation in flight (R86, R87). -/
theorem execInstanceStart_starts {s : State} {k : Fin 50} {i : Inst} {q : List Inst} (h : Up s) (hctx : s.ctxState (s.ctxOf k) = CtxSt.run)
    (hst : s.engState k = EngSt.idle ∨ s.engState k = EngSt.fault) (hf : (s.ctx (s.ctxOf k)).faults = []) (hops : (s.stream k).ops = [])
    (hq : (s.stream k).queue = i :: q) :
    execInstanceStart k s = .next ((s.updStream k (fun x => { x with queue := q })).startInstance k i) := by
  rw [execInstanceStart, State.live_of_up h]
  simp [hctx, hst, hf, hops, hq]

/-! ## The obligations -/

/-- Settles O5: each instruction's own rule, the fifteen of the ALU table through their shared form. -/
theorem scalarResults : Obligations.ScalarResults := by
  refine ⟨fun r hrow k imm b s himm hr hz hs hb => ?_, fun k b s => ⟨fun hr hz hs => ⟨?_, ?_⟩, execSel_acts, execMovi_acts, execMovhi_acts,
    fun hc hp hz hb => ⟨?_, ?_⟩, execMovhi_encFault⟩⟩
  · obtain ⟨min, h⟩ := exec_aluRow hrow k imm b s himm
    rw [Gives, h, State.alu_acts imm r.op hr hz hs hb]
  · exact congrArg _ (State.alu1_acts clz64 hr hz hs)
  · exact congrArg _ (State.alu1_acts popc64 hr hz hs)
  · exact congrArg _ (State.alu1_encFault clz64 hc hp hz hb)
  · exact congrArg _ (State.alu1_encFault popc64 hc hp hz hb)

/-- Settles O6: the rows of the two tables through the shared forms of a compare and of predicate logic. -/
theorem compareAndPredicateResults : Obligations.CompareAndPredicateResults := by
  constructor
  · intro r hrow k imm b s hr hd hz hs hb
    obtain ⟨min, h⟩ := exec_cmpRow hrow k imm b s
    rw [Gives, h, State.cmp_acts imm r.rel hr hd hz hs hb]
  · intro r hrow k b s hr hd ha hb hz
    obtain ⟨min, h⟩ := exec_predRow hrow k b s
    rw [Gives, h, State.pred_acts r.2 hr hd ha hb hz]

/-- Settles O8: for each branch, its target where it is taken and the fault of a target, a space or a field that is not legal. -/
theorem branchResults : Obligations.BranchResults := by
  intro k b s
  refine ⟨fun hstop hfrz hrun hfence hwin hp i hi => exec_branch_fetchFault hi hstop hfrz hrun hfence hwin hp, fun hr => ⟨?_, ?_, ?_⟩⟩
  · rintro t hz rfl
    exact ⟨fun h0 h1 => ⟨execBr_acts hr hz h0 h1, execCall_acts hr hz h0 h1⟩,
      fun h hp => ⟨execBr_fetchFault hr hp hz h, execCall_fetchFault hr hp hz h⟩⟩
  · exact fun hz => ⟨execRet_acts hr hz, fun hlow hsp hp => execRet_fetchFault hr hp hz hlow hsp,
      fun hlow hp => execRet_encFault hr.1 hp hz hlow⟩
  · rintro n t hs rfl rfl
    exact ⟨execLoop_ends hr hs, execLoop_branches hr hs, fun hn h hp => execLoop_fetchFault hr hs hp hn h⟩

/-- Settles O26: the commit's three answers, the release's two, and what INSTANCE_START leaves in each register file. -/
theorem sequencerResults : Obligations.SequencerResults := by
  refine fun s hup => ⟨fun c i hi => ?_, ?_, ?_⟩
  · rw [Gives, Gives, Gives, exec_commit hup hi]
    exact ⟨fun h => congrArg _ (State.commitTemplates_of_bad h), fun h hb => congrArg _ (State.commitTemplates_of_busy h hb),
      fun h hb => congrArg _ (State.commitTemplates_of_free h hb)⟩
  · intro c e k t x hn hx hk ht
    rw [Gives, Gives, exec_templateRelease, execTemplateRelease_releases hup hn hx hk ht]
    exact ⟨fun hfull => congrArg _ (if_pos hfull), fun hroom => congrArg _ (if_neg (Nat.not_le.2 hroom))⟩
  · rintro k i q t hctx hst hf hops hq rfl
    have hstream {j : Nat} (hj : j ≠ k.val) := State.stream_updStream_ne s k j (fun x => { x with queue := q }) hj
    refine ⟨execInstanceStart_starts hup hctx hst hf hops hq, fun r => State.startInstance_sreg_of_lt _ _ _,
      fun hlen j hj => State.startInstance_sreg_args _ _ _ (hlen ▸ hj), State.startInstance_areg _ _ _,
      fun r => State.startInstance_preg _ _ _, fun r => ?_, State.startInstance_scratch _ _ _, State.startInstance_pc _ _ _,
      State.startInstance_engState _ _ _, State.startInstance_wait _ _ _,
      by simp, by simp, fun j hj => (State.startInstance_stream_ne _ _ _ hj).trans (hstream hj)⟩
    rw [State.startInstance_vreg, State.vreg, State.stream_updStream_same, State.vreg]

end Sys2Proof.Machine

/-! # Vector instructions: compares and lane reductions -/

namespace Sys2Proof.Machine

open Sys2Proof.Claims

section VectorInstructions

variable {s : State} {k maj min : Nat} {b : BitVec 52}

/-! ## Fields and masks of a vector instruction (R91, R98, R99) -/

@[simp] theorem fva_velimWord (maj min : Nat) (b : BitVec 52) : fva (velimWord maj min b) = fva b.toNat :=
  bitsOf_velimWord _ _ _ _ _ (by decide) (by decide)

@[simp] theorem fvb_velimWord (maj min : Nat) (b : BitVec 52) : fvb (velimWord maj min b) = fvb b.toNat :=
  bitsOf_velimWord _ _ _ _ _ (by decide) (by decide)

@[simp] theorem frnd_velimWord (maj min : Nat) (b : BitVec 52) : frnd (velimWord maj min b) = frnd b.toNat :=
  bitsOf_velimWord _ _ _ _ _ (by decide) (by decide)

@[simp] theorem State.active_velimWord (s : State) (k maj min i : Nat) (b : BitVec 52) :
    s.active k (velimWord maj min b) 24 i = s.active k b.toNat 24 i := by
  rw [State.active, State.active, bitsOf_velimWord _ _ _ _ _ (by decide) (by decide), bitsOf_velimWord _ _ _ _ _ (by decide) (by decide)]

theorem badMask_eq_nil (hm : MaskOk b) : badMask (velimWord maj min b) 24 = [] := by
  simpa [badMask, bitsOf_velimWord] using hm

/-- A form with va and a mask is legal where the mask is and every field that it does not name is 0. -/
theorem vrBad_eq_nil {vb vc rnd : Bool} (hm : MaskOk b) (hb : vb = false → bitsOf b.toNat 37 33 = 0)
    (hc : vc = false → bitsOf b.toNat 32 28 = 0) (hrnd : rnd = false → bitsOf b.toNat 23 22 = 0) (hx : bitsOf b.toNat 21 0 = 0) :
    vrBad (velimWord maj min b) { vb := vb, vc := vc, rnd := rnd } = [] := by
  have unnamed {named : Bool} {hi lo : Nat} (h : named = false → bitsOf b.toNat hi lo = 0) (hhi : hi < 52) (hle : lo ≤ hi) :
      (if named then [] else badZero (velimWord maj min b) hi lo) = [] := by
    cases named with
    | true => exact if_pos rfl
    | false => rw [if_neg Bool.false_ne_true, badZero_eq_nil (h rfl) hhi hle]
  have hsat : bitsOf b.toNat 21 21 = 0 := bitsOf_eq_zero_of_le hx (by decide) (by decide) (by decide)
  have hlow : bitsOf b.toNat 20 0 = 0 := bitsOf_eq_zero_of_le hx (by decide) (by decide) (by decide)
  simp [vrBad, unnamed hb, unnamed hc, unnamed hrnd, badMask_eq_nil hm, badZero_eq_nil hsat, badZero_eq_nil hlow]

theorem hasVector_of_vectorial (hv : Vectorial k) : hasVector k = true := by
  simp only [hasVector, isCluster, isGate, Bool.or_eq_true, Bool.and_eq_true, decide_eq_true_eq]
  omega

/-! ## Issue of a vector instruction (R60, R78) -/

/-- On a stream with a vector unit a vector instruction with legal fields and with no vector register in wait acts. -/
theorem State.issue_vector {bad regs : List Nat} (act : State → State) (hv : Vectorial k) (hr : Runs s k b) (hbad : bad = [])
    (hs : VSettled s k regs) : s.issue k (velimWord maj min b) { bad := bad, engine := hasVector k, v := regs } [] act = act s := by
  obtain ⟨⟨hstop, hfrz, hrun, hfence, hwin, hgf, hstep, hask⟩, hg⟩ := hr
  refine issue_acts act hstop hfrz hrun hfence hwin ?_ hbad (hasVector_of_vectorial hv) (.inl ?_) ?_ rfl
  · rwa [bitsOf_velimWord _ _ _ _ _ (by decide) (by decide)]
  · rwa [guardOf_velimWord]
  · exact State.blocked_eq_false hstep hask settled_nil hs rfl

/-! ## Vector compares (R101) -/

theorem State.vecCmp_acts (rel : Nat → Nat → Bool) (hv : Vectorial k) (hr : Runs s k b) (hm : MaskOk b) (hd : bitsOf b.toNat 47 46 = 0)
    (hc : bitsOf b.toNat 32 28 = 0) (hz : bitsOf b.toNat 23 0 = 0) (hs : VSettled s k [fva b.toNat, fvb b.toNat]) :
    s.vecCmp k min b rel = (s.setP k (fd b.toNat) (BitVec.ofNat 512 ((laneList.map (fun i =>
      if s.active k b.toNat 24 i then rel (lane (s.vreg k (fva b.toNat)) i) (lane (s.vreg k (fvb b.toNat)) i)
      else (s.preg k (fd b.toNat)).getLsbD i)).foldr (fun x acc => 2 * acc + if x then 1 else 0) 0))).retire k := by
  have hrnd : bitsOf b.toNat 23 22 = 0 := bitsOf_eq_zero_of_le hz (by decide) (by decide) (by decide)
  have hx : bitsOf b.toNat 21 0 = 0 := bitsOf_eq_zero_of_le hz (by decide) (by decide) (by decide)
  have hform : vrBad (velimWord 0x21 min b) formAb = [] := vrBad_eq_nil hm nofun (fun _ => hc) (fun _ => hrnd) hx
  unfold State.vecCmp
  refine (State.issue_vector _ hv hr ?_ ?_).trans ?_
  · rw [badP_eq_nil hd (by decide), hform, List.append_nil]
  · simpa using hs
  · simp

/-- Each row of the table of vector compares is a compare with the row's relation. -/
theorem exec_vcmpRow {r : (Fin 50 → BitVec 52 → Instr) × (Nat → Nat → Bool)} (hr : r ∈ vcmpRows) (k : Fin 50) (b : BitVec 52) (s : State) :
    ∃ min, exec (r.1 k b) s = .next (s.vecCmp k min b r.2) := by
  simp only [vcmpRows, List.mem_cons, List.not_mem_nil, or_false] at hr
  rcases hr with rfl | rfl | rfl | rfl | rfl | rfl
  · exact ⟨0, rfl⟩
  · exact ⟨1, rfl⟩
  · exact ⟨2, rfl⟩
  · exact ⟨3, rfl⟩
  · exact ⟨4, rfl⟩
  · exact ⟨5, rfl⟩

/-! ## Lane reductions (R104) -/

/-- A reduction, with a rounding field or without one, puts the result of the tree over the active lanes, the identity standing in for
the others, into every lane. -/
theorem State.vecReduce_acts {rnd : Bool} (idn : Nat) (op : Nat → Nat → Nat → Nat × Nat) (hv : Vectorial k) (hr : Runs s k b) (hm : MaskOk b)
    (hbc : bitsOf b.toNat 37 28 = 0) (hrnd : rnd = false → bitsOf b.toNat 23 22 = 0) (hx : bitsOf b.toNat 21 0 = 0)
    (hs : VSettled s k [fd b.toNat, fva b.toNat]) {x : Nat × Nat} (htree : x = treeReduce (op (frnd b.toNat)) 9
      (laneList.map (fun i => if s.active k b.toNat 24 i then lane (s.vreg k (fva b.toNat)) i else idn)) 0) :
    s.vecReduce k min b { rnd := rnd } idn op = ((s.setV k (fd b.toNat) (vecOf (List.replicate 512 x.1))).orFlags k x.2).retire k := by
  have hb : bitsOf b.toNat 37 33 = 0 := bitsOf_eq_zero_of_le hbc (by decide) (by decide) (by decide)
  have hc : bitsOf b.toNat 32 28 = 0 := bitsOf_eq_zero_of_le hbc (by decide) (by decide) (by decide)
  unfold State.vecReduce
  refine (State.issue_vector _ hv hr (vrBad_eq_nil hm (fun _ => hb) (fun _ => hc) hrnd hx) ?_).trans ?_
  · simpa [vrForm] using hs
  · simp only [htree, fd_velimWord, fva_velimWord, frnd_velimWord, State.active_velimWord]

/-- Each row of the table of reductions is a reduction with the row's identity and function. -/
theorem exec_sumRow {r : SumRow} (hr : r ∈ sumRows) (k : Fin 50) (b : BitVec 52) (s : State) :
    ∃ min, exec (r.cmd k b) s = .next (s.vecReduce k min b { rnd := r.rounds } r.idn r.op) := by
  simp only [sumRows, List.mem_cons, List.not_mem_nil, or_false] at hr
  rcases hr with rfl | rfl | rfl
  · exact ⟨0, rfl⟩
  · exact ⟨1, rfl⟩
  · exact ⟨2, rfl⟩

end VectorInstructions

/-- Settles O17: the rows of the two tables through the shared forms of a vector compare and of a reduction. -/
theorem vectorCompareAndReduce : Obligations.VectorCompareAndReduce := by
  constructor
  · intro r hrow k b s hv hr hm hd hc hz hs
    obtain ⟨min, h⟩ := exec_vcmpRow hrow k b s
    rw [Gives, h, State.vecCmp_acts r.2 hv hr hm hd hc hz hs]
  · intro r hrow k b s hv hr hm hbc hrnd hx hs x htree
    obtain ⟨min, h⟩ := exec_sumRow hrow k b s
    rw [Gives, h, State.vecReduce_acts r.idn r.op hv hr hm hbc hrnd hx hs htree]

end Sys2Proof.Machine

/-! # The whole machine: the canonical form, the queue, and the clocks -/

namespace Sys2Proof.Machine

open Sys2Proof.Claims

/-- Every command keeps every register table and every memory in its canonical form, each by its own law. -/
theorem exec_ok (i : Instr) {s : State} (hs : s.Ok) : OkOut (exec i s) := by
  cases i with
  | regWrite => exact execRegWrite_ok hs
  | deferredSettingWrite path => exact execDeferredSettingWrite_ok (x0 := path) hs
  | bufferAudit => exact execBufferAudit_ok hs
  | lapEnable => exact execLapEnable_ok hs
  | lapDisable => exact execLapDisable_ok hs
  | lapRelock => exact execLapRelock_ok hs
  | lapCfgWrite => exact execLapCfgWrite_ok hs
  | lapEdge => exact execLapEdge_ok hs
  | lapInEdge => exact execLapInEdge_ok hs
  | ptpLapEdge => exact execPtpLapEdge_ok hs
  | lapMarkerRx => exact execLapMarkerRx_ok hs
  | ptpMessageRx => exact execPtpMessageRx_ok hs
  | lapHoldexp => exact execLapHoldexp_ok hs
  | overrunSend => exact execOverrunSend_ok hs
  | overrunRx => exact execOverrunRx_ok hs
  | templateRelease => exact execTemplateRelease_ok hs
  | instanceStart => exact execInstanceStart_ok hs
  | commitGen => exact execCommitGen_ok hs
  | commitRt => exact execCommitRt_ok hs
  | nop => exact execNop_ok hs
  | endInstance => exact execEndInstance_ok hs
  | trap => exact execTrap_ok hs
  | brk => exact execBrk_ok hs
  | fence => exact execFence_ok hs
  | mfsr => exact execMfsr_ok hs
  | mtsr => exact execMtsr_ok hs
  | add => exact execAdd_ok hs
  | sub => exact execSub_ok hs
  | and => exact execAnd_ok hs
  | or => exact execOr_ok hs
  | xor => exact execXor_ok hs
  | shl => exact execShl_ok hs
  | shr => exact execShr_ok hs
  | sra => exact execSra_ok hs
  | mul => exact execMul_ok hs
  | mulhu => exact execMulhu_ok hs
  | mulhs => exact execMulhs_ok hs
  | min => exact execMin_ok hs
  | minu => exact execMinu_ok hs
  | max => exact execMax_ok hs
  | maxu => exact execMaxu_ok hs
  | clz => exact execClz_ok hs
  | popc => exact execPopc_ok hs
  | sel => exact execSel_ok hs
  | movi => exact execMovi_ok hs
  | movhi => exact execMovhi_ok hs
  | cmpEq => exact execCmpEq_ok hs
  | cmpNe => exact execCmpNe_ok hs
  | cmpLt => exact execCmpLt_ok hs
  | cmpGe => exact execCmpGe_ok hs
  | cmpLtu => exact execCmpLtu_ok hs
  | cmpGeu => exact execCmpGeu_ok hs
  | pand => exact execPand_ok hs
  | por => exact execPor_ok hs
  | pxor => exact execPxor_ok hs
  | pandn => exact execPandn_ok hs
  | amov => exact execAmov_ok hs
  | smov => exact execSmov_ok hs
  | aadd => exact execAadd_ok hs
  | aaddi => exact execAaddi_ok hs
  | ld => exact execLd_ok hs
  | st => exact execSt_ok hs
  | ldComplete => exact execLdComplete_ok hs
  | xmov => exact execXmov_ok hs
  | xmovComplete => exact execXmovComplete_ok hs
  | br => exact execBr_ok hs
  | call => exact execCall_ok hs
  | ret => exact execRet_ok hs
  | loop => exact execLoop_ok hs
  | ccSet => exact execCcSet_ok hs
  | ccAdd => exact execCcAdd_ok hs
  | ccRd => exact execCcRd_ok hs
  | ccSetr => exact execCcSetr_ok hs
  | waitCc => exact execWaitCc_ok hs
  | waitCcr => exact execWaitCcr_ok hs
  | waitSt => exact execWaitSt_ok hs
  | waitCt => exact execWaitCt_ok hs
  | waitSatisfied => exact execWaitSatisfied_ok hs
  | waitLimitExpiry => exact execWaitLimitExpiry_ok hs
  | bufAlloc => exact execBufAlloc_ok hs
  | bufTry => exact execBufTry_ok hs
  | bufRef => exact execBufRef_ok hs
  | bufFree => exact execBufFree_ok hs
  | bufAddr => exact execBufAddr_ok hs
  | bufSize => exact execBufSize_ok hs
  | vadd => exact execVadd_ok hs
  | vsub => exact execVsub_ok hs
  | vmul => exact execVmul_ok hs
  | vfma => exact execVfma_ok hs
  | vmin => exact execVmin_ok hs
  | vmax => exact execVmax_ok hs
  | vabs => exact execVabs_ok hs
  | vneg => exact execVneg_ok hs
  | vmov => exact execVmov_ok hs
  | vbcast => exact execVbcast_ok hs
  | viota => exact execViota_ok hs
  | viadd => exact execViadd_ok hs
  | visub => exact execVisub_ok hs
  | vand => exact execVand_ok hs
  | vor => exact execVor_ok hs
  | vxor => exact execVxor_ok hs
  | vshl => exact execVshl_ok hs
  | vshr => exact execVshr_ok hs
  | vcmpEq => exact execVcmpEq_ok hs
  | vcmpLt => exact execVcmpLt_ok hs
  | vcmpLe => exact execVcmpLe_ok hs
  | vcmpUn => exact execVcmpUn_ok hs
  | vicmpEq => exact execVicmpEq_ok hs
  | vicmpLt => exact execVicmpLt_ok hs
  | vsel => exact execVsel_ok hs
  | vcvt => exact execVcvt_ok hs
  | vext => exact execVext_ok hs
  | vld => exact execVld_ok hs
  | vst => exact execVst_ok hs
  | vrsum => exact execVrsum_ok hs
  | vrmax => exact execVrmax_ok hs
  | vrmin => exact execVrmin_ok hs
  | vexp2 => exact execVexp2_ok hs
  | vlog2 => exact execVlog2_ok hs
  | vrcp => exact execVrcp_ok hs
  | vrsqrt => exact execVrsqrt_ok hs
  | vsqrt => exact execVsqrt_ok hs
  | gmm => exact execGmm_ok hs
  | gmmEntryDone => exact execGmmEntryDone_ok hs
  | groute => exact execGroute_ok hs
  | gselect => exact execGselect_ok hs
  | gclose => exact execGclose_ok hs
  | gateDispatchChoice => exact execGateDispatchChoice_ok hs
  | gateInstrComplete => exact execGateInstrComplete_ok hs
  | intakeTokenRx => exact execIntakeTokenRx_ok hs
  | intakeTallyRx => exact execIntakeTallyRx_ok hs
  | geLedgerWrite => exact execGeLedgerWrite_ok hs
  | courseLoad => exact execCourseLoad_ok hs
  | courseLoadDone => exact execCourseLoadDone_ok hs
  | slotStart => exact execSlotStart_ok hs
  | slotEnd => exact execSlotEnd_ok hs
  | dspPacketRx => exact execDspPacketRx_ok hs
  | retPacketRx => exact execRetPacketRx_ok hs
  | packetTransit => exact execPacketTransit_ok hs
  | cancelListExpiry => exact execCancelListExpiry_ok hs
  | rinkScrub => exact execRinkScrub_ok hs
  | rinkLock => exact execRinkLock_ok hs
  | lockerLock => exact execLockerLock_ok hs
  | lkrQuotaWrite => exact execLkrQuotaWrite_ok hs
  | lockerGrant => exact execLockerGrant_ok hs
  | bufferZeroDone => exact execBufferZeroDone_ok hs
  | memStart => exact execMemStart_ok hs
  | memCtlWrite => exact execMemCtlWrite_ok hs
  | memTrainingDone => exact execMemTrainingDone_ok hs
  | memZeroingDone => exact execMemZeroingDone_ok hs
  | memRequestServed => exact execMemRequestServed_ok hs
  | memBaseRefresh => exact execMemBaseRefresh_ok hs
  | memExtraRefresh => exact execMemExtraRefresh_ok hs
  | mr4Poll => exact execMr4Poll_ok hs
  | memRfm => exact execMemRfm_ok hs
  | memPatrolScrub => exact execMemPatrolScrub_ok hs
  | memRetrainStep => exact execMemRetrainStep_ok hs
  | memTrainlate => exact execMemTrainlate_ok hs
  | portEnable => exact execPortEnable_ok hs
  | portDisable _ v => exact execPortDisable_ok (x1 := v) hs
  | portTrainingDone => exact execPortTrainingDone_ok hs
  | portTrainTimeout => exact execPortTrainTimeout_ok hs
  | helloRx => exact execHelloRx_ok hs
  | helloRecheck => exact execHelloRecheck_ok hs
  | lcfGroupRx => exact execLcfGroupRx_ok hs
  | nakRx => exact execNakRx_ok hs
  | retryTimeout => exact execRetryTimeout_ok hs
  | laneLockLoss => exact execLaneLockLoss_ok hs
  | laneCodewordLimit => exact execLaneCodewordLimit_ok hs
  | failoverHelloRx => exact execFailoverHelloRx_ok hs
  | heartbeatSend => exact execHeartbeatSend_ok hs
  | heartbeatRx => exact execHeartbeatRx_ok hs
  | heartbeatLoss => exact execHeartbeatLoss_ok hs
  | ctlDataRx => exact execCtlDataRx_ok hs
  | fenceRx => exact execFenceRx_ok hs
  | fenceTableWrite => exact execFenceTableWrite_ok hs
  | mgroupWrite => exact execMgroupWrite_ok hs
  | mgroupRead => exact execMgroupRead_ok hs
  | fabCfgWrite => exact execFabCfgWrite_ok hs
  | radd => exact execRadd_ok hs
  | rmin => exact execRmin_ok hs
  | rminu => exact execRminu_ok hs
  | rmax => exact execRmax_ok hs
  | rmaxu => exact execRmaxu_ok hs
  | rswp => exact execRswp_ok hs
  | rcas => exact execRcas_ok hs
  | rstn => exact execRstn_ok hs
  | reqRx => exact execReqRx_ok hs
  | reqServed => exact execReqServed_ok hs
  | rspRx => exact execRspRx_ok hs
  | remoteTimeout => exact execRemoteTimeout_ok hs
  | rmemCtlWrite => exact execRmemCtlWrite_ok hs
  | rpost => exact execRpost_ok hs
  | rcancel => exact execRcancel_ok hs
  | radmit => exact execRadmit_ok hs
  | rfree => exact execRfree_ok hs
  | triggerFire => exact execTriggerFire_ok hs
  | relayPut => exact execRelayPut_ok hs
  | relayRput => exact execRelayRput_ok hs
  | relayGather => exact execRelayGather_ok hs
  | relayScatter => exact execRelayScatter_ok hs
  | relayOpEnd => exact execRelayOpEnd_ok hs
  | rsAdmitGrant => exact execRsAdmitGrant_ok hs
  | colPutRx => exact execColPutRx_ok hs
  | colRputRx => exact execColRputRx_ok hs
  | rsCombineDone faults => exact execRsCombineDone_ok (x0 := faults) hs
  | poisonNoticeRx => exact execPoisonNoticeRx_ok hs
  | rsCfgWrite => exact execRsCfgWrite_ok hs
  | create => exact execCreate_ok hs
  | preempt => exact execPreempt_ok hs
  | saveComplete => exact execSaveComplete_ok hs
  | resume => exact execResume_ok hs
  | halt => exact execHalt_ok hs
  | destroy => exact execDestroy_ok hs
  | teardown => exact execTeardown_ok hs
  | ctxRsetWrite => exact execCtxRsetWrite_ok hs
  | ctxJobWrite => exact execCtxJobWrite_ok hs
  | ctxPisteWrite => exact execCtxPisteWrite_ok hs
  | deliverRx => exact execDeliverRx_ok hs
  | commitRx => exact execCommitRx_ok hs
  | jobLeadStart => exact execJobLeadStart_ok hs
  | leadPhaseComplete => exact execLeadPhaseComplete_ok hs
  | leadPhaseTimeout => exact execLeadPhaseTimeout_ok hs
  | snpCfgWrite => exact execSnpCfgWrite_ok hs
  | snpSweepPage => exact execSnpSweepPage_ok hs
  | writePreserveDone => exact execWritePreserveDone_ok hs
  | rollbackCopyDone => exact execRollbackCopyDone_ok hs
  | ckptRequest => exact execCkptRequest_ok hs
  | ckptRelease => exact execCkptRelease_ok hs
  | drainCopyPage => exact execDrainCopyPage_ok hs
  | srd => exact execSrd_ok hs
  | sdig => exact execSdig_ok hs
  | sman => exact execSman_ok hs
  | snapshotInstrComplete => exact execSnapshotInstrComplete_ok hs
  | restoreStart => exact execRestoreStart_ok hs
  | restoreCheckDone => exact execRestoreCheckDone_ok hs
  | restoreFeed => exact execRestoreFeed_ok hs
  | restoreCommit => exact execRestoreCommit_ok hs
  | restoreCopyDone => exact execRestoreCopyDone_ok hs
  | restoreAbandon => exact execRestoreAbandon_ok hs
  | hostPortEnable => exact execHostPortEnable_ok hs
  | hostTrainingDone => exact execHostTrainingDone_ok hs
  | hostLinkLoss => exact execHostLinkLoss_ok hs
  | arpRx => exact execArpRx_ok hs
  | neighbourSolicitationRx => exact execNeighbourSolicitationRx_ok hs
  | frameDiscard => exact execFrameDiscard_ok hs
  | initRx => exact execInitRx_ok hs
  | finRx => exact execFinRx_ok hs
  | handshakeTimeout => exact execHandshakeTimeout_ok hs
  | capsuleRx => exact execCapsuleRx_ok hs
  | wcpAckSend => exact execWcpAckSend_ok hs
  | ackRx => exact execAckRx_ok hs
  | closeRx => exact execCloseRx_ok hs
  | sessionIdleTimeout => exact execSessionIdleTimeout_ok hs
  | wcpRetransmit => exact execWcpRetransmit_ok hs
  | sessionKill => exact execSessionKill_ok hs
  | mread => exact execMread_ok hs
  | mwrite => exact execMwrite_ok hs
  | put => exact execPut_ok hs
  | wcpNop => exact execWcpNop_ok hs
  | bootSlotVerified => exact execBootSlotVerified_ok hs
  | lcAdvance arg => exact execLcAdvance_ok (x0 := arg) hs
  | dbgSet => exact execDbgSet_ok hs
  | credInstall => exact execCredInstall_ok hs
  | credRevoke => exact execCredRevoke_ok hs
  | certInstall arg => exact execCertInstall_ok (x0 := arg) hs
  | attest arg => exact execAttest_ok (x0 := arg) hs
  | svnCommit => exact execSvnCommit_ok hs
  | ssWrite => exact execSsWrite_ok hs
  | ssVerify => exact execSsVerify_ok hs
  | ssActivate => exact execSsActivate_ok hs
  | ssStore => exact execSsStore_ok hs
  | ssWearScan => exact execSsWearScan_ok hs
  | censusStart => exact execCensusStart_ok hs
  | censusRx => exact execCensusRx_ok hs
  | censusLcfRx => exact execCensusLcfRx_ok hs
  | censusTimeout => exact execCensusTimeout_ok hs
  | telemetrySample => exact execTelemetrySample_ok hs
  | telemetryRecordWrite => exact execTelemetryRecordWrite_ok hs
  | telCtlWrite => exact execTelCtlWrite_ok hs
  | readWindowRead => exact execReadWindowRead_ok hs
  | standstillArmed => exact execStandstillArmed_ok hs
  | standstillNow => exact execStandstillNow_ok hs
  | standstillWriteDone => exact execStandstillWriteDone_ok hs
  | dbgResume => exact execDbgResume_ok hs
  | dbgStep => exact execDbgStep_ok hs
  | freezeAssert => exact execFreezeAssert_ok hs
  | freezeMemStop => exact execFreezeMemStop_ok hs
  | freezeClockStop => exact execFreezeClockStop_ok hs
  | cspace => exact execCspace_ok hs
  | scanDump => exact execScanDump_ok hs
  | roStart => exact execRoStart_ok hs
  | idcode => exact execIdcode_ok hs
  | bypass => exact execBypass_ok hs
  | samplePreload => exact execSamplePreload_ok hs
  | extest => exact execExtest_ok hs
  | tapReset => exact execTapReset_ok hs
  | supplyExcursion => exact execSupplyExcursion_ok hs
  | powerAverage10ms => exact execPowerAverage10ms_ok hs
  | powerAverage1s => exact execPowerAverage1s_ok hs
  | thermalSample => exact execThermalSample_ok hs
  | pwrDomWrite => exact execPwrDomWrite_ok hs
  | domainSwitch => exact execDomainSwitch_ok hs
  | p0 => exact execP0_ok hs
  | p1 => exact execP1_ok hs
  | p2 => exact execP2_ok hs
  | warm => exact execWarm_ok hs
  | p2EntryDone => exact execP2EntryDone_ok hs
  | refclkLoss => exact execRefclkLoss_ok hs
  | refclkBothLost => exact execRefclkBothLost_ok hs
  | srefclkLoss => exact execSrefclkLoss_ok hs
  | coldReset => exact execColdReset_ok hs
  | warmReset => exact execWarmReset_ok hs
  | resetRelease => exact execResetRelease_ok hs
  | i3cPrivateWrite => exact execI3cPrivateWrite_ok hs
  | i3cPrivateRead => exact execI3cPrivateRead_ok hs
  | setdasa => exact execSetdasa_ok hs
  | entdaa => exact execEntdaa_ok hs
  | hostPortDisable => exact execHostPortDisable_ok hs
  | refclkReturn => exact execRefclkReturn_ok hs
  | supplyInBand => exact execSupplyInBand_ok hs
  | ledgerZeroingDone => exact execLedgerZeroingDone_ok hs
  | saveImageReadbackDone => exact execSaveImageReadbackDone_ok hs
  | retentionRestoreDone => exact execRetentionRestoreDone_ok hs
  | storeComplete => exact execStoreComplete_ok hs
  | packetLastFlitSent => exact execPacketLastFlitSent_ok hs
  | ssCommandDone => exact execSsCommandDone_ok hs
  | secCommandDone => exact execSecCommandDone_ok hs

/-- `t` is what the issue of some instruction on stream `k` leaves. -/
def State.Issues (s : State) (k : Nat) (t : State) : Prop := ∃ w f fails act, t = s.issue k w f fails act

theorem State.issue_issues (s : State) (k w : Nat) (f : Form) (fails : List (Nat × Nat)) (act : State → State) :
    s.Issues k (s.issue k w f fails act) := ⟨w, f, fails, act, rfl⟩

theorem State.vecOp_issues (s : State) (k maj min : Nat) (b : BitVec 52) (f : VForm) (g : State → Nat → Nat → Nat × Nat) : s.Issues k (s.vecOp k maj min b f g) := by
  unfold State.vecOp
  exact s.issue_issues ..

theorem State.alu_issues (s : State) (k : Nat) (imm : Bool) (min : Nat) (b : BitVec 52) (op : Word → Word → Word) : s.Issues k (s.alu k imm min b op) := by
  unfold State.alu
  exact s.issue_issues ..

theorem State.alu1_issues (s : State) (k min : Nat) (b : BitVec 52) (op : Word → Word) : s.Issues k (s.alu1 k min b op) := by
  unfold State.alu1
  exact s.issue_issues ..

theorem State.cmp_issues (s : State) (k : Nat) (imm : Bool) (min : Nat) (b : BitVec 52) (op : Word → Word → Bool) : s.Issues k (s.cmp k imm min b op) := by
  unfold State.cmp
  exact s.issue_issues ..

theorem State.pred_issues (s : State) (k min : Nat) (b : BitVec 52) (op : Pred → Pred → Pred) : s.Issues k (s.pred k min b op) := by
  unfold State.pred
  exact s.issue_issues ..

theorem State.addrAdd_issues (s : State) (k w : Nat) (f : Form) (d : Int) : s.Issues k (s.addrAdd k w f d) := by
  unfold State.addrAdd
  exact s.issue_issues ..

theorem State.vecCmp_issues (s : State) (k min : Nat) (b : BitVec 52) (f : Nat → Nat → Bool) : s.Issues k (s.vecCmp k min b f) := by
  unfold State.vecCmp
  exact s.issue_issues ..

theorem State.vecReduce_issues (s : State) (k min : Nat) (b : BitVec 52) (f : VForm) (idn : Nat) (g : Nat → Nat → Nat → Nat × Nat) : s.Issues k (s.vecReduce k min b f idn g) := by
  unfold State.vecReduce
  exact s.issue_issues ..

theorem State.atomic_issues (s : State) (k min : Nat) (b : BitVec 52) (code : Nat) : s.Issues k (s.atomic k min b code) := by
  unfold State.atomic
  exact s.issue_issues ..

theorem State.issueGate_issues (s : State) (k w kind : Nat) : s.Issues k (s.issueGate k w kind) := by
  unfold State.issueGate
  exact s.issue_issues ..

theorem State.snapIssue_issues (s : State) (k min n : Nat) (b : BitVec 52) : s.Issues k (s.snapIssue k min n b) := by
  unfold State.snapIssue
  exact s.issue_issues ..

/-- A Velim instruction is one issue on its stream. -/
theorem exec_issues {i : Instr} {k : Fin 50} (s : State) (h : velimStream i = some k) : ∃ t, exec i s = .next t ∧ s.Issues k t := by
  cases i with
  | vadd | vsub | vmul | vfma | vmin | vmax | vabs | vneg | vmov | viota | viadd | visub | vand | vor | vxor | vshl | vshr | vexp2
  | vlog2 | vrcp | vrsqrt | vsqrt =>
    obtain rfl := Option.some.inj h
    exact ⟨_, rfl, s.vecOp_issues ..⟩
  | add | sub | and | or | xor | shl | shr | sra | mul | mulhu | mulhs | min | minu | max | maxu =>
    obtain rfl := Option.some.inj h
    exact ⟨_, rfl, s.alu_issues ..⟩
  | radd | rmin | rminu | rmax | rmaxu | rswp | rcas | rstn =>
    obtain rfl := Option.some.inj h
    exact ⟨_, rfl, s.atomic_issues ..⟩
  | vcmpEq | vcmpLt | vcmpLe | vcmpUn | vicmpEq | vicmpLt =>
    obtain rfl := Option.some.inj h
    exact ⟨_, rfl, s.vecCmp_issues ..⟩
  | cmpEq | cmpNe | cmpLt | cmpGe | cmpLtu | cmpGeu =>
    obtain rfl := Option.some.inj h
    exact ⟨_, rfl, s.cmp_issues ..⟩
  | pand | por | pxor | pandn =>
    obtain rfl := Option.some.inj h
    exact ⟨_, rfl, s.pred_issues ..⟩
  | vrsum | vrmax | vrmin =>
    obtain rfl := Option.some.inj h
    exact ⟨_, rfl, s.vecReduce_issues ..⟩
  | groute | gselect | gclose =>
    obtain rfl := Option.some.inj h
    exact ⟨_, rfl, s.issueGate_issues ..⟩
  | srd | sdig | sman =>
    obtain rfl := Option.some.inj h
    exact ⟨_, rfl, s.snapIssue_issues ..⟩
  | clz | popc =>
    obtain rfl := Option.some.inj h
    exact ⟨_, rfl, s.alu1_issues ..⟩
  | aadd | aaddi =>
    obtain rfl := Option.some.inj h
    exact ⟨_, rfl, s.addrAdd_issues ..⟩
  | nop | endInstance | trap | brk | fence | mfsr | mtsr | sel | movi | movhi | amov | smov | ld | st | xmov | br | call | ret | loop
  | ccSet | ccAdd | ccRd | ccSetr | waitCc | waitCcr | waitSt | waitCt | bufAlloc | bufTry | bufRef | bufFree | bufAddr | bufSize
  | vbcast | vsel | vcvt | vext | vld | vst | gmm | rpost | rcancel | radmit | rfree =>
    obtain rfl := Option.some.inj h
    exact ⟨_, rfl, s.issue_issues ..⟩
  | _ => nomatch h

/-- While the clocks are stopped, a freeze is in force, the stream is not in RUN or a FENCE or END of it waits, nothing issues (R70, R423). -/
theorem State.Issues.eq_self {s t : State} {k : Nat} (h : s.Issues k t)
    (hold : s.stopped = true ∨ s.frozen = true ∨ s.engState k ≠ EngSt.run ∨ (s.stream k).fenceWait ≠ none) : t = s := by
  obtain ⟨w, f, fails, act, rfl⟩ := h
  exact if_pos hold

/-- A command that waits on the clocks answers a next state, and the state itself while they are stopped. -/
theorem State.live_answers (s x : State) : ∃ t, s.live (.next x) = .next t ∧ (s.stopped = true → t = s) := by
  unfold State.live
  split
  · exact ⟨s, rfl, fun _ => rfl⟩
  · next h => exact ⟨x, rfl, fun hs => absurd hs h⟩

theorem State.granting_answers (s x : State) : ∃ t, s.granting (.next x) = .next t ∧ (s.stopped = true → t = s) := by
  unfold State.granting
  split
  · exact ⟨s, rfl, fun _ => rfl⟩
  · next h => exact ⟨x, rfl, fun hs => absurd (.inl hs) h⟩

/-- Every command answers a next state. While the clocks are stopped it is the state itself, save for a command of the always-on
domain and for a register write: a Velim instruction does not issue, and the other commands wait on the clocks or, where the Rink or
issue carries them, on the freeze too. -/
theorem exec_answers (i : Instr) (s : State) : ∃ t, exec i s = .next t ∧
    (s.stopped = true → actsWithoutClocks i = false → (∀ (path : Path) (off : BitVec 24) (v : Word), i ≠ .regWrite path off v) →
      t = s) := by
  have relax {r : Res} {P Q : Prop} (h : ∃ t, r = .next t ∧ (s.stopped = true → t = s)) :
      ∃ t, r = .next t ∧ (s.stopped = true → P → Q → t = s) :=
    h.imp fun _ h => ⟨h.1, fun hs _ _ => h.2 hs⟩
  cases hk : velimStream i with
  | some k =>
    obtain ⟨t, ht, hissue⟩ := exec_issues s hk
    exact relax ⟨t, ht, fun hs => hissue.eq_self (.inl hs)⟩
  | none =>
    cases i with
    | regWrite path off v => exact ⟨_, rfl, fun _ _ h => absurd rfl (h path off v)⟩
    | bootSlotVerified => exact ⟨_, rfl, fun hs _ _ => if_pos (.inr (.inl hs))⟩
    | freezeAssert | freezeMemStop | freezeClockStop | cspace | scanDump | roStart | idcode | bypass | samplePreload | extest | tapReset
    | supplyExcursion | powerAverage10ms | powerAverage1s | thermalSample | pwrDomWrite | domainSwitch | p0 | p1 | p2 | warm
    | p2EntryDone | refclkLoss | refclkBothLost | srefclkLoss | coldReset | warmReset | resetRelease | i3cPrivateWrite | i3cPrivateRead
    | setdasa | entdaa | refclkReturn | supplyInBand => exact ⟨_, rfl, fun _ h => nomatch h⟩
    | ldComplete | xmovComplete | waitSatisfied | waitLimitExpiry | gmmEntryDone | gateDispatchChoice | gateInstrComplete | intakeTokenRx
    | intakeTallyRx | courseLoadDone | dspPacketRx | retPacketRx | packetTransit | rinkScrub | lockerGrant | bufferZeroDone | reqServed
    | triggerFire | relayPut | relayRput | relayGather | relayScatter | relayOpEnd | rsAdmitGrant | colPutRx | colRputRx | rsCombineDone
    | saveComplete | snpSweepPage | writePreserveDone | rollbackCopyDone | drainCopyPage | snapshotInstrComplete | restoreCheckDone
    | restoreFeed | restoreCopyDone | put | telemetrySample | telemetryRecordWrite | readWindowRead | standstillWriteDone
    | ledgerZeroingDone | saveImageReadbackDone | retentionRestoreDone | storeComplete => exact relax (s.granting_answers _)
    | deferredSettingWrite | bufferAudit | lapEnable | lapDisable | lapRelock | lapCfgWrite | lapEdge | lapInEdge | ptpLapEdge
    | lapMarkerRx | ptpMessageRx | lapHoldexp | overrunSend | overrunRx | templateRelease | instanceStart | commitGen | commitRt
    | geLedgerWrite | courseLoad | slotStart | slotEnd | cancelListExpiry | rinkLock | lockerLock | lkrQuotaWrite | memStart
    | memCtlWrite | memTrainingDone | memZeroingDone | memRequestServed | memBaseRefresh | memExtraRefresh | mr4Poll | memRfm
    | memPatrolScrub | memRetrainStep | memTrainlate | portEnable | portDisable | portTrainingDone | portTrainTimeout | helloRx
    | helloRecheck | lcfGroupRx | nakRx | retryTimeout | laneLockLoss | laneCodewordLimit | failoverHelloRx | heartbeatSend | heartbeatRx
    | heartbeatLoss | ctlDataRx | fenceRx | fenceTableWrite | mgroupWrite | mgroupRead | fabCfgWrite | reqRx | rspRx | remoteTimeout
    | rmemCtlWrite | poisonNoticeRx | rsCfgWrite | create | preempt | resume | halt | destroy | teardown | ctxRsetWrite | ctxJobWrite
    | ctxPisteWrite | deliverRx | commitRx | jobLeadStart | leadPhaseComplete | leadPhaseTimeout | snpCfgWrite | ckptRequest
    | ckptRelease | restoreStart | restoreCommit | restoreAbandon | hostPortEnable | hostTrainingDone | hostLinkLoss | arpRx
    | neighbourSolicitationRx | frameDiscard | initRx | finRx | handshakeTimeout | capsuleRx | wcpAckSend | ackRx | closeRx
    | sessionIdleTimeout | wcpRetransmit | sessionKill | mread | mwrite | wcpNop | lcAdvance | dbgSet | credInstall | credRevoke
    | certInstall | attest | svnCommit | ssWrite | ssVerify | ssActivate | ssStore | ssWearScan | censusStart | censusRx | censusLcfRx
    | censusTimeout | telCtlWrite | standstillArmed | standstillNow | dbgResume | dbgStep | hostPortDisable | packetLastFlitSent
    | ssCommandDone | secCommandDone => exact relax (s.live_answers _)
    | _ => nomatch hk

/-- An instruction of register form whose guard is false retires, whatever its registers wait for (R60). -/
theorem State.issue_guardFalse {s : State} {k maj min : Nat} {b : BitVec 52} {bad regs : List Nat} {fails : List (Nat × Nat)}
    (act : State → State) (hc : CanIssue s k b) (hbad : bad = []) (hg : s.guardOf k b.toNat = false) :
    s.issue k (velimWord maj min b) { bad := bad, s := regs } fails act = s.retire k := by
  have hform : s.formFaults k (velimWord maj min b) { bad := bad, s := regs } = [] := by
    rw [State.formFaults_scalar hc, hbad, List.map_nil]
  obtain ⟨hstop, hfrz, hrun, hfence, -⟩ := hc
  have hnone : firstFault [] = none := rfl
  simp [State.issue, hstop, hfrz, hrun, hfence, hform, hnone, hg]

theorem State.alu_guardFalse {s : State} {k : Nat} {b : BitVec 52} (min : Nat) (op : Word → Word → Word) (hc : CanIssue s k b)
    (hz : bitsOf b.toNat 32 0 = 0) (hg : s.guardOf k b.toNat = false) : s.alu k false min b op = s.retire k := by
  unfold State.alu
  exact State.issue_guardFalse _ hc (badZero_eq_nil hz (by decide) (by decide)) hg

theorem State.alu_encFault {s : State} {k : Nat} {b : BitVec 52} (min : Nat) (op : Word → Word → Word) (hc : CanIssue s k b)
    (hp : Precise s k) (hz : bitsOf b.toNat 32 0 ≠ 0) : s.alu k false min b op = s.streamFault k F_ISA_ENC 0 (s.rd (ENG_PC.PC k)) := by
  unfold State.alu
  exact State.issue_scalar_encFault _ hc hp (badZero_eq_singleton hz (by decide) (by decide))

/-! ## The obligations -/

/-- Settles O57: a step is one command on the state with the rest of the queue, or one clk. -/
theorem stepKeepsCanonicalForm : Obligations.StepKeepsCanonicalForm := by
  intro s t hs h
  unfold step at h
  split at h
  · exact OkOut.next (State.tick_ok hs) t h
  · exact exec_ok _ (State.Ok.upd hs) t h

/-- Settles O60: a command's answer, and the register writes of the paths whose block has no clock. -/
theorem stoppedClocksHold : Obligations.StoppedClocksHold := by
  refine ⟨fun i s => (exec_answers i s).imp fun _ h => h.1, fun s hs => ⟨fun i hi hreg => ?_, fun path off v h3 hj => ?_⟩⟩
  · obtain ⟨t, ht, hold⟩ := exec_answers i s
    rwa [hold hs hi hreg] at ht
  · exact congrArg _ (if_pos ⟨hs, h3, hj⟩)

/-- Settles O1. -/
theorem stepRunsTheFrontCommand : Obligations.StepRunsTheFrontCommand := by
  intro s c rest h
  rw [step, h]

/-- Settles O2: the three cases of a clk with no command. -/
theorem emptyQueueTicks : Obligations.EmptyQueueTicks := by
  intro s h
  have hstep : step s = .next s.tick := by rw [step, h]
  refine ⟨fun hs => ?_, fun hs hc => ?_, fun hs hc => ?_⟩
  · rw [hstep, State.tick, if_pos hs]
  · rw [hstep, State.tick, if_neg (by simp [hs]), if_pos hc]
  · rw [hstep, State.tick, if_neg (by simp [hs]), if_neg hc]

/-- Settles O10: what holds a stream back holds every issue on it; the ALU forms through their shared form. -/
theorem guardAndEncoding : Obligations.GuardAndEncoding := by
  refine ⟨fun i k s hi hold => ?_, fun r hrow k b s => ?_⟩
  · obtain ⟨t, ht, hissue⟩ := exec_issues s hi
    rw [Gives, ht, hissue.eq_self hold]
  · obtain ⟨min, h⟩ := exec_aluRow hrow k false b s fun _ => rfl
    rw [Gives, Gives, h]
    exact ⟨fun hc hz hg => congrArg _ (State.alu_guardFalse min r.op hc hz hg),
      fun hc hp hz => congrArg _ (State.alu_encFault min r.op hc hp hz)⟩

end Sys2Proof.Machine

/-! # The Velim core: register files, retiring, addresses, control -/

namespace Sys2Proof.Machine

open Sys2Proof.Claims

/-! ## Reads of a register file after a write (R57, R58) -/

section RegisterFiles

variable (s : State) (k r : Nat) (v : Word) (q : Pred)

theorem State.stream_updStream (f : Stream → Stream) (j : Nat) : (s.updStream k f).stream j = if j = k then f (s.stream k) else s.stream j :=
  State.stream_setStream ..

theorem State.setS_eq : s.setS k r v = if r = 0 then s else s.updStream k (fun x => { x with s := tset zeroWord x.s r v }) := rfl

theorem State.sreg_zero : s.sreg k 0 = 0 := rfl

theorem State.preg_zero : s.preg k 0 = BitVec.allOnes 512 := rfl

/-- The scalar registers after a write: s0 stays 0, the register written holds its value, the others keep theirs. -/
theorem State.sreg_setS (j p : Nat) : (s.setS k r v).sreg j p = if r ≠ 0 ∧ j = k ∧ p = r then v else s.sreg j p := by
  unfold State.setS State.sreg
  by_cases hr : r = 0
  · simp [hr]
  by_cases hj : j = k
  · subst hj
    by_cases hp : p = r
    · subst hp; simp [hr]
    · simp [hr, hp, tget_tset]
  · simp [hr, hj, State.stream_updStream]

theorem State.preg_setP (j p : Nat) : (s.setP k r q).preg j p = if r ≠ 0 ∧ j = k ∧ p = r then q else s.preg j p := by
  unfold State.setP State.preg
  by_cases hr : r = 0
  · simp [hr]
  by_cases hj : j = k
  · subst hj
    by_cases hp : p = r
    · subst hp; simp [hr]
    · simp [hr, hp, tget_tset]
  · simp [hr, hj, State.stream_updStream]

/-- An update of a stream that keeps one register file keeps what is read of it. -/
theorem State.sreg_updStream {f : Stream → Stream} (h : ∀ x, (f x).s = x.s) (j p : Nat) : (s.updStream k f).sreg j p = s.sreg j p := by
  unfold State.sreg
  rw [State.stream_updStream]
  by_cases hj : j = k
  · rw [if_pos hj, h, hj]
  · rw [if_neg hj]

theorem State.areg_updStream {f : Stream → Stream} (h : ∀ x, (f x).a = x.a) (j p : Nat) : (s.updStream k f).areg j p = s.areg j p := by
  unfold State.areg
  rw [State.stream_updStream]
  by_cases hj : j = k
  · rw [if_pos hj, h, hj]
  · rw [if_neg hj]

theorem State.preg_updStream {f : Stream → Stream} (h : ∀ x, (f x).p = x.p) (j p : Nat) : (s.updStream k f).preg j p = s.preg j p := by
  unfold State.preg
  rw [State.stream_updStream]
  by_cases hj : j = k
  · rw [if_pos hj, h, hj]
  · rw [if_neg hj]

theorem State.vreg_updStream {f : Stream → Stream} (h : ∀ x, (f x).v = x.v) (j p : Nat) : (s.updStream k f).vreg j p = s.vreg j p := by
  unfold State.vreg
  rw [State.stream_updStream]
  by_cases hj : j = k
  · rw [if_pos hj, h, hj]
  · rw [if_neg hj]

/-- What every update of a stream leaves, a write of a scalar register leaves. -/
theorem State.setS_keeps {α : Type} {p : State → α} (h : ∀ f, p (s.updStream k f) = p s) : p (s.setS k r v) = p s := by
  unfold State.setS
  split
  · rfl
  · exact h _

theorem State.areg_setS (j p : Nat) : (s.setS k r v).areg j p = s.areg j p := by
  unfold State.setS
  split
  · rfl
  · exact State.areg_updStream s k (by intro _; rfl) j p

theorem State.preg_setS (j p : Nat) : (s.setS k r v).preg j p = s.preg j p := by
  unfold State.setS
  split
  · rfl
  · exact State.preg_updStream s k (by intro _; rfl) j p

theorem State.vreg_setS (j p : Nat) : (s.setS k r v).vreg j p = s.vreg j p := by
  unfold State.setS
  split
  · rfl
  · exact State.vreg_updStream s k (by intro _; rfl) j p

theorem State.sreg_setP (j p : Nat) : (s.setP k r q).sreg j p = s.sreg j p := by
  unfold State.setP
  split
  · rfl
  · exact State.sreg_updStream s k (by intro _; rfl) j p

/-- A register file is read from the streams alone. -/
theorem State.files_of_streams {s t : State} (h : t.streams = s.streams) (j p : Nat) :
    t.sreg j p = s.sreg j p ∧ t.areg j p = s.areg j p ∧ t.preg j p = s.preg j p ∧ t.vreg j p = s.vreg j p := by
  have hstream : t.stream j = s.stream j := by rw [State.stream, h, State.stream]
  simp only [State.sreg, State.areg, State.preg, State.vreg, hstream, and_self]

end RegisterFiles

/-! ## Retiring (R57, R78) -/

/-- A stream that is not under a debugger's step retires by a write of its pc and of its count. -/
theorem State.retire_eq {s : State} {k : Nat} (h : (s.stream k).stepOne = false) :
    s.retire k = (s.wr (ENG_PC.PC k) (s.rd (ENG_PC.PC k) + 8)).wr (ENG_COUNT.RETIRED k) (s.rd (ENG_COUNT.RETIRED k) + 1) := by
  have hne : (ENG_COUNT.RETIRED k).off ≠ (ENG_PC.PC k).off := by simp [ENG_COUNT.RETIRED, ENG_PC.PC]
  simp [State.retire, State.retireTo, State.addMod, State.rd_wr_ne _ _ _ _ hne, h]

/-! ## Addresses (R66) -/

theorem badA_eq_nil {maj min lo : Nat} {b : BitVec 52} (h : bitsOf b.toNat (lo + 4) (lo + 4) = 0) (hlo : lo + 4 < 52) :
    badA (velimWord maj min b) lo = [] := by
  rw [badA, bitsOf_velimWord _ _ _ _ _ hlo (by omega), if_pos h]

/-- The forms of AADD and AADDI name an address register at each of two fields of five bits. -/
theorem badA_pair_eq_nil {maj min : Nat} {b : BitVec 52} (hd : bitsOf b.toNat 47 47 = 0) (ha : bitsOf b.toNat 42 42 = 0) :
    badA (velimWord maj min b) 43 ++ badA (velimWord maj min b) 38 = [] := by
  rw [badA_eq_nil hd (by decide), badA_eq_nil ha (by decide), List.append_nil]

section Addresses

variable {s : State} {k : Fin 50} {b : BitVec 52}

theorem execAmov_acts (hr : Runs s k b) (hd : bitsOf b.toNat 47 47 = 0) (hz : bitsOf b.toNat 37 0 = 0) (hs : Settled s k [fa b.toNat]) :
    execAmov k b s = .next ((s.setA k (fd b.toNat) (s.sreg k (fa b.toNat))).retire k) := by
  obtain ⟨hc, hg⟩ := hr
  have hb : bitsOf b.toNat 37 33 = 0 := bitsOf_eq_zero_of_le hz (by decide) (by decide) (by decide)
  have hlow : bitsOf b.toNat 32 0 = 0 := bitsOf_eq_zero_of_le hz (by decide) (by decide) (by decide)
  unfold execAmov
  refine congrArg _ ((State.issue_scalar _ hc ?_ ?_ (.inl hg) rfl).trans ?_)
  · rw [badA_eq_nil hd (by decide), badZero_eq_nil hb (by decide) (by decide), badZero_eq_nil hlow (by decide) (by decide)]
    rfl
  · simpa using hs
  · simp

theorem execSmov_acts (hr : Runs s k b) (ha : bitsOf b.toNat 42 42 = 0) (hz : bitsOf b.toNat 37 0 = 0) (hs : Settled s k [fd b.toNat]) :
    execSmov k b s = .next ((s.setS k (fd b.toNat) (s.areg k (fa b.toNat))).retire k) := by
  obtain ⟨hc, hg⟩ := hr
  have hb : bitsOf b.toNat 37 33 = 0 := bitsOf_eq_zero_of_le hz (by decide) (by decide) (by decide)
  have hlow : bitsOf b.toNat 32 0 = 0 := bitsOf_eq_zero_of_le hz (by decide) (by decide) (by decide)
  unfold execSmov
  refine congrArg _ ((State.issue_scalar _ hc ?_ ?_ (.inl hg) rfl).trans ?_)
  · rw [badA_eq_nil ha (by decide), badZero_eq_nil hb (by decide) (by decide), badZero_eq_nil hlow (by decide) (by decide)]
    rfl
  · simpa using hs
  · simp

variable {maj min : Nat} {bad regs : List Nat} {d : Int}

/-- A sum within 0 to 2^60 - 1 keeps the space code. -/
theorem State.addrAdd_acts {n : Nat} (hr : Runs s k b) (hbad : bad = []) (hs : Settled s k regs)
    (hn : effOff (s.areg k (fa b.toNat)) d = some n) :
    s.addrAdd k (velimWord maj min b) { bad := bad, s := regs } d = (s.setA k (fd b.toNat)
      (BitVec.ofNat 64 (spaceOf (s.areg k (fa b.toNat)).toNat * 2 ^ 60 + n))).retire k := by
  obtain ⟨hc, hg⟩ := hr
  unfold State.addrAdd
  refine (State.issue_scalar _ hc hbad hs (.inl hg) ?_).trans ?_
  · simp [hn]
  · simp [hn]

/-- A sum outside raises F_ISA_AOVF at operand a. -/
theorem State.addrAdd_overflow (hr : Runs s k b) (hp : Precise s k) (hbad : bad = []) (hs : Settled s k regs)
    (hn : effOff (s.areg k (fa b.toNat)) d = none) :
    s.addrAdd k (velimWord maj min b) { bad := bad, s := regs } d = s.streamFault k F_ISA_AOVF 38 (s.rd (ENG_PC.PC k)) := by
  unfold State.addrAdd
  refine State.issue_scalar_operandFault _ hr hp hbad hs ?_
  simp [hn]

end Addresses

/-! ## The obligations -/

/-- Settles O3: what a read after a write gives, and that a write of a stream's registers moves no other part. -/
theorem registerFileWrites : Obligations.RegisterFileWrites := by
  refine ⟨fun s k r v => ⟨?_, fun hr => ?_, fun j q h => ?_, fun j q => ⟨State.areg_setS .., State.preg_setS .., State.vreg_setS ..⟩,
    State.setS_keeps _ _ _ _ fun _ => rfl, State.setS_keeps _ _ _ _ fun _ => rfl, State.setS_keeps _ _ _ _ fun _ => rfl,
    State.setS_keeps _ _ _ _ fun _ => rfl, State.setS_keeps _ _ _ _ fun _ => rfl⟩,
    fun s k r v => ⟨?_, fun hr => ?_, fun j q h => ?_, fun j q => State.sreg_setP ..⟩⟩
  · exact State.sreg_zero _ _
  · rw [State.sreg_setS, if_pos ⟨hr, rfl, rfl⟩]
  · rw [State.sreg_setS, if_neg fun h' => h h'.2]
  · exact State.preg_zero _ _
  · rw [State.preg_setP, if_pos ⟨hr, rfl, rfl⟩]
  · rw [State.preg_setP, if_neg fun h' => h h'.2]

/-- Settles O4: retiring is one write of ENG_PC and one of ENG_COUNT. -/
theorem retireFrame : Obligations.RetireFrame := by
  intro s k _ hstep
  have hne : (ENG_PC.PC k).off ≠ (ENG_COUNT.RETIRED k).off := by simp [ENG_COUNT.RETIRED, ENG_PC.PC]
  rw [State.retire_eq hstep]
  refine ⟨?_, ?_, fun off hpc hcount => ?_, fun j r => State.files_of_streams (by simp) j r, by simp, by simp, by simp,
    by simp, by simp⟩
  · rw [State.rd_wr_ne _ _ _ _ hne, State.rd_wr_same _ _ _ (by simp [ENG_PC.PC]) (by simp [ENG_PC.PC])]
    simp [ENG_PC.PC]
  · rw [State.rd_wr_same _ _ _ (by simp [ENG_COUNT.RETIRED]) (by simp [ENG_COUNT.RETIRED]), Fld.width]
  · rw [State.reg_wr_ne _ _ _ hcount, State.reg_wr_ne _ _ _ hpc]

/-- Settles O7: the copies, and the two sums through their shared form. -/
theorem addressResults : Obligations.AddressResults := by
  intro k b s hr
  refine ⟨execAmov_acts hr, execSmov_acts hr, fun n hd ha hz hs hn => ?_, fun n hd ha hn => ?_, fun hp hd ha hz hs hn => ?_,
    fun hp hd ha hn => ?_⟩
  · refine congrArg _ (State.addrAdd_acts hr ?_ ?_ ?_)
    · rw [badA_pair_eq_nil hd ha, badZero_eq_nil hz (by decide) (by decide), List.append_nil]
    · simpa using hs
    · simpa using hn
  · refine congrArg _ (State.addrAdd_acts hr (badA_pair_eq_nil hd ha) settled_nil ?_)
    rwa [sfield_velimWord _ _ _ _ _ (by decide) (by decide)]
  · refine congrArg _ (State.addrAdd_overflow hr hp ?_ ?_ ?_)
    · rw [badA_pair_eq_nil hd ha, badZero_eq_nil hz (by decide) (by decide), List.append_nil]
    · simpa using hs
    · simpa using hn
  · refine congrArg _ (State.addrAdd_overflow hr hp (badA_pair_eq_nil hd ha) settled_nil ?_)
    rwa [sfield_velimWord _ _ _ _ _ (by decide) (by decide)]

end Sys2Proof.Machine

/-! # The Velim core: control, counters, waits, buffers -/

namespace Sys2Proof.Machine

open Sys2Proof.Claims

section Control

variable {s : State} {k : Fin 50} {b : BitVec 52}

/-! ## Control (R67, R70, R72) -/

/-- An instruction with no field but its guard acts. -/
theorem State.issue_zForm {maj min : Nat} (act : State → State) (hr : Runs s k b) (hz : bitsOf b.toNat 47 0 = 0) :
    s.issue k (velimWord maj min b) (zForm (velimWord maj min b)) [] act = act s := by
  unfold zForm
  exact State.issue_scalar act hr.1 (badZero_eq_nil hz (by decide) (by decide)) settled_nil (.inl hr.2) rfl

/-- A FENCE or END waits for the memory operations in flight. -/
theorem State.fenceDone_waits {w : Option FenceWait} (h : (s.stream k).ops ≠ []) :
    (s.updStream k (fun x => { x with fenceWait := w })).fenceDone k = s.updStream k (fun x => { x with fenceWait := w }) := by
  simp [State.fenceDone, h]

theorem execFence_acts (hr : Runs s k b) (hz : bitsOf b.toNat 47 0 = 0) :
    execFence k b s = .next ((s.updStream k (fun x => { x with fenceWait := some .fence })).fenceDone k) := by
  unfold execFence
  exact congrArg _ (State.issue_zForm _ hr hz)

theorem execEndInstance_acts (hr : Runs s k b) (hz : bitsOf b.toNat 47 0 = 0) :
    execEndInstance k b s = .next ((s.updStream k (fun x => { x with fenceWait := some .endInst })).fenceDone k) := by
  unfold execEndInstance
  exact congrArg _ (State.issue_zForm _ hr hz)

theorem execNop_acts (hr : Runs s k b) (hz : bitsOf b.toNat 47 0 = 0) : execNop k b s = .next (s.retire k) := by
  unfold execNop
  exact congrArg _ (State.issue_zForm _ hr hz)

/-- BRK stops the stream where the debug level is D3. -/
theorem execBrk_stops (hr : Runs s k b) (hz : bitsOf b.toNat 47 0 = 0) (hd : s.dbg = 3) :
    execBrk k b s = .next ((s.retire k).setEngState k EngSt.brk) := by
  unfold execBrk
  rw [if_pos hd]
  exact congrArg _ (State.issue_zForm _ hr hz)

theorem execBrk_faults (hr : Runs s k b) (hz : bitsOf b.toNat 47 0 = 0) (hd : s.dbg ≠ 3) (hp : Precise s k) :
    execBrk k b s = .next (s.streamFault k F_ISA_BRK 0 (s.rd (ENG_PC.PC k))) := by
  unfold execBrk zForm
  exact congrArg _ (State.issue_scalar_operandFault _ hr hp (badZero_eq_nil hz (by decide) (by decide)) settled_nil (if_neg hd))

theorem execTrap_faults (hr : Runs s k b) (hz : bitsOf b.toNat 47 16 = 0) (hp : Precise s k) :
    execTrap k b s = .next (s.streamFault k F_ISA_TRAP (bitsOf b.toNat 15 0) (s.rd (ENG_PC.PC k))) := by
  unfold execTrap
  refine congrArg _ (State.issue_scalar_operandFault _ hr hp (badZero_eq_nil hz (by decide) (by decide)) settled_nil ?_)
  rw [bitsOf_velimWord _ _ _ _ _ (by decide) (by decide)]

theorem execMfsr_acts (hr : Runs s k b) (hz : bitsOf b.toNat 42 38 = 0) (hn : bitsOf b.toNat 37 0 ≤ 9) (hs : Settled s k [fd b.toNat]) :
    execMfsr k b s = .next ((s.setS k (fd b.toNat) (BitVec.ofNat 64 (s.special k (bitsOf b.toNat 37 0)))).retire k) := by
  unfold execMfsr
  simp only [bitsOf_velimWord 0 5 b 37 0 (by decide) (by decide), if_pos hn, fd_velimWord]
  exact congrArg _ (State.issue_scalar _ hr.1 (badZero_eq_nil hz (by decide) (by decide)) hs (.inl hr.2) rfl)

theorem execMfsr_faults (hr : Runs s k b) (hz : bitsOf b.toNat 42 38 = 0) (hn : 9 < bitsOf b.toNat 37 0) (hs : Settled s k [fd b.toNat])
    (hp : Precise s k) : execMfsr k b s = .next (s.streamFault k F_ISA_SPR 0 (s.rd (ENG_PC.PC k))) := by
  unfold execMfsr
  simp only [bitsOf_velimWord 0 5 b 37 0 (by decide) (by decide), if_neg (Nat.not_le.2 hn), fd_velimWord]
  exact congrArg _ (State.issue_scalar_operandFault _ hr hp (badZero_eq_nil hz (by decide) (by decide)) hs rfl)

/-- MTSR writes the two special registers that can be written. -/
theorem execMtsr_acts (hr : Runs s k b) (hz : bitsOf b.toNat 47 43 = 0) (hs : Settled s k [fa b.toNat])
    (hn : bitsOf b.toNat 37 0 = 8 ∨ bitsOf b.toNat 37 0 = 9) :
    execMtsr k b s = .next ((if bitsOf b.toNat 37 0 = 8 then s.wr (ENG_CTL.WAITLIM k) (s.sreg k (fa b.toNat)).toNat
      else s.updStream k (fun x => { x with scratch := s.sreg k (fa b.toNat) })).retire k) := by
  unfold execMtsr
  simp only [bitsOf_velimWord 0 6 b 37 0 (by decide) (by decide), if_pos hn, fa_velimWord]
  exact congrArg _ (State.issue_scalar _ hr.1 (badZero_eq_nil hz (by decide) (by decide)) hs (.inl hr.2) rfl)

theorem execMtsr_faults (hr : Runs s k b) (hz : bitsOf b.toNat 47 43 = 0) (hs : Settled s k [fa b.toNat])
    (hn : ¬ (bitsOf b.toNat 37 0 = 8 ∨ bitsOf b.toNat 37 0 = 9)) (hp : Precise s k) :
    execMtsr k b s = .next (s.streamFault k F_ISA_SPR 0 (s.rd (ENG_PC.PC k))) := by
  unfold execMtsr
  simp only [bitsOf_velimWord 0 6 b 37 0 (by decide) (by decide), if_neg hn, fa_velimWord]
  exact congrArg _ (State.issue_scalar_operandFault _ hr hp (badZero_eq_nil hz (by decide) (by decide)) hs rfl)

end Control

/-! ## Completion counters (R70, R73, R74) -/

section Counters

variable {s : State} {k : Fin 50} {b : BitVec 52} {maj min : Nat}

/-- A counter instruction with an immediate acts. -/
theorem State.issue_cwImm (act : State → State) (hr : Runs s k b) (hz : bitsOf b.toNat 35 32 = 0) :
    s.issue k (velimWord maj min b) (cwImm (velimWord maj min b)) [] act = act s := by
  unfold cwImm
  exact State.issue_scalar act hr.1 (badZero_eq_nil hz (by decide) (by decide)) settled_nil (.inl hr.2) rfl

/-- A counter instruction with a scalar register acts. -/
theorem State.issue_cwReg (act : State → State) (hr : Runs s k b) (hz : bitsOf b.toNat 35 32 = 0) (hlow : bitsOf b.toNat 26 0 = 0)
    (hs : Settled s k [fsr b.toNat]) :
    s.issue k (velimWord maj min b) (cwReg (velimWord maj min b)) [] act = act s := by
  unfold cwReg
  refine State.issue_scalar act hr.1 ?_ ?_ (.inl hr.2) rfl
  · rw [badZero_eq_nil hlow (by decide) (by decide), badZero_eq_nil hz (by decide) (by decide), List.append_nil]
  · simpa using hs

/-- A counter is written at once where no store of the stream is in flight and no earlier counter write of it waits. -/
theorem State.ccWrite_now {k cc v : Nat} (set : Bool) (hst : s.storesInFlight k = []) (hh : (s.stream k).heldCc = []) :
    s.ccWrite k cc v set = if set then s.writeCc k (s.ctxOf k) cc v else s.addCc (s.ctxOf k) cc v :=
  if_pos ⟨hst, hh⟩

/-- Otherwise it waits behind those stores. -/
theorem State.ccWrite_held {k cc v : Nat} (set : Bool) (h : s.storesInFlight k ≠ [] ∨ (s.stream k).heldCc ≠ []) :
    s.ccWrite k cc v set = s.updStream k (fun x => { x with heldCc := x.heldCc ++ [⟨s.storesInFlight k, cc, v, set⟩] }) :=
  if_neg fun h' => h.elim (· h'.1) (· h'.2)

theorem execCcSet_acts (hr : Runs s k b) (hz : bitsOf b.toNat 35 32 = 0) :
    execCcSet k b s = .next ((s.ccWrite k (fcc b.toNat) (bitsOf b.toNat 31 0) true).retire k) := by
  unfold execCcSet
  refine congrArg _ ((State.issue_cwImm _ hr hz).trans ?_)
  simp [bitsOf_velimWord]

theorem execCcAdd_acts (hr : Runs s k b) (hz : bitsOf b.toNat 35 32 = 0) :
    execCcAdd k b s = .next ((s.ccWrite k (fcc b.toNat) (bitsOf b.toNat 31 0) false).retire k) := by
  unfold execCcAdd
  refine congrArg _ ((State.issue_cwImm _ hr hz).trans ?_)
  simp [bitsOf_velimWord]

theorem execCcSetr_acts (hr : Runs s k b) (hz : bitsOf b.toNat 35 32 = 0) (hlow : bitsOf b.toNat 26 0 = 0) (hs : Settled s k [fsr b.toNat]) :
    execCcSetr k b s = .next ((s.ccWrite k (fcc b.toNat) ((s.sreg k (fsr b.toNat)).toNat % 2 ^ 32) true).retire k) := by
  unfold execCcSetr
  refine congrArg _ ((State.issue_cwReg _ hr hz hlow hs).trans ?_)
  simp

theorem execCcRd_acts (hr : Runs s k b) (hz : bitsOf b.toNat 35 32 = 0) (hlow : bitsOf b.toNat 26 0 = 0) (hs : Settled s k [fsr b.toNat]) :
    execCcRd k b s = .next ((s.setS k (fsr b.toNat) (BitVec.ofNat 64 (s.cc (s.ctxOf k) (fcc b.toNat)))).retire k) := by
  unfold execCcRd
  refine congrArg _ ((State.issue_cwReg _ hr hz hlow hs).trans ?_)
  simp

/-- A counter after it takes a value in this clk. -/
theorem State.cc_putCc (s : State) (c i v : Nat) (now : Nat × Option Nat) (d j : Nat) :
    (s.putCc c i v now).cc d j = if d = c ∧ j = i then v % 2 ^ 32 else s.cc d j := by
  unfold State.putCc State.setCc State.cc
  by_cases hd : d = c
  · subst hd
    by_cases hj : j = i
    · subst hj; simp
    · simp [tget_tset, hj]
  · simp [hd, State.ctx_updCtx_ne _ _ _ _ hd]

theorem State.addCc_cc_same (s : State) (c i n : Nat) : (s.addCc c i n).cc c i = (s.cc c i + n) % 2 ^ 32 := by
  rw [State.addCc, State.cc_putCc, if_pos ⟨rfl, rfl⟩]

theorem State.addCc_cc_ne (s : State) (c i n : Nat) {d j : Nat} (h : ¬ (d = c ∧ j = i)) : (s.addCc c i n).cc d j = s.cc d j := by
  rw [State.addCc, State.cc_putCc, if_neg h]

/-- A write stands where no write of a stream with a higher priority stands in this clk; the clk's increments are added to it. -/
theorem State.writeCc_stands {k c i v : Nat} (h : ∀ r, (s.ccClk c i).2 = some r → s.rank 50 k ≤ r) :
    (s.writeCc k c i v).cc c i = (v + (s.ccClk c i).1) % 2 ^ 32 := by
  have hany : (s.ccClk c i).2.any (fun r => decide (r < s.rank 50 k)) = false := by
    cases hw : (s.ccClk c i).2 with
    | none => rfl
    | some r => simpa using h r hw
  rw [State.writeCc, hany, if_neg Bool.false_ne_true, State.cc_putCc, if_pos ⟨rfl, rfl⟩]

theorem State.writeCc_yields {k c i r : Nat} (v : Nat) (h : (s.ccClk c i).2 = some r) (hr : r < s.rank 50 k) : s.writeCc k c i v = s := by
  rw [State.writeCc, h]
  exact if_pos (by simpa using hr)

end Counters

/-! ## Waits (R48, R73 to R75) -/

section Waits

variable {s : State} {k : Fin 50} {b : BitVec 52}

theorem State.granting_of_grants (h : Grants s) (r : Res) : s.granting r = r := if_neg (by simp [h.1, h.2])

theorem execWaitCc_acts (hr : Runs s k b) (hz : bitsOf b.toNat 35 32 = 0) :
    execWaitCc k b s = .next (s.waitCounter k (fcc b.toNat) (bitsOf b.toNat 31 0)) := by
  unfold execWaitCc
  refine congrArg _ ((State.issue_cwImm _ hr hz).trans ?_)
  simp [bitsOf_velimWord]

theorem execWaitCcr_acts (hr : Runs s k b) (hz : bitsOf b.toNat 35 32 = 0) (hlow : bitsOf b.toNat 26 0 = 0) (hs : Settled s k [fsr b.toNat]) :
    execWaitCcr k b s = .next (s.waitCounter k (fcc b.toNat) ((s.sreg k (fsr b.toNat)).toNat % 2 ^ 32)) := by
  unfold execWaitCcr
  refine congrArg _ ((State.issue_cwReg _ hr hz hlow hs).trans ?_)
  simp

theorem execWaitSt_acts (hr : Runs s k b) (hz : bitsOf b.toNat 47 21 = 0) :
    execWaitSt k b s = .next (s.waitLap k ((s.lapNo + bitsOf b.toNat 20 20) * 2 ^ 20 + bitsOf b.toNat 19 0)) := by
  unfold execWaitSt
  refine congrArg _ ((State.issue_scalar _ hr.1 (badZero_eq_nil hz (by decide) (by decide)) settled_nil (.inl hr.2) rfl).trans ?_)
  simp [bitsOf_velimWord]

theorem execWaitCt_acts (hr : Runs s k b) (hlow : bitsOf b.toNat 26 0 = 0) (hz : bitsOf b.toNat 47 32 = 0) (hs : Settled s k [fsr b.toNat]) :
    execWaitCt k b s = .next (s.waitLap k (s.sreg k (fsr b.toNat)).toNat) := by
  unfold execWaitCt
  refine congrArg _ ((State.issue_scalar _ hr.1 ?_ ?_ (.inl hr.2) rfl).trans ?_)
  · rw [badZero_eq_nil hlow (by decide) (by decide), badZero_eq_nil hz (by decide) (by decide), List.append_nil]
  · simpa using hs
  · simp

theorem execWaitSatisfied_ends (hg : Grants s) (h : s.waitMet k = true) :
    execWaitSatisfied k s = .next (((s.setEngState k EngSt.run).setReg (engBase k + 0x18) 0).retire k) := by
  rw [execWaitSatisfied, State.granting_of_grants hg, if_pos h]

theorem execWaitLimitExpiry_faults (hg : Grants s) (hst : s.engState k = EngSt.waitCc ∨ s.engState k = EngSt.waitBuf)
    (hm : s.waitMet k = false) (hl : s.rd (ENG_CTL.WAITLIM k) ≠ 0) (hct : (s.stream k).waitFrom + s.rd (ENG_CTL.WAITLIM k) ≤ s.ct) :
    execWaitLimitExpiry k s = .next (s.streamFault k F_ISA_WAITLIM 0 (s.rd (ENG_PC.PC k))) := by
  rw [execWaitLimitExpiry, State.granting_of_grants hg]
  exact congrArg _ (if_pos ⟨hst, by simp [hm], hl, hct⟩)

/-- The registers of the streams lie above those of the Lap Unit. -/
theorem engBase_ge (k : Nat) : 0x80000 ≤ engBase k := by
  unfold engBase
  split
  · omega
  · split
    · omega
    · split <;> omega

/-- A target below 2^32 is reached where the counter is ahead of it by less than half the circle. -/
theorem reaches_iff {c t : Nat} (ht : t < 2 ^ 32) : reaches c t = true ↔ (c + 2 ^ 32 - t) % 2 ^ 32 < 2 ^ 31 := by
  rw [reaches, Nat.mod_eq_of_lt ht, decide_eq_true_iff]

section EnteredWait

variable (s) (k st kind index target : Nat) (f : Stream → Stream)

/-- The state with a stream's wait entered: ENG_STATUS, ENG_WAIT and what the stream keeps of it. -/
theorem State.enteredWait_engState : (((s.setEngState k st).setWait k kind index target).updStream k f).engState k = st % 2 ^ 4 := by
  have h : ∀ t : State, (t.updStream k f).engState k = t.engState k := fun _ => rfl
  rw [h, State.engState, State.setWait, State.rd_wr_ne _ _ _ _ (by simp [ENG_STATUS.STATE, ENG_WAIT.TARGET]),
    State.rd_wr_ne _ _ _ _ (by simp [ENG_STATUS.STATE, ENG_WAIT.INDEX]),
    State.rd_wr_ne _ _ _ _ (by simp [ENG_STATUS.STATE, ENG_WAIT.KIND]), State.setEngState,
    State.rd_wr_same _ _ _ (by simp [ENG_STATUS.STATE]) (by simp [ENG_STATUS.STATE])]
  simp [ENG_STATUS.STATE]

theorem State.enteredWait_index :
    (((s.setEngState k st).setWait k kind index target).updStream k f).rd (ENG_WAIT.INDEX k) = index % 2 ^ 12 := by
  have h : ∀ t : State, (t.updStream k f).rd (ENG_WAIT.INDEX k) = t.rd (ENG_WAIT.INDEX k) := fun _ => rfl
  rw [h, State.setWait, State.rd_wr_disjoint _ _ _ _ (by simp [ENG_WAIT.TARGET]) (by simp [ENG_WAIT.TARGET]) (by simp [ENG_WAIT.INDEX])
    (by simp [ENG_WAIT.INDEX, ENG_WAIT.TARGET]), State.rd_wr_same _ _ _ (by simp [ENG_WAIT.INDEX]) (by simp [ENG_WAIT.INDEX])]
  simp [ENG_WAIT.INDEX]

theorem State.enteredWait_target :
    (((s.setEngState k st).setWait k kind index target).updStream k f).rd (ENG_WAIT.TARGET k) = target % 2 ^ 32 := by
  have h : ∀ t : State, (t.updStream k f).rd (ENG_WAIT.TARGET k) = t.rd (ENG_WAIT.TARGET k) := fun _ => rfl
  rw [h, State.setWait, State.rd_wr_same _ _ _ (by simp [ENG_WAIT.TARGET]) (by simp [ENG_WAIT.TARGET])]
  simp [ENG_WAIT.TARGET]

theorem State.enteredWait_pc :
    (((s.setEngState k st).setWait k kind index target).updStream k f).rd (ENG_PC.PC k) = s.rd (ENG_PC.PC k) := by
  have h : ∀ t : State, (t.updStream k f).rd (ENG_PC.PC k) = t.rd (ENG_PC.PC k) := fun _ => rfl
  rw [h, State.setWait, State.rd_wr_ne _ _ _ _ (by simp [ENG_PC.PC, ENG_WAIT.TARGET]),
    State.rd_wr_ne _ _ _ _ (by simp [ENG_PC.PC, ENG_WAIT.INDEX]), State.rd_wr_ne _ _ _ _ (by simp [ENG_PC.PC, ENG_WAIT.KIND]),
    State.setEngState, State.rd_wr_ne _ _ _ _ (by simp [ENG_PC.PC, ENG_STATUS.STATE])]

end EnteredWait

theorem State.waitCounter_unmet {k cc t : Nat} (h : reaches (s.cc (s.ctxOf k) cc) t = false) :
    s.waitCounter k cc t = ((s.setEngState k EngSt.waitCc).setWait k 1 cc t).updStream k (fun x => { x with waitFrom := s.ct }) :=
  if_neg (by simp [h])

/-- The count of late waits is a register of its own: it moves neither the time nor a stream's pc. -/
theorem State.armAt_rd (t : Nat) {f : Fld} (h : f.off ≠ LAP_COUNT.LATE_WAIT.off) : (s.armAt t).rd f = s.rd f := by
  unfold State.armAt
  split
  · exact State.rd_wr_ne _ _ _ _ h
  · rfl

theorem State.armAt_ct (t : Nat) : (s.armAt t).ct = s.ct := by
  have hlap : (s.armAt t).lap = s.lap := by
    unfold State.armAt State.addSat
    split
    · exact State.wr_lap ..
    · rfl
  have hno : (s.armAt t).lapNo = s.lapNo := State.armAt_rd t (by simp [LAP_CT.LAP, LAP_COUNT.LATE_WAIT])
  rw [State.ct, State.ct, hno, State.stride, hlap, State.stride]

end Waits

/-! ## Buffers (R76, R189 to R197) -/

section Buffers

variable {s : State} {k : Fin 50} {b : BitVec 52} {maj min : Nat}

theorem settled_of_pair {x y : Nat} (h : Settled s k [x, y]) : Settled s k [y] := fun r hr => h r (List.mem_cons_of_mem _ hr)

/-- The fields b and the one below it are 0 together. -/
theorem bufZero_eq_nil (hz : bitsOf b.toNat 37 0 = 0) : badZero (velimWord maj min b) 37 33 ++ badZero (velimWord maj min b) 32 0 = [] := by
  have hb : bitsOf b.toNat 37 33 = 0 := bitsOf_eq_zero_of_le hz (by decide) (by decide) (by decide)
  have hlow : bitsOf b.toNat 32 0 = 0 := bitsOf_eq_zero_of_le hz (by decide) (by decide) (by decide)
  rw [badZero_eq_nil hb (by decide) (by decide), badZero_eq_nil hlow (by decide) (by decide), List.append_nil]

/-- The form of BUF.ALLOC, BUF.TRY and BUF.SIZE acts where its operands are no fault. -/
theorem State.issue_bufForm {fails : List (Nat × Nat)} (act : State → State) (hr : Runs s k b) (hz : bitsOf b.toNat 37 0 = 0)
    (hs : Settled s k [fd b.toNat, fa b.toNat]) (hx : fails = []) :
    s.issue k (velimWord maj min b) (rr2Form (velimWord maj min b)) fails act = act s := by
  unfold rr2Form
  refine State.issue_scalar act hr.1 (bufZero_eq_nil hz) ?_ (.inl hr.2) hx
  simpa using hs

/-- A fault of a request or of a handle is raised at the instruction. -/
theorem State.issue_bufForm_fault {fails : List (Nat × Nat)} {code : Nat} (act : State → State) (hr : Runs s k b)
    (hz : bitsOf b.toNat 37 0 = 0) (hs : Settled s k [fd b.toNat, fa b.toNat]) (hp : Precise s k) (hx : fails = [(code, 0)]) :
    s.issue k (velimWord maj min b) (rr2Form (velimWord maj min b)) fails act = s.streamFault k code 0 (s.rd (ENG_PC.PC k)) := by
  unfold rr2Form
  refine State.issue_scalar_operandFault act hr hp ?_ ?_ hx
  · exact bufZero_eq_nil hz
  · simpa using hs

theorem execBufAlloc_acts (hr : Runs s k b) (hz : bitsOf b.toNat 37 0 = 0) (hs : Settled s k [fd b.toNat, fa b.toNat])
    (hx : s.requestFault k (s.sreg k (fa b.toNat)).toNat = []) :
    execBufAlloc k b s = .next (s.requestBuf k (s.sreg k (fa b.toNat)).toNat (fd b.toNat)) := by
  unfold execBufAlloc
  refine congrArg _ ((State.issue_bufForm _ hr hz hs (by rwa [fa_velimWord])).trans ?_)
  simp

/-- BUF.TRY is not left waiting: where the grant did not come at once, the request leaves its queue and the register takes 0. -/
theorem execBufTry_acts (hr : Runs s k b) (hz : bitsOf b.toNat 37 0 = 0) (hs : Settled s k [fd b.toNat, fa b.toNat])
    (hx : s.requestFault k (s.sreg k (fa b.toNat)).toNat = []) {t : State}
    (ht : t = s.requestBuf k (s.sreg k (fa b.toNat)).toNat (fd b.toNat)) :
    execBufTry k b s = .next (if t.engState k = EngSt.waitBuf then
      (((((t.dropWaits (fun u => u == k.val)).addSat LKR_COUNT.TRY_FAIL 1).setEngState k EngSt.run).setReg (engBase k + 0x18) 0).setS k
        (fd b.toNat) 0).retire k
      else t) := by
  unfold execBufTry
  refine congrArg _ ((State.issue_bufForm _ hr hz hs (by rwa [fa_velimWord])).trans ?_)
  simp only [fa_velimWord, fd_velimWord, ht]

theorem exec_request_faults {i : Instr} (hi : i ∈ [Instr.bufAlloc k b, .bufTry k b]) (hr : Runs s k b) (hz : bitsOf b.toNat 37 0 = 0)
    (hs : Settled s k [fd b.toNat, fa b.toNat]) (hp : Precise s k) {code : Nat}
    (hx : s.requestFault k (s.sreg k (fa b.toNat)).toNat = [(code, 0)]) :
    exec i s = .next (s.streamFault k code 0 (s.rd (ENG_PC.PC k))) := by
  simp only [List.mem_cons, List.not_mem_nil, or_false] at hi
  rcases hi with rfl | rfl
  · refine congrArg _ (State.issue_bufForm_fault _ hr hz hs hp ?_)
    rwa [fa_velimWord]
  · refine congrArg _ (State.issue_bufForm_fault _ hr hz hs hp ?_)
    rwa [fa_velimWord]

/-- The forms of the handle instructions, by what their field d may hold, act where the handle is good. -/
theorem State.issue_handleForm {bad regs : List Nat} {r : Nat ⊕ Nat} {key : Nat} (act : State → State) (hr : Runs s k b)
    (hz : bitsOf b.toNat 37 0 = 0) (hs : Settled s k regs) (hbad : bad = []) (hkey : r = .inl key) :
    s.issue k (velimWord maj min b)
      { bad := bad ++ badZero (velimWord maj min b) 37 33 ++ badZero (velimWord maj min b) 32 0, s := regs } (handleFault r) act =
      act s := by
  refine State.issue_scalar act hr.1 ?_ hs (.inl hr.2) ?_
  · rw [hbad, List.nil_append, bufZero_eq_nil hz]
  · rw [hkey, handleFault]

/-- A bad handle raises its code. -/
theorem State.issue_handleForm_fault {bad regs : List Nat} {r : Nat ⊕ Nat} {code : Nat} (act : State → State) (hr : Runs s k b)
    (hz : bitsOf b.toNat 37 0 = 0) (hs : Settled s k regs) (hbad : bad = []) (hp : Precise s k) (hcode : r = .inr code) :
    s.issue k (velimWord maj min b)
      { bad := bad ++ badZero (velimWord maj min b) 37 33 ++ badZero (velimWord maj min b) 32 0, s := regs } (handleFault r) act =
      s.streamFault k code 0 (s.rd (ENG_PC.PC k)) := by
  refine State.issue_scalar_operandFault act hr hp ?_ hs ?_
  · rw [hbad, List.nil_append, bufZero_eq_nil hz]
  · rw [hcode, handleFault]

section GoodHandle

variable {key : Nat} (hr : Runs s k b) (hz : bitsOf b.toNat 37 0 = 0) (hs : Settled s k [fd b.toNat, fa b.toNat])
  (hkey : s.checkHandle (s.ctxOf k) (s.sreg k (fa b.toNat)) = .inl key)

include hr hz hs hkey

theorem execBufRef_acts (hd : bitsOf b.toNat 47 43 = 0) :
    execBufRef k b s = .next ((s.changeRef ⟨key, some (k.val, s.rd (ENG_PC.PC k)), true⟩).retire k) := by
  unfold execBufRef
  simp only [fa_velimWord, hkey]
  exact congrArg _ (State.issue_handleForm _ hr hz (settled_of_pair hs) (badZero_eq_nil hd (by decide) (by decide)) rfl)

theorem execBufFree_acts (hd : bitsOf b.toNat 47 43 = 0) :
    execBufFree k b s = .next ((s.changeRef ⟨key, some (k.val, s.rd (ENG_PC.PC k)), false⟩).retire k) := by
  unfold execBufFree
  simp only [fa_velimWord, hkey]
  exact congrArg _ (State.issue_handleForm _ hr hz (settled_of_pair hs) (badZero_eq_nil hd (by decide) (by decide)) rfl)

theorem execBufAddr_acts (hd : bitsOf b.toNat 47 47 = 0) :
    execBufAddr k b s = .next ((s.setA k (fd b.toNat) (BitVec.ofNat 64 (2 ^ 60 + s.bufBase key))).retire k) := by
  unfold execBufAddr
  simp only [fa_velimWord, fd_velimWord, hkey]
  exact congrArg _ (State.issue_handleForm _ hr hz (settled_of_pair hs) (badA_eq_nil hd (by decide)) rfl)

theorem execBufSize_acts :
    execBufSize k b s = .next ((s.setS k (fd b.toNat) (BitVec.ofNat 64 (poolSize (keyPool key)))).retire k) := by
  unfold execBufSize
  refine congrArg _ ((State.issue_bufForm _ hr hz hs (by rw [fa_velimWord, hkey, handleFault])).trans ?_)
  simp only [fa_velimWord, fd_velimWord, hkey, handleKey]

end GoodHandle

theorem exec_badHandle_faults {i : Instr} (hi : i ∈ [Instr.bufRef k b, .bufFree k b, .bufAddr k b, .bufSize k b]) (hr : Runs s k b)
    (hz : bitsOf b.toNat 37 0 = 0) (hs : Settled s k [fd b.toNat, fa b.toNat]) (hp : Precise s k) {code : Nat}
    (hcode : s.checkHandle (s.ctxOf k) (s.sreg k (fa b.toNat)) = .inr code) (hd : bitsOf b.toNat 47 43 = 0) :
    exec i s = .next (s.streamFault k code 0 (s.rd (ENG_PC.PC k))) := by
  have ha : bitsOf b.toNat 47 47 = 0 := bitsOf_eq_zero_of_le hd (by decide) (by decide) (by decide)
  have hzero {maj min : Nat} : badZero (velimWord maj min b) 47 43 = [] := badZero_eq_nil hd (by decide) (by decide)
  simp only [List.mem_cons, List.not_mem_nil, or_false] at hi
  rcases hi with rfl | rfl | rfl | rfl
  · change execBufRef k b s = _
    simp only [execBufRef, fa_velimWord, hcode]
    exact congrArg _ (State.issue_handleForm_fault _ hr hz (settled_of_pair hs) hzero hp rfl)
  · change execBufFree k b s = _
    simp only [execBufFree, fa_velimWord, hcode]
    exact congrArg _ (State.issue_handleForm_fault _ hr hz (settled_of_pair hs) hzero hp rfl)
  · change execBufAddr k b s = _
    simp only [execBufAddr, fa_velimWord, hcode]
    exact congrArg _ (State.issue_handleForm_fault _ hr hz (settled_of_pair hs) (badA_eq_nil ha (by decide)) hp rfl)
  · exact congrArg _ (State.issue_bufForm_fault _ hr hz hs hp (by rw [fa_velimWord, hcode, handleFault]))

end Buffers

/-- Settles O9: each instruction's own rule; FENCE and END where operations are in flight and where none is. -/
theorem controlResults : Obligations.ControlResults := by
  intro k b s hr
  refine ⟨fun hz => ⟨execNop_acts hr hz, fun hops => ⟨?_, ?_⟩, fun hops => ?_, fun hops => ?_, execBrk_stops hr hz,
    execBrk_faults hr hz⟩, execTrap_faults hr, execMfsr_acts hr, execMfsr_faults hr, fun hz hs => ⟨fun h8 => ?_, fun h9 => ?_,
    fun h8 h9 hp => execMtsr_faults hr hz hs (not_or.2 ⟨h8, h9⟩) hp⟩⟩
  · exact (execFence_acts hr hz).trans (congrArg _ (State.fenceDone_waits hops))
  · exact (execEndInstance_acts hr hz).trans (congrArg _ (State.fenceDone_waits hops))
  · refine (execFence_acts hr hz).trans (congrArg _ ?_)
    simp [State.fenceDone, hops]
  · refine (execEndInstance_acts hr hz).trans (congrArg _ ?_)
    simp [State.fenceDone, hops]
  · refine (execMtsr_acts hr hz hs (.inl h8)).trans ?_
    rw [if_pos h8]
  · refine (execMtsr_acts hr hz hs (.inr h9)).trans ?_
    rw [if_neg (by omega)]

/-- Settles O11: each instruction's own rule, and what an increment and a write leave in the counters. -/
theorem counterResults : Obligations.CounterResults := by
  refine ⟨fun k b s hr hz => ⟨fun hst hh => ⟨?_, ?_, fun hlow hs => ?_⟩, fun h => ⟨?_, ?_⟩, execCcRd_acts hr hz⟩,
    fun s c i n => ⟨State.addCc_cc_same .., fun d j h => State.addCc_cc_ne _ _ _ _ h, rfl, rfl⟩,
    fun s k c i v => ⟨fun h => ?_, fun r h hr => State.writeCc_yields v h hr, fun r h hr => ?_⟩⟩
  · exact (execCcSet_acts hr hz).trans (by rw [State.ccWrite_now _ hst hh]; rfl)
  · exact (execCcAdd_acts hr hz).trans (by rw [State.ccWrite_now _ hst hh]; rfl)
  · exact (execCcSetr_acts hr hz hlow hs).trans (by rw [State.ccWrite_now _ hst hh]; rfl)
  · exact (execCcSet_acts hr hz).trans (by rw [State.ccWrite_held _ h])
  · exact (execCcAdd_acts hr hz).trans (by rw [State.ccWrite_held _ h])
  · exact State.writeCc_stands (by simp [h])
  · exact State.writeCc_stands fun r' h' => by rwa [← Option.some.inj (h.symm.trans h')]

/-- Settles O12: each instruction's own rule, and what an entered wait leaves in ENG_STATUS, ENG_WAIT and ENG_PC. -/
theorem waitResults : Obligations.WaitResults := by
  refine ⟨fun k b s => ⟨fun hr hz => ⟨execWaitCc_acts hr hz, execWaitCcr_acts hr hz⟩, execWaitSt_acts, execWaitCt_acts,
    fun hs hf hm => execWaitSatisfied_ends ⟨hs, hf⟩ hm, fun hs hf hst hm hl hct => execWaitLimitExpiry_faults ⟨hs, hf⟩ hst hm hl hct⟩,
    fun s k cc t hk => ⟨fun hcc ht => ⟨fun h => ?_, fun h => ?_⟩, fun h => ?_, fun h => ?_⟩⟩
  · exact if_pos ((reaches_iff ht).2 h)
  · have hunmet : reaches (s.cc (s.ctxOf k) cc) t = false := by
      rw [Bool.eq_false_iff, ne_eq, reaches_iff ht]
      omega
    rw [State.waitCounter_unmet hunmet, State.enteredWait_engState, State.enteredWait_index, State.enteredWait_target,
      State.enteredWait_pc, Nat.mod_eq_of_lt (show cc < 2 ^ 12 from hcc), Nat.mod_eq_of_lt ht]
    exact ⟨rfl, rfl, rfl, rfl⟩
  · exact if_pos (by rwa [State.armAt_ct])
  · have hwait : s.waitLap k t = (((s.armAt t).setEngState k EngSt.waitLap).setWait k 2 0 (t % 2 ^ 20)).updStream k
        (fun x => { x with waitCt := t }) := if_neg (by rw [State.armAt_ct]; omega)
    have hpc : (ENG_PC.PC k).off ≠ LAP_COUNT.LATE_WAIT.off := by
      have := engBase_ge k
      simp only [ENG_PC.PC, LAP_COUNT.LATE_WAIT]
      omega
    rw [hwait, State.enteredWait_engState, State.enteredWait_pc, State.armAt_rd t hpc]
    exact ⟨rfl, by simp, rfl⟩

/-- Settles O13: requests and handles, good and bad, each instruction by its own rule. -/
theorem bufferResults : Obligations.BufferResults := by
  intro k b s hr hz hs
  refine ⟨fun n t hn ht hx => ?_, fun code hp hx i hi => exec_request_faults hi hr hz hs hp hx, fun key hkey => ⟨fun hd => ⟨?_, ?_⟩,
    fun hd => ?_, ?_⟩, fun code hp hcode hd i hi => exec_badHandle_faults hi hr hz hs hp hcode hd⟩
  · subst hn ht
    have htry := execBufTry_acts hr hz hs hx rfl
    exact ⟨execBufAlloc_acts hr hz hs hx, fun h => htry.trans (congrArg _ (if_neg h)), fun h => htry.trans (congrArg _ (if_pos h))⟩
  · exact execBufRef_acts hr hz hs hkey hd
  · exact execBufFree_acts hr hz hs hkey hd
  · exact execBufAddr_acts hr hz hs hkey hd
  · exact execBufSize_acts hr hz hs hkey

end Sys2Proof.Machine

/-! # The Velim core: loads, stores, copies and remote operations -/

namespace Sys2Proof.Machine

open Sys2Proof.Claims

/-! ## Issue of an instruction with a place among the memory operations or with vector registers (R78) -/

section Issue

variable {s : State} {k maj min : Nat} {b : BitVec 52} {f : Form} {fails : List (Nat × Nat)}

theorem State.blocked_of_free (hc : CanIssue s k b) (hs : Settled s k f.s) (hv : VSettled s k f.v) (hm : f.mem = true → OpsFree s k) :
    s.blocked k f = false := by
  obtain ⟨-, -, -, -, -, -, hstep, hask⟩ := hc
  simp only [State.blocked, hstep, Bool.or_eq_false_iff, List.any_eq_false, List.contains_iff_mem, beq_iff_eq, Option.isSome_none, and_true]
  refine ⟨⟨⟨hs, hv⟩, ?_⟩, hask⟩
  cases hmem : f.mem with
  | false => rfl
  | true => simpa using hm hmem

theorem State.formFaults_of_legal (hc : CanIssue s k b) (hbad : f.bad = []) (he : f.engine = true) :
    s.formFaults k (velimWord maj min b) f = [] := by
  obtain ⟨-, -, -, -, hwin, hgf, -, -⟩ := hc
  rw [State.formFaults_eq_map hwin (by rwa [bitsOf_velimWord _ _ _ _ _ (by decide) (by decide)]) he, hbad, List.map_nil]

/-- An instruction with legal fields acts where its registers wait for no result and it has a place where it needs one. -/
theorem State.issue_acts (act : State → State) (hr : Runs s k b) (hbad : f.bad = []) (he : f.engine = true) (hs : Settled s k f.s)
    (hv : VSettled s k f.v) (hm : f.mem = true → OpsFree s k) (hx : fails = []) :
    s.issue k (velimWord maj min b) f fails act = act s := by
  obtain ⟨hc, hg⟩ := hr
  have hblk := State.blocked_of_free hc hs hv hm
  obtain ⟨hstop, hfrz, hrun, hfence, hwin, hgf, -, -⟩ := hc
  refine Sys2Proof.Machine.issue_acts act hstop hfrz hrun hfence hwin ?_ hbad he (.inl ?_) hblk hx
  · rwa [bitsOf_velimWord _ _ _ _ _ (by decide) (by decide)]
  · rwa [guardOf_velimWord]

/-- It raises the fault of its operands where there is one. -/
theorem State.issue_operandFault (act : State → State) {code info : Nat} (hr : Runs s k b) (hp : Precise s k) (hbad : f.bad = [])
    (he : f.engine = true) (hs : Settled s k f.s) (hv : VSettled s k f.v) (hm : f.mem = true → OpsFree s k)
    (hx : firstFault fails = some (code, info)) :
    s.issue k (velimWord maj min b) f fails act = s.streamFault k code info (s.rd (ENG_PC.PC k)) := by
  obtain ⟨hc, hg⟩ := hr
  have hblk := State.blocked_of_free hc hs hv hm
  have hform : s.formFaults k (velimWord maj min b) f = [] := State.formFaults_of_legal hc hbad he
  obtain ⟨hstop, hfrz, hrun, hfence, -⟩ := hc
  have hnone : firstFault [] = none := rfl
  simp [State.issue, State.preciseFault, State.issueFault, hstop, hfrz, hrun, hfence, hform, hnone, hg, hblk, hx, hp]

end Issue

/-! ## Remote operations (R272 to R279) -/

/-- A remote operation that nothing holds back is sent. -/
theorem State.remoteIssue_sends {s : State} {k off : Nat} {o : RemoteOp} (h : RemoteFree s k off o) :
    s.remoteIssue k off o = remoteSent s k off o := by
  obtain ⟨hsame, hfull⟩ := h
  rw [State.remoteIssue, if_neg (by simp [hsame]), if_neg (by simp [hfull])]
  rfl

/-! ## Addresses of loads and stores (R66, R68, R211) -/

section Addresses

variable {s : State} {k : Nat} {act : State → State} {off n sp : Nat}

/-- An access to another space than LPDDR takes no place in a channel's queue. -/
theorem State.enterMem_of_local (hsp : sp ≠ 2) : s.enterMem k [(sp, off, n)] true act = act s := by
  simp [State.enterMem, hsp]

/-- One to LPDDR takes its place where its controllers serve. -/
theorem State.enterMem_of_lpddr (h : LpddrReady s off n) :
    s.enterMem k [(2, off, n)] true act = ((act s).overflow (channelOf off)).chEntered (channelOf off) := by
  obtain ⟨hready, hahead⟩ := h
  have hserves : ∀ x ∈ linesOf off n, s.channelReady (1984 * x) = true := List.all_eq_true.1 hready
  simpa [State.enterMem, hahead] using fun x hx hf => absurd (hserves x hx) (by simp [hf])

theorem State.msFaults_local {a : Word} {d : Int} {right info : Nat} (hoff : effOff a d = some off) (hsp : spaceOf a.toNat ≠ 3)
    (h : s.accessFault k (s.ctxOf k) (spaceOf a.toNat) off n n true = none) : s.msFaults k a d n right info = [] := by
  simp [State.msFaults, hoff, hsp, h, faultAt]

theorem State.msFaults_remote {a : Word} {d : Int} {right info : Nat} (hoff : effOff a d = some off) (hsp : spaceOf a.toNat = 3)
    (h : s.remoteFault (s.ctxOf k) off n right false = none) : s.msFaults k a d n right info = [] := by
  simp [State.msFaults, hoff, hsp, h, faultAt]

theorem State.msFaults_overflow {a : Word} {d : Int} {right info : Nat} (hoff : effOff a d = none) :
    s.msFaults k a d n right info = [(F_ISA_AOVF, info)] := by
  simp [State.msFaults, hoff]

/-- No GMM of the cluster runs, so the bytes are the ones read. -/
theorem State.besideRead_of_idle {a : Nat} {l : List Byte} (h : s.gmu k = []) : s.besideRead k a l = (l, s) := by
  rw [State.besideRead, h]

theorem State.besideWrite_of_idle {a : Nat} {on : Nat → Bool} {l : List Byte} (h : s.gmu k = []) : s.besideWrite k a on l = (l, s) := by
  rw [State.besideWrite, h]

end Addresses

/-! ## What a report leaves alone (R377)

A report moves registers, trouble counters, sessions and frames; the GMUs stay as they are. -/

/-- The GMUs of `t` are those of `s`. -/
structure SameGmus (s t : State) : Prop where
  eq : t.gmus = s.gmus

section Reports

variable {s t : State}

theorem SameGmus.refl (s : State) : SameGmus s s := ⟨rfl⟩

theorem SameGmus.foldl {α : Type} {f : State → α → State} (h : SameGmus s t) (hf : ∀ t x, SameGmus s t → SameGmus s (f t x)) (l : List α) :
    SameGmus s (l.foldl f t) := by
  induction l generalizing t with
  | nil => exact h
  | cons x l ih => exact ih (hf t x h)

theorem SameGmus.wr (h : SameGmus s t) (f : Fld) (v : Nat) : SameGmus s (t.wr f v) := ⟨h.eq⟩

theorem SameGmus.addSat (h : SameGmus s t) (f : Fld) (n : Nat) : SameGmus s (t.addSat f n) := ⟨h.eq⟩

theorem SameGmus.trouble (h : SameGmus s t) (i : Nat) : SameGmus s (t.trouble i) := ⟨h.eq⟩

theorem SameGmus.updMem (h : SameGmus s t) (m : Nat) (f : MemCtl → MemCtl) : SameGmus s (t.updMem m f) := ⟨h.eq⟩

theorem SameGmus.memErrAt (h : SameGmus s t) (n ue syn : Nat) : SameGmus s (t.memErrAt n ue syn) :=
  ((((h.wr _ _).wr _ _).wr _ _).wr _ _).wr _ _

theorem SameGmus.rinkErrAt (h : SameGmus s t) (w ue : Nat) : SameGmus s (t.rinkErrAt w ue) := ((h.wr _ _).wr _ _).wr _ _

theorem SameGmus.lapFlag (h : SameGmus s t) (i : Nat) : SameGmus s (t.lapFlag i) := iteP h ⟨h.eq⟩

theorem SameGmus.sendCapsule (h : SameGmus s t) (x : Nat) (l : List Byte) (d : Option (Nat × Nat × Nat × Nat)) :
    SameGmus s (t.sendCapsule x l d) := by
  unfold State.sendCapsule
  exact iteP h (iteP ⟨h.eq⟩ ⟨h.eq⟩)

theorem SameGmus.ringEvent (h : SameGmus s t) (e : Event) : SameGmus s (t.ringEvent e) := by
  have hput {t : State} (h : SameGmus s t) (l : List Event) :
      SameGmus s { t.wr WCP_STATUS.EVQ l.length with host := { t.host with events := l } } := ⟨h.eq⟩
  have hseen {t : State} (h : SameGmus s t) : SameGmus s { t with host := { t.host with evLossSeen := true } } := ⟨h.eq⟩
  unfold State.ringEvent
  exact iteP (hput h _) (iteP ((hput h _).addSat _ _) (hput (((hseen ((hput h _).addSat _ _)).addSat _ _).wr _ _) _))

theorem SameGmus.pushEvent (h : SameGmus s t) (e : Event) : SameGmus s (t.pushEvent e) := by
  unfold State.pushEvent
  split
  · exact h.ringEvent e
  · exact h.foldl (fun _ _ h => h.sendCapsule ..) _

theorem SameGmus.freeSession (h : SameGmus s t) (x : Nat) : SameGmus s (t.freeSession x) := by
  have hclosed {t : State} (h : SameGmus s t) (y : Sess) (a b : Nat) : SameGmus s (((t.setSess x y).setReg a 0).setReg b 0) := ⟨h.eq⟩
  have hlost (l : List (Nat × Nat × Nat × Nat)) : SameGmus s { t with host := { t.host with lost := l } } := ⟨h.eq⟩
  exact (hclosed (hlost _) _ _ _).wr _ _

theorem SameGmus.closeExhausted (h : SameGmus s t) : SameGmus s t.closeExhausted :=
  h.foldl (fun _ x h => iteP (((h.freeSession x).wr _ _).pushEvent _) h) _

theorem SameGmus.report (h : SameGmus s t) (code c info : Nat) : SameGmus s (t.report code c info) := by
  unfold State.report
  exact cut (fun h1 => cut (fun h2 => (SameGmus.pushEvent (by
    split
    · exact SameGmus.trouble h2 _
    · exact h2) _).closeExhausted) (iteP (SameGmus.wr h1 _ _) h1)) (by
    split
    · exact h.wr ..
    · exact h)

theorem SameGmus.memCorrected (h : SameGmus s t) (n : Nat) : SameGmus s (t.memCorrected n) := by
  unfold State.memCorrected
  exact cut (fun h1 => iteP ((SameGmus.wr h1 _ _).report _ _ _) h1) (iteP ((h.addSat _ _).updMem _ _) (((h.addSat _ _).updMem _ _).memErrAt _ _ _))

/-- What a stream's read notes of the words that it meets. -/
theorem SameGmus.checkRead (p sp a n : Nat) : SameGmus s (s.checkRead p sp a n false) := by
  have hpresent : SameGmus s (s.present p a n) := iteP ⟨rfl⟩ ⟨rfl⟩
  have hrink {t : State} (h : SameGmus s t) : SameGmus s (t.rinkRead a n false) :=
    (h.foldl (fun _ _ h => ((h.addSat _ _).lapFlag _).rinkErrAt _ _) _).foldl (fun _ _ h => ((h.addSat _ _).rinkErrAt _ _).wr _ _) _
  have hmem : SameGmus s (s.memRead a n false) :=
    (SameGmus.refl s).foldl (fun _ _ h => iteP (h.memCorrected _) (((h.addSat _ _).memErrAt _ _ _).wr _ _)) _
  exact iteP ⟨rfl⟩ (iteP (hrink hpresent) (iteP hmem ⟨rfl⟩))

end Reports

theorem State.checkRead_gmu (s : State) (p sp a n : Nat) (u : Nat) : (s.checkRead p sp a n false).gmu u = s.gmu u := by
  rw [State.gmu, State.gmu, (SameGmus.checkRead p sp a n).eq]

@[simp] theorem msBytes_velimWord (maj min : Nat) (b : BitVec 52) : msBytes (velimWord maj min b) = msBytes b.toNat := by
  rw [msBytes, msBytes, bitsOf_velimWord _ _ _ _ _ (by decide) (by decide)]

/-! ## LD and ST (R68, R70, R78, R119, R211) -/

theorem msAddr_velimWord (s : State) (k maj min : Nat) (b : BitVec 52) :
    s.areg k (bitsOf (velimWord maj min b) 42 39) = msAddr s k b := by
  rw [bitsOf_velimWord _ _ _ _ _ (by decide) (by decide), msAddr]

section LoadStore

variable {s : State} {k : Fin 50} {b : BitVec 52} {sp off n : Nat}

/-- What LD does once its address is good: it reads its value and sends itself on. -/
def ldSent (s : State) (k : Nat) (b : BitVec 52) (sp off n : Nat) : State :=
  let r := (s.checkRead (rinkPort k) sp off n false).besideRead k (sp * 2 ^ 60 + off) (s.streamRead k sp off n)
  let t := r.2.beginOp k (.ld (fd b.toNat) (if bitsOf b.toNat 36 36 = 1 then BitVec.ofInt 64 (signed (8 * n) (leNat r.1))
    else BitVec.ofNat 64 (leNat r.1)) n (bitsOf b.toNat 36 36 == 1)) sp off (s.badCode sp off n)
  (if fd b.toNat = 0 then t else t.updStream k (fun x => { x with pendS := fd b.toNat :: x.pendS })).sendOn k

/-- What ST does once its address is good: it writes the bytes, unless its page holds them back, and sends itself on. -/
def stSent (s : State) (k : Nat) (b : BitVec 52) (sp off n : Nat) : State :=
  let id := (s.stream k).nextOp
  let r := s.besideWrite k (sp * 2 ^ 60 + off) (fun _ => true) (leBytes n ((s.sreg k (fd b.toNat)).toNat % 2 ^ (8 * n)))
  let t := (r.2.beginOp k (.st n) sp off).streamWrite (r.2.ctxOf k) k id sp off r.1
  (if t.writeHeld k id then t.unplace k id else t).sendOn k

theorem execLd_local (hr : Runs s k b) (hs : Settled s k [fd b.toNat]) (hops : OpsFree s k)
    (hoff : effOff (msAddr s k b) (sfield b.toNat 35 0) = some off) (hsp : spaceOf (msAddr s k b).toNat ≠ 3)
    (hacc : s.accessFault k (s.ctxOf k) (spaceOf (msAddr s k b).toNat) off (msBytes b.toNat) (msBytes b.toNat) true = none) :
    execLd k b s = .next (s.enterMem k [(spaceOf (msAddr s k b).toNat, off, msBytes b.toNat)] true
      (fun t => ldSent t k b (spaceOf (msAddr s k b).toNat) off (msBytes b.toNat))) := by
  unfold execLd
  refine congrArg _ ((State.issue_acts _ hr rfl rfl ?_ vSettled_nil (fun _ => hops) ?_).trans ?_)
  · simpa using hs
  · rw [msAddr_velimWord, sfield_velimWord _ _ _ _ _ (by decide) (by decide), msBytes_velimWord]
    exact State.msFaults_local hoff hsp hacc
  · simp only [msAddr_velimWord, sfield_velimWord _ _ _ 35 0 (by decide) (by decide), bitsOf_velimWord _ _ _ 36 36 (by decide) (by decide),
      msBytes_velimWord, fd_velimWord, hoff, Option.getD_some, if_neg hsp, ldValue, beq_iff_eq]
    rfl

theorem execLd_remote (hr : Runs s k b) (hs : Settled s k [fd b.toNat]) (hops : OpsFree s k)
    (hoff : effOff (msAddr s k b) (sfield b.toNat 35 0) = some off) (hsp : spaceOf (msAddr s k b).toNat = 3)
    (hacc : s.remoteFault (s.ctxOf k) off (msBytes b.toNat) 0 false = none) :
    execLd k b s = .next (s.remoteIssue k off
      { opc := 16 * bitsOf b.toNat 38 37, dst := fd b.toNat, sx := bitsOf b.toNat 36 36 == 1 }) := by
  unfold execLd
  refine congrArg _ ((State.issue_acts _ hr rfl rfl ?_ vSettled_nil (fun _ => hops) ?_).trans ?_)
  · simpa using hs
  · rw [msAddr_velimWord, sfield_velimWord _ _ _ _ _ (by decide) (by decide), msBytes_velimWord]
    exact State.msFaults_remote hoff hsp hacc
  · simp only [msAddr_velimWord, sfield_velimWord _ _ _ 35 0 (by decide) (by decide), bitsOf_velimWord _ _ _ 36 36 (by decide) (by decide),
      bitsOf_velimWord _ _ _ 38 37 (by decide) (by decide), fd_velimWord, hoff, Option.getD_some, if_pos hsp]

theorem execLd_overflow (hr : Runs s k b) (hs : Settled s k [fd b.toNat]) (hops : OpsFree s k) (hp : Precise s k)
    (hoff : effOff (msAddr s k b) (sfield b.toNat 35 0) = none) :
    execLd k b s = .next (s.streamFault k F_ISA_AOVF 39 (s.rd (ENG_PC.PC k))) := by
  unfold execLd
  refine congrArg _ (State.issue_operandFault _ hr hp rfl rfl ?_ vSettled_nil (fun _ => hops) ?_)
  · simpa using hs
  · rw [msAddr_velimWord, sfield_velimWord _ _ _ _ _ (by decide) (by decide), State.msFaults_overflow hoff, firstFault_singleton]

theorem execSt_local (hr : Runs s k b) (hz : bitsOf b.toNat 36 36 = 0) (hs : Settled s k [fd b.toNat]) (hops : OpsFree s k)
    (hoff : effOff (msAddr s k b) (sfield b.toNat 35 0) = some off) (hsp : spaceOf (msAddr s k b).toNat ≠ 3)
    (hacc : s.accessFault k (s.ctxOf k) (spaceOf (msAddr s k b).toNat) off (msBytes b.toNat) (msBytes b.toNat) true = none) :
    execSt k b s = .next (s.enterMem k [(spaceOf (msAddr s k b).toNat, off, msBytes b.toNat)] true
      (fun _ => stSent s k b (spaceOf (msAddr s k b).toNat) off (msBytes b.toNat))) := by
  unfold execSt
  refine congrArg _ ((State.issue_acts _ hr (badZero_eq_nil hz (by decide) (by decide)) rfl ?_ vSettled_nil (fun _ => hops) ?_).trans ?_)
  · simpa using hs
  · rw [msAddr_velimWord, sfield_velimWord _ _ _ _ _ (by decide) (by decide), msBytes_velimWord]
    exact State.msFaults_local hoff hsp hacc
  · simp only [msAddr_velimWord, sfield_velimWord _ _ _ 35 0 (by decide) (by decide), msBytes_velimWord, fd_velimWord, hoff,
      Option.getD_some, if_neg hsp]
    rfl

theorem execSt_remote (hr : Runs s k b) (hz : bitsOf b.toNat 36 36 = 0) (hs : Settled s k [fd b.toNat]) (hops : OpsFree s k)
    (hoff : effOff (msAddr s k b) (sfield b.toNat 35 0) = some off) (hsp : spaceOf (msAddr s k b).toNat = 3)
    (hacc : s.remoteFault (s.ctxOf k) off (msBytes b.toNat) 1 false = none) :
    execSt k b s = .next (s.remoteIssue k off
      { opc := 1 + 16 * bitsOf b.toNat 38 37, val := (s.sreg k (fd b.toNat)).toNat % 2 ^ (8 * msBytes b.toNat) }) := by
  unfold execSt
  refine congrArg _ ((State.issue_acts _ hr (badZero_eq_nil hz (by decide) (by decide)) rfl ?_ vSettled_nil (fun _ => hops) ?_).trans ?_)
  · simpa using hs
  · rw [msAddr_velimWord, sfield_velimWord _ _ _ _ _ (by decide) (by decide), msBytes_velimWord]
    exact State.msFaults_remote hoff hsp hacc
  · simp only [msAddr_velimWord, sfield_velimWord _ _ _ 35 0 (by decide) (by decide), bitsOf_velimWord _ _ _ 38 37 (by decide) (by decide),
      msBytes_velimWord, fd_velimWord, hoff, Option.getD_some, if_pos hsp]

end LoadStore

/-! ## Completions (R70, R78, R177, R194, R209) -/

section Completion

variable {s : State} {k : Fin 50} {op : Nat} {o : MemOp}

/-- A fold whose every step keeps a part keeps it. -/
theorem foldl_keeps {α β : Type} {p : State → β} {f : State → α → State} (h : ∀ s x, p (f s x) = p s) (l : List α) (s : State) :
    p (l.foldl f s) = p s := by
  induction l generalizing s with
  | nil => rfl
  | cons x l ih => rw [List.foldl_cons, ih, h]

theorem State.updMem_regs (s : State) (m : Nat) (f : MemCtl → MemCtl) : (s.updMem m f).regs = s.regs := rfl

/-- The requests that a controller carries move no register. -/
theorem State.carry_regs (s : State) (ch : Nat) (l : List Burst) : (s.carry ch l).regs = s.regs := by
  unfold State.carry
  refine (State.emit_regs ..).trans (foldl_keeps (fun s x => ?_) _ s)
  dsimp only
  split
  · rfl
  · rfl

theorem State.demand_regs (s : State) (write : Bool) (a n : Nat) : (s.demand write a n).regs = s.regs :=
  foldl_keeps (fun s _ => State.carry_regs s _ _) _ s

theorem State.served_regs (s : State) (o : MemOp) : (s.served o).regs = s.regs := by
  have ite_demand (p : Prop) [Decidable p] (t : State) (w : Bool) (a n : Nat) : (if p then t.demand w a n else t).regs = t.regs := by
    split
    · exact State.demand_regs ..
    · rfl
  unfold State.served
  split
  · exact ite_demand ..
  · exact (ite_demand ..).trans (ite_demand ..)
  · exact ite_demand ..

theorem State.rd_of_regs {s t : State} (h : t.regs = s.regs) (f : Fld) : t.rd f = s.rd f := by
  rw [State.rd, State.rd, State.reg, State.reg, h]

/-- The context of a stream is read from the registers. -/
theorem State.ctxOf_of_regs {s t : State} (h : t.regs = s.regs) (k : Nat) : t.ctxOf k = s.ctxOf k := by
  have hrd : t.rd = s.rd := funext (State.rd_of_regs h)
  unfold State.ctxOf State.bit
  rw [hrd]

/-- Upsets of the arrays neither stop the clocks nor freeze the block. -/
theorem grants_of_upset {s z : State} {u : Upsets} (hz : z.upset u = s) (hg : Grants s) : Grants z := by
  obtain ⟨hs, hf⟩ := hg
  exact ⟨by rw [← hs, ← hz, State.upset_stopped], by rw [← hf, ← hz, State.upset_frozen]⟩

section Found

variable (hg : Grants s) (ho : s.findOp k op = some o) (hready : s.memReady o = true)

include hg ho hready

theorem ldComplete_ends {t n : Nat} {v : Word} {sx : Bool} (hkind : o.kind = .ld t v n sx) (herr : o.err = none) :
    GivesWith (.ldComplete k op) s ((((s.served o).setS k t v).updStream k (fun x => { x with pendS := x.pendS.erase t })).endOp k op) := by
  intro u z hz
  change execLdComplete k op u z = _
  rw [execLdComplete, State.granting_of_grants (grants_of_upset hz hg)]
  simp only [hz, ho, hready, hkind, herr, not_true_eq_false, if_false]

theorem ldComplete_faults {t n code : Nat} {v : Word} {sx : Bool} (hkind : o.kind = .ld t v n sx) (herr : o.err = some code) :
    GivesWith (.ldComplete k op) s ((s.served o).streamFault k code 0 o.pc) := by
  intro u z hz
  change execLdComplete k op u z = _
  rw [execLdComplete, State.granting_of_grants (grants_of_upset hz hg)]
  simp only [hz, ho, hready, hkind, herr, not_true_eq_false, if_false]

theorem xmovComplete_ends {cc dst n : Nat} (hkind : o.kind = .xmov cc dst n) (hheld : s.writeHeld k op = false) (herr : o.err = none) :
    GivesWith (.xmovComplete k op) s ((((s.served o).copyEnds k dst n o.loose).addCc (s.ctxOf k) cc 1).endOp k op) := by
  intro u z hz
  change execXmovComplete k op u z = _
  rw [execXmovComplete, State.granting_of_grants (grants_of_upset hz hg)]
  simp only [hz, ho, hready, hheld, hkind, herr, not_true_eq_false, Bool.false_eq_true, or_self, if_false]

theorem xmovComplete_faults {cc dst n code : Nat} (hkind : o.kind = .xmov cc dst n) (hheld : s.writeHeld k op = false)
    (herr : o.err = some code) : GivesWith (.xmovComplete k op) s ((s.served o).streamFault k code 0 o.pc) := by
  intro u z hz
  change execXmovComplete k op u z = _
  rw [execXmovComplete, State.granting_of_grants (grants_of_upset hz hg)]
  simp only [hz, ho, hready, hheld, hkind, herr, not_true_eq_false, Bool.false_eq_true, or_self, if_false]

theorem storeComplete_ends (hkind : (∃ n, o.kind = .st n) ∨ ∃ on, o.kind = .vst on) (hheld : s.writeHeld k op = false) :
    Gives (.storeComplete k op) s ((s.served o).endOp k op) := by
  change execStoreComplete k op s = _
  rw [execStoreComplete, State.granting_of_grants hg, ho]
  rcases hkind with ⟨n, hkind⟩ | ⟨on, hkind⟩
  · simp [hkind, hready, hheld]
  · simp [hkind, hready, hheld]

end Found

end Completion

/-! ## XMOV (R69, R70, R119) -/

section Copy

variable {s : State} {k : Fin 50} {b : BitVec 52} {ad as n : Nat}

/-- A copy takes no place in a queue; the controllers of both ranges have to serve. -/
theorem State.enterMem_pair {act : State → State} {k sp off n sp' off' n' : Nat} (h : sp = 2 → LpddrReady s off n)
    (h' : sp' = 2 → LpddrReady s off' n') : s.enterMem k [(sp, off, n), (sp', off', n')] false act = act s := by
  have hready : ∀ x ∈ [(sp, off, n), (sp', off', n')].filter (fun x => x.1 == 2), LpddrReady s x.2.1 x.2.2 := by
    intro x hx
    obtain ⟨hmem, hsp⟩ := List.mem_filter.1 hx
    simp only [List.mem_cons, List.not_mem_nil, or_false] at hmem
    rcases hmem with rfl | rfl
    · exact h (beq_iff_eq.1 hsp)
    · exact h' (beq_iff_eq.1 hsp)
  rw [State.enterMem, if_neg, if_neg Bool.false_ne_true]
  rw [not_or, not_not, List.all_eq_true]
  refine ⟨fun x hx => (hready x hx).1, ?_⟩
  rw [List.any_eq_true]
  rintro ⟨x, hx, hahead⟩
  exact Bool.false_ne_true ((hready x hx).2.symm.trans hahead)

/-- The operands of a copy are read and written in ranges that are the context's, aligned to 16 bytes. -/
abbrev CopyOperands (s : State) (k : Nat) (b : BitVec 52) (ad as n : Nat) : Prop :=
  ad = (s.areg k (bitsOf b.toNat 47 44)).toNat ∧ as = (s.areg k (bitsOf b.toNat 43 40)).toNat ∧
    n = (s.sreg k (bitsOf b.toNat 39 35)).toNat ∧ n % 16 = 0 ∧
    s.accessFault k (s.ctxOf k) (spaceOf ad) (offOf ad) n 16 (spaceOf ad != 3) = none ∧
    s.accessFault k (s.ctxOf k) (spaceOf as) (offOf as) n 16 (spaceOf as != 3) = none

/-- The bytes of a copy: free where the ranges overlap. -/
def copyBytes (s : State) (k ad as n : Nat) : List Byte × State :=
  let r := s.checkRead (rinkPort k) (spaceOf as) (offOf as) n false
  if ad / 2 ^ 60 = as / 2 ^ 60 ∧ offOf ad < offOf as + n ∧ offOf as < offOf ad + n then r.freeBytes n
  else r.besideRead k as (r.streamRead k (spaceOf as) (offOf as) n)

/-- A copy that has issued: its bytes are read and, unless the source is uncorrectable, written. -/
def copySent (s : State) (k : Nat) (b : BitVec 52) (ad as n : Nat) (p : List Byte × State) : State :=
  let q := p.2.besideWrite k ad (fun _ => true) p.1
  let t := q.2.beginOp k (.xmov (bitsOf b.toNat 34 23) ad n) (spaceOf as) (offOf as) (s.badCode (spaceOf as) (offOf as) n)
  (if s.badCode (spaceOf as) (offOf as) n = none then
    t.streamWrite (s.ctxOf k) k (s.stream k).nextOp (spaceOf ad) (offOf ad) q.1 else t).sendOn k

theorem execXmov_counts (hr : Runs s k b) (hz : bitsOf b.toNat 22 0 = 0) (hs : Settled s k [bitsOf b.toNat 39 35]) (hops : OpsFree s k)
    (hc : CopyOperands s k b ad as n) (hn : n = 0) :
    execXmov k b s = .next ((s.addCc (s.ctxOf k) (bitsOf b.toNat 34 23) 1).retire k) := by
  obtain ⟨rfl, rfl, rfl, hal, hd, ha⟩ := hc
  unfold execXmov
  simp only [bitsOf_velimWord 0x0E 0 b 47 44 (by decide) (by decide), bitsOf_velimWord 0x0E 0 b 43 40 (by decide) (by decide),
    bitsOf_velimWord 0x0E 0 b 39 35 (by decide) (by decide), bitsOf_velimWord 0x0E 0 b 34 23 (by decide) (by decide), hd, ha, if_pos hal]
  refine congrArg _ ((State.issue_acts _ hr (badZero_eq_nil hz (by decide) (by decide)) rfl hs vSettled_nil (fun _ => hops) rfl).trans ?_)
  exact if_pos hn

theorem execXmov_copies (hr : Runs s k b) (hz : bitsOf b.toNat 22 0 = 0) (hs : Settled s k [bitsOf b.toNat 39 35]) (hops : OpsFree s k)
    (hc : CopyOperands s k b ad as n) (hn : n ≠ 0) (hsrc : spaceOf as = 2 → LpddrReady s (offOf as) n)
    (hdst : spaceOf ad = 2 → LpddrReady s (offOf ad) n) :
    execXmov k b s = .next (copySent s k b ad as n (copyBytes s k ad as n)) := by
  obtain ⟨rfl, rfl, rfl, hal, hd, ha⟩ := hc
  unfold execXmov
  simp only [bitsOf_velimWord 0x0E 0 b 47 44 (by decide) (by decide), bitsOf_velimWord 0x0E 0 b 43 40 (by decide) (by decide),
    bitsOf_velimWord 0x0E 0 b 39 35 (by decide) (by decide), bitsOf_velimWord 0x0E 0 b 34 23 (by decide) (by decide), hd, ha, if_pos hal]
  refine congrArg _ ((State.issue_acts _ hr (badZero_eq_nil hz (by decide) (by decide)) rfl hs vSettled_nil (fun _ => hops) rfl).trans ?_)
  rw [if_neg hn, State.enterMem_pair hsrc hdst]
  rfl

/-- The space code is the top four bits of an address. -/
theorem spaceOf_toNat (a : Word) : spaceOf a.toNat = a.toNat / 2 ^ 60 := by
  have := a.isLt
  unfold spaceOf
  omega

/-- Of ranges that do not overlap the bytes are the source's. -/
theorem copyBytes_apart {a d : Word} {n : Nat} (h : spaceOf d.toNat ≠ spaceOf a.toNat ∨ offOf a.toNat + n ≤ offOf d.toNat ∨
    offOf d.toNat + n ≤ offOf a.toNat) :
    copyBytes s k d.toNat a.toNat n = (s.checkRead (rinkPort k) (spaceOf a.toNat) (offOf a.toNat) n false).besideRead k a.toNat
      ((s.checkRead (rinkPort k) (spaceOf a.toNat) (offOf a.toNat) n false).streamRead k (spaceOf a.toNat) (offOf a.toNat) n) := by
  rw [spaceOf_toNat, spaceOf_toNat] at h
  exact if_neg (by omega)

theorem copyBytes_overlap {a d : Word} {n : Nat} (hsp : spaceOf d.toNat = spaceOf a.toNat) (h : offOf d.toNat < offOf a.toNat + n)
    (h' : offOf a.toNat < offOf d.toNat + n) :
    copyBytes s k d.toNat a.toNat n = (s.checkRead (rinkPort k) (spaceOf a.toNat) (offOf a.toNat) n false).freeBytes n := by
  rw [spaceOf_toNat, spaceOf_toNat] at hsp
  exact if_pos ⟨hsp, h, h'⟩

end Copy

/-! ## The obligations -/

/-- Settles O14: LD by where its address lies, XMOV by its length and its ranges, and what each completion finds. -/
theorem loadAndCopyResults : Obligations.LoadAndCopyResults := by
  refine ⟨⟨fun k b s sp off n hr hs hops hsp hn => ⟨fun hoff => ⟨fun hloc hacc r t u hrd ht hu => ?_, fun hrem hacc o ho hfree => ?_⟩,
      fun hoff hp => execLd_overflow hr hs hops hp hoff⟩,
    fun k op s o t n v sx hg ho hkind hready => ⟨ldComplete_ends hg ho hready hkind, fun code => ldComplete_faults hg ho hready hkind⟩⟩,
    fun k b s hr hz hs hops ad as n had has hn hal hd ha => ⟨fun h0 => ?_, fun h0 hsrc hdst r p q t hrd happart hover hq ht => ?_⟩,
    fun k op s o cc dst n hg ho hkind hready hheld => ⟨fun herr hl => ?_, fun herr hl => ?_,
      fun code => xmovComplete_faults hg ho hready hkind hheld⟩⟩
  · subst hsp hn
    have hsent := execLd_local hr hs hops hoff hloc hacc
    have hu' : u = ldSent s k b (spaceOf (msAddr s k b).toNat) off (msBytes b.toNat) := by
      rw [hu, ht, hrd]
      rfl
    refine ⟨fun hidle => ?_, fun h2 => ?_, fun h2 hready => ?_⟩
    · rw [hrd, State.besideRead_of_idle]
      rwa [State.checkRead_gmu]
    · exact hsent.trans (by rw [State.enterMem_of_local h2, hu'])
    · refine hsent.trans ?_
      rw [hu', h2, State.enterMem_of_lpddr hready]
  · subst hsp hn ho
    exact (execLd_remote hr hs hops hoff hrem hacc).trans (by rw [State.remoteIssue_sends hfree])
  · exact execXmov_counts hr hz hs hops ⟨had, has, hn, hal, hd, ha⟩ h0
  · have hsent := execXmov_copies hr hz hs hops ⟨had, has, hn, hal, hd, ha⟩ h0 hsrc hdst
    have hp : copyBytes s k ad as n = p := by
      subst had has hrd
      by_cases h : spaceOf (s.areg k (bitsOf b.toNat 47 44)).toNat ≠ spaceOf (s.areg k (bitsOf b.toNat 43 40)).toNat ∨
          offOf (s.areg k (bitsOf b.toNat 43 40)).toNat + n ≤ offOf (s.areg k (bitsOf b.toNat 47 44)).toNat ∨
          offOf (s.areg k (bitsOf b.toNat 47 44)).toNat + n ≤ offOf (s.areg k (bitsOf b.toNat 43 40)).toNat
      · rw [happart h, copyBytes_apart h]
      · obtain ⟨hsp, h1, h2⟩ : spaceOf (s.areg k (bitsOf b.toNat 47 44)).toNat = spaceOf (s.areg k (bitsOf b.toNat 43 40)).toNat ∧
            offOf (s.areg k (bitsOf b.toNat 47 44)).toNat < offOf (s.areg k (bitsOf b.toNat 43 40)).toNat + n ∧
            offOf (s.areg k (bitsOf b.toNat 43 40)).toNat < offOf (s.areg k (bitsOf b.toNat 47 44)).toNat + n := by
          omega
        rw [hover hsp h1 h2, copyBytes_overlap hsp h1 h2]
    rw [hp, copySent, ← hq, ← ht] at hsent
    exact ⟨fun herr => hsent.trans (by rw [if_pos herr]), fun herr => hsent.trans (by rw [if_neg herr])⟩
  · have := xmovComplete_ends hg ho hready hkind hheld herr
    rwa [hl, ← State.ctxOf_of_regs (State.served_regs s o)] at this
  · have := xmovComplete_ends hg ho hready hkind hheld herr
    rwa [hl] at this

end Sys2Proof.Machine

/-! # Writes of the streams to their memories -/

namespace Sys2Proof.Machine

open Sys2Proof.Claims

/-! ## What the trail windows and the Rink's ports leave alone (R176, R411) -/

/-- The memories and the streams of `t` are those of `s`. -/
structure SameBytes (s t : State) : Prop where
  store : t.store = s.store
  rink : t.rink = s.rink
  lpddr : t.lpddr = s.lpddr
  gsram : t.gsram = s.gsram
  streams : t.streams = s.streams

section SameBytes

variable {s t : State}

theorem SameBytes.foldl {α : Type} {f : State → α → State} (h : SameBytes s t) (hf : ∀ t x, SameBytes s t → SameBytes s (f t x)) (l : List α) :
    SameBytes s (l.foldl f t) := by
  induction l generalizing t with
  | nil => exact h
  | cons x l ih => exact ih (hf t x h)

theorem SameBytes.addMod (h : SameBytes s t) (f : Fld) (n : Nat) : SameBytes s (t.addMod f n) :=
  ⟨h.store, h.rink, h.lpddr, h.gsram, h.streams⟩

theorem SameBytes.trailBlock (h : SameBytes s t) (c unit sp n blk : Nat) (full : Bool) (d : List Byte) :
    SameBytes s (t.trailBlock c unit sp n blk full d) := by
  have hpart {t : State} (h : SameBytes s t) (l : List Nat) : SameBytes s { t with partials := l } :=
    ⟨h.store, h.rink, h.lpddr, h.gsram, h.streams⟩
  unfold State.trailBlock
  exact iteP h (iteP ((h.addMod _ _).addMod _ _) (hpart ((h.addMod _ _).addMod _ _) _))

theorem SameBytes.trailOne (h : SameBytes s t) (c unit sp a : Nat) (l : List Byte) (n : Nat) :
    SameBytes s (t.trailOne c unit sp a l n) := iteP h (h.foldl (fun _ _ h => h.trailBlock ..) _)

theorem SameBytes.trail (h : SameBytes s t) (c unit sp a : Nat) (l : List Byte) : SameBytes s (t.trail c unit sp a l) :=
  iteP (h.foldl (fun _ _ h => h.trailOne ..) _) h

theorem SameBytes.presentWrite (s : State) (k sp a n : Nat) : SameBytes s (s.presentWrite k sp a n) := by
  have hpresent : SameBytes s (s.present (rinkPort k) a n) := iteP ⟨rfl, rfl, rfl, rfl, rfl⟩ ⟨rfl, rfl, rfl, rfl, rfl⟩
  exact iteP ⟨rfl, rfl, rfl, rfl, rfl⟩ (iteP hpresent ⟨rfl, rfl, rfl, rfl, rfl⟩)

/-- Bytes of a space are read from its memory. -/
theorem SameBytes.spaceBytes (h : SameBytes s t) (k sp a n : Nat) : t.spaceBytes k sp a n = s.spaceBytes k sp a n := by
  obtain ⟨hstore, hrink, hlpddr, hgsram, -⟩ := h
  simp only [State.spaceBytes, State.storeBytes, State.rinkBytes, State.memBytes, State.gateBytes, hstore, hrink, hlpddr, hgsram]

end SameBytes

/-! ## Bytes read back (R68, R70) -/

theorem tgetMany_one {α : Type} (d : Nat → α) (m : List (Nat × α)) (x : Nat) : tgetMany d m x 1 = [tget d m x] := by
  rw [tgetMany_eq]
  rfl

theorem tgetMany_tsetMany_apart {α : Type} [DecidableEq α] (d : Nat → α) (m : List (Nat × α)) {a x : Nat} {l : List α} (h : x < a ∨ a + l.length ≤ x) :
    tgetMany d (tsetMany d m a l) x 1 = tgetMany d m x 1 := by
  rw [tgetMany_one, tgetMany_one, tget_tsetMany, if_neg (by omega)]

section SetSpace

variable (s : State) (k a : Nat) (l : List Byte) {sp : Nat} (hsp : sp ≠ 2)

include hsp

theorem State.spaceBytes_setSpace : (s.setSpace k sp a l).spaceBytes k sp a l.length = l := by
  unfold State.setSpace State.spaceBytes
  split
  · exact tgetMany_tsetMany_same ..
  · split
    · exact s.rinkBytes_setRink a l
    · exact tgetMany_tsetMany_same ..

theorem State.byteAt_setSpace {x : Nat} (h : x < a ∨ a + l.length ≤ x) : byteAt (s.setSpace k sp a l) k sp x = byteAt s k sp x := by
  unfold byteAt State.setSpace State.spaceBytes
  split
  · exact tgetMany_tsetMany_apart _ _ (by omega)
  · split
    · exact tgetMany_tsetMany_apart _ _ h
    · exact tgetMany_tsetMany_apart _ _ (by simp only [gateAt]; omega)

theorem State.lpddr_setSpace : (s.setSpace k sp a l).lpddr = s.lpddr := by
  rw [State.setSpace, if_neg hsp]
  exact iteP (P := fun t : State => t.lpddr = s.lpddr) rfl (iteP (P := fun t : State => t.lpddr = s.lpddr) rfl rfl)

theorem State.streams_setSpace : (s.setSpace k sp a l).streams = s.streams := by
  rw [State.setSpace, if_neg hsp]
  exact iteP (P := fun t : State => t.streams = s.streams) rfl (iteP (P := fun t : State => t.streams = s.streams) rfl rfl)

theorem State.store_setSpace (h0 : sp ≠ 0) : (s.setSpace k sp a l).store = s.store := by
  rw [State.setSpace, if_neg h0, if_neg hsp]
  exact iteP (P := fun t : State => t.store = s.store) rfl rfl

theorem State.rink_setSpace (h1 : sp ≠ 1) : (s.setSpace k sp a l).rink = s.rink := by
  rw [State.setSpace, if_neg h1, if_neg hsp]
  exact iteP (P := fun t : State => t.rink = s.rink) rfl rfl

theorem State.gsram_setSpace (h : sp = 0 ∨ sp = 1) : (s.setSpace k sp a l).gsram = s.gsram := by
  rcases h with rfl | rfl
  · rfl
  · rfl

/-- A write of a stream to its cluster store, the Rink or its gate SRAM is a write of its space's bytes, beside registers that count. -/
theorem State.streamWrite_same (c op : Nat) : ∃ t : State, SameBytes s t ∧ SameBytes (t.setSpace k sp a l) (s.streamWrite c k op sp a l) := by
  refine ⟨s.presentWrite k sp a l.length, SameBytes.presentWrite .., ?_⟩
  rw [State.streamWrite, if_neg hsp]
  exact SameBytes.trail ⟨rfl, rfl, rfl, rfl, rfl⟩ ..

end SetSpace

/-! ## Channels of LPDDR (R202, R219) -/

theorem channelOf_lt (a : Nat) : channelOf a < 192 := by
  have hbits (v hi lo : Nat) (h : hi - lo + 1 = 6) : bitsOf v hi lo < 64 := by
    rw [bitsOf, h]
    exact Nat.mod_lt _ (by decide)
  have h18 (v : Nat) : bitsOf v 20 18 < 64 := (Nat.mod_lt _ (by decide)).trans (by decide)
  have hxor : ∀ q, (bitsOf q 5 0 ^^^ bitsOf q 11 6 ^^^ bitsOf q 17 12 ^^^ bitsOf q 20 18) < 2 ^ 6 := fun q =>
    Nat.xor_lt_two_pow (Nat.xor_lt_two_pow (Nat.xor_lt_two_pow (hbits q 5 0 rfl) (hbits q 11 6 rfl)) (hbits q 17 12 rfl)) (h18 q)
  have hlow : (a / 64 / 31 % 192 % 64 ^^^ _) < 64 := Nat.xor_lt_two_pow (n := 6) (Nat.mod_lt _ (by decide)) (hxor (a / 64 / 31 / 192))
  unfold channelOf
  dsimp only
  omega

/-- A failed channel is one of some controller. -/
theorem State.anyFailed_of_channelFailed {s : State} {x : Nat} (h : s.channelFailed x = true) : s.anyFailed = true := by
  have hm : channelOf x / 16 < 12 := by
    have := channelOf_lt x
    omega
  unfold State.anyFailed
  refine List.any_eq_true.2 ⟨channelOf x / 16, List.mem_range.2 hm, ?_⟩
  rw [bne_iff_ne]
  intro h0
  rw [State.channelFailed, h0, Nat.zero_testBit] at h
  exact Bool.false_ne_true h

/-- Settles O59: ST by where its address lies, its completion, and the bytes that each write leaves in its memory. -/
theorem storeResults : Obligations.StoreResults := by
  refine ⟨⟨fun k b s sp off n id hr hz hs hops hsp hn hid hoff => ⟨fun hloc hacc r t u hrd ht hu => ?_, fun hrem hacc o ho hfree => ?_⟩,
      fun k op s o hg ho hkind hready hheld => storeComplete_ends hg ho hready hkind hheld⟩, fun s c k op sp a l hsp => ?_, fun s a l => ?_⟩
  · subst hsp hn hid
    have hsent := execSt_local hr hz hs hops hoff hloc hacc
    have hu' : u = stSent s k b (spaceOf (msAddr s k b).toNat) off (msBytes b.toNat) := by
      rw [hu, ht, hrd]
      rfl
    refine ⟨fun hidle => by rw [hrd, State.besideWrite_of_idle hidle], fun h2 => ?_, fun h2 hready => ?_⟩
    · exact hsent.trans (by rw [State.enterMem_of_local h2, hu'])
    · exact hsent.trans (by rw [hu', h2, State.enterMem_of_lpddr hready])
  · subst hsp hn ho
    exact (execSt_remote hr hz hs hops hoff hrem hacc).trans (by rw [State.remoteIssue_sends hfree])
  · obtain ⟨t, hst, hw⟩ := State.streamWrite_same s k a l hsp c op
    refine ⟨?_, fun x hx => ?_, fun h0 => ?_, fun h1 => ?_, fun h01 => ?_, ?_, fun j r => ?_⟩
    · rw [hw.spaceBytes, t.spaceBytes_setSpace k a l hsp]
    · rw [byteAt, hw.spaceBytes]
      exact (t.byteAt_setSpace k a l hsp hx).trans (hst.spaceBytes ..)
    · rw [hw.store, t.store_setSpace k a l hsp h0, hst.store]
    · rw [hw.rink, t.rink_setSpace k a l hsp h1, hst.rink]
    · rw [hw.gsram, t.gsram_setSpace k a l hsp h01, hst.gsram]
    · rw [hw.lpddr, t.lpddr_setSpace k a l hsp, hst.lpddr]
    · have hstreams := hw.streams.trans ((t.streams_setSpace k a l hsp).trans hst.streams)
      obtain ⟨hsreg, hareg, -⟩ := State.files_of_streams hstreams j r
      exact ⟨hsreg, hareg⟩
  · refine ⟨s.rinkBytes_setRink a l, fun x hx => ?_, fun h => s.memBytes_setMem a l (fun i hi => by rw [h i hi, Bool.and_false]), fun x hx => ?_,
      rfl, rfl, rfl, rfl⟩
    · rw [State.rinkBytes, State.rinkBytes, tgetMany_one, tgetMany_one, s.rink_setRink_ne a x l hx]
    · rw [State.memBytes, State.memBytes, tgetMany_one, tgetMany_one]
      rcases hx with hx | hx | hx
      · rw [s.lpddr_setMem_ne a x l (.inl hx)]
      · rw [s.lpddr_setMem_ne a x l (.inr hx)]
      · rw [s.lpddr_setMem_failed a x l (State.anyFailed_of_channelFailed hx) hx]

end Sys2Proof.Machine

/-! # The remote atomics -/

namespace Sys2Proof.Machine

open Sys2Proof.Claims

section Atomic

variable {s : State} {k : Nat} {b : BitVec 52} {min code : Nat}

/-- What the form of an atomic asks of its fields (R276, R278). -/
def atomicBad (w code : Nat) : List Nat :=
  (if code = 8 then [] else badZero w 33 29) ++ (if bitsOf w 27 27 == 1 then [] else badZero w 26 15) ++
    (if code = 9 then badZero w 47 43 else [])

theorem atomicBad_eq_nil (hcmp : code ≠ 8 → bitsOf b.toNat 33 29 = 0) (hcc : bitsOf b.toNat 27 27 = 0 → bitsOf b.toNat 26 15 = 0)
    (hdst : code = 9 → bitsOf b.toNat 47 43 = 0) (min : Nat) : atomicBad (velimWord 0x3C min b) code = [] := by
  have hbad3 : (if code = 9 then badZero (velimWord 0x3C min b) 47 43 else []) = [] := by
    split
    · next h => exact badZero_eq_nil (hdst h) (by decide) (by decide)
    · rfl
  have hbad2 : (if bitsOf (velimWord 0x3C min b) 27 27 == 1 then [] else badZero (velimWord 0x3C min b) 26 15) = [] := by
    rw [bitsOf_velimWord _ _ _ _ _ (by decide) (by decide)]
    split
    · rfl
    · next h =>
      have hlt : bitsOf b.toNat 27 27 < 2 := Nat.mod_lt _ (by decide)
      exact badZero_eq_nil (hcc (by simp only [beq_iff_eq] at h; omega)) (by decide) (by decide)
  have hbad1 : (if code = 8 then [] else badZero (velimWord 0x3C min b) 33 29) = [] := by
    split
    · rfl
    · next h => exact badZero_eq_nil (hcmp h) (by decide) (by decide)
  rw [atomicBad, hbad1, hbad2, hbad3]
  rfl

variable (hr : Runs s k b) (hbad : atomicBad (velimWord 0x3C min b) code = [])
  (hs : Settled s k [fd b.toNat, bitsOf b.toNat 38 34, bitsOf b.toNat 33 29]) (hops : OpsFree s k)

include hr hbad hs hops

theorem State.atomic_sends {off : Nat} (hsp : spaceOf (msAddr s k b).toNat = 3) (hoff : effOff (msAddr s k b) (sfield b.toNat 14 0) = some off)
    (hacc : s.remoteFault (s.ctxOf k) off (atomicBytes b) (if code = 9 then 1 else 2) (bitsOf b.toNat 27 27 == 1) = none) :
    s.atomic k min b code = s.remoteIssue k off {
      opc := code + 16 * (if atomicBytes b = 8 then 3 else 2) + 128 * b01 (bitsOf b.toNat 27 27 == 1)
      val := (s.sreg k (bitsOf b.toNat 38 34)).toNat % 2 ^ (8 * atomicBytes b)
      cmp := (s.sreg k (bitsOf b.toNat 33 29)).toNat % 2 ^ (8 * atomicBytes b)
      cc := bitsOf b.toNat 26 15, dst := fd b.toNat } := by
  unfold State.atomic
  refine (State.issue_acts _ hr hbad rfl ?_ vSettled_nil (fun _ => hops) ?_).trans ?_
  · simpa only [fd_velimWord, bitsOf_velimWord 0x3C min b 38 34 (by decide) (by decide),
      bitsOf_velimWord 0x3C min b 33 29 (by decide) (by decide)] using hs
  · rw [msAddr_velimWord, if_neg (not_not.2 hsp), sfield_velimWord _ _ _ _ _ (by decide) (by decide), hoff,
      bitsOf_velimWord _ _ _ 28 28 (by decide) (by decide), bitsOf_velimWord _ _ _ 27 27 (by decide) (by decide)]
    exact congrArg (fun o => faultAt o 39) hacc
  · rw [msAddr_velimWord, sfield_velimWord _ _ _ _ _ (by decide) (by decide), hoff, bitsOf_velimWord _ _ _ 28 28 (by decide) (by decide)]
    simp only [Option.getD_some, fd_velimWord, bitsOf_velimWord 0x3C min b 38 34 (by decide) (by decide),
      bitsOf_velimWord 0x3C min b 33 29 (by decide) (by decide), bitsOf_velimWord 0x3C min b 27 27 (by decide) (by decide),
      bitsOf_velimWord 0x3C min b 26 15 (by decide) (by decide)]
    rfl

theorem State.atomic_wrongSpace (hp : Precise s k) (hsp : spaceOf (msAddr s k b).toNat ≠ 3) :
    s.atomic k min b code = s.streamFault k F_ISA_SPACE 39 (s.rd (ENG_PC.PC k)) := by
  unfold State.atomic
  refine State.issue_operandFault _ hr hp hbad rfl ?_ vSettled_nil (fun _ => hops) ?_
  · simpa only [fd_velimWord, bitsOf_velimWord 0x3C min b 38 34 (by decide) (by decide),
      bitsOf_velimWord 0x3C min b 33 29 (by decide) (by decide)] using hs
  · rw [msAddr_velimWord, if_pos hsp, firstFault_singleton]

end Atomic

/-- Each row of R276 and R278 is the atomic of its operation code. -/
theorem exec_atomicRows : ∀ r ∈ atomicRows, ∃ min, ∀ k b s, exec (r.1 k b) s = .next (s.atomic k min b r.2) := by
  have hrow (min : Nat) {f : Fin 50 → BitVec 52 → Instr} {code : Nat} (h : ∀ k b s, exec (f k b) s = .next (s.atomic k min b code)) :
      ∃ min, ∀ k b s, exec (f k b) s = .next (s.atomic k min b code) := ⟨min, h⟩
  simp only [atomicRows, List.forall_mem_cons, List.not_mem_nil, false_imp_iff]
  exact ⟨hrow 0 fun _ _ _ => rfl, hrow 1 fun _ _ _ => rfl, hrow 2 fun _ _ _ => rfl, hrow 3 fun _ _ _ => rfl, hrow 4 fun _ _ _ => rfl,
    hrow 5 fun _ _ _ => rfl, hrow 6 fun _ _ _ => rfl, hrow 7 fun _ _ _ => rfl, fun _ => trivial⟩

/-- Settles O20: an atomic is sent where its segment grants it, and raises F_ISA_SPACE outside space 0x3. -/
theorem remoteAtomicResults : Obligations.RemoteAtomicResults := by
  intro r hrow k b s hr hcmp hcc hdst hs hops
  obtain ⟨min, hexec⟩ := exec_atomicRows r hrow
  have hbad := atomicBad_eq_nil hcmp hcc hdst min
  have hflag : b01 (bitsOf b.toNat 27 27 == 1) = bitsOf b.toNat 27 27 := by
    have hlt : bitsOf b.toNat 27 27 < 2 := Nat.mod_lt _ (by decide)
    generalize bitsOf b.toNat 27 27 = x at hlt ⊢
    interval_cases x <;> rfl
  refine ⟨fun off o hsp hoff hacc ho hfree => ?_, fun hsp hp => ?_⟩
  · subst ho
    rw [Gives, hexec, State.atomic_sends hr hbad hs hops hsp hoff hacc, hflag, State.remoteIssue_sends hfree]
  · rw [Gives, hexec, State.atomic_wrongSpace hr hbad hs hops hp hsp]

end Sys2Proof.Machine

/-! # The Relay Engines' and the Snapshot Engine's instructions -/

namespace Sys2Proof.Machine

open Sys2Proof.Claims

/-- A field that is part of a zero field is legal. -/
theorem badZero_part {b : BitVec 52} {maj min hi lo hi' lo' : Nat} (h : bitsOf b.toNat hi lo = 0) (hlo : lo ≤ lo') (hhi : hi' ≤ hi)
    (hle : lo' ≤ hi') (hlt : hi' < 52) : badZero (velimWord maj min b) hi' lo' = [] :=
  badZero_eq_nil (bitsOf_eq_zero_of_le h hlo hhi hle) hlt hle

theorem faultAt_none (info : Nat) : faultAt none info = [] := rfl

section Relay

variable {s : State} {k : Fin 50} {b : BitVec 52}

theorem isRelay_of_mem (h40 : 40 ≤ k.val) (h48 : k.val < 48) : isRelay k = true := by
  simp [isRelay, h40, h48]

/-- What RPOST does with its descriptor (R288 to R290). -/
def rpostActs (s : State) (k : Nat) (a : Nat) : State :=
  let t := (s.retire k).checkRead (rinkPort k) 1 (offOf a) 64 false
  if s.rinkBad (offOf a) 64 then t.streamFault k F_LKR_RINKUE 0 (s.rd (ENG_PC.PC k))
  else if odOk (s.rinkWords (offOf a) 8) then
    t.setRelay (k - 40) { s.relay (k - 40) with
      posted := (s.relay (k - 40)).posted ++ [{ desc := s.rinkWords (offOf a) 8, pc := s.rd (ENG_PC.PC k) }] }
  else t.streamFault k F_COL_DESC 0 (s.rd (ENG_PC.PC k))

variable (h40 : 40 ≤ k.val) (h48 : k.val < 48) (hr : Runs s k b)

include h40 h48 hr

theorem execRpost_acts {a : Nat} (ha : a = (s.areg k (bitsOf b.toNat 47 44)).toNat) (hz : bitsOf b.toNat 43 0 = 0)
    (hacc : s.accessFault k (s.ctxOf k) (spaceOf a) (offOf a) 64 64 (decide (spaceOf a = 1)) = none)
    (hroom : ((s.relay (k.val - 40)).posted.filter (fun o => ! o.fired)).length < 256) :
    execRpost k b s = .next (rpostActs s k a) := by
  subst ha
  unfold execRpost
  simp only [bitsOf_velimWord 0x38 0x00 b 47 44 (by decide) (by decide), hacc]
  refine congrArg _ ((State.issue_acts _ hr ?_ (isRelay_of_mem h40 h48) settled_nil vSettled_nil (fun h => absurd h Bool.false_ne_true) rfl).trans ?_)
  · dsimp only
    rw [badZero_part hz (by decide) (by decide) (by decide) (by decide), badZero_part hz (by decide) (by decide) (by decide) (by decide),
      badZero_part hz (by decide) (by decide) (by decide) (by decide), badZero_part hz (by decide) (by decide) (by decide) (by decide)]
    rfl
  · exact if_neg (Nat.not_le.2 hroom)

theorem execRcancel_acts (hhi : bitsOf b.toNat 47 34 = 0) (hlo : bitsOf b.toNat 21 0 = 0) :
    execRcancel k b s = .next (((s.setRelay (k.val - 40) { s.relay (k.val - 40) with
      posted := (s.relay (k.val - 40)).posted.filter (fun o => o.fired) }).addCc (s.ctxOf k) (bitsOf b.toNat 33 22) 1).retire k) := by
  unfold execRcancel
  refine congrArg _ ((State.issue_acts _ hr ?_ (isRelay_of_mem h40 h48) settled_nil vSettled_nil (fun h => absurd h Bool.false_ne_true) rfl).trans ?_)
  · dsimp only
    rw [badZero_part hhi (by decide) (by decide) (by decide) (by decide), badZero_part hhi (by decide) (by decide) (by decide) (by decide),
      badZero_part hhi (by decide) (by decide) (by decide) (by decide), badZero_part hlo (by decide) (by decide) (by decide) (by decide)]
    rfl
  · rw [bitsOf_velimWord _ _ _ 33 22 (by decide) (by decide)]

theorem execRadmit_asks {a n id : Nat} (ha : a = (s.areg k (bitsOf b.toNat 47 44)).toNat) (hn : n = (s.sreg k (bitsOf b.toNat 43 39)).toNat)
    (hid : id = (s.sreg k (bitsOf b.toNat 38 34)).toNat % 2 ^ 32) (hz : bitsOf b.toNat 33 0 = 0)
    (hs : Settled s k [bitsOf b.toNat 43 39, bitsOf b.toNat 38 34])
    (hacc : s.accessFault k (s.ctxOf k) (spaceOf a) (offOf a) 32 32 (decide (spaceOf a = 1)) = none) (h0 : n ≠ 0) (h512 : n ≤ 512)
    (hpart : n ≤ (s.partition (s.ctxOf k)).length) :
    execRadmit k b s = .next (s.updCol (fun x => { x with
      asked := x.asked ++ [⟨n, id, s.rinkWords (offOf a) 4, s.rd (ENG_PC.PC k), k.val, a⟩] })) := by
  subst ha hn hid
  unfold execRadmit
  simp only [bitsOf_velimWord 0x39 0x00 b 47 44 (by decide) (by decide), bitsOf_velimWord 0x39 0x00 b 43 39 (by decide) (by decide),
    bitsOf_velimWord 0x39 0x00 b 38 34 (by decide) (by decide)]
  refine congrArg _ ((State.issue_acts _ hr ?_ (isRelay_of_mem h40 h48) hs vSettled_nil (fun h => absurd h Bool.false_ne_true) ?_).trans rfl)
  · dsimp only
    rw [badZero_part hz (by decide) (by decide) (by decide) (by decide), badZero_part hz (by decide) (by decide) (by decide) (by decide)]
    rfl
  · rw [hacc, if_neg (by omega)]
    rfl

section Free

variable (hz : bitsOf b.toNat 47 39 = 0) (hlo : bitsOf b.toNat 33 0 = 0) (hs : Settled s k [bitsOf b.toNat 38 34])

include hz hlo

omit h40 h48 hr in
/-- The zero fields of RFREE. -/
theorem rfree_bad_eq_nil : badZero (velimWord 0x39 0x01 b) 47 44 ++ badZero (velimWord 0x39 0x01 b) 43 39 ++
    badZero (velimWord 0x39 0x01 b) 33 22 ++ badZero (velimWord 0x39 0x01 b) 21 0 = [] := by
  rw [badZero_part hz (by decide) (by decide) (by decide) (by decide), badZero_part hz (by decide) (by decide) (by decide) (by decide),
    badZero_part hlo (by decide) (by decide) (by decide) (by decide), badZero_part hlo (by decide) (by decide) (by decide) (by decide)]
  rfl

include hs

theorem execRfree_frees {l : List Nat} (hl : l = s.colEntries (s.ctxOf k) ((s.sreg k (bitsOf b.toNat 38 34)).toNat % 2 ^ 32))
    (hfree : l.all (fun i => (s.rsEntry i).st != 2) = true) :
    execRfree k b s = .next ((l.foldl (fun s i => s.freeEntry i) s).retire k) := by
  unfold execRfree
  simp only [bitsOf_velimWord 0x39 0x01 b 38 34 (by decide) (by decide)]
  rw [← hl]
  refine congrArg _ ((State.issue_acts _ hr ?_ (isRelay_of_mem h40 h48) hs vSettled_nil (fun h => absurd h Bool.false_ne_true) ?_).trans rfl)
  · exact rfree_bad_eq_nil hz hlo
  refine if_neg fun hany => ?_
  obtain ⟨i, hi, h2⟩ := List.any_eq_true.1 hany
  exact (bne_iff_ne.1 (List.all_eq_true.1 hfree i hi)) (beq_iff_eq.1 h2)

theorem execRfree_busy {l : List Nat} (hl : l = s.colEntries (s.ctxOf k) ((s.sreg k (bitsOf b.toNat 38 34)).toNat % 2 ^ 32))
    (hbusy : l.any (fun i => (s.rsEntry i).st == 2) = true) (hp : Precise s k) :
    execRfree k b s = .next (s.streamFault k F_COL_FREEBUSY 0 (s.rd (ENG_PC.PC k))) := by
  unfold execRfree
  simp only [bitsOf_velimWord 0x39 0x01 b 38 34 (by decide) (by decide)]
  rw [← hl]
  refine congrArg _ (State.issue_operandFault _ hr hp ?_ (isRelay_of_mem h40 h48) hs vSettled_nil
    (fun h => absurd h Bool.false_ne_true) ?_)
  · exact rfree_bad_eq_nil hz hlo
  · rw [if_pos hbusy, firstFault_singleton]

end Free

end Relay

/-! ## Admission at the end of the clk (R300) -/

section Admission

variable {s : State} {r : Admit}

/-- The one RADMIT of a clk is taken by itself. -/
theorem State.settleAdmits_one (h : s.col.asked = [r]) :
    s.settleAdmits = (s.updCol (fun x => { x with asked := [] })).admitAsked r (offOf r.addr) := by
  rw [State.settleAdmits, h]
  rfl

variable {a : Nat} (hrun : s.engState r.stream = EngSt.run)

include hrun

theorem State.admitAsked_order {last : Nat} (hlast : (s.ctx (s.ctxOf r.stream)).lastCol = some last) (hlate : laterCol r.colid last = false)
    (hp : Precise s r.stream) : s.admitAsked r a = s.streamFault r.stream F_COL_ORDER 0 (s.rd (ENG_PC.PC r.stream)) := by
  simp [State.admitAsked, hlast, hrun, hlate, State.preciseFault, State.issueFault, hp]

/-- A RADMIT that its context takes: its collective's number is kept and it retires, before its descriptor is judged. -/
theorem State.admitAsked_taken (hlate : ∀ last, (s.ctx (s.ctxOf r.stream)).lastCol = some last → laterCol r.colid last = true)
    (hroom : (s.admits (s.ctxOf r.stream)).length < 16) (hgood : s.rinkBad a 32 = false) {t : State}
    (ht : t = ((((s.updCtx (s.ctxOf r.stream) (fun x => { x with lastCol := some r.colid })).wr
      (if s.ctxOf r.stream = 0 then COL_LASTID.GEN else COL_LASTID.RT) r.colid).retire r.stream).checkRead (rinkPort r.stream) 1 a 32 false)) :
    s.admitAsked r a = if adOk r.desc then t.setAdmits (s.ctxOf r.stream) (t.admits (s.ctxOf r.stream) ++ [r])
      else t.streamFault r.stream F_COL_DESC 0 r.pc := by
  subst ht
  unfold State.admitAsked
  dsimp only
  rw [if_neg (not_not.2 hrun), if_neg, if_neg (Nat.not_le.2 hroom), hgood, if_neg Bool.false_ne_true]
  cases hlast : (s.ctx (s.ctxOf r.stream)).lastCol with
  | none => exact Bool.false_ne_true
  | some last => simp [hlate last hlast]

end Admission

/-! ## Snapshot instructions (R352 to R354) -/

section Snapshot

variable {s : State}

theorem State.snapIssue_begins {k : Fin 50} {b : BitVec 52} {a m n : Nat} (h48 : 48 ≤ k.val) (hr : Runs s k b) (hz : bitsOf b.toNat 31 0 = 0)
    (hops : OpsFree s k) (ha : a = (s.areg k (bitsOf b.toNat 47 44)).toNat)
    (hacc : s.accessFault k (s.ctxOf k) (spaceOf a) (offOf a) n 64 (spaceOf a == 1) = none) :
    s.snapIssue k m n b = (s.beginOp k (.snap m (bitsOf b.toNat 43 32)) 1 (offOf a)).retire k := by
  subst ha
  unfold State.snapIssue
  simp only [bitsOf_velimWord 0x3D m b 47 44 (by decide) (by decide), bitsOf_velimWord 0x3D m b 43 32 (by decide) (by decide), hacc]
  exact State.issue_acts _ hr (badZero_eq_nil hz (by decide) (by decide)) (decide_eq_true h48) settled_nil vSettled_nil (fun _ => hops) rfl

/-- Nothing is settled for capsules where none was lost. -/
theorem State.settleLost_of_none (h : s.host.lost = []) : s.settleLost = s := by
  have hs : { s with host := { s.host with lost := [] } } = s := by rw [← h]
  rw [State.settleLost, h]
  exact hs

/-- A range of the Rink is bad where one of its words is. -/
theorem State.badAll_rink (a n : Nat) : s.badAll [(1, a, n)] = if s.rinkBad a n = true then some F_LKR_RINKUE else none := by
  cases h : s.rinkBad a n with
  | true => simp [State.badAll, State.badCode, h]
  | false => simp [State.badAll, State.badCode, h]

/-- SNAPSHOT_INSTR_COMPLETE at the stream's oldest snapshot instruction. -/
theorem execSnapshotInstrComplete_front {c : Fin 2} {o : MemOp} {l : List MemOp} {m cc : Nat} (hg : Grants s) (hlost : s.host.lost = [])
    (hops : (s.stream (48 + c.val)).ops = o :: l) (hkind : o.kind = .snap m cc) (hm : m < 3) (hyield : m = 0 → s.readsYield = false) :
    execSnapshotInstrComplete c s = .next (s.snapRead (48 + c.val) o [(1, o.addr, if m = 0 then 32 else if m = 1 then 16 else 24)]
      (fun s => if m = 0 then s.runSrd (48 + c.val) o cc else if m = 1 then s.runSdig (48 + c.val) o cc else s.runSman (48 + c.val) o cc)) := by
  rw [execSnapshotInstrComplete, State.granting_of_grants hg, State.settleLost_of_none hlost]
  dsimp only
  rw [hops]
  rw [List.find?_cons_of_pos (by simp [hkind, hm])]
  simp only [hkind]
  rw [if_neg]
  rintro ⟨h0, hy⟩
  exact Bool.false_ne_true ((hyield h0).symm.trans hy)

end Snapshot

/-- Settles O21: the Relay Engines' instructions, the admission that a clk's end takes, and the Snapshot Engine's. -/
theorem relayAndSnapshotIssueResults : Obligations.RelayAndSnapshotIssueResults := by
  refine ⟨⟨fun k b s h40 h48 hr => ⟨fun a t ha hz hacc hroom ht => ?_, execRcancel_acts h40 h48 hr,
      fun a n id ha hn hid hz hs hacc h0 h512 hpart => execRadmit_asks h40 h48 hr ha hn hid hz hs hacc h0 h512 hpart,
      fun l hl hz hlo hs => ⟨execRfree_frees h40 h48 hr hz hlo hs hl, execRfree_busy h40 h48 hr hz hlo hs hl⟩⟩,
    fun s r hasked u t k c hu hk hc hrun => ?_⟩, fun row hrow k b s a h48 hr hz hops ha hacc => ?_,
    fun c s u o l m cc n hg hlost hops hkind hm hyield hn hu => ?_⟩
  · have hacts := execRpost_acts h40 h48 hr ha hz hacc hroom
    rw [rpostActs, ← ht] at hacts
    refine ⟨fun hbad => hacts.trans (by rw [if_pos hbad]), fun hgood => ?_⟩
    rw [hgood, if_neg Bool.false_ne_true] at hacts
    exact ⟨fun hok => hacts.trans (by rw [if_pos hok]), fun hok => hacts.trans (by rw [hok, if_neg Bool.false_ne_true])⟩
  · subst hu hk hc
    rw [State.settleAdmits_one hasked]
    refine ⟨fun last hlast hlate hp => State.admitAsked_order hrun hlast hlate hp, fun hlate hroom hgood ht => ?_⟩
    have htaken := State.admitAsked_taken (s := s.updCol (fun x => { x with asked := [] })) hrun hlate hroom hgood ht
    exact ⟨fun hok => htaken.trans (if_pos hok), fun hok => htaken.trans (if_neg (by simp [hok]))⟩
  · have hbegins := fun m n hacc => State.snapIssue_begins (m := m) (n := n) h48 hr hz hops ha hacc
    simp only [snapRows, List.mem_cons, List.not_mem_nil, or_false] at hrow
    rcases hrow with rfl | rfl | rfl
    · exact congrArg _ (hbegins 0 32 hacc)
    · exact congrArg _ (hbegins 1 16 hacc)
    · exact congrArg _ (hbegins 2 24 hacc)
  · have hfront := execSnapshotInstrComplete_front hg hlost hops hkind hm hyield
    rw [← hn, State.snapRead, State.badAll_rink, ← hu] at hfront
    exact ⟨fun hbad => hfront.trans (by rw [if_pos hbad]), fun hgood => hfront.trans (by rw [if_neg (by simp [hgood])])⟩

end Sys2Proof.Machine

/-! # GMM and the Gate Engines' instructions -/

namespace Sys2Proof.Machine

open Sys2Proof.Claims

/-! ## GMM (R108, R109) -/

section Gmm

variable {s : State} {k : Fin 50} {b : BitVec 52}

/-- What a GMM does once it issues. -/
def gmmSent (s : State) (k : Nat) (b : BitVec 52) (a n : Nat) : State :=
  if n = 0 then (if bitsOf b.toNat 26 26 = 0 then s.addCc (s.ctxOf k) (bitsOf b.toNat 38 27) 1 else s).retire k
  else if 2 ≤ (s.gmu k).length then s.stall k
  else ((s.beginOp k .gmm (spaceOf a) (offOf a)).gmuAdd k
    { stream := k, op := (s.stream k).nextOp, pc := s.rd (ENG_PC.PC k), addr := a, count := n, entry := 0, cc := bitsOf b.toNat 38 27,
      ce := bitsOf b.toNat 26 26 }).retire k

theorem execGmm_acts (hk : k.val < 32) (hr : Runs s k b) (hz : bitsOf b.toNat 25 0 = 0) (hs : Settled s k [bitsOf b.toNat 43 39])
    (hops : OpsFree s k) {a n : Nat} (ha : a = (s.areg k (bitsOf b.toNat 47 44)).toNat) (hn : n = (s.sreg k (bitsOf b.toNat 43 39)).toNat)
    (hle : n ≤ 65535) (hacc : s.accessFault k (s.ctxOf k) (spaceOf a) (offOf a) (64 * n) 64 (decide (spaceOf a < 2)) = none) :
    execGmm k b s = .next (gmmSent s k b a n) := by
  unfold execGmm
  simp only [bitsOf_velimWord 0x28 0x00 b 47 44 (by decide) (by decide), bitsOf_velimWord 0x28 0x00 b 43 39 (by decide) (by decide),
    bitsOf_velimWord 0x28 0x00 b 38 27 (by decide) (by decide), bitsOf_velimWord 0x28 0x00 b 26 26 (by decide) (by decide)]
  rw [← ha, ← hn, hacc, if_pos hle]
  refine congrArg _ ((State.issue_acts _ hr (badZero_eq_nil hz (by decide) (by decide)) ?_ hs vSettled_nil (fun _ => hops) rfl).trans rfl)
  exact decide_eq_true hk

end Gmm

/-! ## The entries of a GMM (R111, R112, R177) -/

section Entry

variable {s : State} {u : Fin 32} {x : GmmOp} {l : List GmmOp}

/-- The head of the list, whose descriptor is loaded, starts nothing. -/
theorem State.gmuReach_of_loaded {u : Nat} (h : s.gmu u = x :: l) (hd : x.desc ≠ []) : s.gmuReach u = s := by
  rw [State.gmuReach, h]
  exact if_neg fun hload => hd hload.1

/-- What the end of an entry does, once its reads are good. -/
def entryEnds (s : State) (u : Nat) (x : GmmOp) (l : List GmmOp) : State :=
  if ¬ (Gdt.mk x.desc).valid then s.entryOver u x l
  else if (Gdt.mk x.desc).rows = 0 then (s.countEntry u ⟨x.desc⟩).entryOver u x l
  else match x.fault with
    | some f => s.streamFault u f x.entry x.pc
    | none => ((s.gmmWrite u x.op ⟨x.desc⟩ (x.loose.contains x.entry)).countEntry u ⟨x.desc⟩).entryOver u x l

variable (hg : Grants s) (hc : s.ctxState (s.ctxOf u) = CtxSt.run ∨ s.ctxState (s.ctxOf u) = CtxSt.saving) (hgmu : s.gmu u = x :: l)
  (hd : x.desc ≠ []) (hserves : s.servesAll (entryReads s u x) = true)

include hg hc hgmu hd hserves

theorem gmmEntryDone_reads : GivesWith (.gmmEntryDone u) s (match s.badAll (entryReads s u x) with
    | some code => (s.readRanges (rinkPort u) (entryReads s u x) false).streamFault u code 0 x.pc
    | none => entryEnds (s.readRanges (rinkPort u) (entryReads s u x) false) u x l) := by
  intro up z hz
  have hreads : entryReads s u x = (spaceOf x.addr, offOf x.addr + 64 * x.entry, 64) ::
      (if ¬ (Gdt.mk x.desc).valid ∨ (Gdt.mk x.desc).rows = 0 ∨ x.fault.isSome then []
        else (s.gdtReads u ⟨x.desc⟩).map (fun r => (spaceOf r.1, offOf r.1, r.2))) := by
    simp only [entryReads, Bool.not_eq_true]
  change execGmmEntryDone u up z = _
  rw [execGmmEntryDone, State.granting_of_grants (grants_of_upset hz hg)]
  dsimp only
  rw [hz, State.gmuReach_of_loaded hgmu hd, if_neg (not_not.2 hc), hgmu]
  dsimp only
  rw [if_neg hd, ← hreads, if_neg (not_not.2 hserves)]
  rfl

end Entry

/-! ## GROUTE, GSELECT and GCLOSE (R125, R126) -/

section Gate

variable {s : State} {k : Fin 50} {b : BitVec 52} {a n kind : Nat}

/-- An instruction of a Gate Engine with room joins its list. -/
def gateJoined (s : State) (k : Nat) (b : BitVec 52) (a n kind : Nat) : State :=
  let t := (((if kind = 2 then s else s.beginOp k .gate (spaceOf a) (offOf a)).updGate (k - 32) (fun y => { y with ops := y.ops ++
    [{ kind := kind, op := (s.stream k).nextOp, pc := s.rd (ENG_PC.PC k), addr := a, count := n, cc := bitsOf b.toNat 38 27,
       desc := [] }] })).retire k)
  (t.wr (GE_STATUS.QUEUED (k - 32)) (t.gate (k - 32)).ops.length).gateReach (k - 32) 2

theorem State.issueGate_joins (maj min : Nat) (h32 : 32 ≤ k.val) (h40 : k.val < 40) (hr : Runs s k b) (hz : bitsOf b.toNat 26 0 = 0)
    (hs : Settled s k [bitsOf b.toNat 43 39]) (hroom : (s.gate (k.val - 32)).ops.length < 2)
    (ha : a = (s.areg k (bitsOf b.toNat 47 44)).toNat)
    (hacc : s.accessFault k (s.ctxOf k) (spaceOf a) (offOf a) 64 1 (decide (spaceOf a = 1 ∨ spaceOf a = 4)) = none) (hal : offOf a % 64 = 0)
    (hclose : kind = 2 → bitsOf b.toNat 43 39 = 0) (hops : kind ≠ 2 → OpsFree s k)
    (hn : n = if kind = 2 then 0 else (s.sreg k (bitsOf b.toNat 43 39)).toNat) (hle : n ≤ 65535) :
    s.issueGate k (velimWord maj min b) kind = gateJoined s k b a n kind := by
  unfold State.issueGate
  simp only [bitsOf_velimWord maj min b 47 44 (by decide) (by decide), bitsOf_velimWord maj min b 43 39 (by decide) (by decide),
    bitsOf_velimWord maj min b 38 27 (by decide) (by decide)]
  rw [← ha, ← hn, hacc, if_pos hle, if_pos hal]
  refine (State.issue_acts _ hr ?_ ?_ hs vSettled_nil (fun h => hops (of_decide_eq_true h)) rfl).trans (if_neg (Nat.not_le.2 hroom))
  · have hreg : (if kind = 2 then badZero (velimWord maj min b) 43 39 else []) = [] := by
      split
      · next h => exact badZero_eq_nil (hclose h) (by decide) (by decide)
      · rfl
    rw [hreg, badZero_eq_nil hz (by decide) (by decide)]
    rfl
  · simp [isGate, h32, h40]

end Gate

/-- Settles O19: GMM by its count and its GMU's room, its entries by what they are and what they meet, and the Gate Engines' list. -/
theorem gmmAndGateIssueResults : Obligations.GmmAndGateIssueResults := by
  refine ⟨⟨fun k b s hk hr hz hs hops a n ha hn hle hacc => ?_, fun u s r x l hg hc hgmu hd hserves hrd => ?_⟩,
    fun k b s a n h32 h40 hr hz hs hroom ha hacc hal => ⟨fun i kind hi hn hle hops t ht => ?_, fun hclose t ht => ?_⟩⟩
  · have hsent := execGmm_acts hk hr hz hs hops ha hn hle hacc
    unfold gmmSent at hsent
    refine ⟨fun h0 hce => hsent.trans ?_, fun h0 hce => hsent.trans ?_, fun h0 hroom => hsent.trans ?_⟩
    · rw [if_pos h0, if_pos hce]
    · rw [if_pos h0, if_neg (by omega)]
    · rw [if_neg h0, if_neg (by omega)]
  · have hreads := gmmEntryDone_reads hg hc hgmu hd hserves
    rw [← hrd] at hreads
    refine ⟨fun code hbad => by rwa [hbad] at hreads, fun hgood => ?_⟩
    rw [hgood] at hreads
    dsimp only at hreads
    unfold entryEnds at hreads
    refine ⟨fun hv => ?_, fun hv h0 => ?_, fun hv h0 => ⟨fun hf => ?_, fun f hf => ?_⟩⟩
    · rwa [hv, if_pos Bool.false_ne_true] at hreads
    · rwa [hv, if_neg (by simp), if_pos h0] at hreads
    · rwa [hv, if_neg (by simp), if_neg h0, hf] at hreads
    · rwa [hv, if_neg (by simp), if_neg h0, hf] at hreads
  · have hjoins := fun maj min (h2 : kind ≠ 2) => State.issueGate_joins (n := n) maj min h32 h40 hr hz hs hroom ha hacc hal
      (fun h => absurd h h2) (fun _ => hops) (by rw [if_neg h2, hn]) hle
    rcases hi with ⟨rfl, rfl⟩ | ⟨rfl, rfl⟩
    · exact congrArg _ ((hjoins 0x30 0x00 (by decide)).trans (by rw [ht]; rfl))
    · exact congrArg _ ((hjoins 0x30 0x01 (by decide)).trans (by rw [ht]; rfl))
  · have hjoins := State.issueGate_joins (kind := 2) 0x31 0x00 h32 h40 hr hz hs hroom ha hacc hal (fun _ => hclose) (fun h => absurd rfl h) rfl
      (Nat.zero_le _)
    exact congrArg _ (hjoins.trans (by rw [ht]; rfl))

end Sys2Proof.Machine

/-! # Vector instructions: lanes, conversions, loads and stores -/

namespace Sys2Proof.Machine

open Sys2Proof.Claims

/-! ## Lanes of a vector register (R91) -/

/-- Digit `i` of a number put together from its digits. -/
theorem digit_foldr {α : Type} {B : Nat} (hB : 0 < B) (g : α → Nat) (hg : ∀ x, g x < B) (l : List α) {i : Nat} (hi : i < l.length) :
    l.foldr (fun x acc => acc * B + g x) 0 / B ^ i % B = g l[i] := by
  induction l generalizing i with
  | nil => simp at hi
  | cons x l ih =>
    rw [List.foldr_cons]
    cases i with
    | zero => rw [Nat.pow_zero, Nat.div_one, Nat.add_comm, Nat.add_mul_mod_self_right, Nat.mod_eq_of_lt (hg x)]; rfl
    | succ i =>
      rw [Nat.pow_succ', ← Nat.div_div_eq_div_mul, Nat.mul_comm _ B, Nat.mul_add_div hB, Nat.div_eq_of_lt (hg x), Nat.add_zero,
        ih (Nat.lt_of_succ_lt_succ hi)]
      rfl

/-- Bits below the width are kept by it. -/
theorem toNat_ofNat_div_mod (n : Nat) {a b c : Nat} (h : b + c ≤ a) : (BitVec.ofNat a n).toNat / 2 ^ b % 2 ^ c = n / 2 ^ b % 2 ^ c := by
  refine Nat.eq_of_testBit_eq fun i => ?_
  rw [BitVec.toNat_ofNat, Nat.testBit_mod_two_pow, Nat.testBit_mod_two_pow, Nat.testBit_div_two_pow, Nat.testBit_div_two_pow, Nat.testBit_mod_two_pow]
  by_cases hi : i < c
  · rw [decide_eq_true (show i + b < a by omega), Bool.true_and]
  · rw [decide_eq_false hi, Bool.false_and, Bool.false_and]

/-- A lane of a vector put together from its lanes. -/
theorem lane_vecOf {l : List Nat} {i : Nat} (hi : i < 512) (hl : i < l.length) : lane (vecOf l) i = l[i] % 2 ^ 32 := by
  rw [lane, vecOf, toNat_ofNat_div_mod _ (by omega), Nat.pow_mul]
  exact digit_foldr (by decide) (fun x => x % 2 ^ 32) (fun x => Nat.mod_lt _ (by decide)) l hl

theorem lane_lt (v : Vec) (i : Nat) : lane v i < 2 ^ 32 := Nat.mod_lt _ (by decide)

/-- The mask of a VM instruction has the bit of each active lane. -/
theorem State.activeLanes_getLsbD (s : State) (k w : Nat) {i : Nat} (hi : i < 512) : (s.activeLanes k w).getLsbD i = s.active k w 35 i := by
  have hdigit := digit_foldr (B := 2) (by decide) (fun j => if s.active k w 35 j then 1 else 0)
    (fun j => iteP (P := fun n : Nat => n < 2) (by decide) (by decide)) laneList (i := i) (by simpa [laneList] using hi)
  have hcomm : laneList.foldr (fun j acc => 2 * acc + if s.active k w 35 j then 1 else 0) 0 =
      laneList.foldr (fun j acc => acc * 2 + if s.active k w 35 j then 1 else 0) 0 := by simp only [Nat.mul_comm]
  have hlane : laneList[i]'(by simpa [laneList] using hi) = i := by simp [laneList]
  rw [hlane] at hdigit
  rw [State.activeLanes, hcomm, BitVec.getLsbD_ofNat, decide_eq_true hi, Bool.true_and, Nat.testBit_eq_decide_div_mod_eq, hdigit]
  cases s.active k w 35 i with
  | true => rfl
  | false => rfl

/-! ## The write under a mask (R98) -/

section WriteLanes

variable (s : State) (k w : Nat) (f : Nat → Nat × Nat)

/-- The lanes that a write under the mask leaves in its register. -/
def maskedLanes : List Nat := laneList.map (fun i => (if s.active k w 24 i then f i else (lane (s.vreg k (fd w)) i, 0)).1)

theorem State.vreg_orFlags (j r x : Nat) : (s.orFlags k x).vreg j r = s.vreg j r := rfl

theorem State.vreg_setV_same (r : Nat) (v : Vec) : (s.setV k r v).vreg k r = v := by
  rw [State.vreg, State.setV, State.stream_updStream_same, tget_tset_same]

theorem State.vreg_setV_ne {j r p : Nat} (v : Vec) (h : ¬ (j = k ∧ p = r)) : (s.setV k r v).vreg j p = s.vreg j p := by
  rw [State.vreg, State.setV]
  by_cases hj : j = k
  · subst hj
    rw [State.stream_updStream_same, tget_tset_ne _ _ _ _ _ (fun hp => h ⟨rfl, hp⟩)]
    rfl
  · rw [State.stream_updStream, if_neg hj]
    rfl

theorem State.vreg_writeLanes : (s.writeLanes k w f).vreg k (fd w) = vecOf (maskedLanes s k w f) := by
  rw [State.writeLanes, State.vreg_orFlags, State.vreg_setV_same, List.map_map]
  rfl

theorem State.lane_writeLanes {i : Nat} (hi : i < 512) :
    lane ((s.writeLanes k w f).vreg k (fd w)) i = (if s.active k w 24 i then f i else (lane (s.vreg k (fd w)) i, 0)).1 % 2 ^ 32 := by
  rw [State.vreg_writeLanes, lane_vecOf hi (by simpa [maskedLanes, laneList] using hi)]
  simp [maskedLanes, laneList]

theorem State.vreg_writeLanes_ne {j r : Nat} (h : ¬ (j = k ∧ r = fd w)) : (s.writeLanes k w f).vreg j r = s.vreg j r := by
  rw [State.writeLanes, State.vreg_orFlags, State.vreg_setV_ne _ _ _ h]

theorem State.files_setV (r : Nat) (v : Vec) (j p : Nat) : (s.setV k r v).sreg j p = s.sreg j p ∧ (s.setV k r v).areg j p = s.areg j p ∧
    (s.setV k r v).preg j p = s.preg j p :=
  ⟨State.sreg_updStream s k (by intro _; rfl) j p, State.areg_updStream s k (by intro _; rfl) j p,
    State.preg_updStream s k (by intro _; rfl) j p⟩

/-- A write of vector lanes leaves the other files alone. -/
theorem State.files_writeLanes (j r : Nat) : (s.writeLanes k w f).sreg j r = s.sreg j r ∧ (s.writeLanes k w f).areg j r = s.areg j r ∧
    (s.writeLanes k w f).preg j r = s.preg j r :=
  State.files_setV s k (fd w) _ j r

end WriteLanes

/-! ## Lane-by-lane instructions (R99, R100, R105) -/

section Lanes

variable {s : State} {k : Nat} {b : BitVec 52}

@[simp] theorem fvc_velimWord (maj min : Nat) (b : BitVec 52) : fvc (velimWord maj min b) = fvc b.toNat :=
  bitsOf_velimWord _ _ _ _ _ (by decide) (by decide)

@[simp] theorem State.writeLanes_velimWord (s : State) (k maj min : Nat) (b : BitVec 52) (f : Nat → Nat × Nat) :
    s.writeLanes k (velimWord maj min b) f = s.writeLanes k b.toNat f := by
  simp only [State.writeLanes, fd_velimWord, State.active_velimWord]

/-- A vector instruction with a scalar register beside its vector registers. -/
theorem State.issue_vectorScalar {maj min : Nat} {bad regs vregs : List Nat} (act : State → State) (hv : Vectorial k) (hr : Runs s k b)
    (hbad : bad = []) (hs : Settled s k regs) (hvs : VSettled s k vregs) :
    s.issue k (velimWord maj min b) { bad := bad, engine := hasVector k, s := regs, v := vregs } [] act = act s :=
  State.issue_acts act hr hbad (hasVector_of_vectorial hv) hs hvs (fun h => absurd h Bool.false_ne_true) rfl

/-- An instruction of va, with vb and vc where it names them, acts lane by lane. -/
theorem State.vecOp_acts {vb vc rnd : Bool} (maj min : Nat) (g : State → Nat → Nat → Nat × Nat) (hv : Vectorial k) (hr : Runs s k b)
    (hm : MaskOk b) (hb : vb = false → bitsOf b.toNat 37 33 = 0) (hc : vc = false → bitsOf b.toNat 32 28 = 0)
    (hrnd : rnd = false → bitsOf b.toNat 23 22 = 0) (hx : bitsOf b.toNat 21 0 = 0)
    (hs : VSettled s k ([fd b.toNat, fva b.toNat] ++ (if vb then [fvb b.toNat] else []) ++ (if vc then [fvc b.toNat] else [])))
    (hg : g s (velimWord maj min b) = g s b.toNat) :
    s.vecOp k maj min b { vb := vb, vc := vc, rnd := rnd } g = (s.writeLanes k b.toNat (g s b.toNat)).retire k := by
  unfold State.vecOp
  refine (State.issue_vector _ hv hr (vrBad_eq_nil hm hb hc hrnd hx) ?_).trans ?_
  · simpa [vrForm] using hs
  · rw [hg, State.writeLanes_velimWord]

theorem two_velimWord (h : Nat → Nat → Nat → Nat × Nat) (maj min : Nat) : two k h s (velimWord maj min b) = two k h s b.toNat := by
  funext i
  simp only [two, frnd_velimWord, fva_velimWord, fvb_velimWord]

theorem one_velimWord (h : Nat → Nat → Nat × Nat) (maj min : Nat) : one k h s (velimWord maj min b) = one k h s b.toNat := by
  funext i
  simp only [one, frnd_velimWord, fva_velimWord]

/-- A row of the table acts lane by lane with its function, in the form that its fields ask for. -/
def IsLaneOp (r : LaneRow) : Prop := ∃ maj min, ∃ g : Nat → State → Nat → Nat → Nat × Nat,
  (∀ (k : Fin 50) (b : BitVec 52) (s : State), exec (r.cmd k b) s = .next (s.vecOp k maj min b { vb := r.two, rnd := r.rounds } (g k))) ∧
  (∀ k s w i, g k s w i = r.op (frnd w) (lane (s.vreg k (fva w)) i) (lane (s.vreg k (fvb w)) i))

theorem isLaneOp_two {cmd : Fin 50 → BitVec 52 → Instr} {rounds : Bool} {op : Nat → Nat → Nat → Nat × Nat} (maj min : Nat)
    (h : ∀ (k : Fin 50) b s, exec (cmd k b) s = .next (s.vecOp k maj min b { vb := true, rnd := rounds } (two k op))) :
    IsLaneOp ⟨cmd, true, rounds, op⟩ := ⟨maj, min, fun k => two k op, h, fun _ _ _ _ => rfl⟩

theorem isLaneOp_one {cmd : Fin 50 → BitVec 52 → Instr} {rounds : Bool} {op : Nat → Nat → Nat × Nat} (maj min : Nat)
    (h : ∀ (k : Fin 50) b s, exec (cmd k b) s = .next (s.vecOp k maj min b { rnd := rounds } (one k op))) :
    IsLaneOp ⟨cmd, false, rounds, fun r x _ => op r x⟩ := ⟨maj, min, fun k => one k op, h, fun _ _ _ _ => rfl⟩

theorem isLaneOp_of_mem : ∀ r ∈ laneRows, IsLaneOp r := by
  simp only [laneRows, List.forall_mem_cons, List.not_mem_nil, false_imp_iff]
  exact ⟨isLaneOp_two 0x20 0x00 fun _ _ _ => rfl, isLaneOp_two 0x20 0x01 fun _ _ _ => rfl, isLaneOp_two 0x20 0x02 fun _ _ _ => rfl,
    isLaneOp_two 0x20 0x04 fun _ _ _ => rfl, isLaneOp_two 0x20 0x05 fun _ _ _ => rfl, isLaneOp_one 0x20 0x06 fun _ _ _ => rfl,
    isLaneOp_one 0x20 0x07 fun _ _ _ => rfl, isLaneOp_one 0x20 0x08 fun _ _ _ => rfl, isLaneOp_two 0x20 0x0B fun _ _ _ => rfl,
    isLaneOp_two 0x20 0x0C fun _ _ _ => rfl, isLaneOp_two 0x20 0x0D fun _ _ _ => rfl, isLaneOp_two 0x20 0x0E fun _ _ _ => rfl,
    isLaneOp_two 0x20 0x0F fun _ _ _ => rfl, isLaneOp_two 0x20 0x10 fun _ _ _ => rfl, isLaneOp_two 0x20 0x11 fun _ _ _ => rfl,
    isLaneOp_one 0x25 0x00 fun _ _ _ => rfl, isLaneOp_one 0x25 0x01 fun _ _ _ => rfl, isLaneOp_one 0x25 0x02 fun _ _ _ => rfl,
    isLaneOp_one 0x25 0x03 fun _ _ _ => rfl, isLaneOp_one 0x25 0x04 fun _ _ _ => rfl, fun _ => trivial⟩

end Lanes

/-- Settles O15: every row through the shared lane-wise form, and the lanes that a write under a mask leaves. -/
theorem vectorLaneResults : Obligations.VectorLaneResults := by
  refine ⟨fun r hrow k b s hv hr hm hb hc hrnd hx hs hsb => ?_, fun s k w f => ⟨fun i hi hact => ?_, fun i hi hact => ?_,
    fun j r h => State.vreg_writeLanes_ne s k w f h, fun j r => State.files_writeLanes s k w f j r⟩⟩
  · obtain ⟨maj, min, g, hexec, hop⟩ := isLaneOp_of_mem r hrow
    have hgw : g k s b.toNat = fun i => r.op (frnd b.toNat) (lane (s.vreg k (fva b.toNat)) i) (lane (s.vreg k (fvb b.toNat)) i) :=
      funext (hop k s b.toNat)
    have hall : VSettled s k ([fd b.toNat, fva b.toNat] ++ (if r.two then [fvb b.toNat] else []) ++ []) := by
      intro p hp
      rw [List.append_nil, List.mem_append] at hp
      rcases hp with hp | hp
      · exact hs p hp
      · cases htwo : r.two with
        | true => exact hsb htwo p (by simpa [htwo] using hp)
        | false => simp [htwo] at hp
    rw [Gives, hexec, State.vecOp_acts (vc := false) maj min (g k) hv hr hm hb (fun _ => hc) hrnd hx hall, hgw]
    funext i
    simp only [hop, frnd_velimWord, fva_velimWord, fvb_velimWord]
  · rw [State.lane_writeLanes s k w f hi, if_pos hact]
  · rw [State.lane_writeLanes s k w f hi, if_neg (by simp [hact]), Nat.mod_eq_of_lt (lane_lt _ i)]

end Sys2Proof.Machine

/-! # Vector instructions: the other forms, loads and stores -/

namespace Sys2Proof.Machine

open Sys2Proof.Claims

section OtherForms

variable {s : State} {k : Fin 50} {b : BitVec 52} {maj min : Nat}

/-! ## Fields of the vector forms (R91, R99) -/

@[simp] theorem ffs_velimWord (maj min : Nat) (b : BitVec 52) : ffs (velimWord maj min b) = ffs b.toNat :=
  bitsOf_velimWord _ _ _ _ _ (by decide) (by decide)

@[simp] theorem ffd_velimWord (maj min : Nat) (b : BitVec 52) : ffd (velimWord maj min b) = ffd b.toNat :=
  bitsOf_velimWord _ _ _ _ _ (by decide) (by decide)

@[simp] theorem fq_velimWord (maj min : Nat) (b : BitVec 52) : fq (velimWord maj min b) = fq b.toNat :=
  bitsOf_velimWord _ _ _ _ _ (by decide) (by decide)

@[simp] theorem fsat_velimWord (maj min : Nat) (b : BitVec 52) : fsat (velimWord maj min b) = fsat b.toNat := by
  rw [fsat, fsat, bitsOf_velimWord _ _ _ _ _ (by decide) (by decide)]

@[simp] theorem fmtFault_velimWord (maj min : Nat) (b : BitVec 52) : fmtFault (velimWord maj min b) = fmtFault b.toNat := by
  simp only [fmtFault, ffs_velimWord, ffd_velimWord, fq_velimWord]

/-- A field that its form names may hold anything; one that it does not name must be 0. -/
theorem named_eq_nil {named : Bool} {l : List Nat} (h : named = false → l = []) : (if named then [] else l) = [] := by
  cases named with
  | true => exact if_pos rfl
  | false => rw [if_neg Bool.false_ne_true, h rfl]

theorem unnamed_eq_nil {named : Bool} {hi lo : Nat} (h : named = false → bitsOf b.toNat hi lo = 0) (hhi : hi < 52) (hle : lo ≤ hi) :
    (if named then [] else badZero (velimWord maj min b) hi lo) = [] := named_eq_nil fun hn => badZero_eq_nil (h hn) hhi hle

theorem mask_eq_nil {pm : Bool} (hpm : pm = true → MaskOk b) (hnpm : pm = false → bitsOf b.toNat 27 24 = 0) :
    (if pm then badMask (velimWord maj min b) 24 else badZero (velimWord maj min b) 27 25 ++ badZero (velimWord maj min b) 24 24) = [] := by
  cases pm with
  | true => rw [if_pos rfl, badMask_eq_nil (hpm rfl)]
  | false =>
    rw [if_neg Bool.false_ne_true, badZero_part (hnpm rfl) (by decide) (by decide) (by decide) (by decide),
      badZero_part (hnpm rfl) (by decide) (by decide) (by decide) (by decide), List.append_nil]

/-- A form is legal where each field that it does not name is 0, and its mask is legal. -/
theorem vrBad_eq_nil_of {f : VForm} (hva : f.va = false → bitsOf b.toNat 42 38 = 0) (hvb : f.vb = false → bitsOf b.toNat 37 33 = 0)
    (hvc : f.vc = false → bitsOf b.toNat 32 28 = 0) (hpm : f.pm = true → MaskOk b) (hnpm : f.pm = false → bitsOf b.toNat 27 24 = 0)
    (hrnd : f.rnd = false → bitsOf b.toNat 23 22 = 0) (hsat : f.sat = false → bitsOf b.toNat 21 21 = 0)
    (hx : bitsOf b.toNat f.x.1 f.x.2 = 0) (hx1 : f.x.1 < 52) (hx2 : f.x.2 ≤ f.x.1) : vrBad (velimWord maj min b) f = [] := by
  simp only [vrBad, unnamed_eq_nil hva (by decide) (by decide), unnamed_eq_nil hvb (by decide) (by decide),
    unnamed_eq_nil hvc (by decide) (by decide), mask_eq_nil hpm hnpm, unnamed_eq_nil hrnd (by decide) (by decide),
    unnamed_eq_nil hsat (by decide) (by decide), badZero_eq_nil hx hx1 hx2, List.append_nil]

/-! ## VFMA, VBCAST, VIOTA, VEXT and VSEL (R100 to R102) -/

theorem execVfma_acts (hv : Vectorial k) (hr : Runs s k b) (hm : MaskOk b) (hx : bitsOf b.toNat 21 0 = 0)
    (hs : VSettled s k [fd b.toNat, fva b.toNat, fvb b.toNat, fvc b.toNat]) :
    execVfma k b s = .next ((s.writeLanes k b.toNat (fun i => f32Fma (frnd b.toNat) (lane (s.vreg k (fva b.toNat)) i)
      (lane (s.vreg k (fvb b.toNat)) i) (lane (s.vreg k (fvc b.toNat)) i))).retire k) :=
  congrArg _ (State.vecOp_acts (vb := true) (vc := true) (rnd := true) 0x20 0x03 _ hv hr hm nofun nofun nofun hx hs
    (by simp only [frnd_velimWord, fva_velimWord, fvb_velimWord, fvc_velimWord]))

theorem execVbcast_acts (hv : Vectorial k) (hr : Runs s k b) (hm : MaskOk b) (hva : bitsOf b.toNat 42 38 = 0) (hvc : bitsOf b.toNat 32 28 = 0)
    (hz : bitsOf b.toNat 23 0 = 0) (hvs : VSettled s k [fd b.toNat]) (hs : Settled s k [fvb b.toNat]) :
    execVbcast k b s = .next ((s.writeLanes k b.toNat (fun _ => ((s.sreg k (fvb b.toNat)).toNat % 2 ^ 32, 0))).retire k) := by
  unfold execVbcast
  refine congrArg _ ((State.issue_vectorScalar _ hv hr ?_ ?_ ?_).trans ?_)
  · exact vrBad_eq_nil_of (fun _ => hva) nofun (fun _ => hvc) (fun _ => hm) nofun
      (fun _ => bitsOf_eq_zero_of_le hz (by decide) (by decide) (by decide)) (fun _ => bitsOf_eq_zero_of_le hz (by decide) (by decide) (by decide))
      (bitsOf_eq_zero_of_le hz (by decide) (by decide) (by decide)) (by decide) (by decide)
  · simpa using hs
  · simpa using hvs
  · simp only [State.writeLanes_velimWord, fvb_velimWord]

theorem execViota_acts (hv : Vectorial k) (hr : Runs s k b) (hm : MaskOk b) (hva : bitsOf b.toNat 42 38 = 0) (hvc : bitsOf b.toNat 32 28 = 0)
    (hz : bitsOf b.toNat 23 0 = 0) (hvs : VSettled s k [fd b.toNat]) (hvb : bitsOf b.toNat 37 33 = 0) :
    execViota k b s = .next ((s.writeLanes k b.toNat (fun i => (i, 0))).retire k) := by
  unfold execViota State.vecOp
  refine congrArg _ ((State.issue_vector _ hv hr ?_ ?_).trans ?_)
  · exact vrBad_eq_nil_of (fun _ => hva) (fun _ => hvb) (fun _ => hvc) (fun _ => hm) nofun
      (fun _ => bitsOf_eq_zero_of_le hz (by decide) (by decide) (by decide)) (fun _ => bitsOf_eq_zero_of_le hz (by decide) (by decide) (by decide))
      (bitsOf_eq_zero_of_le hz (by decide) (by decide) (by decide)) (by decide) (by decide)
  · simpa [vrForm] using hvs
  · simp only [State.writeLanes_velimWord]

theorem execVext_acts (hv : Vectorial k) (hr : Runs s k b) (hz : bitsOf b.toNat 37 9 = 0) (hvs : VSettled s k [fva b.toNat])
    (hs : Settled s k [fd b.toNat]) : execVext k b s =
      .next ((s.setS k (fd b.toNat) (BitVec.ofNat 64 (lane (s.vreg k (fva b.toNat)) (bitsOf b.toNat 8 0)))).retire k) := by
  unfold execVext
  refine congrArg _ ((State.issue_vectorScalar _ hv hr ?_ ?_ ?_).trans ?_)
  · exact vrBad_eq_nil_of nofun (fun _ => bitsOf_eq_zero_of_le hz (by decide) (by decide) (by decide))
      (fun _ => bitsOf_eq_zero_of_le hz (by decide) (by decide) (by decide)) nofun
      (fun _ => bitsOf_eq_zero_of_le hz (by decide) (by decide) (by decide)) (fun _ => bitsOf_eq_zero_of_le hz (by decide) (by decide) (by decide))
      (fun _ => bitsOf_eq_zero_of_le hz (by decide) (by decide) (by decide)) (bitsOf_eq_zero_of_le hz (by decide) (by decide) (by decide))
      (by decide) (by decide)
  · simpa using hs
  · simpa using hvs
  · simp only [fd_velimWord, fva_velimWord, bitsOf_velimWord 0x22 0x01 b 8 0 (by decide) (by decide)]

theorem execVsel_acts (hv : Vectorial k) (hr : Runs s k b) (hm : MaskOk b) (hvc : bitsOf b.toNat 32 28 = 0) (hz : bitsOf b.toNat 23 0 = 0)
    (hvs : VSettled s k [fd b.toNat, fva b.toNat, fvb b.toNat]) :
    execVsel k b s = .next ((s.setV k (fd b.toNat) (vecOf (laneList.map (fun i =>
      if s.active k b.toNat 24 i then lane (s.vreg k (fva b.toNat)) i else lane (s.vreg k (fvb b.toNat)) i)))).retire k) := by
  unfold execVsel
  refine congrArg _ ((State.issue_vector _ hv hr ?_ ?_).trans ?_)
  · exact vrBad_eq_nil_of nofun nofun (fun _ => hvc) (fun _ => hm) nofun
      (fun _ => bitsOf_eq_zero_of_le hz (by decide) (by decide) (by decide)) (fun _ => bitsOf_eq_zero_of_le hz (by decide) (by decide) (by decide))
      (bitsOf_eq_zero_of_le hz (by decide) (by decide) (by decide)) (by decide) (by decide)
  · simpa [vrForm, formAb] using hvs
  · simp only [fd_velimWord, fva_velimWord, fvb_velimWord, State.active_velimWord]

/-! ## VCVT (R102) -/

/-- The form of a VCVT from FP32 to a format without scales. -/
theorem vcvt_legal {f : VForm} (hm : MaskOk b) (hbc : bitsOf b.toNat 37 28 = 0) (hx : bitsOf b.toNat 9 0 = 0)
    (hrnd : f.rnd = false → bitsOf b.toNat 23 22 = 0) (hsat : f.sat = false → bitsOf b.toNat 21 21 = 0)
    (hf : f = { rnd := f.rnd, sat := f.sat, x := (9, 0) }) : vrBad (velimWord maj min b) f = [] := by
  rw [hf]
  exact vrBad_eq_nil_of nofun (fun _ => bitsOf_eq_zero_of_le hbc (by decide) (by decide) (by decide))
    (fun _ => bitsOf_eq_zero_of_le hbc (by decide) (by decide) (by decide)) (fun _ => hm) nofun hrnd hsat hx (show 9 < 52 by decide) (Nat.zero_le 9)

theorem isMx_zero : isMx 0 = false := by decide

theorem execVcvt_packs (hv : Vectorial k) (hr : Runs s k b) (hm : MaskOk b) (hbc : bitsOf b.toNat 37 28 = 0) (hx : bitsOf b.toNat 9 0 = 0)
    (hsrc : ffs b.toNat = 0) (hdst : packed (ffd b.toNat) = true) (hmx : isMx (ffd b.toNat) = false) (hq : fq b.toNat < parts (ffd b.toNat))
    (hvs : VSettled s k [fd b.toNat, fva b.toNat]) {es : List (Nat × Nat)}
    (hes : es = (packLanes (ffd b.toNat) (frnd b.toNat) (fsat b.toNat) (s.vreg k (fva b.toNat))).1) :
    execVcvt k b s = .next (((s.setV k (fd b.toNat) (vecBytes (s.vreg k (fd b.toNat)) (partBytes (ffd b.toNat) * fq b.toNat)
      (partBytes (ffd b.toNat)) (packElems (ffd b.toNat) (es.map (fun x => x.1))))).orFlags k (flagsOf es)).retire k) := by
  have hfaults : fmtFault b.toNat = [] := by
    rw [fmtFault, if_neg (not_not.2 (.inl ⟨hsrc, hdst⟩)), if_pos hsrc, if_neg (Nat.not_le.2 hq)]
  unfold execVcvt
  simp only [ffs_velimWord, ffd_velimWord, fmtFault_velimWord, hsrc, hdst, hmx, isMx_zero, hfaults]
  refine congrArg _ ((State.issue_vector _ hv hr ?_ ?_).trans ?_)
  · exact vcvt_legal hm hbc hx nofun nofun rfl
  · simpa [vrForm] using hvs
  · simp only [fd_velimWord, fva_velimWord, frnd_velimWord, fsat_velimWord, fq_velimWord, if_true, Bool.false_eq_true, if_false, ← hes]

theorem execVcvt_fmtFault (hv : Vectorial k) (hr : Runs s k b) (hm : MaskOk b) (hbc : bitsOf b.toNat 37 28 = 0) (hrs : bitsOf b.toNat 23 21 = 0)
    (hx : bitsOf b.toNat 12 0 = 0) (hsrc : ffs b.toNat = 0) (hdst : ffd b.toNat = 0) (hvs : VSettled s k [fd b.toNat, fva b.toNat])
    (hp : Precise s k) : execVcvt k b s = .next (s.streamFault k F_ISA_FMT 13 (s.rd (ENG_PC.PC k))) := by
  have hpacked : packed 0 = false := by decide
  have hfaults : fmtFault b.toNat = [(F_ISA_FMT, 13)] := by
    simp [fmtFault, hsrc, hdst, hpacked]
  unfold execVcvt
  simp only [ffs_velimWord, ffd_velimWord, fmtFault_velimWord, hsrc, hdst, isMx_zero, hpacked, hfaults]
  refine congrArg _ (State.issue_operandFault _ hr hp ?_ (hasVector_of_vectorial hv) settled_nil ?_ (fun h => absurd h Bool.false_ne_true)
    (firstFault_singleton _))
  · exact vcvt_legal hm hbc (bitsOf_eq_zero_of_le hx (by decide) (by decide) (by decide))
      (fun _ => bitsOf_eq_zero_of_le hrs (by decide) (by decide) (by decide)) (fun _ => bitsOf_eq_zero_of_le hrs (by decide) (by decide) (by decide)) rfl
  · simpa [vrForm] using hvs

end OtherForms

/-- Settles O16: each instruction through the legality of its form. -/
theorem vectorOtherResults : Obligations.VectorOtherResults := by
  intro k b s hv hr
  exact ⟨execVfma_acts hv hr, fun hm hva hvc hz hvs => ⟨execVbcast_acts hv hr hm hva hvc hz hvs, execViota_acts hv hr hm hva hvc hz hvs⟩,
    execVext_acts hv hr, execVsel_acts hv hr, fun hm hbc hx hsrc hdst hmx hq hvs => execVcvt_packs hv hr hm hbc hx hsrc hdst hmx hq hvs rfl,
    execVcvt_fmtFault hv hr⟩

end Sys2Proof.Machine

/-! # VLD and VST -/

namespace Sys2Proof.Machine

open Sys2Proof.Claims

section VectorMemory

variable {s : State} {k : Fin 50} {b : BitVec 52} {maj min sp off : Nat} {on : Pred}

@[simp] theorem State.vmFaults_velimWord (s : State) (k maj min : Nat) (b : BitVec 52) :
    s.vmFaults k (velimWord maj min b) = s.vmFaults k b.toNat := by
  rw [State.vmFaults, State.vmFaults, bitsOf_velimWord maj min b 42 39 (by decide) (by decide), sfield_velimWord maj min b 34 0 (by decide) (by decide)]

@[simp] theorem State.vmOff_velimWord (s : State) (k maj min : Nat) (b : BitVec 52) :
    s.vmOff k (velimWord maj min b) = s.vmOff k b.toNat := by
  simp only [State.vmOff, bitsOf_velimWord maj min b 42 39 (by decide) (by decide), sfield_velimWord maj min b 34 0 (by decide) (by decide)]

@[simp] theorem State.activeLanes_velimWord (s : State) (k maj min : Nat) (b : BitVec 52) :
    s.activeLanes k (velimWord maj min b) = s.activeLanes k b.toNat := by
  have hactive : ∀ i, s.active k (velimWord maj min b) 35 i = s.active k b.toNat 35 i := fun i => by
    rw [State.active, State.active, bitsOf_velimWord _ _ _ _ _ (by decide) (by decide), bitsOf_velimWord _ _ _ _ _ (by decide) (by decide)]
  simp only [State.activeLanes, hactive]

/-- The mask of a VM instruction is legal (R98). -/
theorem vmMask_eq_nil (h : ¬ (bitsOf b.toNat 38 36 = 0 ∧ bitsOf b.toNat 35 35 = 1)) : badMask (velimWord maj min b) 35 = [] := by
  rw [badMask, bitsOf_velimWord _ _ _ 38 36 (by decide) (by decide), bitsOf_velimWord _ _ _ 35 35 (by decide) (by decide), if_neg h]

variable (hv : Vectorial k) (hr : Runs s k b) (hm : ¬ (bitsOf b.toNat 38 36 = 0 ∧ bitsOf b.toNat 35 35 = 1)) (hvs : VSettled s k [fd b.toNat])
  (hops : OpsFree s k) (hf : s.vmFaults k b.toNat = []) (hsp : sp = spaceOf (msAddr s k b).toNat) (hoff : off = s.vmOff k b.toNat)
  (hon : on = s.activeLanes k b.toNat)

include hv hr hm hvs hops hf hsp hoff hon

theorem execVld_sends {r : List Byte × State}
    (hread : r = (s.checkRead (rinkPort k) sp off 2048 false).besideRead k (sp * 2 ^ 60 + off) (s.streamRead k sp off 2048)) :
    execVld k b s = .next (((r.2.beginOp k (.vld (fd b.toNat) (vldValue on (r.2.vreg k (fd b.toNat)) r.1) on) sp off
      (s.badCode sp off 2048)).updStream k (fun x => { x with pendV := fd b.toNat :: x.pendV })).sendOn k) := by
  subst hsp hoff hon
  unfold execVld
  refine congrArg _ ((State.issue_acts _ hr (vmMask_eq_nil hm) (hasVector_of_vectorial hv) settled_nil ?_ (fun _ => hops) ?_).trans ?_)
  · simpa using hvs
  · rwa [State.vmFaults_velimWord]
  · simp only [msAddr_velimWord, State.vmOff_velimWord, State.activeLanes_velimWord, fd_velimWord]
    rw [← hread]

theorem execVst_sends {l : List Byte} {r : List Byte × State} (hl : l = leBytes 2048 (s.vreg k (fd b.toNat)).toNat)
    (hwrite : r = s.besideWrite k (sp * 2 ^ 60 + off) (fun i => on.getLsbD (i / 4)) l) :
    execVst k b s = .next (((r.2.beginOp k (.vst on) sp off).vecStore k sp off (BitVec.ofNat 16384 (leNat r.1))
      (fun i => on.getLsbD i)).sendOn k) := by
  subst hsp hoff hon hl
  unfold execVst
  refine congrArg _ ((State.issue_acts _ hr (vmMask_eq_nil hm) (hasVector_of_vectorial hv) settled_nil ?_ (fun _ => hops) ?_).trans ?_)
  · simpa using hvs
  · rwa [State.vmFaults_velimWord]
  · simp only [msAddr_velimWord, State.vmOff_velimWord, State.activeLanes_velimWord, fd_velimWord]
    rw [← hwrite]

end VectorMemory

section VectorCompletion

variable {s : State} {k : Fin 50} {op t : Nat} {o : MemOp} {v : Vec} {on : Pred} (hg : Grants s) (ho : s.findOp k op = some o)
  (hkind : o.kind = .vld t v on) (hready : s.memReady o = true)

include hg ho hkind hready

theorem vldComplete_ends (herr : o.err = none) :
    GivesWith (.ldComplete k op) s (((s.setV k t v).updStream k (fun x => { x with pendV := x.pendV.erase t })).endOp k op) := by
  intro u z hz
  change execLdComplete k op u z = _
  rw [execLdComplete, State.granting_of_grants (grants_of_upset hz hg)]
  simp only [hz, ho, hready, hkind, herr, not_true_eq_false, if_false]

theorem vldComplete_faults {code : Nat} (herr : o.err = some code) :
    GivesWith (.ldComplete k op) s (s.streamFault k code 0 o.pc) := by
  intro u z hz
  change execLdComplete k op u z = _
  rw [execLdComplete, State.granting_of_grants (grants_of_upset hz hg)]
  simp only [hz, ho, hready, hkind, herr, not_true_eq_false, if_false]

end VectorCompletion

/-- Settles O18: the active lanes at issue, what VLD and VST do with them, and the completion of VLD. -/
theorem vectorMemoryResults : Obligations.VectorMemoryResults := by
  refine ⟨fun k b s hv hr hm hvs hops hf sp off on hsp hoff hon => ⟨fun i hi => ?_, fun r hread => ⟨fun hidle => ?_,
      execVld_sends hv hr hm hvs hops hf hsp hoff hon hread⟩,
    fun l r hl hwrite => ⟨fun hidle => by rw [hwrite, State.besideWrite_of_idle hidle],
      execVst_sends hv hr hm hvs hops hf hsp hoff hon hl hwrite⟩⟩,
    fun k op s o t v on hg ho hkind hready => ⟨vldComplete_ends hg ho hkind hready, fun code => vldComplete_faults hg ho hkind hready⟩⟩
  · rw [hon, State.activeLanes_getLsbD s k b.toNat hi]
  · rw [hread, State.besideRead_of_idle]
    rwa [State.checkRead_gmu]

end Sys2Proof.Machine

/-! # Registers of control space -/

namespace Sys2Proof.Machine

open Sys2Proof.Claims

/-! ## Words under the access codes (R4, R7) -/

/-- The fields of a word take new values one by one; `val` gives each field's. -/
def writeVals (val : Fld → Nat) (fs : List Fld) (w : Word) : Word :=
  fs.foldl (fun w f => BitVec.ofNat 64 (withBits w.toNat f.hi f.lo (val f))) w

theorem writeWord_eq_writeVals (fs : List Fld) (locked : Bool) (old v : Word) : writeWord fs locked old v =
    writeVals (fun f => writeField (bitsOf old.toNat f.hi f.lo) (bitsOf v.toNat f.hi f.lo) locked f.acc) fs old := rfl

section WriteVals

variable {val : Fld → Nat} {fs : List Fld} {w : Word}

theorem toNat_withBits_word {hi lo x : Nat} (h : lo ≤ hi) (hw : hi < 64) :
    (BitVec.ofNat 64 (withBits w.toNat hi lo x)).toNat = withBits w.toNat hi lo x := by
  rw [BitVec.toNat_ofNat, Nat.mod_eq_of_lt (withBits_lt _ _ _ _ 64 h hw w.isLt)]

/-- A field apart from those that are written keeps its value. -/
theorem bitsOf_writeVals_apart {g : Fld} (hfs : ∀ f ∈ fs, f.lo ≤ f.hi ∧ f.hi < 64) (hg : g.lo ≤ g.hi)
    (hd : ∀ f ∈ fs, f.hi < g.lo ∨ g.hi < f.lo) : bitsOf (writeVals val fs w).toNat g.hi g.lo = bitsOf w.toNat g.hi g.lo := by
  induction fs generalizing w with
  | nil => rfl
  | cons f fs ih =>
    obtain ⟨hle, hlt⟩ := hfs f List.mem_cons_self
    refine (ih (fun f' h => hfs f' (List.mem_cons_of_mem _ h)) (fun f' h => hd f' (List.mem_cons_of_mem _ h))).trans ?_
    rw [toNat_withBits_word hle hlt, bitsOf_withBits_ne _ _ _ _ _ _ hle (hd f List.mem_cons_self) hg]

/-- Each of disjoint fields has the value that is written to it. -/
theorem bitsOf_writeVals {f : Fld} (hfs : ∀ f ∈ fs, f.lo ≤ f.hi ∧ f.hi < 64) (hd : fs.Pairwise (fun f g => f.hi < g.lo ∨ g.hi < f.lo))
    (hf : f ∈ fs) : bitsOf (writeVals val fs w).toNat f.hi f.lo = val f % 2 ^ (f.hi - f.lo + 1) := by
  induction fs generalizing w with
  | nil => cases hf
  | cons f' fs ih =>
    obtain ⟨hhead, htail⟩ := List.pairwise_cons.1 hd
    have hrest := fun g h => hfs g (List.mem_cons_of_mem f' h)
    rcases List.mem_cons.1 hf with rfl | hmem
    · obtain ⟨hle, hlt⟩ := hfs f List.mem_cons_self
      refine (bitsOf_writeVals_apart hrest hle (fun g h => (hhead g h).symm)).trans ?_
      rw [toNat_withBits_word hle hlt, bitsOf_withBits _ _ _ _ hle]
    · exact ih hrest htail hmem

/-- A bit that no field covers keeps its value. -/
theorem getLsbD_writeVals {i : Nat} (hi : i < 64) (hfs : ∀ f ∈ fs, f.lo ≤ f.hi ∧ f.hi < 64) (h : ∀ f ∈ fs, ¬ (f.lo ≤ i ∧ i ≤ f.hi)) :
    (writeVals val fs w).getLsbD i = w.getLsbD i := by
  induction fs generalizing w with
  | nil => rfl
  | cons f fs ih =>
    obtain ⟨hle, hlt⟩ := hfs f List.mem_cons_self
    refine (ih (fun f' h' => hfs f' (List.mem_cons_of_mem _ h')) (fun f' h' => h f' (List.mem_cons_of_mem _ h'))).trans ?_
    rw [BitVec.getLsbD_ofNat, decide_eq_true hi, Bool.true_and, withBits_testBit _ _ _ _ _ hle, if_neg (h f List.mem_cons_self)]
    rfl

end WriteVals

theorem bitsOf_lt (n hi lo : Nat) : bitsOf n hi lo < 2 ^ (hi - lo + 1) := Nat.mod_lt _ (Nat.two_pow_pos _)

/-- What the access code makes of a field fits into it. -/
theorem writeField_lt (old v : Word) (locked : Bool) (f : Fld) :
    writeField (bitsOf old.toNat f.hi f.lo) (bitsOf v.toNat f.hi f.lo) locked f.acc < 2 ^ (f.hi - f.lo + 1) := by
  have hold := bitsOf_lt old.toNat f.hi f.lo
  have hv := bitsOf_lt v.toNat f.hi f.lo
  cases f.acc with
  | rw => exact hv
  | rws => exact hv
  | ro => exact hold
  | rc => exact hold
  | wo => exact hold
  | w1c => exact Nat.lt_of_le_of_lt (Nat.sub_le _ _) hold
  | rwl => exact iteP (P := fun n : Nat => n < 2 ^ (f.hi - f.lo + 1)) hold hv

/-! ## Reads (R4, R414, R472) -/

section Reads

variable (s : State) (r : RegRow) (off : Nat)

/-- A read at D1 and above clears the register's RC fields and keeps the memories and the streams. -/
theorem State.noteClear_keeps : (s.noteClear r off).reg off = readClear r.fields (s.reg off) ∧
    (∀ o, o ≠ off → (s.noteClear r off).reg o = s.reg o) ∧ (s.noteClear r off).rink = s.rink ∧ (s.noteClear r off).lpddr = s.lpddr ∧
    (s.noteClear r off).streams = s.streams := by
  unfold State.noteClear
  dsimp only
  split
  · exact ⟨s.reg_setReg_same .., fun o h => s.reg_setReg_ne _ h, rfl, rfl, rfl⟩
  · exact ⟨s.reg_setReg_same .., fun o h => s.reg_setReg_ne _ h, rfl, rfl, rfl⟩

variable {s r off} (hlt : off < 0x1C0000) (hon : s.domainOn (domainOf off) = true)

include hlt hon

theorem State.readRegister_quiet (h : s.dbg = 0) : s.readRegister .management r off = (readClear r.fields (s.regView off), s) := by
  rw [State.readRegister, if_neg (by simp [hon]), if_neg (by omega), if_pos ⟨rfl, h⟩]

theorem State.readRegister_clears (h : s.dbg ≠ 0) : s.readRegister .management r off = (s.regView off, s.noteClear r off) := by
  rw [State.readRegister, if_neg (by simp [hon]), if_neg (by omega), if_neg (fun h' => h h'.2)]

omit hon in
theorem State.csRead_hole {path : Path} (hrow : findRow off = none) (hal : off % 8 = 0) (ht : tmplWindow off = false)
    (hp : plainWindow off = false) : s.csRead path off = (0, s.hole path false off) := by
  have hcert : certAt off = false := by
    rw [certAt, decide_eq_false (by omega), Bool.false_and]
  have hread : readWindow off = false := by
    rw [readWindow, decide_eq_false (by omega), Bool.false_and]
  simp [State.csRead, hal, show ¬ 0x1000000 ≤ off by omega, hrow, ht, hp, hcert, hread]

end Reads

/-- Settles O49: the fields of a word one by one, and the reads by level and by what stands at the offset. -/
theorem registerAccess : Obligations.RegisterAccess := by
  refine ⟨fun fs locked old v hfs hd => ⟨fun f hf => ?_, fun i hi h => ?_⟩, fun s r off hlt hon => ⟨State.readRegister_quiet hlt hon, fun h => ?_,
    fun path hrow hal ht hp => ?_⟩⟩
  · rw [writeWord_eq_writeVals, bitsOf_writeVals hfs hd hf, Nat.mod_eq_of_lt (writeField_lt ..)]
    cases f.acc <;> rfl
  · rw [writeWord_eq_writeVals, getLsbD_writeVals hi hfs h]
  · obtain ⟨hsame, hothers, hrink, hlpddr, hstreams⟩ := s.noteClear_keeps r off
    exact ⟨s.noteClear r off, State.readRegister_clears hlt hon h, hsame, hothers, hrink, hlpddr, hstreams⟩
  · rw [State.csRead_hole hlt hrow hal ht hp]

end Sys2Proof.Machine

/-! # Writes of control space -/

namespace Sys2Proof.Machine

open Sys2Proof.Claims

/-! ## The record of holes (R472, R473) -/

section Holes

variable {s : State} (path : Path) (write : Bool) {off : Nat} (hon : s.domainOn (domainOf off) = true)

include hon

theorem State.hole_recorded : s.hole path write off =
    (((s.addSat CS_HOLE.COUNT 1).wr CS_HOLE.PATH (pathNum path)).setBit CS_HOLE.WRITE write).wr CS_HOLE.OFFSET off := if_pos hon

theorem State.rd_hole_offset (hoff : off < 2 ^ 24) : (s.hole path write off).rd CS_HOLE.OFFSET = off := by
  rw [State.hole_recorded path write hon, State.rd_wr_same _ _ _ (by decide) (by decide)]
  exact Nat.mod_eq_of_lt hoff

theorem State.bit_hole_write : (s.hole path write off).bit CS_HOLE.WRITE = write := by
  rw [State.bit, State.hole_recorded path write hon, State.rd_wr_disjoint _ _ _ _ (by decide) (by decide) (by decide) (by decide),
    State.setBit, State.rd_wr_same _ _ _ (by decide) (by decide)]
  cases write with
  | true => rfl
  | false => rfl

theorem State.rd_hole_path : (s.hole path write off).rd CS_HOLE.PATH = pathNum path := by
  rw [State.hole_recorded path write hon, State.rd_wr_disjoint _ _ _ _ (by decide) (by decide) (by decide) (by decide),
    State.setBit, State.rd_wr_disjoint _ _ _ _ (by decide) (by decide) (by decide) (by decide), State.rd_wr_same _ _ _ (by decide) (by decide)]
  cases path with
  | sequencer => rfl
  | management => rfl
  | i3c => rfl
  | jtag => rfl

theorem State.rd_hole_count : (s.hole path write off).rd CS_HOLE.COUNT = min (s.rd CS_HOLE.COUNT + 1) (2 ^ CS_HOLE.COUNT.width - 1) := by
  rw [State.hole_recorded path write hon, State.rd_wr_disjoint _ _ _ _ (by decide) (by decide) (by decide) (by decide),
    State.setBit, State.rd_wr_disjoint _ _ _ _ (by decide) (by decide) (by decide) (by decide),
    State.rd_wr_disjoint _ _ _ _ (by decide) (by decide) (by decide) (by decide), State.addSat,
    State.rd_wr_same _ _ _ (by decide) (by decide), satAdd]
  refine Nat.mod_eq_of_lt (Nat.lt_of_le_of_lt (Nat.min_le_right _ _) (Nat.sub_lt (by decide) (by decide)))

theorem State.reg_hole_ne {o : Nat} (h : o ≠ CS_HOLE.OFFSET.off) : (s.hole path write off).reg o = s.reg o := by
  rw [State.hole_recorded path write hon, State.reg_wr_ne _ CS_HOLE.OFFSET _ h, State.setBit, State.reg_wr_ne _ CS_HOLE.WRITE _ h,
    State.reg_wr_ne _ CS_HOLE.PATH _ h, State.addSat, State.reg_wr_ne _ CS_HOLE.COUNT _ h]

end Holes

/-! ## REG_WRITE (R4, R426, R472) -/

section RegWrite

variable {s : State} {path : Path} {off : BitVec 24} {v : Word}

theorem execRegWrite_of_up (h : Up s) : execRegWrite path off v s = .next (s.csWrite path true off.toNat v) :=
  congrArg _ (if_neg fun hstop => Bool.false_ne_true (h.symm.trans hstop.1))

theorem State.csWrite_misaligned {sec : Bool} (h : off.toNat % 8 ≠ 0) : s.csWrite path sec off.toNat v = s := if_pos (.inl h)

theorem State.csWrite_hole {sec : Bool} (hrow : findRow off.toNat = none) (hal : off.toNat % 8 = 0) (ht : tmplWindow off.toNat = false)
    (hp : plainWindow off.toNat = false) (hc : certAt off.toNat = false) (hr : readWindow off.toNat = false) :
    s.csWrite path sec off.toNat v = s.hole path true off.toNat := by
  have hlt : ¬ 0x1000000 ≤ off.toNat := Nat.not_le.2 off.isLt
  simp [State.csWrite, hal, hlt, hrow, ht, hp, hc, hr]

theorem State.csWrite_row {sec : Bool} {r : RegRow} (hrow : findRow off.toNat = some r) (hal : off.toNat % 8 = 0)
    (hon : s.domainOn (domainOf off.toNat) = true) : s.csWrite path sec off.toNat v = s.writeRegister path sec r off.toNat v := by
  have hlt : ¬ 0x1000000 ≤ off.toNat := Nat.not_le.2 off.isLt
  simp [State.csWrite, hal, hlt, hrow, hon]

end RegWrite

section Plain

variable {s : State} {path : Path} {sec : Bool} {r : RegRow} {o : Nat} {v : Word} (hparts : s.settingParts o = [])

include hparts

/-- Registers that their blocks keep as plain fields. -/
theorem State.writeRegister_plain (ho : o = 0x020010 ∨ o = 0x240008) :
    s.writeRegister path sec r o v = s.setReg o (writeWord r.fields false (s.reg o) v) := by
  rcases ho with rfl | rfl
  · simp [State.writeRegister, hparts, State.writeUnit, State.plainWrite, State.lockedAt]
  · simp [State.writeRegister, hparts, State.writeSystem, State.plainWrite, State.lockedAt]

/-- Trouble counters. -/
theorem State.writeRegister_trouble (hlo : 0x243000 ≤ o) (hhi : o < 0x243040) {t : State}
    (ht : t = s.setReg o (writeWord r.fields false (s.reg o) v)) : s.writeRegister path sec r o v = (List.range 4).foldl (fun u j =>
      u.addSat (troubleFld ((o - 0x243000) / 8 * 4 + j)) (tget (fun _ => 0) s.thisClk.troubles ((o - 0x243000) / 8 * 4 + j))) t := by
  have hplain : s.plainWrite r o v = t := by
    rw [State.plainWrite, State.lockedAt, if_neg (by omega), if_neg (by omega), ht]
  rw [State.writeRegister, if_neg (not_not.2 hparts), if_neg (by omega), if_neg (by omega), if_neg (by omega), if_neg (by omega),
    if_neg (by omega), if_pos (by omega), State.writeSystem, if_neg (by omega), if_neg (by omega), if_neg (by omega), if_neg (by omega),
    if_neg (by omega), if_neg (by omega), if_neg (by omega), if_neg (by omega), if_neg (by omega), if_pos ⟨hlo, hhi⟩, State.writeTrouble,
    hplain]

end Plain

/-! ## A setting that waits for its context (R478) -/

/-- The register of the laps of a context's overrun limit. -/
theorem findRow_lapOvr (c : Fin 2) : (findRow (0x010040 + 8 * c.val)).isSome = true := by
  match c with
  | 0 => decide
  | 1 => decide

theorem execDeferredSettingWrite_lapOvr {s : State} {path : Path} {v : Word} {c : Fin 2} (h : Up s)
    (hon : s.domainOn (domainOf (0x010040 + 8 * c.val)) = true) :
    execDeferredSettingWrite path (BitVec.ofNat 24 (0x010040 + 8 * c.val)) v s = .next (s.writeBits c (0x010040 + 8 * c.val) v allBits) := by
  have hc := c.isLt
  have hoff : (BitVec.ofNat 24 (0x010040 + 8 * c.val)).toNat = 0x010040 + 8 * c.val := by
    rw [BitVec.toNat_ofNat]
    omega
  obtain ⟨r, hrow⟩ := Option.isSome_iff_exists.1 (findRow_lapOvr c)
  have hparts : s.settingParts (0x010040 + 8 * c.val) = [(c.val, allBits)] := by
    rw [State.settingParts, if_pos (by omega), show (0x010040 + 8 * c.val - 0x010040) / 8 = c.val by omega]
  unfold execDeferredSettingWrite
  rw [State.live_of_up h, hoff, hrow]
  dsimp only
  rw [if_pos hon, State.settingWrite, if_neg (by omega), if_neg (by omega), if_neg (by omega), if_neg (by omega), hparts]
  rfl

/-- Settles O22: REG_WRITE by what stands at the offset, the fields of CS_HOLE, and a context's own setting by its context. -/
theorem registerWriteResults : Obligations.RegisterWriteResults := by
  refine ⟨fun path off v s h => ⟨fun r hrow hal hon hparts t ht => ⟨fun ho => ?_, fun hlo hhi => ?_⟩, fun hrow hal htm hp hc hr => ?_,
      fun hal => ?_⟩,
    fun s path write off hoff hon => ⟨State.rd_hole_offset path write hon hoff, State.bit_hole_write path write hon,
      State.rd_hole_path path write hon, State.rd_hole_count path write hon, fun o ho => State.reg_hole_ne path write hon ho⟩,
    fun path v s c h hon => ⟨fun hfree => ?_, fun hbusy => ?_⟩⟩
  · exact (execRegWrite_of_up h).trans (by rw [State.csWrite_row hrow hal hon, State.writeRegister_plain hparts ho, ht])
  · exact (execRegWrite_of_up h).trans (by rw [State.csWrite_row hrow hal hon, State.writeRegister_trouble hparts hlo hhi ht])
  · exact (execRegWrite_of_up h).trans (by rw [State.csWrite_hole hrow hal htm hp hc hr])
  · exact (execRegWrite_of_up h).trans (by rw [State.csWrite_misaligned hal])
  · exact (execDeferredSettingWrite_lapOvr (path := path) h hon).trans (by rw [State.writeBits, hfree, if_neg Bool.false_ne_true])
  · exact (execDeferredSettingWrite_lapOvr (path := path) h hon).trans (by rw [State.writeBits, hbusy, if_pos rfl])

end Sys2Proof.Machine

/-! # The Lap Unit -/

namespace Sys2Proof.Machine

open Sys2Proof.Claims

/-- A field reads a value that fits into it. -/
theorem State.rd_wr_fits (s : State) {f : Fld} {x : Nat} (h : f.lo ≤ f.hi) (hw : f.hi < 64) (hx : x < 2 ^ (f.hi - f.lo + 1)) :
    (s.wr f x).rd f = x := by
  rw [State.rd_wr_same _ _ _ h hw, Nat.mod_eq_of_lt hx]

/-- A field of a word that is to be written fits into its register. -/
theorem fieldOf_lt (v : Word) (f : Fld) : fieldOf v f < 2 ^ (f.hi - f.lo + 1) := bitsOf_lt ..

/-! ## LAP_CFG (R39, R55) -/

section LapCfg

variable {s : State} {v : Word}

/-- LAP_CFG with the fields of a write. -/
def lapCfgTaken (s : State) (v : Word) : State :=
  ((((s.wr LAP_CFG.HOLD_MAX (fieldOf v LAP_CFG.HOLD_MAX)).wr LAP_CFG.LOCK_TOL (fieldOf v LAP_CFG.LOCK_TOL)).wr LAP_CFG.SLEW
    (fieldOf v LAP_CFG.SLEW)).wr LAP_CFG.MISS_MAX (fieldOf v LAP_CFG.MISS_MAX)).wr LAP_CFG.PERIOD_US (fieldOf v LAP_CFG.PERIOD_US)

theorem rd_lapCfgTaken : ∀ f ∈ [LAP_CFG.HOLD_MAX, LAP_CFG.PERIOD_US, LAP_CFG.LOCK_TOL, LAP_CFG.SLEW, LAP_CFG.MISS_MAX],
    (lapCfgTaken s v).rd f = fieldOf v f := by
  have same {t : State} {f : Fld} (h : f.lo ≤ f.hi) (hw : f.hi < 64) : (t.wr f (fieldOf v f)).rd f = fieldOf v f :=
    t.rd_wr_fits h hw (fieldOf_lt v f)
  have apart {t : State} {f g : Fld} {x : Nat} (h : f.lo ≤ f.hi) (hw : f.hi < 64) (hg : g.lo ≤ g.hi) (hd : f.hi < g.lo ∨ g.hi < f.lo) :
      (t.wr f x).rd g = t.rd g := t.rd_wr_disjoint f g x h hw hg hd
  simp only [List.forall_mem_cons, List.not_mem_nil, false_imp_iff, implies_true, and_true]
  refine ⟨?_, ?_, ?_, ?_, ?_⟩
  · rw [lapCfgTaken, apart (by decide) (by decide) (by decide) (by decide), apart (by decide) (by decide) (by decide) (by decide),
      apart (by decide) (by decide) (by decide) (by decide), apart (by decide) (by decide) (by decide) (by decide), same (by decide) (by decide)]
  · rw [lapCfgTaken, same (by decide) (by decide)]
  · rw [lapCfgTaken, apart (by decide) (by decide) (by decide) (by decide), apart (by decide) (by decide) (by decide) (by decide),
      apart (by decide) (by decide) (by decide) (by decide), same (by decide) (by decide)]
  · rw [lapCfgTaken, apart (by decide) (by decide) (by decide) (by decide), apart (by decide) (by decide) (by decide) (by decide),
      same (by decide) (by decide)]
  · rw [lapCfgTaken, apart (by decide) (by decide) (by decide) (by decide), same (by decide) (by decide)]

theorem reg_lapCfgTaken {off : Nat} (h : off ≠ LAP_CFG.HOLD_MAX.off) : (lapCfgTaken s v).reg off = s.reg off := by
  rw [lapCfgTaken, State.reg_wr_ne _ LAP_CFG.PERIOD_US _ h, State.reg_wr_ne _ LAP_CFG.MISS_MAX _ h, State.reg_wr_ne _ LAP_CFG.SLEW _ h,
    State.reg_wr_ne _ LAP_CFG.LOCK_TOL _ h, State.reg_wr_ne _ LAP_CFG.HOLD_MAX _ h]

theorem lapCfgTaken_keeps : (lapCfgTaken s v).rink = s.rink ∧ (lapCfgTaken s v).lpddr = s.lpddr ∧ (lapCfgTaken s v).streams = s.streams ∧
    (lapCfgTaken s v).ctxs = s.ctxs ∧ (lapCfgTaken s v).lap = s.lap := by
  simp only [lapCfgTaken, State.wr_rink, State.wr_lpddr, State.wr_streams, State.wr_ctxs, State.wr_lap, and_self]

theorem execLapCfgWrite_stopped (h : Up s) (hstop : s.lapRuns = false) (hlo : 2000 ≤ fieldOf v LAP_CFG.PERIOD_US)
    (hhi : fieldOf v LAP_CFG.PERIOD_US ≤ 40000) : execLapCfgWrite v s = .next (lapCfgTaken s v) := by
  unfold execLapCfgWrite
  rw [State.live_of_up h]
  simp only [hstop, hlo, hhi, Bool.false_eq_true, if_false, decide_true, Bool.and_self, if_true]
  rfl

theorem execLapCfgWrite_running (h : Up s) (hrun : s.lapRuns = true) (hp : fieldOf v LAP_CFG.PERIOD_US ≠ s.rd LAP_CFG.PERIOD_US) :
    execLapCfgWrite v s = .next ((s.wr LAP_CFG.HOLD_MAX (fieldOf v LAP_CFG.HOLD_MAX)).report F_LAP_CFG 2 0) := by
  unfold execLapCfgWrite
  rw [State.live_of_up h]
  simp [hrun, hp]

end LapCfg

/-! ## ENABLE, DISABLE and RELOCK (R38, R40, R41) -/

section LapCtrl

variable {s : State} {v : Word}

/-- The command bits of a write of LAP_CTRL. -/
theorem fieldOf_lapSrc (v : Word) (low : Nat) : fieldOf (BitVec.ofNat 64 (lapSrc v low)) LAP_CTRL.ENABLE = low % 2 ∧
    fieldOf (BitVec.ofNat 64 (lapSrc v low)) LAP_CTRL.RELOCK = low / 2 % 2 := by
  have hword : (BitVec.ofNat 64 (lapSrc v low)).toNat = lapSrc v low := toNat_withBits_word (by decide) (by decide)
  have hbit (i : Nat) (h : i < 2) : bitsOf (lapSrc v low) i i = low / 2 ^ i % 2 := by
    refine Nat.eq_of_testBit_eq fun j => ?_
    rw [bitsOf_testBit, Nat.sub_self, ← Nat.pow_one 2, ← Nat.pow_mul, Nat.testBit_mod_two_pow, Nat.testBit_div_two_pow]
    by_cases hj : j < 1
    · rw [withBits_testBit _ _ _ _ _ (by decide), if_pos (by omega), Nat.sub_zero, Nat.one_mul, Nat.zero_add, Nat.add_comm i j]
    · rw [Nat.zero_add, decide_eq_false hj, Bool.false_and, Bool.false_and]
  refine ⟨?_, ?_⟩
  · rw [fieldOf, hword]
    exact (hbit 0 (by decide)).trans (by rw [Nat.pow_zero, Nat.div_one])
  · rw [fieldOf, hword]
    exact (hbit 1 (by decide)).trans (by rw [Nat.pow_one])

theorem State.lapCtrl_enable (hoff : s.rd LAP_CTRL.ENABLE = 0) : s.lapCtrl (BitVec.ofNat 64 (lapSrc v 1)) =
    if (lapFields s (lapSrc v 1)).rd LAP_CTRL.SRC_PRI = 0 ∨ 5 ≤ (lapFields s (lapSrc v 1)).rd LAP_CTRL.SRC_PRI then
      (lapFields s (lapSrc v 1)).report F_LAP_CFG 2 0 else (lapFields s (lapSrc v 1)).startLap := by
  obtain ⟨hen, hre⟩ := fieldOf_lapSrc v 1
  unfold State.lapCtrl
  rw [hen, hre, hoff]
  dsimp only
  rw [if_neg (by decide), if_pos ⟨rfl, rfl⟩, lapFields, hoff]

theorem State.lapCtrl_disable (hon : s.rd LAP_CTRL.ENABLE = 1) : s.lapCtrl (BitVec.ofNat 64 (lapSrc v 0)) =
    if (lapFields s (lapSrc v 0)).ctxExists 0 ∨ (lapFields s (lapSrc v 0)).ctxExists 1 then
      (lapFields s (lapSrc v 0)).report F_LAP_CFG 2 0 else (lapFields s (lapSrc v 0)).stopLap := by
  obtain ⟨hen, hre⟩ := fieldOf_lapSrc v 0
  unfold State.lapCtrl
  rw [hen, hre, hon]
  dsimp only
  rw [if_neg (by decide), if_neg (by decide), if_pos ⟨rfl, rfl⟩, lapFields, hon]

theorem State.lapCtrl_relock : s.lapCtrl (BitVec.ofNat 64 (lapSrc v (2 + s.rd LAP_CTRL.ENABLE))) =
    (lapFields s (lapSrc v (2 + s.rd LAP_CTRL.ENABLE))).relock := by
  have hlt : s.rd LAP_CTRL.ENABLE < 2 := bitsOf_lt ..
  obtain ⟨hen, hre⟩ := fieldOf_lapSrc v (2 + s.rd LAP_CTRL.ENABLE)
  unfold State.lapCtrl
  rw [hen, hre]
  dsimp only
  rw [if_pos (by omega), if_neg (by omega), if_neg (by omega), lapFields]

theorem rd_startLap_state : s.startLap.rd LAP_STATUS.STATE = if s.rd LAP_CTRL.SRC_PRI = Src.freerun then LapSt.freerun else LapSt.acquire := by
  rw [State.startLap, State.rd_wr_fits _ (by decide) (by decide)]
  exact iteP (P := fun n : Nat => n < _) (by decide) (by decide)

theorem rd_startLap_lcc : s.startLap.rd LAP_LCC.LCC = 0 := by
  rw [State.startLap, State.rd_wr_ne _ _ _ _ (by decide), State.setBit, State.rd_wr_ne _ _ _ _ (by decide), State.rd_wr_ne _ _ _ _ (by decide),
    State.rd, State.reg_setReg, if_pos (by decide)]
  rfl

theorem rd_stopLap_state : s.stopLap.rd LAP_STATUS.STATE = LapSt.stopped := by
  rw [State.stopLap, State.rd_wr_disjoint _ _ _ _ (by decide) (by decide) (by decide) (by decide),
    State.rd_wr_disjoint _ _ _ _ (by decide) (by decide) (by decide) (by decide), State.setBit,
    State.rd_wr_disjoint _ _ _ _ (by decide) (by decide) (by decide) (by decide),
    State.rd_wr_disjoint _ _ _ _ (by decide) (by decide) (by decide) (by decide), State.rd_wr_fits _ (by decide) (by decide) (by decide)]

theorem rd_relock_state (hlocked : s.rd LAP_STATUS.STATE = LapSt.locked) (hseen : s.bit LAP_STATUS.CTX_SEEN = false) :
    s.relock.rd LAP_STATUS.STATE = LapSt.acquire := by
  rw [State.relock, if_pos ⟨.inl hlocked, by simp [hseen]⟩]
  change State.rd (State.wr _ _ _) _ = _
  rw [State.rd_wr_disjoint _ _ _ _ (by decide) (by decide) (by decide) (by decide),
    State.rd_wr_disjoint _ _ _ _ (by decide) (by decide) (by decide) (by decide),
    State.rd_wr_disjoint _ _ _ _ (by decide) (by decide) (by decide) (by decide), State.rd_wr_fits _ (by decide) (by decide) (by decide)]

end LapCtrl

/-- Settles O23: the carry, LAP_CFG by the unit's state, the holdover's limit, and the three commands of LAP_CTRL. -/
theorem lapUnitResults : Obligations.LapUnitResults := by
  intro s h
  refine ⟨fun n hn => ?_, fun v hstop hlo hhi => ⟨lapCfgTaken s v, execLapCfgWrite_stopped h hstop hlo hhi, rd_lapCfgTaken, fun off ho => reg_lapCfgTaken ho,
      lapCfgTaken_keeps⟩, fun v hrun hp => execLapCfgWrite_running h hrun hp, fun hst hmax hexp => ?_, fun v t ht hoff => ?_, fun v t ht hon => ?_,
    fun v => ?_, rd_startLap_state, rd_startLap_lcc, rd_stopLap_state, rd_relock_state⟩
  · change execLapEdge s = _
    rw [execLapEdge, State.live_of_up h, hn]
  · change execLapHoldexp s = _
    rw [execLapHoldexp, State.live_of_up h, if_pos ⟨hst, hmax, by simp [hexp]⟩]
  · have hgives : ∀ u, s.lapCtrl (BitVec.ofNat 64 (lapSrc v 1)) = u → Gives (.lapEnable v) s u := fun u hu => by
      change execLapEnable v s = _
      rw [execLapEnable, State.live_of_up h, ← hu]
    subst ht
    refine ⟨fun h0 h5 => hgives _ ?_, fun hbad => hgives _ ?_⟩
    · rw [State.lapCtrl_enable hoff, if_neg (by omega)]
    · rw [State.lapCtrl_enable hoff, if_pos hbad]
  · have hgives : ∀ u, s.lapCtrl (BitVec.ofNat 64 (lapSrc v 0)) = u → Gives (.lapDisable v) s u := fun u hu => by
      change execLapDisable v s = _
      rw [execLapDisable, State.live_of_up h, ← hu]
    subst ht
    refine ⟨fun h0 h1 => hgives _ ?_, fun c hc => hgives _ ?_⟩
    · rw [State.lapCtrl_disable hon, if_neg (by simp [h0, h1])]
    · rw [State.lapCtrl_disable hon, if_pos]
      match c with
      | 0 => exact .inl hc
      | 1 => exact .inr hc
  · change execLapRelock v s = _
    rw [execLapRelock, State.live_of_up h, ← State.lapCtrl_relock]

end Sys2Proof.Machine

/-! # Contexts: the commands of CTX_CMD and the registers -/

namespace Sys2Proof.Machine

open Sys2Proof.Claims

/-! ## The commands (R325 to R328, R334, R336, R338) -/

section Commands

variable {c : Fin 2} {v : Word} {s : State} (h : Up s)

include h

theorem execCreate_none (hnone : (commanded s c v).ctxState c = CtxSt.none) : execCreate c v s =
    .next (if (commanded s c v).mayManage ∧ (commanded s c v).createOk c then (commanded s c v).prepare c
      else (commanded s c v).report F_CTX_CFG c 0) := by
  rw [execCreate, State.live_of_up h]
  exact congrArg _ (if_neg (not_not.2 hnone))

theorem execCreate_other (hnone : (commanded s c v).ctxState c ≠ CtxSt.none) :
    execCreate c v s = .next ((commanded s c v).cmdIgnored c) := by
  rw [execCreate, State.live_of_up h]
  exact congrArg _ (if_pos hnone)

theorem execPreempt_run (hc : c.val = 0) (hrun : (commanded s c v).ctxState 0 = CtxSt.run) : execPreempt c v s =
    .next (((preempted (commanded s c v)).addSat (ACCT_CNT.PREEMPTS ((preempted (commanded s c v)).acctEntry 0)) 1).setCtxState 0 CtxSt.saving) := by
  rw [execPreempt, State.live_of_up h]
  exact congrArg _ (if_neg (by rw [not_or, not_not, not_not]; exact ⟨hc, hrun⟩))

theorem execResume_saved (hsaved : (commanded s c v).ctxState c = CtxSt.saved)
    (hlap : (commanded s c v).lapNo + 2 ≤ (commanded s c v).rd (CTX_CMD.LAP c)) (hret : ((commanded s c v).ctx c).needRetain = false) :
    execResume c v s = .next ((commanded s c v).updCtx c (fun x => { x with
      resumeLap := some ((commanded s c v).rd (CTX_CMD.LAP c)), readBack := false })).wake := by
  rw [execResume, State.live_of_up h]
  refine congrArg _ (if_neg ?_)
  rw [not_or, not_or, not_not, Nat.not_lt]
  exact ⟨hsaved, hlap, fun hn => Bool.false_ne_true (hret.symm.trans hn)⟩

theorem execHalt_eq : execHalt c v s = .next (if (commanded s c v).ctxBusy c then
    (commanded s c v).updCtx c (fun x => { x with haltLap := some ((commanded s c v).rd (CTX_CMD.LAP c)) })
    else (commanded s c v).cmdIgnored c) := by
  rw [execHalt, State.live_of_up h]
  rfl

theorem execDestroy_torn (htorn : (commanded s c v).ctxState c = CtxSt.torn) :
    execDestroy c v s = .next ((commanded s c v).setCtxState c CtxSt.none) := by
  rw [execDestroy, State.live_of_up h]
  exact congrArg _ (if_pos htorn)

theorem execDestroy_frees (hst : (commanded s c v).ctxState c = CtxSt.prepared ∨ (commanded s c v).ctxState c = CtxSt.delivered ∨
    (commanded s c v).ctxState c = CtxSt.halted) : execDestroy c v s = .next (((commanded s c v).release c).setCtxState c CtxSt.none) := by
  have htorn : (commanded s c v).ctxState c ≠ CtxSt.torn := by
    rcases hst with hst | hst | hst
    · rw [hst]; decide
    · rw [hst]; decide
    · rw [hst]; decide
  rw [execDestroy, State.live_of_up h]
  exact congrArg _ ((if_neg htorn).trans (if_pos hst))

theorem execTeardown_faults (hnone : (commanded s c v).ctxState c ≠ CtxSt.none) (htorn : (commanded s c v).ctxState c ≠ CtxSt.torn) :
    execTeardown c v s = .next ((commanded s c v).contextFault c F_CTX_TEARDOWN) := by
  rw [execTeardown, State.live_of_up h]
  exact congrArg _ (if_neg (not_or.2 ⟨hnone, htorn⟩))

end Commands

/-- Settles O41: each command by the state of its context once its clk's admissions and faults are settled. -/
theorem contextCommandResults : Obligations.ContextCommandResults := by
  intro c v s t h ht
  subst ht
  refine ⟨fun hnone hmay hok => ?_, fun hnone hok => ?_, fun hnone hmay => ?_, fun hnone => execCreate_other h hnone, fun u hc hrun hu => ?_,
    fun hsaved hlap hret => execResume_saved h hsaved hlap hret, fun hbusy => ?_, fun hbusy => ?_, fun htorn => execDestroy_torn h htorn,
    fun hst => execDestroy_frees h hst, fun hnone htorn => execTeardown_faults h hnone htorn⟩
  · exact (execCreate_none h hnone).trans (by rw [if_pos ⟨hmay, hok⟩])
  · exact (execCreate_none h hnone).trans (by rw [if_neg (by simp [hok])])
  · exact (execCreate_none h hnone).trans (by rw [if_neg (by simp [hmay])])
  · rw [hu]
    exact execPreempt_run h hc hrun
  · exact (execHalt_eq h).trans (by rw [if_pos hbusy])
  · exact (execHalt_eq h).trans (by rw [hbusy, if_neg Bool.false_ne_true])

/-! ## Saving and the registers of a context (R323, R334 to R336, R340) -/

section Registers

variable {c : Fin 2} {v : Word} {s : State}

theorem saveComplete_saves (hg : Grants s) (hsaving : s.ctxState 0 = CtxSt.saving) (hsettled : s.settled = true) :
    GivesWith .saveComplete s (s.writeImage.setCtxState 0 CtxSt.saved) := by
  intro u z hz
  change execSaveComplete u z = _
  rw [execSaveComplete, State.granting_of_grants (grants_of_upset hz hg)]
  simp only [hz, hsaving, hsettled, ne_eq, not_true_eq_false, or_self, if_false]

theorem saveImageReadbackDone_reads (hg : Grants s) (hsaved : s.ctxState 0 = CtxSt.saved) (hlap : (s.ctx 0).resumeLap ≠ none)
    (hback : (s.ctx 0).readBack = false) {t : State} (ht : t = s.imageRanges.foldl (fun s x => s.memRead x.1 x.2 false) s) :
    GivesWith .saveImageReadbackDone s (if s.imageRanges.any (fun x => s.memBad x.1 x.2) then t.contextFault 0 F_CTX_SAVE
      else t.readImage.updCtx 0 (fun x => { x with readBack := true })) := by
  intro u z hz
  subst ht
  change execSaveImageReadbackDone u z = _
  rw [execSaveImageReadbackDone, State.granting_of_grants (grants_of_upset hz hg)]
  dsimp only
  rw [hz, if_neg (by simp [hsaved, hlap, hback])]

variable (h : Up s)

include h

theorem execCtxRsetWrite_eq : execCtxRsetWrite v s = .next (if s.bothNone then s.applySetting 0x030000 v else s.report F_CTX_CFG 2 0) := by
  rw [execCtxRsetWrite, State.live_of_up h]

theorem execCtxJobWrite_open (hopen : s.ctxOpen c = true) : execCtxJobWrite c v s = .next (s.setReg (0x030030 + 8 * c.val) v) := by
  rw [execCtxJobWrite, State.live_of_up h]
  exact congrArg _ (if_pos hopen)

theorem execCtxJobWrite_refused (hopen : s.ctxOpen c = false) (hjob : ¬ (s.ctxStarting c ∧ fieldOf v (CTX_JOB.JOB c) = s.rd (CTX_JOB.JOB c))) :
    execCtxJobWrite c v s = .next (s.report F_CTX_CFG c 0) := by
  rw [execCtxJobWrite, State.live_of_up h]
  exact congrArg _ ((if_neg (by simp [hopen])).trans (if_neg hjob))

/-- A context between DELIVER and RUN whose SEPOCH a write changes starts over in PREPARED. -/
def jobRestarted (t : State) (c : Nat) (gen : Bool) : State :=
  ((((t.updCtx c (fun x => { x with startLap := none, cc := [], cxl := [], replays := 0, lastCol := none })).wr
    (if gen then COL_LASTID.GEN else COL_LASTID.RT) 0).allPending c).setCtxState c CtxSt.prepared)

theorem execCtxJobWrite_starting (hopen : s.ctxOpen c = false) (hstart : s.ctxStarting c = true)
    (hjob : fieldOf v (CTX_JOB.JOB c) = s.rd (CTX_JOB.JOB c)) {t : State} (ht : t = s.setReg (0x030030 + 8 * c.val) v) :
    execCtxJobWrite c v s = .next (if s.ctxState c = CtxSt.delivered ∧ t.rd (CTX_JOB.SEPOCH c) ≠ s.rd (CTX_JOB.SEPOCH c) then
      jobRestarted t c (decide (c = 0)) else t) := by
  subst ht
  rw [execCtxJobWrite, State.live_of_up h]
  dsimp only
  rw [if_neg (by simp [hopen]), if_pos ⟨hstart, hjob⟩]
  simp only [jobRestarted, decide_eq_true_eq]

theorem execCtxPisteWrite_open (hopen : s.ctxOpen c = true) : execCtxPisteWrite c v s = .next (s.applySetting (0x030050 + 8 * c.val) v) := by
  rw [execCtxPisteWrite, State.live_of_up h]
  exact congrArg _ (if_pos hopen)

theorem execCtxPisteWrite_refused (hopen : s.ctxOpen c = false) (hstart : s.ctxStarting c = false) :
    execCtxPisteWrite c v s = .next (s.report F_CTX_CFG c 0) := by
  rw [execCtxPisteWrite, State.live_of_up h]
  exact congrArg _ ((if_neg (by simp [hopen])).trans (if_neg (by simp [hstart])))

theorem execCtxPisteWrite_starting (hopen : s.ctxOpen c = false) (hstart : s.ctxStarting c = true)
    (hok : s.pisteOk c (fieldOf v (CTX_PISTE.PMAP c)) (fieldOf v (CTX_PISTE.LCHIP c)) = true) :
    execCtxPisteWrite c v s = .next (s.applySetting (0x030050 + 8 * c.val) v) := by
  rw [execCtxPisteWrite, State.live_of_up h]
  exact congrArg _ ((if_neg (by simp [hopen])).trans ((if_pos hstart).trans (if_pos hok)))

end Registers

/-- Settles O42: the two steps of a saved image, and the registers by whether the context is open, starting or neither. -/
theorem contextRegisterResults : Obligations.ContextRegisterResults := by
  intro s h
  refine ⟨fun hf hsaving hsettled => saveComplete_saves ⟨h, hf⟩ hsaving hsettled, fun hf hsaved hlap hback t ht => ?_, fun v hn => ?_, fun v hn => ?_,
    fun c v => ⟨fun hopen => ⟨execCtxJobWrite_open h hopen, execCtxPisteWrite_open h hopen⟩,
      fun hopen hstart => ⟨execCtxJobWrite_refused h hopen (by simp [hstart]), execCtxPisteWrite_refused h hopen hstart⟩,
      fun hopen hstart => ⟨execCtxPisteWrite_starting h hopen hstart, fun hjob => execCtxJobWrite_refused h hopen (fun hboth => hjob hboth.2),
        fun t hjob ht => ⟨fun hkeep => ?_, fun hdel hnew => ?_⟩⟩⟩⟩
  · have hreads := saveImageReadbackDone_reads ⟨h, hf⟩ hsaved hlap hback ht
    exact ⟨fun hgood => by simpa only [hgood, Bool.false_eq_true, if_false] using hreads, fun hbad => by simpa only [hbad, if_true] using hreads⟩
  · exact (execCtxRsetWrite_eq h).trans (by rw [if_pos hn])
  · exact (execCtxRsetWrite_eq h).trans (by rw [hn, if_neg Bool.false_ne_true])
  · refine (execCtxJobWrite_starting h hopen hstart hjob ht).trans ?_
    rw [if_neg]
    rintro ⟨hd, hn⟩
    exact hkeep.elim (fun hne => hne hd) (fun heq => hn heq)
  · refine (execCtxJobWrite_starting h hopen hstart hjob ht).trans ?_
    rw [if_pos ⟨hdel, hnew⟩]
    simp only [jobRestarted, decide_eq_true_eq]

end Sys2Proof.Machine

/-! # Starting a job -/

namespace Sys2Proof.Machine

open Sys2Proof.Claims

/-! ## DELIVER and COMMIT at a member (R331) -/

/-- What a context does with a DELIVER, and whether it counts as answered. -/
def deliverMember (p : Packet) (s : State) (c : Nat) : Option (State × Bool) :=
  if (s.ctxState c = CtxSt.prepared ∨ s.ctxState c = CtxSt.halted ∨ s.ctxState c = CtxSt.delivered) ∧
      payWord p 0 % 2 ^ 32 = s.rd (CTX_JOB.SEPOCH c) ∧ payWord p 1 = s.rd (CTX_JDIG.DIGEST c) then
    some (s.setCtxState c CtxSt.delivered, true)
  else none

/-- What a context does with a COMMIT. -/
def commitMember (p : Packet) (s : State) (c : Nat) : Option (State × Bool) :=
  if s.ctxState c = CtxSt.delivered ∧ payWord p 0 % 2 ^ 32 = s.rd (CTX_JOB.SEPOCH c) then
    if s.lapNo < payWord p 1 / 2 ^ 20 then some ((s.updCtx c (fun x => { x with startLap := some (payWord p 1 / 2 ^ 20) })).wake, true)
    else some (s.report F_JOB_LATECOMMIT c 0, false)
  else none

/-- The member's answer to a packet of the leader joins the aggregation of its group. -/
def memberAnswer (p : Packet) (f : State → Nat → Option (State × Bool)) (u : State) (q : QPkt) : State :=
  ((u.leave q).member p f).1.aggLocal p ((u.leave q).member p f).2

section Members

variable {s : State} {n : Fin 13} {p : Packet} (h : Up s) (hcls : pkClass p = Cls.ctl)

include h hcls

theorem execDeliverRx_receives (hopc : pkOpc p = 0x10) :
    execDeliverRx n p s = .next (s.receive n p true (memberAnswer p (deliverMember p))) := by
  rw [execDeliverRx, State.live_of_up h, if_neg (not_or.2 ⟨not_not.2 hcls, not_not.2 hopc⟩)]
  rfl

theorem execCommitRx_receives (hopc : pkOpc p = 0x11) :
    execCommitRx n p s = .next (s.receive n p true (memberAnswer p (commitMember p))) := by
  rw [execCommitRx, State.live_of_up h, if_neg (not_or.2 ⟨not_not.2 hcls, not_not.2 hopc⟩)]
  rfl

end Members

/-! ## The leader (R332, R333) -/

section Leader

variable {s : State} (h : Up s)

include h

theorem execJobLeadStart_refused {v : Word} {t : State} (ht : t = s.applySetting 0x030200 v)
    (hst : t.ctxState (t.rd JOB_LEAD.CTX) ≠ CtxSt.prepared) : execJobLeadStart v s = .next (t.report F_JOB_LEAD (t.rd JOB_LEAD.CTX) 0) := by
  subst ht
  rw [execJobLeadStart, State.live_of_up h]
  exact congrArg _ (if_neg fun hok => hst hok.1)

/-- The leader's state with the job that a write of JOB_LEAD names. -/
def leading (t : State) : State :=
  { t with lead := { ctx := t.rd JOB_LEAD.CTX, mgroup := t.rd JOB_LEAD.MGROUP, ackcc := t.rd JOB_LEAD.ACKCC, pcc := t.rd JOB_LEAD.PCC,
                     startLap := t.rd JOB_LEADT.START_LAP, timeout := t.rd JOB_LEADT.TIMEOUT, members := t.rd JOB_LEAD.MEMBERS } }

theorem execJobLeadStart_begins {v : Word} {t : State} {c g : Nat} (ht : t = s.applySetting 0x030200 v) (hc : c = t.rd JOB_LEAD.CTX)
    (hg : g = t.rd JOB_LEAD.MGROUP) (hst : t.ctxState c = CtxSt.prepared) (hvalid : t.mgValid g (t.rd (CTX_JOB.JOB c)) = true)
    (hroot : t.mgRoot g = true) (hlocal : t.mgLocal g = true) (hmem : t.mgMembers g = t.rd JOB_LEAD.MEMBERS)
    (hlap : t.lapNo + 2 ≤ t.rd JOB_LEADT.START_LAP) (hph : t.rd JOB_LSTAT.PHASE = 0) :
    execJobLeadStart v s = .next ((leading t).leadPhase LeadPh.deliver) := by
  subst hc hg ht
  rw [execJobLeadStart, State.live_of_up h]
  refine congrArg _ (if_pos ⟨hst, hvalid, hroot, hlocal, hmem, hlap, ?_, ?_⟩)
  · rw [hph]; decide
  · rw [hph]; decide

theorem execLeadPhaseComplete_ends {pruned : Nat} {u : State} (hact : s.lead.active = true)
    (hall : (s.cc s.lead.ctx s.lead.ackcc + 2 ^ 32 - s.lead.ackBase) % 2 ^ 32 = s.lead.members)
    (hpr : pruned = (s.cc s.lead.ctx s.lead.pcc + 2 ^ 32 - s.lead.pBase) % 2 ^ 32)
    (hu : u = (s.wr JOB_LSTAT.PRUNED pruned).wr JOB_LSTAT.REAL (s.lead.members - pruned)) :
    execLeadPhaseComplete s = .next (if s.rd JOB_LSTAT.PHASE = LeadPh.deliver then
      (if pruned = 0 then u.leadPhase LeadPh.commit else u.leadEnd LeadPh.failed (some F_JOB_STARTFAIL))
      else if pruned = 0 then u.leadEnd LeadPh.done none else u.leadEnd LeadPh.short (some F_JOB_SHORT)) := by
  subst hu hpr
  rw [execLeadPhaseComplete, State.live_of_up h]
  exact congrArg _ (if_neg (by rw [not_or, not_not, not_not]; exact ⟨hact, hall⟩))

theorem execLeadPhaseTimeout_ends (hact : s.lead.active = true) (hct : s.lead.since + s.lead.timeout ≤ s.ct)
    (hsome : (s.cc s.lead.ctx s.lead.ackcc + 2 ^ 32 - s.lead.ackBase) % 2 ^ 32 ≠ s.lead.members) :
    execLeadPhaseTimeout s = .next (s.leadEnd (if s.rd JOB_LSTAT.PHASE = LeadPh.deliver then LeadPh.failed else LeadPh.short)
      (some F_JOB_STARTTMO)) := by
  rw [execLeadPhaseTimeout, State.live_of_up h]
  exact congrArg _ (if_neg (by rw [not_or, not_or, not_not, Nat.not_lt]; exact ⟨hact, hct, hsome⟩))

end Leader

/-- Settles O43: DELIVER and COMMIT at a member, and the phases of the lead chip. -/
theorem jobStartResults : Obligations.JobStartResults := by
  intro s h
  refine ⟨fun n p hcls hopc => ⟨memberAnswer p (deliverMember p), execDeliverRx_receives h hcls hopc, deliverMember p, fun _ _ => rfl,
      fun u c hst he hd => if_pos ⟨.inl hst, he, hd⟩⟩,
    fun n p hcls hopc => ⟨memberAnswer p (commitMember p), execCommitRx_receives h hcls hopc, commitMember p, fun _ _ => rfl,
      fun u c hst he => ⟨fun hlap => (if_pos ⟨hst, he⟩).trans (if_pos hlap), fun hlap => (if_pos ⟨hst, he⟩).trans (if_neg (Nat.not_lt.2 hlap))⟩⟩,
    fun v t ht hst => execJobLeadStart_refused h ht hst, fun v t c g ht hc hg hst hvalid hroot hlocal hmem hlap hph => ⟨leading t,
      execJobLeadStart_begins h ht hc hg hst hvalid hroot hlocal hmem hlap hph, hc.symm, rfl, rfl, rfl⟩,
    fun pruned u hact hall hpr hu => ?_, fun hact hct hsome => execLeadPhaseTimeout_ends h hact hct hsome⟩
  have hends := execLeadPhaseComplete_ends h hact hall hpr hu
  refine ⟨fun hph h0 => hends.trans ?_, fun hph h0 => hends.trans ?_, fun hph h0 => hends.trans ?_, fun hph h0 => hends.trans ?_⟩
  · rw [if_pos hph, if_pos h0]
  · rw [if_pos hph, if_neg h0]
  · rw [if_neg hph, if_pos h0]
  · rw [if_neg hph, if_neg h0]

end Sys2Proof.Machine

/-! # References of the lap, PTP and overruns -/

namespace Sys2Proof.Machine

open Sys2Proof.Claims

/-! ## Reference edges (R33 to R38, R44 to R48) -/

section References

variable {s : State}

theorem execPtpLapEdge_reference {port : Fin 2} {sec : BitVec 48} {ns : BitVec 32} {t period since : Nat} (h : Up s)
    (ht : t = sec.toNat * 1000000000 + ns.toNat) (hper : period = s.rd LAP_CFG.PERIOD_US * 1000)
    (hsince : since = (BitVec.ofNat 64 t - s.reg LAP_PTP.ORIGIN.off).toNat) (hptp : s.bit (HP_CTL.PTP port) = true) (hp0 : period ≠ 0)
    (hmod : since % period = 0) (hnow : ((s.ptpClock port).when t).1 = s.clk) : execPtpLapEdge port sec ns s =
      .next (s.reference Src.ptp port (since / period) (s.lcc * 256 + ((s.ptpClock port).when t).2)) := by
  subst hsince ht hper
  rw [execPtpLapEdge, State.live_of_up h]
  refine congrArg _ (if_neg ?_)
  rw [not_or, not_or, not_or, not_not, not_not, not_not]
  exact ⟨hptp, hp0, hmod, hnow⟩

/-- A marker that this chip consumes: one that is not its parent's has no more effect. -/
def markerTaken (n : Nat) (lap f : Nat) (resent : Bool) (frac : BitVec 8) (u : State) (q : QPkt) : State :=
  if n ≠ (u.leave q).parentPort then u.leave q
  else (u.leave q).takeMarker n lap f resent ((u.leave q).lcc * 256 - frac.toNat)

theorem execLapMarkerRx_receives {n : Fin 12} {p : Packet} {resent : Bool} {frac : BitVec 8} (h : Up s) (hcls : pkClass p = Cls.ctl)
    (hopc : pkOpc p = 2) {lap f : Nat} (hlap : lap = leNat (p.payload.take 8))
    (hf : f = (leNat ((p.payload.drop 8).take 8) - lap * 2 ^ 20) * 256 + leNat ((p.payload.drop 16).take 1)) :
    execLapMarkerRx ⟨n, p, resent, frac⟩ s = .next (s.receive n p true (markerTaken n lap f resent frac)) := by
  subst hf hlap
  rw [execLapMarkerRx, State.live_of_up h]
  exact congrArg _ (if_neg (not_or.2 ⟨not_not.2 hcls, not_not.2 hopc⟩))

theorem State.takeMarker_bad {n lap f : Nat} {resent : Bool} {stamp : Int} (hst : s.rd LAP_STATUS.STATE = LapSt.locked) (hlap : lap ≠ s.lapNo) :
    s.takeMarker n lap f resent stamp = (s.addSat LAP_COUNT.MARKER_BAD 1).report F_LAP_MARKER 2 0 := if_pos ⟨hst, hlap⟩

theorem State.takeMarker_good {n lap f : Nat} {resent : Bool} {stamp : Int} (hok : s.rd LAP_STATUS.STATE ≠ LapSt.locked ∨ lap = s.lapNo) :
    s.takeMarker n lap f resent stamp = if resent then s else s.reference Src.fabric 0 lap (stamp - s.rd (PORT_DELAY.DELAY n) -
      (if s.rd LAP_LOOP.PHASE_INC = 0 then 0 else f * 2 ^ 44 / s.rd LAP_LOOP.PHASE_INC : Nat)) :=
  if_neg fun hbad => hok.elim (fun hne => hne hbad.1) hbad.2

end References

/-! ## PTP messages (R44 to R46) -/

section Ptp

variable {s : State} {n : Nat} {d : Dgram}

theorem execPtpMessageRx_takes {port : Fin 2} {f : Frame} (h : Up s) (hlink : s.hostLinked port = true) {t : State}
    (ht : t = s.addSat (HP_COUNT.FEC_CORR port) f.corrected) (hd : t.dgramOf port f = some d) (hnear : d.near = 319 ∨ d.near = 320)
    (hptp : t.bit (HP_CTL.PTP port) = true) (hup : t.hostState port = HpSt.up) :
    execPtpMessageRx port f s = .next (t.ptpMessage port d) := by
  subst ht
  rw [execPtpMessageRx, State.live_of_up h, State.onFrame, if_pos hlink, hd]
  exact congrArg _ (if_pos ⟨hnear, hptp, hup⟩)

variable (hlen : 44 ≤ d.data.length)

include hlen

theorem State.ptpMessage_sync (htype : ptpType d.data = 0) {t : State} (ht : t = s.setPtpClock n { s.ptpClock n with
    syncAt := s.localNs, syncSeq := ptpSeq d.data, syncCorr := ptpCorr d.data }) : s.ptpMessage n d =
      if ptpTwoStep d.data then t else t.ptpSynced n d.v6 ((s.localNs : Int) - ptpStamp d.data - ptpCorr d.data) := by
  subst ht
  rw [State.ptpMessage]
  exact (if_neg (Nat.not_lt.2 hlen)).trans (if_pos htype)

theorem State.ptpMessage_followUp (htype : ptpType d.data = 8) (hseq : ptpSeq d.data = (s.ptpClock n).syncSeq) : s.ptpMessage n d =
    s.ptpSynced n d.v6 (((s.ptpClock n).syncAt : Int) - ptpStamp d.data - (s.ptpClock n).syncCorr - ptpCorr d.data) := by
  rw [State.ptpMessage]
  refine (if_neg (Nat.not_lt.2 hlen)).trans ((if_neg ?_).trans ((if_pos htype).trans (if_neg (not_not.2 hseq))))
  rw [htype]
  decide

theorem State.ptpMessage_delayResp (htype : ptpType d.data = 9) (hseq : ptpSeq d.data = (s.ptpClock n).reqSeq)
    (hid : (d.data.drop 44).take 10 = s.ptpIdentity n) {delay : Int} (hdelay : delay = ((s.ptpClock n).offset + (s.ptpClock n).delay +
      ((ptpStamp d.data : Int) - ptpCorr d.data - (s.ptpClock n).reqAt)) / 2) :
    s.ptpMessage n d = s.setPtpClock n { s.ptpClock n with delay := delay, offset := (s.ptpClock n).offset + (s.ptpClock n).delay - delay } := by
  subst hdelay
  rw [State.ptpMessage]
  refine (if_neg (Nat.not_lt.2 hlen)).trans ((if_neg ?_).trans ((if_neg ?_).trans ((if_pos htype).trans (if_neg ?_))))
  · rw [htype]; decide
  · rw [htype]; decide
  · exact not_or.2 ⟨not_not.2 hseq, not_not.2 hid⟩

end Ptp

/-- Settles O24: each source of a reference edge, markers, and the PTP messages by their type. -/
theorem lapReferenceResults : Obligations.LapReferenceResults := by
  intro s h
  refine ⟨fun frac => ?_, fun port sec ns t period since ht hper hsince hptp hp0 hmod hnow =>
      execPtpLapEdge_reference h ht hper hsince hptp hp0 hmod hnow,
    fun n p resent frac hcls hopc lap f hlap hf => execLapMarkerRx_receives h hcls hopc hlap hf,
    fun n lap f resent stamp => ⟨fun hst hlap => State.takeMarker_bad hst hlap, fun hok => ?_, fun hok hinc => ?_⟩,
    fun port f d hlink t ht hd hnear hptp hup => execPtpMessageRx_takes h hlink ht hd hnear hptp hup,
    fun n d c hc hlen => ⟨fun htype t ht => ⟨fun htwo => ?_, fun hone => ?_⟩, fun htype hseq => ?_, fun htype hseq hid delay hdelay => ?_,
      fun v6 ms seq hseq => ?_⟩⟩
  · change execLapInEdge frac s = _
    rw [execLapInEdge, State.live_of_up h]
    rfl
  · exact (State.takeMarker_good hok).trans (if_pos rfl)
  · rw [State.takeMarker_good hok, if_neg Bool.false_ne_true, if_neg hinc]
  · subst hc
    rw [State.ptpMessage_sync hlen htype ht, if_pos htwo]
  · subst hc
    rw [State.ptpMessage_sync hlen htype ht, hone, if_neg Bool.false_ne_true]
  · subst hc
    exact State.ptpMessage_followUp hlen htype hseq
  · subst hc
    exact State.ptpMessage_delayResp hlen htype hseq hid hdelay
  · subst hc hseq
    rfl

/-! ## Overrun (R50 to R53) -/

section Overrun

theorem execOverrunSend_sends {s : State} {c : Fin 2} {x : Step} (h : Up s) (hstep : (s.ctx c).step = some x) (hrun : s.ctxState c = CtxSt.run)
    (hsent : x.ovrSent = false) (hdone : x.doneCt = none) (hdl : x.lap * 2 ^ 20 + s.rd (LAP_OVR.DEADLINE c) ≤ s.ct) {leaves : Bool}
    (hleaves : leaves = (s.mgValid (s.rd (LAP_OVR.GROUP c)) (s.rd (CTX_JOB.JOB c)) && s.mgRoot (s.rd (LAP_OVR.GROUP c)) && ! s.selfFenced)) :
    execOverrunSend c s = .next (((s.updCtx c (fun y => { y with step := some { x with ovrSent := true, overrun := x.overrun || leaves } })).originateTree
      c (noticePacket s c x)).trace 6 255 c x.epoch) := by
  subst hleaves
  rw [execOverrunSend, State.live_of_up h, hstep]
  dsimp only
  rw [hdone, if_neg]
  · rfl
  · rw [not_or, not_or, not_or, not_not, Nat.not_lt]
    exact ⟨hrun, by simp [hsent], hdl, by simp⟩

/-- What a chip does with an overrun notice. -/
def overrunNoted (p : Packet) (u : State) (q : QPkt) : State :=
  match (u.leave q).ctxOfJob (pkJob p) with
  | none => u.leave q
  | some c =>
    let t := (u.leave q).acceptPoison c p
    let late : Bool := (t.ctx c).begun.contains (t.lapOfEpoch (pkEpoch p) + 1)
    if t.ctxState c ≠ CtxSt.run then t
    else match (t.ctx c).step with
      | none => if late then t.contextFault c F_LAP_LATEOVR else t
      | some x =>
        if x.epoch = pkEpoch p then t.updCtx c (fun y => { y with step := some { x with overrun := true } })
        else if late then t.contextFault c F_LAP_LATEOVR
        else t

theorem execOverrunRx_receives {s : State} {n : Fin 13} {p : Packet} (h : Up s) (hcls : pkClass p = Cls.ctl) (hopc : pkOpc p = 5) :
    execOverrunRx n p s = .next (s.receive n p true (overrunNoted p)) := by
  rw [execOverrunRx, State.live_of_up h]
  exact congrArg _ (if_neg (not_or.2 ⟨not_not.2 hcls, not_not.2 hopc⟩))

variable {p : Packet} {u t : State} {q : QPkt} {c : Nat} (hc : (u.leave q).ctxOfJob (pkJob p) = some c) (ht : t = (u.leave q).acceptPoison c p)
  (hrun : t.ctxState c = CtxSt.run)

include hc ht hrun

theorem overrunNoted_running {x : Step} (hstep : (t.ctx c).step = some x) (he : x.epoch = pkEpoch p) :
    overrunNoted p u q = t.updCtx c (fun y => { y with step := some { x with overrun := true } }) := by
  subst ht
  rw [overrunNoted, hc]
  dsimp only
  rw [if_neg (not_not.2 hrun), hstep]
  exact if_pos he

theorem overrunNoted_late (hstep : ∀ x : Step, (t.ctx c).step = some x → x.epoch ≠ pkEpoch p) {late : Bool}
    (hlate : late = (t.ctx c).begun.contains (t.lapOfEpoch (pkEpoch p) + 1)) :
    overrunNoted p u q = if late then t.contextFault c F_LAP_LATEOVR else t := by
  subst ht hlate
  rw [overrunNoted, hc]
  dsimp only
  rw [if_neg (not_not.2 hrun)]
  cases hx : (((u.leave q).acceptPoison c p).ctx c).step with
  | none => rfl
  | some x => exact if_neg (hstep x hx)

end Overrun

/-- Settles O25: the notice at the deadline, and what its receiver makes of its epoch. -/
theorem overrunResults : Obligations.OverrunResults := by
  refine ⟨fun s c x h hstep hrun hsent hdone hdl leaves hleaves t ht => ?_, fun s n p h hcls hopc => ⟨overrunNoted p,
    execOverrunRx_receives h hcls hopc, fun u t q c hc ht hrun late hlate => ⟨fun x hstep he => overrunNoted_running hc ht hrun hstep he,
      fun hstep => overrunNoted_late hc ht hrun hstep hlate⟩, fun u q hc => ?_⟩⟩
  · subst ht
    exact execOverrunSend_sends h hstep hrun hsent hdone hdl hleaves
  · rw [overrunNoted, hc]

end Sys2Proof.Machine

/-! # Events of the Gate Engines -/

namespace Sys2Proof.Machine

open Sys2Proof.Claims

section GateEvents

variable {g : Fin 8} {s u : State} {x : GateOp} {l : List GateOp} (hg : Grants s)

/-! ## The sending stages (R125 to R134) -/

section Reached

variable (hu : u = s.gateReach g 2) (hops : (u.gate g).ops = x :: l)

include hg hu hops

theorem execGateDispatchChoice_head (hkind : x.kind = 0) (hdesc : x.desc ≠ []) (htok : x.tok < x.count)
    (hmay : u.gateMay (s.ctxOf (32 + g)) g x = true) : execGateDispatchChoice g s = .next (if x.sel = [] then
      u.scoreToken g x (fun t => ((t.beginToken g x).2.setHead g (t.beginToken g x).1).dispatchChoice (s.ctxOf (32 + g)) g (t.beginToken g x).1)
      else u.dispatchChoice (s.ctxOf (32 + g)) g x) := by
  rw [execGateDispatchChoice, State.granting_of_grants hg]
  dsimp only
  rw [← hu, hops]
  dsimp only
  rw [if_neg]
  rw [not_or, not_or, not_or, not_not, Nat.not_le, not_not]
  exact ⟨hkind, hdesc, htok, hmay⟩

variable (hdesc : x.desc ≠ []) (hrun : u.ctxState (s.ctxOf (32 + g)) = CtxSt.run)

include hdesc hrun

theorem execGateInstrComplete_route (hkind : x.kind = 0) (htok : x.tok = x.count) :
    execGateInstrComplete g s = .next (((u.gateDone (s.ctxOf (32 + g)) g x).gateReach g 2).gateShow g) := by
  rw [execGateInstrComplete, State.granting_of_grants hg]
  dsimp only
  rw [← hu, hops]
  exact congrArg _ ((if_neg hdesc).trans (if_pos ⟨hkind, htok, .inl hrun⟩))

theorem execGateInstrComplete_select (hkind : x.kind = 1) : execGateInstrComplete g s = .next (u.selectOnly (s.ctxOf (32 + g)) g x
    (fun t y => ((t.gateDone (s.ctxOf (32 + g)) g y).gateReach g 2).gateShow g) (x.count - x.tok)) := by
  have h0 : ¬ x.kind = 0 := by omega
  rw [execGateInstrComplete, State.granting_of_grants hg]
  dsimp only
  rw [← hu, hops]
  exact congrArg _ ((if_neg hdesc).trans ((if_neg fun h => h0 h.1).trans (if_pos ⟨hkind, hrun⟩)))

end Reached

/-! ## Intake (R135 to R138) -/

theorem State.takeNext_takes {ty c m : Nat} {r : HeldRec} {t t' : State} {take : State → Nat → Nat → HeldRec → State}
    (hc : c = s.ctxOf (32 + g)) (hex : s.ctxExists c = true) (hstep : (s.ctx c).step ≠ none)
    (hfind : (s.gate g).inbox.find? (fun r => s.rType r == ty) = some r) (ht : t = s.updGate g (fun y => { y with inbox := y.inbox.erase r }))
    (hm : m = if r.buf.isSome then (if ty = 1 then 32 else 160) else 0) (hgood : t.rinkBad r.addr m = false)
    (ht' : t' = t.checkRead (rinkPort (32 + g)) 1 r.addr m true) (hopen : t'.intakeShut g (t.rGroup r) = false)
    (hgroup : t'.useGroup c g (t.rGroup r) = .inr u) : s.takeNext g ty take = (take u c (t.rGroup r) r).intakeStat g := by
  rw [State.takeNext]
  dsimp only
  rw [← hc, if_neg (not_or.2 ⟨not_not.2 hex, hstep⟩), hfind]
  dsimp only
  rw [← ht, ← hm, hgood, if_neg Bool.false_ne_true, ← ht', hopen, if_neg Bool.false_ne_true, hgroup]

end GateEvents

/-- Settles O27: the sending stages at the head of the list, the oldest record of each intake queue, and the ledger. -/
theorem gateEventResults : Obligations.GateEventResults := by
  intro g s hg
  refine ⟨fun u x l hu hops hkind hdesc htok hmay => ⟨fun hsel => ?_, fun hsel => ?_⟩, fun u x l hu hops hdesc hrun =>
      ⟨execGateInstrComplete_route hg hu hops hdesc hrun, execGateInstrComplete_select hg hu hops hdesc hrun⟩,
    fun i ty c m r t t' u hi hc hex hstep hfind ht hm hgood ht' hopen hgroup => ?_, fun v hbig => ?_, fun v hfits => ?_, ?_⟩
  · exact (execGateDispatchChoice_head hg hu hops hkind hdesc htok hmay).trans (by rw [if_neg hsel])
  · exact (execGateDispatchChoice_head hg hu hops hkind hdesc htok hmay).trans (by rw [if_pos hsel])
  · have htakes := fun take => State.takeNext_takes (take := take) hc hex hstep hfind ht hm hgood ht' hopen hgroup
    rcases hi with ⟨rfl, rfl⟩ | ⟨rfl, rfl⟩
    · change execIntakeTokenRx g s = _
      rw [execIntakeTokenRx, State.granting_of_grants hg, htakes]
      rfl
    · change execIntakeTallyRx g s = _
      rw [execIntakeTallyRx, State.granting_of_grants hg, htakes]
      rfl
  · change execGeLedgerWrite g v s = _
    rw [execGeLedgerWrite, State.live_of_up hg.1]
    exact congrArg _ (if_pos hbig)
  · change execGeLedgerWrite g v s = _
    rw [execGeLedgerWrite, State.live_of_up hg.1]
    exact congrArg _ (if_neg (Nat.not_lt.2 hfits))
  · change execLedgerZeroingDone g s = _
    rw [execLedgerZeroingDone, State.granting_of_grants hg]

end Sys2Proof.Machine

/-! # The Course, slots and packets -/

namespace Sys2Proof.Machine

open Sys2Proof.Claims

/-! ## Loading the Course (R152, R153, R155, R171) -/

section CourseLoad

variable {s : State}

theorem execCourseLoad_eq {v : Word} {t u : State} (h : Up s) (ht : t = s.wr COURSE_ACT.ACT_LAP (fieldOf v COURSE_ACT.ACT_LAP))
    (hu : u = (((t.setBit COURSE_STATUS.STAGED false).setBit COURSE_STATUS.PENDING false).setCourse (1 - t.rd COURSE_STATUS.BANK) {})) :
    execCourseLoad v s = .next (if t.bit COURSE_STATUS.LOADING then t.report F_DSP_COURSE 2 0
      else { u.setBit COURSE_STATUS.LOADING true with loading := some (u.rd COURSE_SRC.ADDR) }) := by
  subst hu ht
  rw [execCourseLoad, State.live_of_up h]

/-- A loaded image is taken where it is good and its flows fit the ports. -/
def courseTaken (t : State) (a : Nat) : State :=
  if ¬ t.courseOk a then t.report F_DSP_COURSE 2 0
  else if ¬ t.depthOk a then t.report F_DSP_DEPTH 2 0
  else
    let w := (t.setCourse (1 - t.rd COURSE_STATUS.BANK) (t.parseCourse a)).setBit COURSE_STATUS.STAGED true
    w.setBit COURSE_STATUS.PENDING (decide (w.rd COURSE_ACT.ACT_LAP ≤ w.lapNo))

theorem execCourseLoadDone_reads {a n : Nat} {u t : State} (hg : Grants s) (hload : s.loading = some a)
    (hu : u = { s.setBit COURSE_STATUS.LOADING false with loading := none }) (hn : n = courseShares + 8 * u.imgShares a)
    (ht : t = u.checkRead 49 1 a n true) (hgood : t.rinkBad a n = false) : execCourseLoadDone s = .next (courseTaken t a) := by
  rw [execCourseLoadDone, State.granting_of_grants hg, hload]
  dsimp only
  rw [← hu, ← hn, ← ht, hgood, if_neg Bool.false_ne_true]
  rfl

end CourseLoad

/-- Settles O28: a load by whether one runs, the loaded image by its checks, and the expiry of a cancel list. -/
theorem courseLoadResults : Obligations.CourseLoadResults := by
  intro s h
  refine ⟨fun v t ht => ⟨fun hl => ?_, fun hl u hu => ?_⟩, fun a n u t hg hload hu hn hbad ht hgood => ?_, fun c => ?_⟩
  · exact (execCourseLoad_eq h ht rfl).trans (by rw [if_pos hl])
  · exact (execCourseLoad_eq h ht hu).trans (by rw [hl, if_neg Bool.false_ne_true])
  · have hdone := execCourseLoadDone_reads hg hload hu hn ht hgood
    refine ⟨fun hok => hdone.trans ?_, fun hok hdepth => hdone.trans ?_, fun hok hdepth w hw => hdone.trans ?_⟩
    · rw [courseTaken, if_pos (by simp [hok])]
    · rw [courseTaken, if_neg (by simp [hok]), if_pos (by simp [hdepth])]
    · rw [courseTaken, if_neg (by simp [hok]), if_neg (by simp [hdepth]), hw]
  · change execCancelListExpiry c s = _
    rw [execCancelListExpiry, State.live_of_up h]

/-! ## Slots (R154, R156) -/

section Slots

variable {n : Fin 12} {s : State}

/-- A port alone at its slot decides it by itself. -/
theorem execSlotStart_alone (h : Up s) (hrun : s.rd LAP_STATUS.STATE ≠ LapSt.stopped)
    (halone : n.val < 6 ∨ slotValid (s.servedSlot n s.slotIdx) = false ∨ slotValid (s.servedSlot (partner n) s.slotIdx) = false) :
    execSlotStart n s = .next (s.decideSlot n) := by
  rw [execSlotStart, State.live_of_up h]
  refine congrArg _ ((if_neg hrun).trans (if_neg ?_))
  rcases halone with hn | hn | hn
  · simp [decide_eq_false (show ¬ 6 ≤ n.val by omega)]
  · simp [hn]
  · simp [hn]

theorem State.decideSlot_new {n : Nat} (hnew : (s.port n).slot.any (fun r => r.index == s.slotNo) = false) {u : State} {i k : Nat}
    (hu : u = s.endSlot n) (hi : i = u.slotIdx) (hk : k = u.slotKind n (u.servedSlot n i)) :
    s.decideSlot n = (u.updPort n (fun x => { x with
      slot := some { index := u.slotNo, kind := k, since := u.clk, waiting := u.slotWaiting n i }
      doubled := x.doubled || (k == 1 && x.seen.contains i)
      seen := i :: x.seen
      filled := x.filled + b01 (k == 1)
      idle := x.idle + b01 (k == 2)
      opened := x.opened + b01 (k == 3) })).chooseNext n := by
  subst hk hi hu
  rw [State.decideSlot, hnew, if_neg Bool.false_ne_true]

end Slots

/-! ## Arrival, transit and sending of packets (R158, R159, R165, R167, R233) -/

section Packets

variable {n : Fin 12} {p : Packet} {s : State} (hg : Grants s) (hmode : pkMode p = 0)

include hg hmode

theorem execDspPacketRx_arrives (hdest : pkDest p = s.chipId) (hcls : pkClass p = Cls.dsp) : execDspPacketRx n p s =
    .next (s.arrive n p (fun s => if ¬ ecrcGood p then s.ecrcDrop else s.landRecord p p.payload)) := by
  rw [execDspPacketRx, State.granting_of_grants hg, if_neg (not_not.2 hcls), if_neg (by omega), if_pos ⟨hmode, hdest⟩]

/-- What the chip does with a RET packet for it. -/
def retTaken (n : Fin 12) (p : Packet) (s : State) : State :=
  match s.epochCheck (s.ctxOfJob (pkJob p)) (pkEpoch p) 0 with
  | .inr t => t.latePoison (s.ctxOfJob (pkJob p)) p
  | .inl _ => match s.ingressTake 63 (packetBytes p) with
    | none => s.noQuota
    | some (k, t) => (t.devRelease k).acceptReturn (fabricPort n) (s.ctxOfJob (pkJob p)) (pkEpoch p) p.payload
        (fun t => t.acceptPoison ((s.ctxOfJob (pkJob p)).getD 2) p)

theorem execRetPacketRx_arrives (hdest : pkDest p = s.chipId) (hcls : pkClass p = Cls.ret) : execRetPacketRx n p s =
    .next (s.arrive n p (fun s => if ¬ ecrcGood p then s.ecrcDrop else retTaken n p s)) := by
  rw [execRetPacketRx, State.granting_of_grants hg]
  refine congrArg _ (if_neg ?_)
  rw [not_or, not_or, not_not, not_not, not_not]
  exact ⟨hcls, hmode, hdest⟩

theorem execPacketTransit_arrives (hdest : pkDest p ≠ s.chipId) : execPacketTransit n p s = .next (s.arrive n p (fun s => s.transit n p)) := by
  rw [execPacketTransit, State.granting_of_grants hg]
  simp [hmode, hdest]

end Packets

/-- Settles O29: the slots of a port alone at its slot, and a packet by its class, its destination and its ECRC. -/
theorem slotAndPacketResults : Obligations.SlotAndPacketResults := by
  refine ⟨fun n s h hrun halone hnew u i k hu hi hk => ?_, fun n s r h hslot hover => ?_, fun n p s hg hmode hdest =>
      ⟨execDspPacketRx_arrives hg hmode hdest, fun hcls hecrc => ?_, fun hcls hecrc => ?_⟩,
    fun n p s hg hmode hdest => execPacketTransit_arrives hg hmode hdest, fun n s q h hq => ?_⟩
  · exact (execSlotStart_alone h hrun halone).trans (by rw [State.decideSlot_new hnew hu hi hk])
  · change execSlotEnd n s = _
    rw [execSlotEnd, State.live_of_up h, hslot]
    exact congrArg _ (if_pos hover)
  · refine (execRetPacketRx_arrives hg hmode hdest hcls).trans ?_
    simp only [hecrc, Bool.false_eq_true, not_false_eq_true, if_true]
  · refine (execRetPacketRx_arrives hg hmode hdest hcls).trans ?_
    simp only [hecrc, not_true_eq_false, if_false]
    rfl
  · change execPacketLastFlitSent n s = _
    rw [execPacketLastFlitSent, State.live_of_up h, hq]

end Sys2Proof.Machine

/-! # The Rink and the Locker -/

namespace Sys2Proof.Machine

open Sys2Proof.Claims

/-! ## Locks and quotas (R174, R180, R187, R190) -/

section Config

variable {v : Word} {s : State} (h : Up s)

include h

theorem execRinkLock_eq : execRinkLock v s =
    .next (if s.bit RINK_CFG.LOCK then s else (s.wr RINK_CFG.FWRES (fieldOf v RINK_CFG.FWRES)).wr RINK_CFG.LOCK 1) := by
  rw [execRinkLock, State.live_of_up h]

theorem execLockerLock_locked (hl : s.bit LKR_CTL.LOCK = true) : execLockerLock v s = .next s := by
  rw [execLockerLock, State.live_of_up h, if_pos hl]

theorem execLockerLock_unlocked (hl : s.bit LKR_CTL.LOCK = false) {t : State} (ht : t = s.wr LKR_CTL.ZERO (fieldOf v LKR_CTL.ZERO)) :
    execLockerLock v s = .next (if t.poolsOk ∧ t.fixedOk then
      ((List.range 6).foldl (fun (s : State) p => s.setFreeQ p (List.range (s.poolCount p))) { t with locker := {} }).wr LKR_CTL.LOCK 1
      else t.report F_LKR_CFG 2 0) := by
  subst ht
  rw [execLockerLock, State.live_of_up h]
  exact congrArg _ (if_neg (by simp [hl]))

omit h in
/-- A quota that its requester may still set. -/
theorem State.quotaWrite_open {r p need : Nat} (hneed : need = s.resvSum p (fun x => x != r) + max (s.resvMax r p) (fieldOf v (LKR_QUOTA.RESV r p)))
    (hopen : r < 59 ∨ s.bit LKR_CTL.LOCK = false) : s.quotaWrite r p v = if s.poolCount p < need then s.report F_LKR_CFG 2 0
      else if 59 ≤ r then s.applySetting (LKR_QUOTA.RESV r p).off v else s.writeSetting (s.rd (LKR_REQ.CTX r)) (LKR_QUOTA.RESV r p).off v := by
  subst hneed
  refine if_neg ?_
  rintro ⟨h59, hl⟩
  rcases hopen with hr | hr
  · omega
  · exact Bool.false_ne_true (hr.symm.trans hl)

theorem execLkrQuotaWrite_eq {r : Fin 64} {p : Fin 6} : execLkrQuotaWrite r p v s = .next (s.quotaWrite r p v) := by
  rw [execLkrQuotaWrite, State.live_of_up h]

end Config

/-- Settles O30: each lock by whether it is set and its checks pass, and a quota by its requester and its pool. -/
theorem lockerConfigResults : Obligations.LockerConfigResults := by
  intro v s h
  refine ⟨fun hl => ?_, fun hl => ?_, fun hl => execLockerLock_locked h hl, fun hl t ht => ⟨fun hp hf => ?_, fun hbad => ?_⟩,
    fun r p need hneed => ⟨fun h59 hl => ?_, fun hopen hbig => ?_, fun h59 hl hfits => ?_, fun h59 hfits => ?_⟩⟩
  · exact (execRinkLock_eq h).trans (by rw [hl, if_neg Bool.false_ne_true])
  · exact (execRinkLock_eq h).trans (by rw [if_pos hl])
  · exact (execLockerLock_unlocked h hl ht).trans (by rw [if_pos ⟨hp, hf⟩])
  · refine (execLockerLock_unlocked h hl ht).trans ?_
    rw [if_neg]
    rintro ⟨hp, hf⟩
    rcases hbad with hb | hb
    · exact Bool.false_ne_true (hb.symm.trans hp)
    · exact Bool.false_ne_true (hb.symm.trans hf)
  · exact (execLkrQuotaWrite_eq h).trans (congrArg _ (if_pos ⟨h59, hl⟩))
  · exact (execLkrQuotaWrite_eq h).trans (by rw [State.quotaWrite_open hneed hopen, if_pos hbig])
  · exact (execLkrQuotaWrite_eq h).trans (by rw [State.quotaWrite_open hneed (.inr hl), if_neg (Nat.not_lt.2 hfits), if_pos h59])
  · exact (execLkrQuotaWrite_eq h).trans
      (by rw [State.quotaWrite_open hneed (.inl h59), if_neg (Nat.not_lt.2 hfits), if_neg (Nat.not_le.2 h59)])

/-! ## Grants, zeroing, the audit and the scrub (R176 to R178, R192, R195, R198) -/

section Events

variable {s : State}

theorem execBufferZeroDone_front {k : Nat} {rest : List Nat} (hg : Grants s) (hz : s.locker.zero = k :: rest) {t : State}
    (ht : t = s.updLocker (fun l => { l with zero := rest })) : execBufferZeroDone s =
      .next (((t.clearRink (t.bufBase k) (t.bufBase k + poolSize (keyPool k))).wr LKR_STATUS.ZEROING rest.length).joinFree k) := by
  subst ht
  rw [execBufferZeroDone, State.granting_of_grants hg, hz]

theorem execBufferAudit_passes (h : Up s) (hlcc : s.lcc % 1024 = 1023) {u t : State} (hu : u = s.settleRefs)
    (ht : t = { (u.updLocker (fun l => { l with lowered := u.locker.lowered.filter (fun i =>
      decide (u.rd (LKR_QUOTA.LIMIT (i / 8) (i % 8)) < u.rd (LKR_QUOTA.ALLOC (i / 8) (i % 8)))) })).addMod CSV_STATUS.PASSES 1 with
      bufBreach := false }) : execBufferAudit s = .next (if (u.buffersOk && ! u.bufBreach) = true then t else t.auditBreach 1) := by
  subst ht hu
  rw [execBufferAudit, State.live_of_up h]
  exact congrArg _ (if_neg (not_not.2 hlcc))

theorem execRinkScrub_row (hg : Grants s) (hlcc : s.lcc % 65536 = 65535) {errs : List RinkError} {u r t : State}
    (hu : u = errs.foldl (fun s e => s.rinkUpset e) s) (hline : u.scrubLine = s.scrubLine) (hr : r = u.rinkRead (16384 * s.scrubLine) 16384 true)
    (ht : t = { r with rinkErr := r.rinkErr.filter (fun e => e.1 / 1024 != s.scrubLine || e.2 == 2) }) : execRinkScrub errs s =
      .next (if s.scrubLine + 1 = 24576 then { t.addMod RINK_ECC.PASSES 1 with scrubLine := 0 } else { t with scrubLine := s.scrubLine + 1 }) := by
  subst ht hr
  rw [← hline, hu, execRinkScrub, State.granting_of_grants hg]
  exact congrArg _ (if_neg (not_not.2 hlcc))

end Events

/-- Settles O31: the grant that is due, the oldest buffer in zeroing, and the audit and the scrub at their LCC. -/
theorem lockerEventResults : Obligations.LockerEventResults := by
  intro s h
  refine ⟨fun t hf hgrant => ?_, fun k rest hf hz t ht => execBufferZeroDone_front ⟨h, hf⟩ hz ht, fun hlcc u t hu ht => ?_, fun hlcc => ?_,
    fun hf hlcc errs u t hu hline r hr ht => ⟨fun hlast => ?_, fun hmore => ?_⟩, fun hf hlcc errs => ?_⟩
  · change execLockerGrant s = _
    rw [execLockerGrant, State.granting_of_grants ⟨h, hf⟩, hgrant]
  · have hpass := execBufferAudit_passes h hlcc hu ht
    refine ⟨fun hok hb => hpass.trans ?_, fun hbad => hpass.trans ?_⟩
    · rw [if_pos (by simp [hok, hb])]
    · rw [if_neg]
      rcases hbad with hb | hb
      · simp [hb]
      · simp [hb]
  · change execBufferAudit s = _
    rw [execBufferAudit, State.live_of_up h, if_pos hlcc]
  · exact (execRinkScrub_row ⟨h, hf⟩ hlcc hu hline hr ht).trans (by rw [if_pos hlast])
  · exact (execRinkScrub_row ⟨h, hf⟩ hlcc hu hline hr ht).trans (by rw [if_neg hmore])
  · change execRinkScrub errs s = _
    rw [execRinkScrub, State.granting_of_grants ⟨h, hf⟩, if_pos hlcc]

end Sys2Proof.Machine

/-! # The memory controllers -/

namespace Sys2Proof.Machine

open Sys2Proof.Claims

/-! ## Starting and training (R203, R204, R222, R227) -/

section Start

variable {m : Fin 12} {s : State} (h : Up s)

include h

theorem execMemStart_eq : execMemStart m s = .next (if s.memState m = MemSt.off then s.memTrain m false else s.memReport m F_MEM_CFG) := by
  rw [execMemStart, State.live_of_up h]

theorem execMemCtlWrite_eq {v w : Word} (hw : w = s.memCtlValue m v) : execMemCtlWrite m v s = .next (if s.memState m = MemSt.off then
      (if fieldOf w (MEM_CTL.START m) = 1 then (s.applySetting (MEM_CTL.START m).off w).memTrain m false
        else s.applySetting (MEM_CTL.START m).off w)
    else if s.memState m = MemSt.run ∧ ¬ fieldOf w (MEM_CTL.START m) = 1 then
      { s with lapDeferred := s.lapDeferred ++ [((MEM_CTL.START m).off, w)] }
    else s.memReport m F_MEM_CFG) := by
  subst hw
  rw [execMemCtlWrite, State.live_of_up h]

theorem execMemTrainingDone_eq {failed : BitVec 16} {p : Package} (hst : s.memState m = MemSt.training) : execMemTrainingDone m failed p s =
    .next (if ¬ p.listed then (s.memReport m F_MEM_PKG).setMemState m MemSt.failed
      else if failed ≠ 0 then (s.memReport m F_MEM_TRAINFAIL).setMemState m MemSt.failed
      else if ((s.updMem m (fun x => { x with rfm := p.rfm.map (fun n => n.toNat) })).mem m).kept then
        (s.updMem m (fun x => { x with rfm := p.rfm.map (fun n => n.toNat) })).memHold m
      else (s.updMem m (fun x => { x with rfm := p.rfm.map (fun n => n.toNat) })).setMemState m MemSt.zeroing) := by
  rw [execMemTrainingDone, State.live_of_up h]
  exact congrArg _ (if_neg (not_not.2 hst))

omit h in
theorem State.mem_updMem_same (m : Nat) (f : MemCtl → MemCtl) : (s.updMem m f).mem m = f (s.mem m) := tget_tset_same _ _ _ _

end Start

/-- Settles O32: the controller by its state, and the end of training by the package and the channels. -/
theorem memoryStartResults : Obligations.MemoryStartResults := by
  intro m s h
  refine ⟨fun hst => ?_, fun hst => ?_, fun v w hw => ⟨fun hst hno => ?_, fun hst hstart => ?_, fun hst hno => ?_, fun hst hother => ?_⟩,
    fun hst => ⟨fun failed p hp => ?_, fun failed p hp hf => ?_, fun p t hp ht => ⟨fun hkept => ?_, fun hkept => ?_⟩⟩, fun hst => ?_⟩
  · exact (execMemStart_eq h).trans (by rw [if_pos hst])
  · exact (execMemStart_eq h).trans (by rw [if_neg hst])
  · exact (execMemCtlWrite_eq h hw).trans (by rw [if_pos hst, if_neg hno])
  · exact (execMemCtlWrite_eq h hw).trans (by rw [if_pos hst, if_pos hstart])
  · have hoff : s.memState m ≠ MemSt.off := by
      rw [hst]
      decide
    exact (execMemCtlWrite_eq h hw).trans (by rw [if_neg hoff, if_pos ⟨hst, hno⟩])
  · refine (execMemCtlWrite_eq h hw).trans ?_
    rw [if_neg hst, if_neg]
    rintro ⟨hrun, hno⟩
    exact hother.elim (fun hne => hne hrun) hno
  · exact (execMemTrainingDone_eq h hst).trans (by rw [if_pos (by simp [hp])])
  · exact (execMemTrainingDone_eq h hst).trans (by rw [if_neg (by simp [hp]), if_pos hf])
  · refine (execMemTrainingDone_eq h hst).trans ?_
    rw [if_neg (by simp [hp]), if_neg (not_not.2 rfl), State.mem_updMem_same, if_pos hkept, ht]
  · refine (execMemTrainingDone_eq h hst).trans ?_
    rw [if_neg (by simp [hp]), if_neg (not_not.2 rfl), State.mem_updMem_same, if_neg (by simp [hkept]), ht]
  · change execMemZeroingDone m s = _
    rw [execMemZeroingDone, State.live_of_up h]
    exact congrArg _ (if_neg (not_not.2 hst))

/-! ## A controller at work (R205 to R209, R213 to R220) -/

section Work

variable {m : Fin 12} {ch : Fin 16} {s : State} (h : Up s)

theorem up_of_upset {z : State} {u : Upsets} (hz : z.upset u = s) (h : Up s) : Up z := by
  rw [Up, ← h, ← hz, State.upset_stopped]

include h

theorem execMemRequestServed_serves {r : MemService} {a n : Nat} {t : State} (ha : a = r.addr.toNat) (hn : n = 16 * r.granules.toNat)
    (hm : channelOf a / 16 = m.val) (hfits : a + n ≤ memBytesUsable)
    (ht : t = (r.upsets.filter (fun u => channelOf u.addr.toNat / 16 == m.val)).foldl (fun s u => s.memUpset u) s)
    (hopen : t.channelOpen a = true) : execMemRequestServed m r s = .next ((t.demand false a n).memRead a n true) := by
  subst ht hn ha
  rw [execMemRequestServed, State.live_of_up h]
  refine congrArg _ (if_neg ?_)
  rw [not_or, not_or, not_not, Nat.not_lt, not_not]
  exact ⟨hm, hfits, hopen⟩

section Channel

variable (hon : s.channelOn m ch = true)

include hon

theorem execMemBaseRefresh_due (hdue : s.refreshDue m ch = true) :
    execMemBaseRefresh m ch s = .next ((s.addMod (MEM_REFCNT.BASE m) 1).refreshBank m ch) := by
  rw [execMemBaseRefresh, State.live_of_up h, if_pos ⟨hon, hdue⟩]

theorem execMemExtraRefresh_due (hoff : (extraOffsets s.refreshRs (s.rateOf m ch)).contains (s.sinceRefresh ch) = true)
    (hnew : tget (fun _ => 0) (s.mem m).refreshed ch ≠ s.ct + 1) : execMemExtraRefresh m ch s =
      .next ((((s.addSat (MEM_REFCNT.EXTRA m) 1).lapFlag 11).repeatEvent 0 1).refreshBank m ch) := by
  rw [execMemExtraRefresh, State.live_of_up h, if_pos ⟨hon, hoff, hnew⟩]

theorem execMemRfm_due {bank : Fin 16} {n : Nat} (hdue : s.rfmDue m ch bank = true)
    (hn : n = tget (fun _ => 0) (s.mem m).acts (16 * ch.val + bank.val) - (s.rfmAt m).getD 0) : execMemRfm m ch bank s =
      .next ((((s.updMem m (fun x => { x with acts := tset (fun _ => 0) x.acts (16 * ch.val + bank.val) n })).addSat
        (MEM_REFCNT.RFM m) 1).repeatEvent 0 1).emit (.mem m ch bank "RFMpb")) := by
  subst hn
  rw [execMemRfm, State.live_of_up h, if_pos ⟨hon, hdue⟩]

/-- The line that a patrol scrub reads and corrects, once the channel carries it. -/
def scrubbedLine (s : State) (m : Fin 12) (ch : Fin 16) (pos : Nat) : State :=
  (List.range 31).foldl (fun s b => s.scrubBlock m (addrOf (16 * m.val + ch.val) pos b / 64))
    (s.carry (16 * m.val + ch.val) (scrubBursts pos ((List.range 31).filter (fun b =>
      (s.flipsOf (addrOf (16 * m.val + ch.val) pos b / 64)).length == 1))))

theorem memPatrolScrub_due (hdue : s.scrubDue m ch = true) (href : s.refreshDue m ch = false) (hstep : s.stepHolds m ch = false) {pos : Nat}
    (hpos : pos = s.rd (MEM_SCRUB.POS m)) {u : State} (hu : u = (scrubbedLine s m ch pos).updMem m (fun x => { x with
      scrubbed := tset (fun _ => 0) x.scrubbed ch ((scrubbedLine s m ch pos).ct + 1) })) :
    GivesWith (.memPatrolScrub m ch) s (if (List.range 16).all (fun k => decide (k ≤ ch.val) || ! u.channelOn m k) then
      (if pos + 1 = 2 ^ 21 then (u.wr (MEM_SCRUB.POS m) (pos + 1)).addMod (MEM_SCRUB.PASSES m) 1 else u.wr (MEM_SCRUB.POS m) (pos + 1)) else u) := by
  intro up z hz
  subst hu hpos
  change execMemPatrolScrub m ch up z = _
  rw [execMemPatrolScrub, State.live_of_up (up_of_upset hz h)]
  dsimp only
  rw [hz]
  refine congrArg _ (if_neg ?_)
  simp [hon, hdue, href, hstep]

theorem execMemTrainlate_late (hnew : (s.mem m).late.contains ch.val = false) (hage : 2 * s.rd (MEM_CTL.PERIOD_MS m) * 1000 <
    (s.lapNo + 2 ^ 32 - s.rd (MEM_CH.LAST_PASS m ch)) % 2 ^ 32 * s.rd LAP_CFG.PERIOD_US) : execMemTrainlate m ch s =
      .next ((s.updMem m (fun x => { x with late := ch.val :: x.late })).memReport m F_MEM_TRAINLATE) := by
  rw [execMemTrainlate, State.live_of_up h]
  exact congrArg _ (if_pos ⟨hon, by simpa using hnew, hage⟩)

omit h hon in
/-- A step that is counted does not move the time. -/
theorem State.slotNo_countStep (s : State) (m : Nat) : (s.addSat (MEM_TRAIN.STEPS_CAL m) 1).slotNo = s.slotNo := by
  have hne : LAP_CT.LAP.off ≠ (MEM_TRAIN.STEPS_CAL m).off := by
    simp only [LAP_CT.LAP, MEM_TRAIN.STEPS_CAL]
    omega
  have hlap : (s.addSat (MEM_TRAIN.STEPS_CAL m) 1).lapNo = s.lapNo := State.rd_wr_ne _ _ _ _ hne
  have hstride : (s.addSat (MEM_TRAIN.STEPS_CAL m) 1).stride = s.stride := by
    rw [State.stride, State.stride, State.addSat, State.wr_lap]
  rw [State.slotNo, State.slotNo, State.ct, State.ct, hlap, hstride]

theorem execMemRetrainStep_last {drift : BitVec 8} {ok : Bool} {u t : State} (hen : s.bit (MEM_CTL.TRAIN_EN m) = true)
    (hrot : (s.mem m).rotCh = ch.val) (huse : s.usableSlot m = 1) (hdue : s.passDue m = true) (htime : s.stepTime m ch = true)
    (hclk : 112 ≤ s.clkBefore (64 * (s.stride / 64 + 1))) (hstep : (s.mem m).rotStep = 7)
    (hu : u = (s.addSat (MEM_TRAIN.STEPS_CAL m) 1).updMem m (fun y => { y with stepEnd := s.clk + 112, stepSlot := s.slotNo, stepCh := ch.val }))
    (ht : t = ((u.emit (.mem m ch 0 (stepName 7))).updMem m (fun y => { y with rotStep := 0, rotCh := (ch.val + 1) % 16 })).wr
      (MEM_CH.DRIFT m ch) drift.toNat) : execMemRetrainStep m ch drift ok s = .next (if ok ∧ drift.toInt.natAbs ≤ 24 then
        ((t.wr (MEM_CH.LAST_PASS m ch) t.lapNo).addSat (MEM_TRAIN.PASSES m) 1).updMem m (fun y => { y with late := y.late.erase ch.val })
      else t.channelFail m ch F_MEM_DRIFT) := by
  have hgo : ¬ (¬ s.channelOn m ch ∨ ¬ s.bit (MEM_CTL.TRAIN_EN m) ∨ (s.mem m).rotCh ≠ ch.val ∨ s.usableSlot m = 0 ∨ ¬ s.passDue m ∨
      ¬ s.stepTime m ch ∨ s.clkBefore (64 * (s.stride / 64 + 1)) < 112) := by
    simp [hon, hen, hrot, huse, hdue, htime, hclk]
  have hclk' : (s.addSat (MEM_TRAIN.STEPS_CAL m) 1).clk = s.clk := State.wr_clk _ _ _
  subst ht hu
  rw [← State.slotNo_countStep s m, execMemRetrainStep, State.live_of_up h]
  dsimp only
  rw [if_neg hgo, huse, if_pos rfl, hstep, if_neg (show ¬ (7 : Nat) = 0 by decide),
    if_neg (show ¬ (7 : Nat) < 7 by decide), hrot, hclk']

end Channel

/-- The rates that a poll reads, in the registers. -/
def ratesShown (m : Fin 12) (rs : List Nat) (t : State) : State :=
  ((List.range 16).foldl (fun s k => s.wr (MEM_CH.RATE m k) ((rs[k]?).getD 0)) t).wr (MEM_STATUS.RATE m) (rs.foldl max 0)

theorem execMr4Poll_due {rates : List (BitVec 3)} {rs : List Nat} {t : State} (hrun : s.memState m = MemSt.run) (hstride : s.stride % 65536 = 0)
    (hrs : rs = (List.range 16).map (fun k => min 3 ((rates[k]?).getD 0).toNat))
    (ht : t = s.updMem m (fun x => { x with rates := some (s.ct, (List.range 16).map (fun k => s.rateOf m k)) })) :
    execMr4Poll m rates s = .next ((List.range 16).foldl (fun s k =>
      if (rs[k]?).getD 0 = 3 ∧ ¬ s.bit (MEM_CH.FAILED m k) then s.channelFail m k F_MEM_TEMP else s) (ratesShown m rs t)) := by
  subst hrs ht
  rw [execMr4Poll, State.live_of_up h]
  refine congrArg _ (if_neg ?_)
  rw [not_or, not_not, not_not]
  exact ⟨hrun, hstride⟩

end Work

/-- No rate of a list without 3 is 3. -/
theorem getD_ne_three {rs : List Nat} (hall : rs.all (fun r => r != 3) = true) (k : Nat) : (rs[k]?).getD 0 ≠ 3 := by
  cases hk : rs[k]? with
  | none => decide
  | some r => exact bne_iff_ne.1 (List.all_eq_true.1 hall r (List.mem_of_getElem? hk))

/-- Settles O33: requests, refreshes, scrubs and steps of a channel that serves, and a controller's poll of the rates. -/
theorem memoryEventResults : Obligations.MemoryEventResults := by
  intro m ch s h
  refine ⟨fun r a n t ha hn hm hfits ht hopen => execMemRequestServed_serves h ha hn hm hfits ht hopen,
    fun hon => ⟨execMemBaseRefresh_due h hon, execMemExtraRefresh_due h hon, fun bank n hdue hn => execMemRfm_due h hon hdue hn,
      fun hdue href hstep pos t u hpos ht hu => ?_, fun drift ok u t hen hrot huse hdue htime hclk hstep hu ht => ?_,
      execMemTrainlate_late h hon⟩,
    fun rates rs t u hrun hstride hrs ht hu => ⟨fun hall => ?_, ?_⟩⟩
  · have hline : (List.range 31).foldl (fun s b => s.scrubBlock m (addrOf (16 * m.val + ch.val) pos b / 64)) t = scrubbedLine s m ch pos := by
      rw [ht]
      rfl
    rw [hline] at hu
    have hscrub := memPatrolScrub_due h hon hdue href hstep hpos hu
    refine ⟨fun hall => ?_, fun hall hpass => ?_⟩
    · rwa [hall, if_neg Bool.false_ne_true] at hscrub
    · rwa [hall, if_pos rfl, if_neg hpass] at hscrub
  · have hlast := execMemRetrainStep_last (drift := drift) (ok := ok) h hon hen hrot huse hdue htime hclk hstep hu ht
    refine ⟨fun hok hsmall => hlast.trans ?_, fun hbad => hlast.trans ?_⟩
    · rw [if_pos ⟨hok, hsmall⟩]
    · rw [if_neg]
      rintro ⟨hok, hsmall⟩
      rcases hbad with hb | hb
      · exact Bool.false_ne_true (hb.symm.trans hok)
      · omega
  · refine (execMr4Poll_due h hrun hstride hrs ht).trans ?_
    rw [hu, ← ratesShown, List.foldl_fixed' fun k => if_neg fun hk => getD_ne_three hall k hk.1]
  · rw [hu]
    exact execMr4Poll_due h hrun hstride hrs ht

end Sys2Proof.Machine

/-! # Ports and links -/

namespace Sys2Proof.Machine

open Sys2Proof.Claims

/-! ## Training and HELLO (R234, R237 to R241) -/

section Training

variable {n : Fin 12} {s : State} (h : Up s)

include h

theorem execPortEnable_down {v : Word} (hring : s.ring (n % 6 / 2) ≠ 1) (hst : s.portState n = PortSt.down) :
    execPortEnable n v s = .next ((s.setReg (PORT_CTL.EN n).off (v &&& 1#64 ||| 1#64)).enterTrain n) := by
  have hkeep : (s.setReg (PORT_CTL.EN n).off (v &&& 1#64 ||| 1#64)).portState n = s.portState n := by
    refine State.rd_setReg_ne _ _ _ ?_
    simp only [PORT_STATUS.STATE, PORT_CTL.EN]
    omega
  rw [execPortEnable, State.live_of_up h]
  refine congrArg _ ((if_neg hring).trans (if_pos ?_))
  rw [hkeep, hst]

theorem execPortEnable_ring {v : Word} (hring : s.ring (n % 6 / 2) = 1) : execPortEnable n v s = .next (s.fabReport F_FAB_CFG 2) := by
  rw [execPortEnable, State.live_of_up h]
  exact congrArg _ (if_pos hring)

theorem execPortDisable_eq (v : Word) : execPortDisable n v s = .next (s.portDown n) := by
  rw [execPortDisable, State.live_of_up h]

theorem execPortTrainingDone_train (hst : s.portState n = PortSt.train) :
    execPortTrainingDone n s = .next (((s.wr (PORT_STATUS.LANES_OK n) 0xFF).setPortState n PortSt.hello).sendHello n) := by
  rw [execPortTrainingDone, State.live_of_up h, if_pos hst]

theorem execPortTrainTimeout_train {lane : BitVec 3} (hst : s.portState n = PortSt.train) : execPortTrainTimeout n lane s = .next
    ((s.wr (PORT_STATUS.LANES_OK n) (s.rd (PORT_STATUS.LANES_OK n) &&& (255 - 2 ^ lane.toNat))).portFail n F_FAB_TRAIN) := by
  rw [execPortTrainTimeout, State.live_of_up h, if_pos hst]

theorem execHelloRecheck_hello (hst : s.portState n = PortSt.hello) : execHelloRecheck n s = .next ((s.sendHello n).helloAdvance n) := by
  rw [execHelloRecheck, State.live_of_up h, if_pos hst]

end Training

/-- The peer's fields of a HELLO, in the registers. -/
def State.recordPeer (s : State) (n : Fin 12) (w4 w5 : Nat) : State :=
  (((s.wr (PORT_PEER.CHIPID n) (bitsOf w4 63 50)).wr (PORT_PEER.PORT n) (bitsOf w4 49 46)).wr
    (PORT_PEER.FEATURE n) (bitsOf w4 45 38)).wr (PORT_PEER.FWVER n) (bitsOf w5 31 0)

/-- The port after a HELLO: the measurement, the peer's words and the totals of its credits. -/
def helloPort (l : Lcf) (t4 : Nat) (x : Port) : Port :=
  { x.measure l.w6.toNat t4 with
    helloPeer := some (l.w4, l.w5)
    helloAt := t4
    gseqRx := (lcfGseq l + 1) % 4096
    credRx := ((credFields l).zipIdx).foldl (fun t e => Port.putN t e.2 e.1) [] }

/-- The state with a HELLO recorded. -/
def State.recordHello (s : State) (n : Fin 12) (g : LcfGroup) (t4 : Nat) : State :=
  ((s.countFec n g).recordPeer n g.lcf.w4.toNat g.lcf.w5.toNat).updPort n (helloPort g.lcf t4)

section Hello

variable (s : State) (n : Fin 12)

theorem State.rd_recordPeer_chip (w4 w5 : Nat) : (s.recordPeer n w4 w5).rd (PORT_PEER.CHIPID n) = bitsOf w4 63 50 := by
  rw [State.recordPeer, State.rd_wr_disjoint, State.rd_wr_disjoint, State.rd_wr_disjoint]
  · exact State.rd_wr_fits _ (by simp [PORT_PEER.CHIPID]) (by simp [PORT_PEER.CHIPID]) (bitsOf_lt w4 63 50)
  all_goals simp [PORT_PEER.CHIPID, PORT_PEER.PORT, PORT_PEER.FEATURE, PORT_PEER.FWVER]

theorem State.rd_recordPeer_port (w4 w5 : Nat) : (s.recordPeer n w4 w5).rd (PORT_PEER.PORT n) = bitsOf w4 49 46 := by
  rw [State.recordPeer, State.rd_wr_disjoint, State.rd_wr_disjoint]
  · exact State.rd_wr_fits _ (by simp [PORT_PEER.PORT]) (by simp [PORT_PEER.PORT]) (bitsOf_lt w4 49 46)
  all_goals simp [PORT_PEER.PORT, PORT_PEER.FEATURE, PORT_PEER.FWVER]

theorem State.rd_recordPeer_feature (w4 w5 : Nat) : (s.recordPeer n w4 w5).rd (PORT_PEER.FEATURE n) = bitsOf w4 45 38 := by
  rw [State.recordPeer, State.rd_wr_disjoint]
  · exact State.rd_wr_fits _ (by simp [PORT_PEER.FEATURE]) (by simp [PORT_PEER.FEATURE]) (bitsOf_lt w4 45 38)
  all_goals simp [PORT_PEER.FEATURE, PORT_PEER.FWVER]

theorem State.rd_recordPeer_fwver (w4 w5 : Nat) : (s.recordPeer n w4 w5).rd (PORT_PEER.FWVER n) = bitsOf w5 31 0 := by
  exact State.rd_wr_fits _ (by simp [PORT_PEER.FWVER]) (by simp [PORT_PEER.FWVER]) (bitsOf_lt w5 31 0)

theorem State.port_wr (f : Fld) (v k : Nat) : (s.wr f v).port k = s.port k := by
  rw [State.port, State.port, State.wr_router]

theorem State.port_recordPeer (w4 w5 k : Nat) : (s.recordPeer n w4 w5).port k = s.port k := by
  simp only [State.recordPeer, State.port_wr]

theorem State.port_countFec (g : LcfGroup) (k : Nat) : (s.countFec n g).port k = s.port k := by
  simp only [State.countFec, State.addSat, State.port_wr]

theorem State.port_recordHello (g : LcfGroup) (t4 : Nat) : (s.recordHello n g t4).port n = helloPort g.lcf t4 (s.port n) := by
  rw [State.recordHello, State.port_updPort_same, State.port_recordPeer, State.port_countFec]

end Hello

theorem execHelloRx_good {n : Fin 12} {s : State} (h : Up s) {g : LcfGroup} {frac : BitVec 8} {t4 : Nat}
    (hst : s.portState n = PortSt.hello ∨ s.portState n = PortSt.held) (hg : groupGood g = true) (hty : lcfType g.lcf = 2)
    (hfail : bitsOf g.lcf.w4.toNat 22 22 = 0) (ht : t4 = (s.clk * 256 + 2 ^ 32 - frac.toNat) % 2 ^ 32) :
    execHelloRx n ⟨g, frac⟩ s = .next (((s.recordHello n g t4).sendHello n).helloAdvance n) := by
  subst ht
  rw [execHelloRx, State.live_of_up h]
  exact congrArg _ (if_pos ⟨hst, hg, hty, hfail⟩)

/-- Settles O34: each command in its port state; a good HELLO leaves what `recordHello` keeps. -/
theorem portTrainingResults : Obligations.PortTrainingResults := by
  intro n s h
  refine ⟨fun v hring hst => execPortEnable_down h hring hst, fun v hring => execPortEnable_ring h hring, execPortDisable_eq h,
    fun hst => ⟨execPortTrainingDone_train h hst, fun lane => execPortTrainTimeout_train h hst⟩, fun hst => execHelloRecheck_hello h hst,
    fun g frac t4 hst hg hty hfail ht => ⟨s.recordHello n g t4, execHelloRx_good h hst hg hty hfail ht, ?_⟩⟩
  rw [State.port_recordHello, State.recordHello]
  simp only [State.updPort_rd]
  exact ⟨State.rd_recordPeer_chip .., State.rd_recordPeer_port .., State.rd_recordPeer_feature .., State.rd_recordPeer_fwver ..,
    rfl, rfl, rfl, rfl⟩

/-! ## Groups in service (R234 to R237, R260, R265) -/

section Groups

variable {n : Fin 12} {s : State} {g : LcfGroup} (hin : s.inService n = true)

/-- The group is good and in order: what its acknowledgement and credits bring, ahead of its use. -/
def State.accepted (s : State) (n : Fin 12) (g : LcfGroup) : State :=
  (((s.countFec n g).updPort n (fun y => { y with gseqRx := (y.gseqRx + 1) % 4096, nakSent := false })).takeAck n (lcfAck g.lcf)).takeCredits n
    g.lcf

include hin

theorem State.takeGroup_bad {use : State → State} (hg : groupGood g = false)
    (hnak : (s.port n).nakSent = false ∨ lcfGseq g.lcf = (s.port n).gseqRx) :
    s.takeGroup n g use = ((s.countFec n g).updPort n (fun y => { y with nakSent := true })).lcfDue n 3 [] := by
  refine (if_neg (not_not.2 hin)).trans ((if_neg ?_).trans (if_neg ?_))
  · rw [hg]
    rintro ⟨hgood, _⟩
    exact Bool.false_ne_true hgood
  · rintro ⟨hsent, hseq⟩
    rcases hnak with hno | heq
    · exact Bool.false_ne_true (hno.symm.trans hsent)
    · exact hseq heq

theorem State.takeGroup_good {use : State → State} (hg : groupGood g = true) (hseq : lcfGseq g.lcf = (s.port n).gseqRx) :
    s.takeGroup n g use = (use (s.accepted n g)).chooseNext n :=
  (if_neg (not_not.2 hin)).trans (if_pos ⟨hg, hseq⟩)

variable (h : Up s)

include h

theorem execLcfGroupRx_bad (hg : groupGood g = false) (hnak : (s.port n).nakSent = false ∨ lcfGseq g.lcf = (s.port n).gseqRx) :
    execLcfGroupRx n g s = .next (((s.countFec n g).updPort n (fun y => { y with nakSent := true })).lcfDue n 3 []) := by
  rw [execLcfGroupRx, State.live_of_up h, State.takeGroup_bad hin hg hnak]
  exact congrArg _ (if_neg (by simp [hg]))

variable (hg : groupGood g = true) (hseq : lcfGseq g.lcf = (s.port n).gseqRx)

include hg hseq

theorem execLcfGroupRx_good (hty : lcfType g.lcf ∉ [2, 3, 4]) : execLcfGroupRx n g s = .next
    ((if lcfType g.lcf = 1 then (s.accepted n g).takeRecords n g.lcf else s.accepted n g).chooseNext n) := by
  rw [execLcfGroupRx, State.live_of_up h, State.takeGroup_good hin hg hseq, if_neg]
  rintro ⟨_, _, hmem⟩
  exact hty hmem

theorem execNakRx_good (hty : lcfType g.lcf = 3) :
    execNakRx n g s = .next ((((s.accepted n g).takeRecords n g.lcf).takeNak n (lcfAck g.lcf)).chooseNext n) := by
  rw [execNakRx, State.live_of_up h, State.takeGroup_good hin hg hseq, if_neg (not_not.2 hty)]

theorem execFailoverHelloRx_good (hty : lcfType g.lcf = 2) (hfail : bitsOf g.lcf.w4.toNat 22 22 = 1) (hport : bitsOf g.lcf.w4.toNat 21 18 < 12)
    (hdir : bitsOf g.lcf.w4.toNat 21 18 % 6 = opposite (n % 6)) : execFailoverHelloRx n g s = .next (((s.accepted n g).takeDelivered n
      (n % 6 + 6 * (bitsOf g.lcf.w4.toNat 21 18 / 6)) (bitsOf g.lcf.w6.toNat 63 52)).chooseNext n) := by
  have hgo : ¬ (lcfType g.lcf ≠ 2 ∨ bitsOf g.lcf.w4.toNat 22 22 = 0) := by
    rw [hty, hfail]
    decide
  rw [execFailoverHelloRx, State.live_of_up h]
  dsimp only
  rw [if_neg hgo, State.takeGroup_good hin hg hseq, if_pos ⟨hport, hdir⟩]

end Groups

section Link

variable {n : Fin 12} {s : State}

theorem State.takeNak_eq {g run : Nat} {x : State} (hrun : run = if (s.port n).nakRun ≠ 0 ∧ (s.port n).nakSeq = g then (s.port n).nakRun + 1 else 1)
    (hx : x = s.updPort n (fun y => { y with nakRun := run, nakSeq := g })) :
    s.takeNak n g = if 8 ≤ run then x.portFail n F_FAB_RETRY else x.replayGroups n := by
  subst hx hrun
  rfl

variable (h : Up s)

include h

theorem execRetryTimeout_due (hin : s.inService n = true) (hretry : (s.port n).retry ≠ []) (hdue : (s.port n).ackAt + 9400 ≤ s.clk) :
    execRetryTimeout n s = .next (s.replayGroups n) := by
  rw [execRetryTimeout, State.live_of_up h, if_pos ⟨hin, hretry, hdue⟩]

theorem execLaneLockLoss_eq {lane : BitVec 3} : execLaneLockLoss n lane s = .next ((s.wr (PORT_STATUS.LANES_OK n)
    (s.rd (PORT_STATUS.LANES_OK n) &&& (255 - 2 ^ lane.toNat))).laneFail n lane.toNat) := by
  rw [execLaneLockLoss, State.live_of_up h]

theorem execLaneCodewordLimit_eq {lane : BitVec 3} : execLaneCodewordLimit n lane s = .next (s.laneFail n lane.toNat) := by
  rw [execLaneCodewordLimit, State.live_of_up h]

end Link

/-- Settles O35: the receiver of R235 by whether a group is good and by its type, then the timeout and the lanes. -/
theorem linkResults : Obligations.LinkResults := by
  intro n s h
  refine ⟨fun hin g t ht => ⟨fun hg hnak => ?_, fun hg hseq u hu => ?_⟩, fun hin hretry hdue => execRetryTimeout_due h hin hretry hdue,
    fun lane => execLaneLockLoss_eq h, fun lane => execLaneCodewordLimit_eq h⟩
  · rw [ht]
    exact execLcfGroupRx_bad hin h hg hnak
  · have hacc : u = s.accepted n g := by
      rw [hu, ht]
      rfl
    subst hacc
    refine ⟨fun hty => ?_, fun hty => ?_, fun hty w run hw hrun x hx => ?_, fun hty hfail hport hdir => ?_⟩
    · refine (execLcfGroupRx_good hin h hg hseq (by rw [hty]; decide)).trans ?_
      rw [hty, if_neg (by decide)]
    · refine (execLcfGroupRx_good hin h hg hseq (by rw [hty]; decide)).trans ?_
      rw [hty, if_pos rfl]
      rfl
    · have hnak := execNakRx_good hin h hg hseq hty
      rw [State.takeRecords, ← hw, State.takeNak_eq hrun hx] at hnak
      exact ⟨fun hmany => hnak.trans (by rw [if_pos hmany]), fun hfew => hnak.trans (by rw [if_neg (Nat.not_le.2 hfew)])⟩
    · exact execFailoverHelloRx_good hin h hg hseq hty hfail hport hdir

end Sys2Proof.Machine

/-! # Control packets and the router's tables -/

namespace Sys2Proof.Machine

open Sys2Proof.Claims

/-! ## Heartbeats, CTL data and fences (R243, R250, R261 to R263) -/

section Control

variable {n : Fin 12} {s : State} (h : Up s)

include h

theorem execHeartbeatSend_due (hin : s.inService n = true) (hsil : s.silenced = false) (hf : s.fenced (s.neighbour (n % 6)) = false)
    (hlap : s.rd LAP_STATUS.STATE ≠ LapSt.stopped) (hslot : s.slotIdx % s.rd FAB_CFG.HB_SLOTS = 0) (honce : (s.port n).hbSent ≠ some s.slotNo) :
    execHeartbeatSend n s = .next ((s.updPort n (fun x => { x with hbSent := some s.slotNo })).queuePort n
      { pkt := s.outgoing (heartbeatOf s n) none (n % 6) }) := by
  rw [execHeartbeatSend, State.live_of_up h]
  exact congrArg _ (if_neg (by simp [hin, hsil, hf, hlap, hslot, honce]))

theorem execHeartbeatLoss_due (hin : s.inService n = true) (honce : s.bit (PORT_STATUS.HBLOST n) = false)
    (hage : (s.port n).hbSeen + s.rd FAB_CFG.HB_MISS * s.rd FAB_CFG.HB_SLOTS * 64 ≤ s.ct) :
    execHeartbeatLoss n s = .next ((s.setBit (PORT_STATUS.HBLOST n) true).portReport n F_FAB_HBLOSS) := by
  rw [execHeartbeatLoss, State.live_of_up h]
  exact congrArg _ (if_pos ⟨hin, by simp [honce], hage⟩)

end Control

/-- What a received heartbeat does with the state (R250). -/
def heartbeatTaken (n : Fin 12) (p : Packet) (s : State) (q : QPkt) : State :=
  let s := if s.bit (PORT_STATUS.AUDIT n) ∧ ¬ s.heartbeatGood n p then s.auditBreach 0 else s
  let e := leNat (p.payload.take 4)
  let d := leNat ((p.payload.drop 4).take 8)
  let s := (s.wr (PORT_PEERCFG.EPOCH n) e).wr (PORT_PEERDIG.DIGEST n) d
  let same := e = s.rd CFG_EPOCH.EPOCH ∧ d = s.rd CFG_DIGEST.VALUE
  let seen := (s.port n).diffSeen
  let s := s.updPort n (fun x => { x with hbSeen := s.ct, diffSeen := if same then none else some (e, d) })
  let s := if same ∨ seen = some (e, d) then s else s.portReport n F_FAB_CFGDIFF
  s.leave q

theorem execHeartbeatRx_eq {n : Fin 12} {p : Packet} {s : State} (h : Up s) :
    execHeartbeatRx n p s = .next (s.receive n p true (heartbeatTaken n p)) := by
  rw [execHeartbeatRx, State.live_of_up h]
  rfl

/-- Recording what a peer's heartbeat says leaves the registers that lie apart from the port's two. -/
theorem State.rd_peerRecord (u : State) (n : Fin 12) (e d : Nat) (f : Fld) (he : f.off ≠ (PORT_PEERCFG.EPOCH n).off)
    (hd : f.off ≠ (PORT_PEERDIG.DIGEST n).off) : ((u.wr (PORT_PEERCFG.EPOCH n) e).wr (PORT_PEERDIG.DIGEST n) d).rd f = u.rd f :=
  (State.rd_wr_ne _ _ _ _ hd).trans (State.rd_wr_ne _ _ _ _ he)

theorem heartbeatTaken_same {n : Fin 12} {p : Packet} {u v : State} {q : QPkt} (haudit : u.bit (PORT_STATUS.AUDIT n) = false)
    (he : hbEpoch p = u.rd CFG_EPOCH.EPOCH) (hd : hbDigest p = u.rd CFG_DIGEST.VALUE)
    (hv : v = (u.wr (PORT_PEERCFG.EPOCH n) (hbEpoch p)).wr (PORT_PEERDIG.DIGEST n) (hbDigest p)) :
    heartbeatTaken n p u q = (v.updPort n (fun x => { x with hbSeen := v.ct, diffSeen := none })).leave q := by
  have hsame : hbEpoch p = v.rd CFG_EPOCH.EPOCH ∧ hbDigest p = v.rd CFG_DIGEST.VALUE := by
    rw [hv, State.rd_peerRecord, State.rd_peerRecord]
    · exact ⟨he, hd⟩
    all_goals
      simp only [CFG_EPOCH.EPOCH, CFG_DIGEST.VALUE, PORT_PEERCFG.EPOCH, PORT_PEERDIG.DIGEST]
      omega
  rw [heartbeatTaken, if_neg (show ¬ (u.bit (PORT_STATUS.AUDIT n) = true ∧ _) by simp [haudit]), ← hv, if_pos (.inl hsame)]
  simp only [if_pos hsame]

theorem execCtlDataRx_data {n : Fin 13} {p : Packet} {s : State} (h : Up s) (hcls : pkClass p = Cls.ctl) (hopc : pkOpc p = 4)
    (hpoison : isPoisonNotice p = false) : execCtlDataRx n p s = .next (s.receive n p true (fun s q =>
      match s.ctxOfJob (pkJob p) with
      | some c => (((s.leave q).addCc c (pkCc p) 1).aggLocal p true).acceptPoison c p
      | none => ((((s.leave q).addSat COL_COUNT.STRAY 1).lapFlag 18).report F_COL_STRAY 2 0).aggLocal p false)) := by
  rw [execCtlDataRx, State.live_of_up h]
  exact congrArg _ (if_neg (by simp [hcls, hopc, hpoison]))

section Fences

variable {n : Fin 12} {p : Packet} {s t : State} {d cnt : Nat} (h : Up s) (hcls : pkClass p = Cls.ctl) (hopc : pkOpc p = 3) (hmode : pkMode p = 1)
  (hd : d = (leNat (p.payload.take 4) + 2 ^ 32 - s.rd FAB_FENCE_EPOCH.EPOCH) % 2 ^ 32) (hcnt : cnt = leNat ((p.payload.drop 4).take 4))
  (ht : t = s.receive n p true (fun s q => (s.leave q).aggLocal q.pkt true))

include h hcls hopc hmode hd hcnt ht

theorem execFenceRx_newer (hecrc : ecrcGood p = true) (htree : s.treeTaken n p = true) (hnew : d ≠ 0) (hlt : d < 2 ^ 31) (hsome : 1 ≤ cnt)
    (hfew : cnt ≤ 32) : execFenceRx n p s = .next (((List.range cnt).foldl (fun t i =>
      t.setFence (leNat ((p.payload.drop (8 + 2 * i)).take 2) % 2 ^ 14) ((leNat ((p.payload.drop (8 + 2 * i)).take 2)).testBit 15)) t).wr
      FAB_FENCE_EPOCH.EPOCH (leNat (p.payload.take 4))) := by
  subst hd hcnt ht
  rw [execFenceRx, State.live_of_up h]
  refine congrArg _ ((if_neg (not_not.2 ⟨hcls, hopc, hmode⟩)).trans (if_neg ?_))
  simp only [htree, hecrc, not_true, false_or, not_or, Nat.not_lt, Nat.not_le]
  exact ⟨Nat.one_le_iff_ne_zero.1 hsome, hfew, hnew, hlt⟩

theorem execFenceRx_none (hnone : d = 0 ∨ cnt = 0) : execFenceRx n p s = .next t := by
  subst hd hcnt ht
  rw [execFenceRx, State.live_of_up h]
  refine congrArg _ ((if_neg (not_not.2 ⟨hcls, hopc, hmode⟩)).trans (if_pos ?_))
  exact .inr (.inr (hnone.elim (fun hz => .inr (.inr (.inl hz))) .inl))

end Fences

/-- Settles O36: heartbeats by their slot, their silence and what they carry; CTL data and fences by what the packet is. -/
theorem controlPacketResults : Obligations.ControlPacketResults := by
  refine ⟨fun n s h => ⟨fun hin hsil hf hlap hslot honce => execHeartbeatSend_due h hin hsil hf hlap hslot honce,
    fun hin honce hage => execHeartbeatLoss_due h hin honce hage,
    fun p => ⟨heartbeatTaken n p, execHeartbeatRx_eq h, fun u v q haudit he hd hv => heartbeatTaken_same haudit he hd hv⟩⟩,
    fun n p s h hcls hopc hpoison => execCtlDataRx_data h hcls hopc hpoison,
    fun n p s t d cnt h hcls hopc hmode hecrc htree hd hcnt ht => ⟨fun hnew hlt hsome hfew =>
      execFenceRx_newer h hcls hopc hmode hd hcnt ht hecrc htree hnew hlt hsome hfew, fun hnone =>
      execFenceRx_none h hcls hopc hmode hd hcnt ht hnone⟩⟩

/-! ## Tables of the router (R257, R262, R269, R298, R317) -/

section Tables

variable {s : State} (h : Up s)

include h

theorem execFenceTableWrite_eq (i : BitVec 8) (v : Word) :
    execFenceTableWrite i v s = .next (s.setFenceReg (FAB_FENCE.FENCED i.toNat).off v) := by
  rw [execFenceTableWrite, State.live_of_up h]

omit h in
theorem State.reg_setFenceReg_same (off : Nat) (v : Word) : (s.setFenceReg off v).reg off = v := State.reg_setReg_same _ _ _

theorem execMgroupWrite_bad {g : BitVec 12} {t : State} (ht : t = s.wr FAB_MGSEL.INDEX g.toNat)
    (hbad : mgEntryOk (t.mgData 0) (fun p => bitsOf (s.mgData (1 + p / 4)) (16 * (p % 4) + 15) (16 * (p % 4))) = false) :
    execMgroupWrite g s = .next (t.fabReport F_FAB_MGROUP 2) := by
  subst ht
  rw [execMgroupWrite, State.live_of_up h]
  exact congrArg _ (if_pos (by simp [hbad]))

theorem execMgroupWrite_good {g : BitVec 12} {t : State} (ht : t = s.wr FAB_MGSEL.INDEX g.toNat)
    (hok : mgEntryOk (t.mgData 0) (fun p => bitsOf (s.mgData (1 + p / 4)) (16 * (p % 4) + 15) (16 * (p % 4))) = true)
    (hfree : bitsOf (t.mgWord g.toNat 0) 63 63 = 0) : execMgroupWrite g s = .next (t.updRouter (fun r => { r with
      mgroups := tsetMany zeroWord r.mgroups (4 * g.toNat) ((List.range 4).map (fun n => BitVec.ofNat 64 (t.mgData n))) })) := by
  subst ht
  rw [execMgroupWrite, State.live_of_up h]
  dsimp only
  rw [if_neg (not_not.2 hok), if_neg]
  rintro ⟨hone, _⟩
  omega

theorem execMgroupRead_eq (g : BitVec 12) : execMgroupRead g s = .next ((List.range 4).foldl (fun u n =>
    u.wr (FAB_MGDATA.DATA n) ((s.wr FAB_MGSEL.INDEX g.toNat).mgWord g.toNat n)) (s.wr FAB_MGSEL.INDEX g.toNat)) := by
  rw [execMgroupRead, State.live_of_up h]

theorem execFabCfgWrite_busy (v : Word) (n : Fin 12) (hbusy : s.inService n = true ∨ s.portState n = PortSt.held) :
    execFabCfgWrite v s = .next (s.fabReport F_FAB_CFG 2) := by
  rw [execFabCfgWrite, State.live_of_up h]
  refine congrArg _ (if_pos (.inl ?_))
  simp only [List.any_eq_true, List.mem_range, Bool.or_eq_true, beq_iff_eq]
  exact ⟨n, n.isLt, hbusy⟩

theorem execFabCfgWrite_idle (v : Word) (hidle : ∀ n : Fin 12, s.inService n = false ∧ s.portState n ≠ PortSt.held)
    (hx : coordOf (fieldOf v FAB_CFG.CHIPID) 0 ≤ fieldOf v FAB_CFG.XS_M1) (hy : coordOf (fieldOf v FAB_CFG.CHIPID) 1 ≤ fieldOf v FAB_CFG.YS_M1)
    (hz : coordOf (fieldOf v FAB_CFG.CHIPID) 2 ≤ fieldOf v FAB_CFG.ZS_M1) : execFabCfgWrite v s =
      .next (s.setReg FAB_CFG.XS_M1.off (BitVec.ofNat 64
        ([FAB_CFG.XS_M1, FAB_CFG.YS_M1, FAB_CFG.ZS_M1, FAB_CFG.CHIPID, FAB_CFG.HB_SLOTS, FAB_CFG.HB_MISS].foldl
          (fun w f => withBits w f.hi f.lo (fieldOf v f)) 0))).fenceChanged := by
  rw [execFabCfgWrite, State.live_of_up h]
  refine congrArg _ (if_neg ?_)
  rintro (hbusy | hout)
  · simp only [List.any_eq_true, List.mem_range, Bool.or_eq_true, beq_iff_eq] at hbusy
    obtain ⟨n, hn, hin | hheld⟩ := hbusy
    · exact Bool.false_ne_true ((hidle ⟨n, hn⟩).1.symm.trans hin)
    · exact (hidle ⟨n, hn⟩).2 hheld
  · exact hout ⟨hx, hy, hz⟩

theorem execRsCfgWrite_free (v : Word) (hfree : ∀ i, i < 512 → (s.rsEntry i).st = 0) (hle : fieldOf v RS_CFG.RT_ENTRIES ≤ 256) :
    execRsCfgWrite v s = .next (s.wr RS_CFG.RT_ENTRIES (fieldOf v RS_CFG.RT_ENTRIES)) := by
  rw [execRsCfgWrite, State.live_of_up h]
  refine congrArg _ (if_neg ?_)
  rintro (hused | hbig)
  · simp only [List.any_eq_true, List.mem_range, bne_iff_ne] at hused
    obtain ⟨i, hi, hne⟩ := hused
    exact hne (hfree i hi)
  · omega

theorem execRsCfgWrite_used (v : Word) {i : Nat} (hi : i < 512) (hused : (s.rsEntry i).st ≠ 0) :
    execRsCfgWrite v s = .next (s.report F_COL_CFG 2 0) := by
  rw [execRsCfgWrite, State.live_of_up h]
  refine congrArg _ (if_pos (.inl ?_))
  simp only [List.any_eq_true, List.mem_range, bne_iff_ne]
  exact ⟨i, hi, hused⟩

end Tables

/-- Settles O37: each table's write by whether its value and the state of what it serves allow it. -/
theorem routerTableResults : Obligations.RouterTableResults := by
  intro s h
  refine ⟨fun i v => ⟨execFenceTableWrite_eq h i v, State.reg_setFenceReg_same _ _⟩,
    fun g t ht => ⟨fun hbad => execMgroupWrite_bad h ht hbad, fun hok hfree => execMgroupWrite_good h ht hok hfree, ?_⟩,
    execFabCfgWrite_busy h, execFabCfgWrite_idle h, execRsCfgWrite_free h, fun v i hi hused => execRsCfgWrite_used h v hi hused⟩
  rw [ht]
  exact execMgroupRead_eq h g

end Sys2Proof.Machine

/-! # Remote memory and the Relay Engine -/

namespace Sys2Proof.Machine

open Sys2Proof.Claims

/-! ## Requests at their target, and RMEM_CTL (R211, R277 to R288) -/

/-- What a received REQ does with the state. -/
def reqTaken (p : Packet) (s : State) (q : QPkt) : State :=
  let s := s.enterReq { pkt := q.pkt, buf := q.buf, fromPort := q.fromPort, own := false, since := s.clk }
  match s.ctxOfJob (pkJob p) with
  | some c => s.acceptPoison c p
  | none => s

theorem reqTaken_ctx {p : Packet} {u t : State} {q : QPkt} {c : Nat}
    (ht : t = u.enterReq { pkt := q.pkt, buf := q.buf, fromPort := q.fromPort, own := false, since := u.clk })
    (hc : t.ctxOfJob (pkJob p) = some c) : reqTaken p u q = t.acceptPoison c p := by
  subst ht
  rw [reqTaken, hc]

theorem reqTaken_none {p : Packet} {u t : State} {q : QPkt}
    (ht : t = u.enterReq { pkt := q.pkt, buf := q.buf, fromPort := q.fromPort, own := false, since := u.clk })
    (hc : t.ctxOfJob (pkJob p) = none) : reqTaken p u q = t := by
  subst ht
  rw [reqTaken, hc]

section Remote

variable {s : State} (h : Up s)

include h

theorem execReqRx_req {n : Fin 12} {p : Packet} (hcls : pkClass p = Cls.req) :
    execReqRx n p s = .next (s.receive n p true (reqTaken p)) := by
  rw [execReqRx, State.live_of_up h]
  exact congrArg _ (if_neg (not_not.2 hcls))

theorem execRspRx_rsp {n : Fin 12} {p : Packet} (hcls : pkClass p = Cls.rsp) :
    execRspRx n p s = .next (s.receive n p false (fun s q => (s.leave q).rspAccept q.pkt)) := by
  rw [execRspRx, State.live_of_up h]
  exact congrArg _ (if_neg (not_not.2 hcls))

theorem execRemoteTimeout_due {op : Nat} {r : Remote} (hr : s.remotes.find? (fun x => x.seq == op) = some r)
    (hage : r.ct + s.rd (RMEM_CTL.TIMEOUT (s.ctxOf r.stream)) ≤ s.ct) : execRemoteTimeout op s = .next
      (({ s with remotes := s.remotes.erase r }.addSat RMEM_COUNT0.TIMEOUT 1).streamFault r.stream F_RMEM_DEAD r.chip r.pc) := by
  rw [execRemoteTimeout, State.live_of_up h, hr]
  exact congrArg _ (if_pos hage)

theorem execRmemCtlWrite_eq (c : Fin 2) (v : Word) : execRmemCtlWrite c v s =
    .next (if fieldOf v (RMEM_CTL.TIMEOUT c) = 0 ∨ bitsOf v.toNat 31 8 ≠ 0 ∨ bitsOf v.toNat 1 1 ≠ 0 then s.report F_RMEM_CFG 2 0
      else s.writeSetting c (0x038000 + 8 * c) v) := by
  rw [execRmemCtlWrite, State.live_of_up h]

theorem reqServed_serves {op : Nat} {r : Request} (hf : s.frozen = false) (hr : s.requests[op]? = some r)
    (hfirst : (s.requests.take op).any (fun x => reqAddr x.pkt / 64 == reqAddr r.pkt / 64) = false)
    (hgo : s.reqMustWait r = false ∨ (s.reqStatus r.pkt ≠ RspSt.ok ∧ s.reqStatus r.pkt ≠ RspSt.ue)) :
    GivesWith (.reqServed op) s (s.serve r) := by
  intro up z hz
  change execReqServed op up z = _
  rw [execReqServed, State.granting_of_grants (grants_of_upset hz ⟨h, hf⟩)]
  dsimp only
  rw [hz, hr]
  refine congrArg _ ((if_neg (by simp [hfirst])).trans (if_neg ?_))
  rintro ⟨hst, hwait⟩
  rcases hgo with hno | ⟨hok, hue⟩
  · exact Bool.false_ne_true (hno.symm.trans hwait)
  · exact hst.elim hok hue

end Remote

/-- Settles O38: packets by their class, a request that nothing holds, and RMEM_CTL by its reserved bits. -/
theorem remoteTargetResults : Obligations.RemoteTargetResults := by
  intro s h
  refine ⟨fun n p hcls => ⟨reqTaken p, execReqRx_req h hcls, fun u t q ht => ⟨fun c hc => reqTaken_ctx ht hc, fun hc => reqTaken_none ht hc⟩⟩,
    fun op r hf hr hfirst hgo => reqServed_serves h hf hr hfirst hgo, fun n p hcls => execRspRx_rsp h hcls,
    fun op r hr hage => execRemoteTimeout_due h hr hage, fun c v => ⟨fun ht hlow hbit => ?_, fun hbad => ?_⟩⟩
  · refine (execRmemCtlWrite_eq h c v).trans ?_
    rw [if_neg (by simp [ht, hlow, hbit])]
  · exact (execRmemCtlWrite_eq h c v).trans (by rw [if_pos hbad])

/-! ## Relay operations (R289 to R295, R302, R308, R309) -/

theorem State.relayRead_good {u v : State} {e c : Nat} {o : Posted} {l : List (Nat × Nat)} {go : State → State} (hr : RelayReads u v e l) :
    u.relayRead e c o l go = go v := by
  obtain ⟨hgood, hv⟩ := hr
  subst hv
  exact if_neg (by simp only [hgood, Bool.false_eq_true, not_false_iff])

section Trigger

variable {e : Fin 4} {c : Fin 2} {s : State} (hg : Grants s) (hrun : s.ctxState c = CtxSt.run)

include hg hrun

theorem execTriggerFire_ready (hready : ∀ o ∈ (s.relay (2 * e + c)).posted, o.fired = false →
      reaches (s.cc c (odTcc o.desc)) (odThresh o.desc) = true → s.chunkReady c o.desc = true) :
    execTriggerFire e c s = .next (s.setRelay (2 * e + c) { s.relay (2 * e + c) with
      posted := (s.relay (2 * e + c)).posted.map (fun o =>
        if o.fired = false ∧ reaches (s.cc c (odTcc o.desc)) (odThresh o.desc) = true then
          { o with fired := true, epoch := (s.epoch c).getD 0 } else o) }) := by
  have hnone : (s.relay (2 * e.val + c.val)).posted.find? (fun o =>
      (! o.fired && reaches (s.cc c (odTcc o.desc)) (odThresh o.desc)) && ! s.chunkReady c o.desc) = none := by
    refine List.find?_eq_none.2 fun o ho => ?_
    simp only [Bool.and_eq_true, Bool.not_eq_true']
    rintro ⟨⟨hf, hth⟩, hnot⟩
    exact Bool.false_ne_true (hnot.symm.trans (hready o ho hf hth))
  rw [execTriggerFire, State.granting_of_grants hg]
  dsimp only
  rw [if_neg (not_not.2 hrun), hnone]
  simp only [Bool.and_eq_true, Bool.not_eq_true']

theorem execTriggerFire_notReady {o : Posted} {l : List Posted} (hl : (s.relay (2 * e + c)).posted = o :: l) (hf : o.fired = false)
    (hth : reaches (s.cc c (odTcc o.desc)) (odThresh o.desc) = true) (hnot : s.chunkReady c o.desc = false) :
    execTriggerFire e c s = .next (s.streamFault (40 + 2 * e + c) F_COL_NOTREADY 0 o.pc) := by
  rw [execTriggerFire, State.granting_of_grants hg]
  dsimp only
  rw [if_neg (not_not.2 hrun), hl, List.find?_cons_of_pos (by simp [hf, hth, hnot])]
  rfl

end Trigger

section Operations

variable {e : Fin 4} {s u v : State} {c : Nat} {o : Posted} (hg : Grants s)

include hg

theorem execRelayPut_sends {n : Nat} {l : List Byte} {poison disagree : Bool} {fl : Nat} {r : List Byte × State} {x : List Byte × Bool × State}
    (hrun : RunsOp s u e 1 c o) (hsrc : u.relaySource c o.desc (o.next == 0) = .inr (l, poison, fl)) (hlt : o.next < l.length)
    (hn : n = min 16384 (l.length - o.next)) (hread : RelayReads u v e (if odRs o.desc then [] else [(odSrc o.desc + o.next, n)]))
    (hr : r = v.relayBytes o ((l.drop o.next).take n)) (hx : x = (r.2.orCol c fl).exportChecked c o.desc disagree poison r.1) :
    execRelayPut ⟨e, disagree⟩ s =
      .next (x.2.2.relayData e c { o with next := o.next + n } (odDest o.desc) (odLz o.desc) (odDoff o.desc + o.next) x.2.1 x.1) := by
  obtain ⟨rfl, hop⟩ := hrun
  subst hn
  rw [hx, hr, execRelayPut, State.granting_of_grants hg]
  dsimp only
  rw [hop]
  dsimp only
  rw [hsrc]
  dsimp only
  rw [if_neg (by omega), State.relayRead_good hread]

theorem execRelayPut_fault {f : Nat} {disagree : Bool} (hrun : RunsOp s u e 1 c o)
    (hsrc : u.relaySource c o.desc (o.next == 0) = .inl f) : execRelayPut ⟨e, disagree⟩ s = .next (u.relayFault e c f o.pc) := by
  obtain ⟨rfl, hop⟩ := hrun
  rw [execRelayPut, State.granting_of_grants hg]
  dsimp only
  rw [hop]
  dsimp only
  rw [hsrc]

theorem execRelayRput_sends {l : List Byte} {poison disagree : Bool} {fl : Nat} {r : List Byte × State} {x : List Byte × Bool × State}
    (hrun : RunsOp s u e 2 c o) (hstart : o.next = 0) (hsrc : u.relaySource c o.desc true = .inr (l, poison, fl))
    (hread : RelayReads u v e (if odRs o.desc then [] else [(odSrc o.desc, odLen o.desc)])) (hr : r = v.relayBytes o l)
    (hx : x = (r.2.orCol c fl).exportChecked c o.desc disagree poison r.1) :
    execRelayRput ⟨e, disagree⟩ s = .next (x.2.2.relayContribute e c o x.2.1 x.1) := by
  obtain ⟨rfl, hop⟩ := hrun
  rw [hx, hr, execRelayRput, State.granting_of_grants hg]
  dsimp only
  rw [hop]
  dsimp only
  rw [if_neg (not_not.2 hstart), hsrc]
  dsimp only
  rw [State.relayRead_good hread]

theorem execRelayRput_fault {f : Nat} {disagree : Bool} (hrun : RunsOp s u e 2 c o) (hstart : o.next = 0)
    (hsrc : u.relaySource c o.desc true = .inl f) : execRelayRput ⟨e, disagree⟩ s = .next (u.relayFault e c f o.pc) := by
  obtain ⟨rfl, hop⟩ := hrun
  rw [execRelayRput, State.granting_of_grants hg]
  dsimp only
  rw [hop]
  dsimp only
  rw [if_neg (not_not.2 hstart), hsrc]

theorem execRelayGather_sends {n : Nat} {ps : List (Nat × Nat)} {r : List Byte × State} (hrun : RunsOp s u e 3 c o) (hps : ps = u.pieces o.desc)
    (hok : o.next = 0 → u.rinkOwned c (offOf (odList o.desc)) (16 * odCount o.desc) = true ∧
      u.rinkBad (offOf (odList o.desc)) (16 * odCount o.desc) = false ∧ ps.all pieceOk = true ∧
      ∀ x ∈ ps, u.rinkOwned c (offOf x.1) x.2 = true) (hlt : o.next < (ps.map (fun x => x.2)).sum)
    (hn : n = min 16384 ((ps.map (fun x => x.2)).sum - o.next))
    (hread : RelayReads u v e ((if o.next = 0 then [(odList o.desc, 16 * odCount o.desc)] else []) ++ pieceRanges ps o.next n))
    (hr : r = v.relayBytes o (v.pieceBytes ps o.next n)) : execRelayGather e s =
      .next (r.2.relayData e c { o with next := o.next + n } (odDest o.desc) (odLz o.desc) (odDoff o.desc + o.next) false r.1) := by
  obtain ⟨rfl, hop⟩ := hrun
  subst hps hn hr
  have hown : ¬ (o.next = 0 ∧ ¬ (s.relayTake e 3).rinkOwned c (offOf (odList o.desc)) (16 * odCount o.desc) = true) := fun hbad =>
    hbad.2 (hok hbad.1).1
  have hgood : ¬ (o.next = 0 ∧ (s.relayTake e 3).rinkBad (offOf (odList o.desc)) (16 * odCount o.desc) = true) := fun hbad =>
    Bool.false_ne_true ((hok hbad.1).2.1.symm.trans hbad.2)
  have hpieces : ¬ (o.next = 0 ∧ ¬ ((s.relayTake e 3).pieces o.desc).all pieceOk = true) := fun hbad => hbad.2 (hok hbad.1).2.2.1
  have hpiecesOwn : ¬ (o.next = 0 ∧ ((s.relayTake e 3).pieces o.desc).any (fun x => ! (s.relayTake e 3).rinkOwned c (offOf x.1) x.2) = true) := by
    rintro ⟨hstart, hany⟩
    obtain ⟨x, hx, hnot⟩ := List.any_eq_true.1 hany
    rw [(hok hstart).2.2.2 x hx] at hnot
    exact Bool.false_ne_true hnot
  rw [execRelayGather, State.granting_of_grants hg]
  dsimp only
  rw [hop]
  dsimp only
  rw [if_neg hown, if_neg hgood, if_neg hpieces, if_neg hpiecesOwn, if_neg (by omega), State.relayRead_good hread]

section Scatter

variable {a : Nat} {ent : List Byte} (hrun : RunsOp s u e 4 c o) (hlt : o.next < odCount o.desc)
  (hok : o.next = 0 → o.sub = 0 → u.scatterOwned c o.desc = true ∧ u.rinkBad (offOf (odList o.desc)) (16 * odCount o.desc) = false ∧
    u.scatterFlows c o.desc = true) (ha : a = odSrc o.desc + o.next * odStride o.desc)
  (hent : ent = u.rinkBytes (offOf (odList o.desc) + 16 * o.next) 16)

include hrun hlt hok

/-- No check at the start of a SCATTER fails: what its row does. -/
theorem execRelayScatter_checked : execRelayScatter e s = .next (
    if odRetc o.desc then u.relayRead e c o [(odList o.desc + 16 * o.next, 16), (odSrc o.desc + o.next * odStride o.desc, odLen o.desc)] (fun s =>
      (s.relayBytes o (s.rinkBytes (offOf (odSrc o.desc + o.next * odStride o.desc)) (odLen o.desc))).2.relayReturn e c { o with next := o.next + 1 }
        (u.rinkBytes (offOf (odList o.desc) + 16 * o.next) 16)
        (s.relayBytes o (s.rinkBytes (offOf (odSrc o.desc + o.next * odStride o.desc)) (odLen o.desc))).1)
    else
      let w0 := leNat ((u.rinkBytes (offOf (odList o.desc) + 16 * o.next) 16).take 8)
      let doff := leNat ((u.rinkBytes (offOf (odList o.desc) + 16 * o.next) 16).drop 8)
      let n := min 16384 (odLen o.desc - o.sub)
      u.relayRead e c o [(odList o.desc + 16 * o.next, 16), (odSrc o.desc + o.next * odStride o.desc + o.sub, n)] (fun s =>
        if bitsOf w0 30 0 ≠ 0 ∨ doff % 16 ≠ 0 then s.relayFault e c F_COL_DESC o.pc
        else
          let r := s.relayBytes o (s.rinkBytes (offOf (odSrc o.desc + o.next * odStride o.desc) + o.sub) n)
          r.2.relayData e c (if odLen o.desc ≤ o.sub + n then { o with next := o.next + 1, sub := 0 } else { o with sub := o.sub + n })
            ⟨0, bitsOf w0 63 50, 0, bitsOf w0 43 31⟩ (bitsOf w0 49 44) (doff + o.sub) false r.1)) := by
  obtain ⟨rfl, hop⟩ := hrun
  have hown : ¬ (o.next = 0 ∧ o.sub = 0 ∧ ¬ (s.relayTake e 4).scatterOwned c o.desc = true) := fun hbad =>
    hbad.2.2 (hok hbad.1 hbad.2.1).1
  have hgood : ¬ (o.next = 0 ∧ o.sub = 0 ∧ (s.relayTake e 4).rinkBad (offOf (odList o.desc)) (16 * odCount o.desc) = true) := fun hbad =>
    Bool.false_ne_true ((hok hbad.1 hbad.2.1).2.1.symm.trans hbad.2.2)
  have hflows : ¬ (o.next = 0 ∧ o.sub = 0 ∧ ¬ (s.relayTake e 4).scatterFlows c o.desc = true) := fun hbad =>
    hbad.2.2 (hok hbad.1 hbad.2.1).2.2
  rw [execRelayScatter, State.granting_of_grants hg]
  dsimp only
  rw [hop]
  dsimp only
  rw [if_neg (Nat.not_le.2 hlt), if_neg hown, if_neg hgood, if_neg hflows]

include ha hent

theorem execRelayScatter_returns {r : List Byte × State} (hretc : odRetc o.desc = true)
    (hread : RelayReads u v e [(odList o.desc + 16 * o.next, 16), (a, odLen o.desc)])
    (hr : r = v.relayBytes o (v.rinkBytes (offOf a) (odLen o.desc))) :
    execRelayScatter e s = .next (r.2.relayReturn e c { o with next := o.next + 1 } ent r.1) := by
  subst ha hent hr
  rw [execRelayScatter_checked hg hrun hlt hok, if_pos hretc, State.relayRead_good hread]

theorem execRelayScatter_sends {n : Nat} {r : List Byte × State} (hretc : odRetc o.desc = false)
    (hres : bitsOf (leNat (ent.take 8)) 30 0 = 0) (hal : leNat (ent.drop 8) % 16 = 0) (hn : n = min 16384 (odLen o.desc - o.sub))
    (hread : RelayReads u v e [(odList o.desc + 16 * o.next, 16), (a + o.sub, n)])
    (hr : r = v.relayBytes o (v.rinkBytes (offOf a + o.sub) n)) : execRelayScatter e s = .next (r.2.relayData e c
      (if odLen o.desc ≤ o.sub + n then { o with next := o.next + 1, sub := 0 } else { o with sub := o.sub + n })
      ⟨0, bitsOf (leNat (ent.take 8)) 63 50, 0, bitsOf (leNat (ent.take 8)) 43 31⟩ (bitsOf (leNat (ent.take 8)) 49 44)
      (leNat (ent.drop 8) + o.sub) false r.1) := by
  subst ha hent hn hr
  rw [execRelayScatter_checked hg hrun hlt hok, hretc, if_neg Bool.false_ne_true]
  dsimp only
  rw [State.relayRead_good hread, if_neg (by simp [hres, hal])]

end Scatter

theorem execRelayOpEnd_done {t : State} (hown : s.relayOwner e = some c) (hrun : (s.relay (2 * e + c)).run = some o)
    (hmade : s.relayMade c o = true) (hsent : o.sent.any (fun x => s.inQueues x.1 x.2) = false) (hcomb : s.col.combine = [])
    (ht : t = (((s.setRelay (2 * e + c) { s.relay (2 * e + c) with run := none }).addSat (REL_COUNT.OPS e) 1).addCc c (odDcc o.desc) 1)) :
    execRelayOpEnd e s = .next (if odFree o.desc then (t.sourceChunk c o.desc).elim t t.freeEntry else t) := by
  rw [execRelayOpEnd, State.granting_of_grants hg, hown]
  dsimp only
  rw [hrun]
  dsimp only
  rw [if_neg, ← ht]
  · cases t.sourceChunk c o.desc <;> rfl
  · simp [hmade, hsent, hcomb]

end Operations

/-- Settles O39: each command on the operation that its engine runs. -/
theorem relayEventResults : Obligations.RelayEventResults := by
  intro e s hg
  refine ⟨fun c hrun => ⟨fun hready => execTriggerFire_ready hg hrun hready, fun o l hl hf hth hnot =>
      execTriggerFire_notReady hg hrun hl hf hth hnot⟩,
    fun u v c n o l poison disagree fl r x hrun hsrc hlt hn hread hr hx => execRelayPut_sends hg hrun hsrc hlt hn hread hr hx,
    fun u c f o disagree hrun hsrc => execRelayPut_fault hg hrun hsrc,
    fun u v c o l poison disagree fl r x hrun hstart hsrc hread hr hx => execRelayRput_sends hg hrun hstart hsrc hread hr hx,
    fun u c f o disagree hrun hstart hsrc => execRelayRput_fault hg hrun hstart hsrc,
    fun u v c n o ps hrun hps hok hlt hn hread r hr => execRelayGather_sends hg hrun hps hok hlt hn hread hr,
    fun u c a o ent hrun hlt hok ha hent => ⟨fun hretc v r hread hr => execRelayScatter_returns hg hrun hlt hok ha hent hretc hread hr,
      fun hretc hres hal n v r hn hread hr => execRelayScatter_sends hg hrun hlt hok ha hent hretc hres hal hn hread hr⟩,
    fun c o t hown hrun hmade hsent hcomb ht => ⟨fun hfree => ?_, fun i hfree hi => ?_⟩⟩
  · refine (execRelayOpEnd_done hg hown hrun hmade hsent hcomb ht).trans ?_
    rw [hfree, if_neg Bool.false_ne_true]
  · refine (execRelayOpEnd_done hg hown hrun hmade hsent hcomb ht).trans ?_
    rw [if_pos hfree, hi, Option.elim_some]

end Sys2Proof.Machine

/-! # Collectives -/

namespace Sys2Proof.Machine

open Sys2Proof.Claims

section Collectives

variable {s : State} (hg : Grants s)

include hg

theorem execRsAdmitGrant_fits {c : Fin 2} {u : State} {r : Admit} {l : List Admit} (hu : u = s.settleAdmits) (hl : u.admits c = r :: l)
    (hctx : u.ctxExists c = true) (hfits : r.count ≤ (u.freeEntries c).length) (hnote : odF r.desc 1 15 15 = 0) :
    execRsAdmitGrant c s = .next (((((u.freeEntries c).take r.count).zipIdx.foldl (fun s e => s.admitEntry c r e.1 e.2) (u.setAdmits c l)).addCc c
      (odF r.desc 1 51 40) 1).addSat RS_COUNT.ADMITS 1) := by
  subst hu
  rw [execRsAdmitGrant, State.granting_of_grants hg]
  dsimp only
  rw [hl]
  dsimp only
  rw [if_neg (show ¬ (¬ s.settleAdmits.ctxExists c = true ∨ (s.settleAdmits.freeEntries c).length < r.count) by simp [hctx, hfits]),
    if_neg (show ¬ odF r.desc 1 15 15 = 1 by rw [hnote]; decide)]

/-! ## PUT and RPUT packets (R296, R297) -/

omit s hg in
/-- What a received PUT does with the state. -/
def putTaken (n : Fin 13) (p : Packet) (s : State) (q : QPkt) : State :=
  let s := s.leave q
  match s.colCheck p with
  | .inr t => t.aggLocal p false
  | .inl c =>
    match s.colLand (fabricPort n) c (leNat (p.payload.take 8)) (leNat ((p.payload.drop 8).take 1)) (pkCc p) (p.payload.drop 16) with
    | none => (s.aggLocal p false).contextFault c F_COL_LAND
    | some t => (t.aggLocal p true).acceptPoison c p

omit s hg in
/-- What a received RPUT does with the state. -/
def rputTaken (p : Packet) (s : State) (q : QPkt) : State :=
  match s.colCheck p with
  | .inr t => (t.leave q).aggLocal p false
  | .inl c =>
    let w := leNat (p.payload.take 8)
    let data := p.payload.drop 16
    match s.contribution c (bitsOf w 63 32) (bitsOf w 31 16) (bitsOf w 15 8) data.length with
    | .inl f => ((s.leave q).aggLocal p false).contextFault c f
    | .inr _ =>
      ((s.aggLocal p true).queueCombine ⟨c, bitsOf w 63 32, bitsOf w 31 16, bitsOf w 15 8, pkPoison p, pkSrc p, pkCc p, pkEpoch p, data,
        q.buf, q.fromPort, true, 0⟩).acceptPoison c p

omit s hg in
/-- What a received poison notice does with the state. -/
def poisonTaken (p : Packet) (s : State) (q : QPkt) : State :=
  let e := bitsOf (leNat (p.payload.take 8)) 47 32
  let s := s.leave q
  let stray (c : Nat) : State := (((s.addSat COL_COUNT.STRAY 1).lapFlag 18).report F_COL_STRAY c 0).aggLocal p false
  match s.ctxOfJob (pkJob p) with
  | none => stray 2
  | some c =>
    if s.cancelled c e then ((s.addSat COL_COUNT.STALE 1).lapFlag 18).aggLocal p false
    else if s.epoch c = some e ∨ (s.ctx c).committed.any (fun x => x.1 == e) then (s.aggLocal p true).poison c e
    else stray c

theorem execColPutRx_put {n : Fin 13} {p : Packet} (hcls : pkClass p = Cls.col) (hopc : pkOpc p = 1) :
    execColPutRx n p s = .next (s.receive n p true (putTaken n p)) := by
  rw [execColPutRx, State.granting_of_grants hg]
  exact congrArg _ (if_neg (not_or.2 ⟨not_not.2 hcls, not_not.2 hopc⟩))

theorem execColRputRx_rput {n : Fin 13} {p : Packet} (hcls : pkClass p = Cls.col) (hopc : pkOpc p = 2) :
    execColRputRx n p s = .next (s.receive n p true (rputTaken p)) := by
  rw [execColRputRx, State.granting_of_grants hg, if_neg (not_or.2 ⟨not_not.2 hcls, not_not.2 hopc⟩)]
  refine congrArg (fun k => Host.Outcome.next (s.receive n p true k)) (funext fun u => funext fun q => ?_)
  unfold rputTaken
  cases u.colCheck p with
  | inr t => rfl
  | inl c =>
    dsimp only <;> cases u.contribution c _ _ _ _ <;> rfl

omit hg in
theorem execPoisonNoticeRx_notice (h : Up s) {n : Fin 13} {p : Packet} (hp : isPoisonNotice p = true) :
    execPoisonNoticeRx n p s = .next (s.receive n p true (poisonTaken p)) := by
  rw [execPoisonNoticeRx, State.live_of_up h]
  exact congrArg _ (if_neg (not_not.2 hp))

omit s hg in
theorem putTaken_lands {n : Fin 13} {p : Packet} {u t : State} {q : QPkt} {c : Nat} (hc : (u.leave q).colCheck p = .inl c)
    (ht : (u.leave q).colLand (fabricPort n) c (leNat (p.payload.take 8)) (leNat ((p.payload.drop 8).take 1)) (pkCc p) (p.payload.drop 16) = some t) :
    putTaken n p u q = (t.aggLocal p true).acceptPoison c p := by
  rw [putTaken, hc]
  dsimp only
  rw [ht]

omit s hg in
theorem putTaken_outside {n : Fin 13} {p : Packet} {u : State} {q : QPkt} {c : Nat} (hc : (u.leave q).colCheck p = .inl c)
    (ht : (u.leave q).colLand (fabricPort n) c (leNat (p.payload.take 8)) (leNat ((p.payload.drop 8).take 1)) (pkCc p) (p.payload.drop 16) = none) :
    putTaken n p u q = ((u.leave q).aggLocal p false).contextFault c F_COL_LAND := by
  rw [putTaken, hc]
  dsimp only
  rw [ht]

omit s hg in
theorem rputTaken_queues {p : Packet} {u : State} {q : QPkt} {c i w : Nat} (hc : u.colCheck p = .inl c) (hw : w = leNat (p.payload.take 8))
    (hi : u.contribution c (bitsOf w 63 32) (bitsOf w 31 16) (bitsOf w 15 8) (p.payload.drop 16).length = .inr i) :
    rputTaken p u q = (((u.aggLocal p true).queueCombine ⟨c, bitsOf w 63 32, bitsOf w 31 16, bitsOf w 15 8, pkPoison p, pkSrc p, pkCc p,
      pkEpoch p, p.payload.drop 16, q.buf, q.fromPort, true, 0⟩).acceptPoison c p) := by
  subst hw
  rw [rputTaken, hc]
  dsimp only
  rw [hi]

omit s hg in
theorem poisonTaken_running {p : Packet} {u : State} {q : QPkt} {c e : Nat} (hc : (u.leave q).ctxOfJob (pkJob p) = some c)
    (he : e = bitsOf (leNat (p.payload.take 8)) 47 32) (hlive : (u.leave q).cancelled c e = false) (hrun : (u.leave q).epoch c = some e) :
    poisonTaken p u q = ((u.leave q).aggLocal p true).poison c e := by
  subst he
  rw [poisonTaken]
  dsimp only
  rw [hc]
  dsimp only
  rw [if_neg (by rw [hlive]; exact Bool.false_ne_true), if_pos (.inl hrun)]

/-! ## Combining (R302, R303, R308, R309) -/

theorem execRsCombineDone_noEntry {x : Contribution} {l : List Contribution} {faults : List AdderFault} {t : State} (hl : s.col.combine = x :: l)
    (ht : t = (s.updCol (fun y => { y with combine := l })).endContribution x) (hno : t.chunkEntry x.ctx x.colid x.chunk = none) :
    execRsCombineDone faults s = .next (t.contextFault x.ctx F_COL_NOENTRY) := by
  rw [execRsCombineDone, State.granting_of_grants hg, hl]
  dsimp only
  rw [← ht, hno]

theorem execRsCombineDone_entry {x : Contribution} {l : List Contribution} {faults : List AdderFault} {t w : State} {i : Nat} {r : Bool × State}
    {e : RsEntry} {full : Bool} (hl : s.col.combine = x :: l) (ht : t = (s.updCol (fun y => { y with combine := l })).endContribution x)
    (hi : t.chunkEntry x.ctx x.colid x.chunk = some i) (hr : r = t.combineAll i x.data faults)
    (hfull : full = decide (((List.range 64).filter (fun m => ((t.rsEntry i).arrived ||| BitVec.ofNat 64 (2 ^ x.midx)).getLsbD m)).length =
      (t.rsEntry i).expectM1 + 1)) (he : e = entryAfter (t.rsEntry i) x t.stride full)
    (hw : w = ((r.2.setRsEntry i e).addMod RS_COUNT.COMBINES 1).addCc x.ctx x.rcc 1) :
    execRsCombineDone faults s = .next (if full then (if r.1 then w else w.residueFault x.ctx i).chunkDone x.ctx e x
      else if r.1 then w else w.residueFault x.ctx i) := by
  have hst : (if full then 3 else 2) = (if ((List.range 64).filter (fun m =>
      ((t.rsEntry i).arrived ||| BitVec.ofNat 64 (2 ^ x.midx)).getLsbD m)).length = (t.rsEntry i).expectM1 + 1 then 3 else 2) := by
    simp only [hfull, decide_eq_true_eq]
  rw [execRsCombineDone, State.granting_of_grants hg, hl]
  dsimp only
  rw [← ht, hi]
  dsimp only
  rw [entryAfter] at he
  rw [← hr, ← hst, ← he, ← hw]
  simp only [hfull, decide_eq_true_eq]

end Collectives

/-- Settles O40: the admission that fits, each packet by what its check says, and the contribution queued first by its entry. -/
theorem collectiveResults : Obligations.CollectiveResults := by
  intro s hg
  refine ⟨fun c u r l hu hl hctx hfits hnote => execRsAdmitGrant_fits hg hu hl hctx hfits hnote,
    fun n p hcls hopc => ⟨putTaken n p, execColPutRx_put hg hcls hopc, fun u q c hc => ⟨fun t ht => putTaken_lands hc ht, fun ht =>
      putTaken_outside hc ht⟩⟩,
    fun n p hcls hopc => ⟨rputTaken p, execColRputRx_rput hg hcls hopc, fun u q c i w hc hw hi => rputTaken_queues hc hw hi⟩,
    fun x l faults t hl ht hno => execRsCombineDone_noEntry (faults := faults) hg hl ht hno, fun x l faults t i hl ht hi r e w full hr hfull he hw => ?_,
    fun n p hp => ⟨poisonTaken p, execPoisonNoticeRx_notice hg.1 hp, fun u q c e hc he hlive hrun => poisonTaken_running hc he hlive hrun⟩⟩
  have hdone := execRsCombineDone_entry (faults := faults) hg hl ht hi hr hfull he hw
  refine ⟨fun hok hpart => hdone.trans ?_, fun hok hall => hdone.trans ?_, fun hbad hpart => hdone.trans ?_, fun hbad hall => hdone.trans ?_⟩
  · rw [hok, hpart, if_neg Bool.false_ne_true, if_pos rfl]
  · rw [hok, hall, if_pos rfl, if_pos rfl]
  · rw [hbad, hpart, if_neg Bool.false_ne_true, if_neg Bool.false_ne_true]
  · rw [hbad, hall, if_pos rfl, if_neg Bool.false_ne_true]

end Sys2Proof.Machine

/-! # Snapshots and restores -/

namespace Sys2Proof.Machine

open Sys2Proof.Claims

/-! ## An upset that a frozen block meets (R177, R351, R423) -/

/-- The reset state with a freeze in force. -/
def frozenReset : State := { State.reset with frozen := true }

/-- An upset that makes the Rink's first word uncorrectable. -/
def firstWordLost : Upsets := { rink := [⟨0#29, true⟩] }

theorem firstWordLost_changes : frozenReset.upset firstWordLost ≠ frozenReset := by
  intro h
  have hword : tget (fun _ => 0) (frozenReset.upset firstWordLost).rinkErr 0 = tget (fun _ => 0) frozenReset.rinkErr 0 := by rw [h]
  exact absurd hword (by decide)

/-- In a freeze the command is not run, so the upset that it brings does not take place. -/
theorem execRollbackCopyDone_frozen (c : Fin 2) (u : Upsets) : execRollbackCopyDone c u frozenReset = .next frozenReset := by
  rw [execRollbackCopyDone, State.granting]
  exact if_pos (.inr rfl)

/-- Refutes O44: its clause on a ROLLBACK_COPY_DONE with nothing to copy does not ask that no freeze is in force; in one the state stays as
it was before the upset that the command brings. -/
theorem not_snapshotPageResults : ¬ Obligations.SnapshotPageResults := by
  intro h
  obtain ⟨hpages, _⟩ := h
  obtain ⟨_, _, _, _, _, _, hidle⟩ := hpages (frozenReset.upset firstWordLost) rfl
  have hgives : execRollbackCopyDone 0 firstWordLost frozenReset = .next (frozenReset.upset firstWordLost) :=
    hidle 0 rfl firstWordLost frozenReset rfl
  exact firstWordLost_changes (Host.Outcome.next.inj (hgives.symm.trans (execRollbackCopyDone_frozen 0 firstWordLost)))

/-! ## The restore (R348, R356 to R360) -/

theorem any_not_eq_not_all {α : Type} (l : List α) (p : α → Bool) : l.any (fun x => ! p x) = ! l.all p :=
  (List.not_all_eq_any_not ..).symm

section Restore

variable {s : State}

theorem execRestoreStart_allowed (h : Up s) {v : Word} {c : Nat} {t u : State} (hc : c = fieldOf v SNP_RSTCTL.CTX) (ht : t = s.putRstCtl v)
    (hok : t.rstCtxOk c = true) (hst : t.rstState < RstSt.checking ∨ RstSt.committing < t.rstState)
    (hu : u = ((t.dropDrain c).setRst RstSt.checking).wr SNP_RSTSTAT.LAST_CODE 0) : execRestoreStart v s =
      .next { u.wr SNP_RSTSTAT.CLOSED 0 with restore := { ctx := c, step := fieldOf v SNP_RSTCTL.STEP } } := by
  subst hc ht hu
  rw [execRestoreStart, State.live_of_up h]
  refine congrArg _ (if_neg ?_)
  rintro (hno | ⟨hlo, hhi⟩)
  · exact hno hok
  · omega

theorem execRestoreStart_refused (h : Up s) {v : Word} {c : Nat} {t : State} (hc : c = fieldOf v SNP_RSTCTL.CTX) (ht : t = s.putRstCtl v)
    (hno : t.rstCtxOk c = false) : execRestoreStart v s = .next t.rstRefuse := by
  subst hc ht
  rw [execRestoreStart, State.live_of_up h]
  exact congrArg _ (if_pos (.inl (by simp [hno])))

theorem execRestoreCommit_feeding (h : Up s) {v : Word} {t : State} (ht : t = s.putRstCtl v) (hst : t.rstState = RstSt.feeding)
    (hctx : fieldOf v SNP_RSTCTL.CTX = t.restore.ctx) (hok : t.rstCtxOk t.restore.ctx = true) : execRestoreCommit v s =
      .next (if t.restore.entries.any (fun e => ! t.restore.closed.contains (entMidx e, entSidx e)) then t.rstReject F_RST_MISSING
        else t.setRst RstSt.committing) := by
  subst ht
  rw [execRestoreCommit, State.live_of_up h]
  exact congrArg _ (if_neg (by simp [hst, hctx, hok]))

theorem execRestoreAbandon_feeding (h : Up s) {v : Word} {t : State} (ht : t = s.putRstCtl v) (hst : t.rstState = RstSt.feeding)
    (hctx : fieldOf v SNP_RSTCTL.CTX = t.restore.ctx) : execRestoreAbandon v s = .next (t.setRst RstSt.idle).clearRestore := by
  subst ht
  have hgo : ¬ ((s.putRstCtl v).rstState = RstSt.idle ∨ (s.putRstCtl v).rstState = RstSt.done ∨
      fieldOf v SNP_RSTCTL.CTX ≠ (s.putRstCtl v).restore.ctx) := by
    rw [hst, not_or, not_or, not_not]
    exact ⟨by decide, by decide, hctx⟩
  rw [execRestoreAbandon, State.live_of_up h]
  dsimp only
  rw [if_neg hgo, hst, if_neg (show ¬ RstSt.feeding = RstSt.committing by decide)]

/-! ### The check -/

/-- How a restore's list and its manifests, once read, are judged. -/
def State.judgeRestore (s : State) (c : Nat) (mans : List (List Byte)) (es : List (List Nat)) : State :=
  if ¬ s.listOk c mans es then s.rstReject F_RST_LIST
  else if ¬ mans.all (fun m => s.manSigned m) then s.rstReject F_RST_SIG
  else if ¬ mans.all (fun m => manStep m == s.restore.step) then s.rstReject F_RST_STEPMIX
  else if ¬ mans.all (fun m => manJob m == s.rd (CTX_JOB.JOB c)) then s.rstReject F_RST_COORD
  else { s.setRst RstSt.feeding with restore := { s.restore with mans := mans, entries := es } }

variable (hf : Grants s)

include hf

theorem execRestoreCheckDone_eq (hst : s.rstState = RstSt.checking) {a nm ne b : Nat} {r : List Byte × State} (ha : a = s.rd SNP_RSTLIST.ADDR)
    (hnm : nm = s.rd SNP_RSTLIST.NMAN_M1 + 1) (hne : ne = s.rd SNP_RSTLIST.NENT_M1 + 1) (hb : b = (8 * nm + 31) / 32 * 32)
    (hr : r = s.blockRead 44 a (b + 32 * ne)) : execRestoreCheckDone s = .next (if r.1 = [] then r.2.rstReject F_RST_LIST else
      (r.2.readManifests ((List.range nm).map (fun i => wordOf r.1 i))).2.judgeRestore s.restore.ctx
        (r.2.readManifests ((List.range nm).map (fun i => wordOf r.1 i))).1
        ((List.range ne).map (fun i => (List.range 4).map (fun j => wordOf r.1 (b / 8 + 4 * i + j))))) := by
  subst ha hnm hne hb hr
  rw [execRestoreCheckDone, State.granting_of_grants hf]
  refine congrArg _ ((if_neg (not_not.2 hst)).trans ?_)
  dsimp only [State.judgeRestore, bne]
  simp only [any_not_eq_not_all, Bool.not_eq_true', Bool.not_eq_true]

/-! ### The feed -/

theorem execRestoreFeed_refused {v : Word} (hst : s.rstState ≠ RstSt.feeding) : execRestoreFeed v s = .next s.rstRefuse := by
  rw [execRestoreFeed, State.granting_of_grants hf, if_pos hst]

theorem execRestoreFeed_stages {v : Word} {k : Nat × Nat} {pos : Nat} {m : List Byte} {r : List Byte × State} {t : State}
    (hst : s.rstState = RstSt.feeding) (hk : k = (fieldOf v SNP_RSTFEED1.MIDX, fieldOf v SNP_RSTFEED1.SIDX)) (hm : s.restore.mans[k.1]? = some m)
    (hshard : k.2 < manShards m) (hopen : s.restore.closed.contains k = false) (hpos : pos = (s.restore.fedOf k).length)
    (hlen : 0 < s.rd SNP_RSTFEED0.LEN) (hmax : s.rd SNP_RSTFEED0.LEN ≤ 32768) (hal : s.rd SNP_RSTFEED0.ADDR % 16 = 0)
    (hmore : pos + 16 * s.rd SNP_RSTFEED0.LEN < hdrLen (manHeader m k.2))
    (hr : r = s.blockRead 44 (s.rd SNP_RSTFEED0.ADDR) (16 * s.rd SNP_RSTFEED0.LEN)) (hread : r.1 ≠ [])
    (ht : t = { r.2 with restore := { r.2.restore with
      fed := (k, r.2.restore.fedOf k ++ r.1) :: r.2.restore.fed.filter (fun e => e.1 != k) } }) :
    execRestoreFeed v s = .next ((t.restore.entries.filter (fun e => (entMidx e, entSidx e) == k)).foldl
      (fun u e => u.stagePiece s.restore.ctx pos r.1 e) t) := by
  have hgood : ¬ (manShards m ≤ k.2 ∨ s.restore.closed.contains k = true ∨ s.rd SNP_RSTFEED0.LEN = 0 ∨ 32768 < s.rd SNP_RSTFEED0.LEN ∨
      s.rd SNP_RSTFEED0.ADDR % 16 ≠ 0 ∨ hdrLen (manHeader m k.2) < pos + 16 * s.rd SNP_RSTFEED0.LEN) := by
    rw [hopen]
    simp only [Bool.false_eq_true, false_or]
    omega
  subst hk hpos
  rw [execRestoreFeed, State.granting_of_grants hf, if_neg (not_not.2 hst)]
  dsimp only
  rw [hm]
  dsimp only
  rw [if_neg hgood, ← hr, if_neg hread, if_neg (Nat.ne_of_lt hmore), ht]

/-! ### The copy -/

omit hf in
theorem stagedPieces_eq (c : Nat) : s.restore.entries.filterMap (fun e => ((s.regionOfId c (entRegion e)).map (fun n =>
    (s.imageBase c true + s.regionImage c n + entDoff e, s.regionBase c n + entDoff e))).map (fun x => (x.1, x.2, entLen e))) = stagedPieces s c := by
  simp only [stagedPieces, Option.map_map]
  rfl

variable {c : Nat} {l : List (Nat × Nat × Nat)} {r : State} (hst : s.rstState = RstSt.committing) (hc : c = s.restore.ctx)
  (hback : (s.snap c).copyBack = false) (hl : l = neededPages s c) (hr : r = s.readRanges 44 l false)

include hst hc hback hl hr

theorem execRestoreCopyDone_lost (hbad : s.badAll l ≠ none) : execRestoreCopyDone s = .next (r.contextFault c F_SNP_UE) := by
  subst hc hl hr
  rw [execRestoreCopyDone, State.granting_of_grants hf]
  refine congrArg _ ((if_neg ?_).trans (if_pos (Option.isSome_iff_ne_none.2 hbad)))
  simp [hst, hback]

theorem execRestoreCopyDone_copies (hgood : s.badAll l = none) {t u : State} (ht : t = l.foldl (fun s x => s.preservePage (x.2.1 / 4096)) r)
    (hu : u = ((stagedPieces t c).filter (fun e => ! t.memBad e.1 e.2.2)).foldl (fun w e => (w.demand true e.2.1 e.2.2).copyMem e.1 e.2.1 e.2.2)
      (regionsCleared (t.readRanges 44 ((stagedPieces t c).map (fun e => (2, e.1, e.2.2))) true) c)) :
    execRestoreCopyDone s = .next (((u.allPending c).wr (drainFld c) DrainSt.idle).setRst RstSt.done).clearRestore := by
  have hgo : ¬ (s.rstState ≠ RstSt.committing ∨ (s.snap s.restore.ctx).copyBack = true) := by
    rw [← hc]
    simp [hst, hback]
  subst hc hl
  rw [execRestoreCopyDone, State.granting_of_grants hf]
  dsimp only
  rw [if_neg hgo, ← neededPages, hgood, if_neg (by decide), ← hr, ← ht]
  simp only [stagedPieces_eq]
  rw [hu, regionsCleared]

end Restore

/-- Settles O45: each command by the restore's state and by what it reads. -/
theorem restoreResults : Obligations.RestoreResults := by
  intro s h
  refine ⟨fun v c t u hc ht => ⟨fun hok hst hu => execRestoreStart_allowed h hc ht hok hst hu, fun hno => execRestoreStart_refused h hc ht hno⟩,
    fun hf hst a nm ne b r ha hnm hne hb hr => ?_, fun hf v hst => execRestoreFeed_refused ⟨h, hf⟩ hst,
    fun hf v k pos m r t hst hk hm hshard hopen hpos hlen hmax hal hmore hr hread ht =>
      execRestoreFeed_stages ⟨h, hf⟩ hst hk hm hshard hopen hpos hlen hmax hal hmore hr hread ht,
    fun v t ht hst hctx hok => ⟨fun hnone => ?_, fun hsome => ?_⟩,
    fun c l r t u hf hst hc hback hl hr => ⟨fun hbad => execRestoreCopyDone_lost ⟨h, hf⟩ hst hc hback hl hr hbad,
      fun hgood ht hu => execRestoreCopyDone_copies ⟨h, hf⟩ hst hc hback hl hr hgood ht hu⟩,
    fun v t ht hst hctx => execRestoreAbandon_feeding h ht hst hctx⟩
  · have hcheck := execRestoreCheckDone_eq ⟨h, hf⟩ hst ha hnm hne hb hr
    refine ⟨fun hnil => hcheck.trans (by rw [if_pos hnil]), fun hsome m es hm hes => ?_⟩
    rw [if_neg hsome, ← hm, ← hes, State.judgeRestore] at hcheck
    refine ⟨fun hno => hcheck.trans ?_, fun hlist => ⟨fun hno => hcheck.trans ?_, fun hsig => ⟨fun hno => hcheck.trans ?_, fun hstep =>
      ⟨fun hno => hcheck.trans ?_, fun hjob => hcheck.trans ?_⟩⟩⟩⟩
    · simp [hno]
    · simp [hlist, hno]
    · simp [hlist, hsig, hno]
    · simp [hlist, hsig, hstep, hno]
    · rw [if_neg (not_not.2 hlist), if_neg (not_not.2 hsig), if_neg (not_not.2 hstep), if_neg (not_not.2 hjob)]
  · exact (execRestoreCommit_feeding h ht hst hctx hok).trans (by rw [hnone, if_neg Bool.false_ne_true])
  · exact (execRestoreCommit_feeding h ht hst hctx hok).trans (by rw [if_pos hsome])

end Sys2Proof.Machine

/-! # Host ports and sessions -/

namespace Sys2Proof.Machine

open Sys2Proof.Claims

/-! ## Host ports (R361, R362, R379) -/

section HostPorts

variable {n : Fin 2} {s : State} (h : Up s)

include h

theorem execHostPortEnable_down {v : Word} (hst : (s.writeHpCtl n v true).hostState n = HpSt.down) :
    execHostPortEnable n v s = .next ((s.writeHpCtl n v true).setHostState n HpSt.train) := by
  rw [execHostPortEnable, State.live_of_up h]
  exact congrArg _ (if_pos hst)

theorem execHostPortDisable_kept {v : Word} (hst : (s.writeHpCtl n v false).hostState n ≠ HpSt.discarded) :
    execHostPortDisable n v s = .next ((s.writeHpCtl n v false).setHostState n HpSt.down) := by
  rw [execHostPortDisable, State.live_of_up h]
  exact congrArg _ (if_neg hst)

theorem execHostTrainingDone_train (hst : s.hostState n = HpSt.train) (hkept : s.discarded = false) :
    execHostTrainingDone n s = .next (s.setHostState n (if s.released then HpSt.up else HpSt.held)) := by
  rw [execHostTrainingDone, State.live_of_up h, if_neg (not_not.2 hst), hkept, if_neg Bool.false_ne_true]

theorem execHostLinkLoss_up (hst : s.hostState n = HpSt.up) : execHostLinkLoss n s =
    .next (((s.wr (HP_STATUS.LAST_CODE n) F_HOST_LINK).setHostState n HpSt.train).report F_HOST_LINK 2 n) := by
  rw [execHostLinkLoss, State.live_of_up h, if_pos hst]

theorem execFrameDiscard_linked {good bad : Nat} (hlink : s.hostLinked n = true) : execFrameDiscard ⟨n, good, bad⟩ s =
    .next (((s.addSat (HP_COUNT.FEC_CORR n) good).addSat (HP_COUNT.FEC_UNCORR n) bad).hostDrop n) := by
  rw [execFrameDiscard, State.live_of_up h]
  exact congrArg _ (if_pos hlink)

variable {f : Frame} {t : State} (hlink : s.hostLinked n = true) (ht : t = framed s n f)

omit h in
include hlink ht in
/-- A frame on a linked port is taken in the state with its corrected symbols counted. -/
theorem State.onFrame_linked (k : State → State) : s.onFrame n f k = k t := by
  subst ht
  exact if_pos hlink

include hlink ht

theorem execArpRx_request {a : ArpRequest} (ha : (t.etherOf n f).bind (fun e => arpOf e.1 e.2) = some a) : execArpRx n f s =
    .next (if t.bit (HP_IPV4.VALID n) ∧ a.target = t.rd (HP_IPV4.ADDR n) then
      t.emit (.frame n (t.etherFrame n 0x0806 (arpReply (t.rd (HP_MAC.MAC n)) a.target a))) else t.hostDrop n) := by
  rw [execArpRx, State.live_of_up h, State.onFrame_linked hlink ht, ha]

theorem execArpRx_other (ha : (t.etherOf n f).bind (fun e => arpOf e.1 e.2) = none) : execArpRx n f s = .next (t.hostDrop n) := by
  rw [execArpRx, State.live_of_up h, State.onFrame_linked hlink ht, ha]

theorem execNeighbourSolicitationRx_asks {a : Solicitation} (ha : (t.etherOf n f).bind (fun e => solicitationOf e.1 e.2) = some a) :
    execNeighbourSolicitationRx n f s = .next (if t.ipv6 n ≠ 0 ∧ a.target = t.ipv6 n then
      t.emit (.frame n (t.etherFrame n 0x86DD (advertisement (t.rd (HP_MAC.MAC n)) a.target a))) else t.hostDrop n) := by
  rw [execNeighbourSolicitationRx, State.live_of_up h, State.onFrame_linked hlink ht, ha]

theorem execNeighbourSolicitationRx_other (ha : (t.etherOf n f).bind (fun e => solicitationOf e.1 e.2) = none) :
    execNeighbourSolicitationRx n f s = .next (t.hostDrop n) := by
  rw [execNeighbourSolicitationRx, State.live_of_up h, State.onFrame_linked hlink ht, ha]

end HostPorts

/-- Settles O46: each command by its port's state, and each frame by what it asks for. -/
theorem hostPortResults : Obligations.HostPortResults := by
  intro n s h
  refine ⟨fun v hst => execHostPortEnable_down h hst, fun v hst => execHostPortDisable_kept h hst,
    fun hst hkept => ⟨fun hrel => ?_, fun hrel => ?_⟩, fun hst => execHostLinkLoss_up h hst,
    fun f t hlink ht => ⟨fun a ha => ⟨fun hv hown => ?_, fun hother => ?_⟩, fun ha => execArpRx_other h hlink ht ha,
      fun a ha => ⟨fun hv hown => ?_, fun hother => ?_⟩, fun ha => execNeighbourSolicitationRx_other h hlink ht ha⟩,
    fun bad good hlink => execFrameDiscard_linked h hlink⟩
  · exact (execHostTrainingDone_train h hst hkept).trans (by rw [if_pos hrel])
  · exact (execHostTrainingDone_train h hst hkept).trans (by rw [hrel, if_neg Bool.false_ne_true])
  · exact (execArpRx_request h hlink ht ha).trans (by rw [if_pos ⟨hv, hown⟩])
  · refine (execArpRx_request h hlink ht ha).trans ?_
    rw [if_neg]
    rintro ⟨hv, hown⟩
    exact hother.elim (fun hno => Bool.false_ne_true (hno.symm.trans hv)) (fun hne => hne hown)
  · exact (execNeighbourSolicitationRx_asks h hlink ht ha).trans (by rw [if_pos ⟨hv, hown⟩])
  · refine (execNeighbourSolicitationRx_asks h hlink ht ha).trans ?_
    rw [if_neg]
    rintro ⟨hv, hown⟩
    exact hother.elim hv (fun hne => hne hown)

/-! ## Frames of sessions (R363 to R373) -/

section Frames

variable {n : Fin 2} {f : Frame} {d : Dgram} {s t : State}

/-- A WCP frame is used where its header is good for its type, and counts as malformed otherwise. -/
theorem State.wcpFrame_on (hon : WcpOn s n f t d) (type : Nat) (k : State → Dgram → State) :
    s.wcpFrame n type f k = if frGood d type then k t d else t.addSat WCP_COUNT.MALFORMED 1 := by
  obtain ⟨hlink, ht, hopen, hup, hd, hport⟩ := hon
  rw [State.wcpFrame, State.onFrame_linked hlink ht, if_neg (by simp [hopen]), if_neg (not_not.2 hup), hd]
  dsimp only
  rw [if_neg (not_not.2 hport)]
  exact ite_not ..

/-- What a capsule that verifies does with the state (R369). -/
def capsuleTaken (f : Dgram) (s : State) (x : Nat) (p : List Byte) : State :=
  let y := s.sess x
  let cum := s.rd (WCP_SSEQ.RXCUM x)
  let q := (frSeq f)
  let sec := (s.credOf (s.rd (WCP_SESS.CRED x))).any Cred.holdsSec
  let c : AccCap := ⟨y.gen, s.rd (WCP_SESS.RIGHTS x) + (if sec then 16 else 0), q, p, none⟩
  if q < cum ∨ y.rxAbove.contains q then
    (s.addSat WCP_COUNT.DUP 1).updSess x (fun z => { z with ackDue := true })
  else if cum + 64 ≤ q then s.addSat WCP_COUNT.WINDOW 1
  else if c.kind = 0x10 ∧ c.hold ∧ 1024 ≤ (s.ctx (c.word 0 55 55)).held.length then s.addSat WCP_COUNT.HOLDFULL 1
  else match s.ingressTake 59 p.length with
    | none => s.noQuota
    | some (b, s) =>
      let r := advanceCum 65 cum (q :: y.rxAbove)
      let s := (s.setRink (s.bufBase b) p).setSess x { s.sess x with
        rxAbove := r.2, ackDue := true, accepted := insertCap { c with buf := some b } (s.sess x).accepted }
      ((s.wr (WCP_SSEQ.RXCUM x) r.1).skipBad x 65)

theorem capsuleTaken_again {u : State} {x : Nat} {p : List Byte}
    (hdup : frSeq d < u.rd (WCP_SSEQ.RXCUM x) ∨ (u.sess x).rxAbove.contains (frSeq d) = true) :
    capsuleTaken d u x p = (u.addSat WCP_COUNT.DUP 1).updSess x (fun z => { z with ackDue := true }) := if_pos hdup

theorem capsuleTaken_beyond {u : State} {x : Nat} {p : List Byte} (hfar : u.rd (WCP_SSEQ.RXCUM x) + 64 ≤ frSeq d)
    (hnew : (u.sess x).rxAbove.contains (frSeq d) = false) : capsuleTaken d u x p = u.addSat WCP_COUNT.WINDOW 1 := by
  refine (if_neg ?_).trans (if_pos hfar)
  rw [hnew]
  simp only [Bool.false_eq_true, or_false]
  omega

theorem capsuleTaken_accepts {u v w : State} {x b : Nat} {p : List Byte} {c : AccCap} {r : Nat × List Nat}
    (hlo : u.rd (WCP_SSEQ.RXCUM x) ≤ frSeq d) (hhi : frSeq d < u.rd (WCP_SSEQ.RXCUM x) + 64)
    (hnew : (u.sess x).rxAbove.contains (frSeq d) = false)
    (hc : c = ⟨(u.sess x).gen, u.rd (WCP_SESS.RIGHTS x) + (if (u.credOf (u.rd (WCP_SESS.CRED x))).any Cred.holdsSec then 16 else 0), frSeq d, p,
      none⟩) (hheld : ¬ (c.kind = 0x10 ∧ c.hold = true ∧ 1024 ≤ (u.ctx (c.word 0 55 55)).held.length))
    (htake : u.ingressTake 59 p.length = some (b, v)) (hr : r = advanceCum 65 (u.rd (WCP_SSEQ.RXCUM x)) (frSeq d :: (u.sess x).rxAbove))
    (hw : w = v.setRink (v.bufBase b) p) : capsuleTaken d u x p = (((w.setSess x { w.sess x with
      rxAbove := r.2, ackDue := true, accepted := insertCap { c with buf := some b } (w.sess x).accepted }).wr
      (WCP_SSEQ.RXCUM x) r.1).skipBad x 65) := by
  have hnot : ¬ (frSeq d < u.rd (WCP_SSEQ.RXCUM x) ∨ (u.sess x).rxAbove.contains (frSeq d) = true) := by
    rw [hnew]
    simp only [Bool.false_eq_true, or_false]
    omega
  have hsess : w.sess x = v.sess x := by
    rw [hw]
    rfl
  subst hc
  rw [capsuleTaken]
  dsimp only
  rw [if_neg hnot, if_neg (Nat.not_le.2 hhi), if_neg hheld, htake]
  dsimp only
  rw [← hr, ← hw, ← hsess]

variable (h : Up s) (hon : WcpOn s n f t d)

include h hon

theorem execCloseRx_eq : execCloseRx n f s =
    .next (if frGood d 0x12 then t.verified n d (fun s x _ => s.closeSession x) else t.addSat WCP_COUNT.MALFORMED 1) := by
  rw [execCloseRx, State.live_of_up h, State.wcpFrame_on hon]

theorem execCapsuleRx_good (hgood : frGood d 0x10 = true) : execCapsuleRx n f s = .next (t.verified n d (capsuleTaken d)) := by
  rw [execCapsuleRx, State.live_of_up h, State.wcpFrame_on hon, if_pos hgood]
  rfl

theorem execAckRx_good (hgood : frGood d 0x11 = true) : execAckRx n f s = .next (t.verified n d (fun u x _ =>
    (((((u.sess x).unacked.filter (ackedBy d)).foldl (fun s c => s.drainAcked c.drain) (afterAck u x d)).pumpCapsules x
      (u.sess x).queue.length).closeExhausted))) := by
  rw [execAckRx, State.live_of_up h, State.wcpFrame_on hon, if_pos hgood]
  rfl

/-! ### The handshake (R366 to R368) -/

section Fin

variable (hgood : frGood d 3 = true) (hst : t.sessState (frSess d) = SessSt.respSent)

include hgood hst

theorem execFinRx_unsealed (hno : (t.sess (frSess d)).unseal d = none) :
    execFinRx n f s = .next ((t.closeSession (frSess d)).report F_WCP_AUTH 2 (frSess d)) := by
  rw [execFinRx, State.live_of_up h, State.wcpFrame_on hon, if_pos hgood]
  dsimp only
  rw [if_neg (not_not.2 hst), hno]
  cases t.credOf (t.rd (WCP_SESS.CRED (frSess d))) <;> rfl

theorem execFinRx_opens {c : Cred} {p : List Byte} {x : Nat} {y : Sess} {u w z : State} (hx : x = frSess d) (hy : y = t.sess x)
    (hc : t.credOf (t.rd (WCP_SESS.CRED x)) = some c) (hp : y.unseal d = some p) (hlen : p.length = 64 + mldsaLen)
    (hver : bothVerify c.ed c.mldsa (Config.sha3_384 (y.h1 ++ label "wcp fin")) (p.take 64) (p.drop 64) = true)
    (hu : u = (t.setSess x { y with
      since := t.clk, peer := d.peer, rto := t.rd WCP_CFG.RTO, retryMax := t.rd WCP_CFG.RETRY_MAX, idle := t.rd WCP_CFG.IDLE }))
    (hw : w = ((((u.wr (WCP_SESS.STATE x) SessSt.opened).wr (WCP_SSEQ.RXCUM x) 1).wr (WCP_SSEQ.TXNEXT x) 1).wr (WCP_SESS.PORT x) n))
    (hz : z = w.wr WCP_STATUS.OPEN (w.rd WCP_STATUS.OPEN ||| 2 ^ x)) :
    execFinRx n f s = .next (if (z.rd (WCP_SESS.RIGHTS x)).testBit 3 then z.drainRing x else z) := by
  subst hx hy
  rw [execFinRx, State.live_of_up h, State.wcpFrame_on hon, if_pos hgood]
  dsimp only
  rw [if_neg (not_not.2 hst), hc, hp]
  dsimp only
  rw [if_pos (by rw [hver, hlen, beq_self_eq_true]; rfl), ← hu, ← hw, ← hz]

end Fin

section Init

variable (hgood : frGood d 1 = true)

include hgood

theorem execInitRx_taken (hst : t.sessState (frSess d) ≠ SessSt.free) : execInitRx n f s = .next (t.addSat WCP_COUNT.MALFORMED 1) := by
  rw [execInitRx, State.live_of_up h, State.wcpFrame_on hon, if_pos hgood]
  exact congrArg _ (if_pos (.inl hst))

variable (hst : t.sessState (frSess d) = SessSt.free) (hlen : (frBody d).length = initLen) (hzero : leNat (((frBody d).drop 3).take 1) = 0)

include hst hlen hzero

theorem execInitRx_unknown (hno : t.credOf (leNat ((frBody d).take 2)) = none) :
    execInitRx n f s = .next (t.report F_WCP_AUTH 2 (frSess d)) := by
  have hgo : ¬ (t.sessState (frSess d) ≠ SessSt.free ∨ (frBody d).length ≠ initLen ∨ leNat (((frBody d).drop 3).take 1) ≠ 0) := by
    simp [hst, hlen, hzero]
  rw [execInitRx, State.live_of_up h, State.wcpFrame_on hon, if_pos hgood]
  dsimp only
  rw [if_neg hgo, hno]

omit h hon hgood hst hlen hzero in
/-- The registers of a session whose response has left. -/
def State.responded (s : State) (x i rights n : Nat) : State :=
  (((s.wr (WCP_SESS.STATE x) SessSt.respSent).wr (WCP_SESS.CRED x) i).wr (WCP_SESS.RIGHTS x) rights).wr (WCP_SESS.PORT x) n

omit h hon hgood hst hlen hzero in
theorem State.rd_responded (s : State) (x i rights n : Nat) : (s.responded x i rights n).rd (WCP_SESS.STATE x) = SessSt.respSent := by
  rw [State.responded, State.rd_wr_disjoint, State.rd_wr_disjoint, State.rd_wr_disjoint]
  · exact State.rd_wr_fits _ (by simp [WCP_SESS.STATE]) (by simp [WCP_SESS.STATE]) (show SessSt.respSent < 4 by decide)
  all_goals simp [WCP_SESS.STATE, WCP_SESS.CRED, WCP_SESS.RIGHTS, WCP_SESS.PORT]

theorem execInitRx_known (hmay : t.mayManage = true) (hc : (t.credOf (leNat ((frBody d).take 2))).isSome = true)
    (hs : (t.handshakeSeeds (leNat ((frBody d).take 2))).isSome = true) : ∃ (u : State) (body : List Byte), execInitRx n f s =
      .next (u.sendUdp n ⟨d.v6, d.addr, d.far, d.near, wcpHeader 2 (frSess d) 1 0 0 0 body.length ++ body⟩) ∧
      u.rd (WCP_SESS.STATE (frSess d)) = SessSt.respSent := by
  have hgo : ¬ (t.sessState (frSess d) ≠ SessSt.free ∨ (frBody d).length ≠ initLen ∨ leNat (((frBody d).drop 3).take 1) ≠ 0) := by
    simp [hst, hlen, hzero]
  obtain ⟨c, hc⟩ := Option.isSome_iff_exists.1 hc
  obtain ⟨seeds, hs⟩ := Option.isSome_iff_exists.1 hs
  have hresp : ∃ (v : State) (i rights : Nat) (body : List Byte), execInitRx n f s = .next ((v.responded (frSess d) i rights n).sendUdp n
      ⟨d.v6, d.addr, d.far, d.near, wcpHeader 2 (frSess d) 1 0 0 0 body.length ++ body⟩) := by
    rw [execInitRx, State.live_of_up h, State.wcpFrame_on hon, if_pos hgood]
    dsimp only
    rw [if_neg hgo, hc, hs]
    dsimp only
    rw [if_neg (not_not.2 hmay)]
    exact ⟨_, _, _, _, rfl⟩
  obtain ⟨v, i, rights, body, hgives⟩ := hresp
  exact ⟨_, body, hgives, State.rd_responded ..⟩

end Init

end Frames

/-! ## Timers of sessions (R366, R370, R372, R373) -/

section Timers

variable {x : Fin 16} {s : State} (h : Up s)

include h

theorem execHandshakeTimeout_old (hst : s.sessState x = SessSt.respSent) (hage : (s.sess x).since + 5 * clkPerMs ≤ s.clk) :
    execHandshakeTimeout x s = .next ((s.closeSession x).report F_WCP_AUTH 2 x) := by
  rw [execHandshakeTimeout, State.live_of_up h, if_pos ⟨hst, hage⟩]

theorem execSessionIdleTimeout_idle (hst : s.sessState x = SessSt.opened) (hage : (s.sess x).since + (s.sess x).idle * clkPerMs ≤ s.clk) :
    execSessionIdleTimeout x s = .next (s.closeSession x) := by
  rw [execSessionIdleTimeout, State.live_of_up h, if_pos ⟨hst, hage⟩]

theorem execSessionKill_eq : execSessionKill x s = .next (s.closeSession x) := by
  rw [execSessionKill, State.live_of_up h]

theorem execWcpAckSend_due (hst : s.sessState x = SessSt.opened) (hdue : (s.sess x).ackDue = true) {cum : Nat} {f : List Byte}
    (hcum : cum = s.rd (WCP_SSEQ.RXCUM x)) (hf : f = (s.sess x).seal 0x11 x (s.sess x).ackNext cum
      (((List.range 64).map (fun i => if (s.sess x).rxAbove.contains (cum + 1 + i) then 2 ^ i else 0)).sum) []) : execWcpAckSend x s =
    .next (((s.setSess x { s.sess x with ackDue := false, ackNext := (s.sess x).ackNext + 1 }).sendWcp x f).closeExhausted) := by
  subst hcum hf
  rw [execWcpAckSend, State.live_of_up h]
  exact congrArg _ (if_neg (not_or.2 ⟨not_not.2 hst, not_not.2 hdue⟩))

theorem execWcpRetransmit_due (hst : s.sessState x = SessSt.opened) (hun : (s.sess x).unacked ≠ [])
    (hage : (s.sess x).sentAt + (s.sess x).rto * clkPerUs ≤ s.clk) : execWcpRetransmit x s =
    .next (if (s.sess x).retryMax ≤ (s.sess x).periods + 1 then (s.closeSession x).report F_WCP_TIMEOUT 2 x
      else (s.sess x).unacked.foldl (fun (s : State) c => s.sendWcp x c.frame)
        (s.setSess x { s.sess x with periods := (s.sess x).periods + 1, sentAt := s.clk })) := by
  rw [execWcpRetransmit, State.live_of_up h]
  exact congrArg _ (if_neg (by simp [hst, hun, hage]))

end Timers

/-- Settles O47: each frame by its header and its session, then the timers. -/
theorem sessionResults : Obligations.SessionResults := by
  refine ⟨fun n f d s t h hon => ⟨fun hgood => ?_, fun hbad => ?_,
    fun hgood => ⟨capsuleTaken d, execCapsuleRx_good h hon hgood, fun u x p hdup => capsuleTaken_again hdup,
      fun u x p hfar hnew => capsuleTaken_beyond hfar hnew,
      fun u v x b p c r hlo hhi hnew hc hheld htake hr w hw => capsuleTaken_accepts hlo hhi hnew hc hheld htake hr hw⟩,
    fun hgood => execAckRx_good h hon hgood, fun hgood hst => ⟨fun hno => execFinRx_unsealed h hon hgood hst hno,
      fun c p x y hx hy hc hp hlen hver u w hu hw z hz => ⟨fun hno => ?_, fun hdrain => ?_⟩⟩,
    fun hgood hst => execInitRx_taken h hon hgood hst, fun hgood hst hlen hzero => ⟨fun hno => execInitRx_unknown h hon hgood hst hlen hzero hno,
      fun hmay hc hs => execInitRx_known h hon hgood hst hlen hzero hmay hc hs⟩⟩,
    fun x s h => ⟨fun hst hage => execHandshakeTimeout_old h hst hage, fun hst hage => execSessionIdleTimeout_idle h hst hage,
      execSessionKill_eq h, fun hst hdue cum f hcum hf => execWcpAckSend_due h hst hdue hcum hf, fun hst hun hage => ⟨fun hlast => ?_, fun hmore => ?_⟩⟩⟩
  · exact (execCloseRx_eq h hon).trans (by rw [if_pos hgood])
  · exact (execCloseRx_eq h hon).trans (by rw [hbad, if_neg Bool.false_ne_true])
  · exact (execFinRx_opens h hon hgood hst hx hy hc hp hlen hver hu hw hz).trans (by rw [hno, if_neg Bool.false_ne_true])
  · exact (execFinRx_opens h hon hgood hst hx hy hc hp hlen hver hu hw hz).trans (by rw [if_pos hdrain])
  · exact (execWcpRetransmit_due h hst hun hage).trans (by rw [if_pos hlast])
  · exact (execWcpRetransmit_due h hst hun hage).trans (by rw [if_neg (Nat.not_le.2 hmore)])

end Sys2Proof.Machine

/-! # Capsules -/

namespace Sys2Proof.Machine

open Sys2Proof.Claims

section Capsules

variable {x : Fin 16} {s : State} {c : AccCap} (hc : s.headCap x = some c)

include hc

theorem State.runCapsule_runs {kind right : Nat} {k : State → AccCap → State} (hkind : c.kind = kind) (hright : right < 4 → c.rights.testBit right = true) :
    s.runCapsule x kind right k = (k s c).skipBad x 65 := by
  rw [State.runCapsule, hc]
  dsimp only
  rw [if_neg (not_not.2 hkind), if_neg]
  rintro ⟨hlt, hno⟩
  exact hno (hright hlt)

theorem State.runCapsule_denied {kind right : Nat} {k : State → AccCap → State} (hkind : c.kind = kind) (hlt : right < 4)
    (hno : c.rights.testBit right = false) :
    s.runCapsule x kind right k = ((s.popCap x c true).report F_WCP_DENIED 2 c.tag).skipBad x 65 := by
  rw [State.runCapsule, hc]
  dsimp only
  rw [if_neg (not_not.2 hkind), if_pos ⟨hlt, by rw [hno]; exact Bool.false_ne_true⟩]

/-! ## Management capsules (R371, R374, R375, R392, R393) -/

section Management

variable (h : Up s) (hturn : s.mgmtTurn x = true)

include h hturn

theorem execMread_denied (hkind : c.kind = 1) (hno : c.rights.testBit 0 = false) :
    execMread x s = .next (((s.popCap x c true).report F_WCP_DENIED 2 c.tag).skipBad x 65) := by
  rw [execMread, State.live_of_up h, if_neg (not_not.2 hturn), State.runCapsule_denied hc hkind (by decide) hno]

theorem execMwrite_denied (hkind : c.kind = 2) (hno : c.rights.testBit 0 = false) :
    execMwrite x s = .next (((s.popCap x c true).report F_WCP_DENIED 2 c.tag).skipBad x 65) := by
  rw [execMwrite, State.live_of_up h, if_neg (not_not.2 hturn), State.runCapsule_denied hc hkind (by decide) hno]

variable (hright : c.rights.testBit 0 = true)

include hright

theorem execMread_runs (hkind : c.kind = 1) : execMread x s = .next ((if c.outOfRange then s.mgmtAnswer x c stRange []
    else if ¬ s.mayManage ∨ c.regOffsets.any (fun o => ! s.readAllowed o) then s.mgmtAnswer x c stDenied []
    else (s.readAll c.regOffsets).2.mgmtAnswer x c stOk (s.readAll c.regOffsets).1).skipBad x 65) := by
  rw [execMread, State.live_of_up h, if_neg (not_not.2 hturn), State.runCapsule_runs hc hkind fun _ => hright]

theorem execMwrite_runs (hkind : c.kind = 2) : execMwrite x s = .next ((if c.outOfRange then s.mgmtAnswer x c stRange []
    else if ¬ s.mayManage ∨ (c.regOffsets.zip c.values).any (fun p => ! s.writeAllowed (c.rights.testBit 4) p.1 p.2) then
      s.mgmtAnswer x c stDenied []
    else ((s.writeAll (c.rights.testBit 4) (c.regOffsets.zip c.values)).repeatEvent 5
      (if (c.regOffsets.filter (fun o => o / 0x10000 != 0x24 && o / 0x10000 != 0)).length = 0 then 0 else 1)).mgmtAnswer x c stOk []).skipBad x
        65) := by
  rw [execMwrite, State.live_of_up h, if_neg (not_not.2 hturn), State.runCapsule_runs hc hkind fun _ => hright]

theorem execMread_allowed (hkind : c.kind = 1) (hin : c.outOfRange = false) (hmay : s.mayManage = true)
    (hall : c.regOffsets.all (fun o => s.readAllowed o) = true) :
    execMread x s = .next (((s.readAll c.regOffsets).2.mgmtAnswer x c stOk (s.readAll c.regOffsets).1).skipBad x 65) := by
  rw [execMread_runs hc h hturn hright hkind, hin, if_neg Bool.false_ne_true, if_neg]
  simp [hmay, any_not_eq_not_all, hall]

/-- Without SEC no register of the security and Setting Store blocks may be written. -/
theorem execMwrite_secDenied (hkind : c.kind = 2) (hin : c.outOfRange = false) (hsec : c.rights.testBit 4 = false)
    (hblock : ∃ p ∈ c.regOffsets.zip c.values, secBlock p.1 = true) :
    execMwrite x s = .next ((s.mgmtAnswer x c stDenied []).skipBad x 65) := by
  obtain ⟨p, hp, hb⟩ := hblock
  have hany : (c.regOffsets.zip c.values).any (fun p => ! s.writeAllowed (c.rights.testBit 4) p.1 p.2) = true :=
    List.any_eq_true.2 ⟨p, hp, by simp [State.writeAllowed, hb, hsec]⟩
  rw [execMwrite_runs hc h hturn hright hkind, hin, if_neg Bool.false_ne_true, if_pos (.inr hany)]

theorem execMwrite_allowed (hkind : c.kind = 2) (hin : c.outOfRange = false) (hmay : s.mayManage = true)
    (hall : ∀ p ∈ c.regOffsets.zip c.values, s.writeAllowed (c.rights.testBit 4) p.1 p.2 = true)
    (hoff : ∀ o ∈ c.regOffsets, o / 0x10000 ≠ 0x24 ∧ o / 0x10000 ≠ 0) (hsome : c.regOffsets ≠ []) : execMwrite x s =
      .next ((((s.writeAll (c.rights.testBit 4) (c.regOffsets.zip c.values)).repeatEvent 5 1).mgmtAnswer x c stOk []).skipBad x 65) := by
  have hcounted : c.regOffsets.filter (fun o => o / 0x10000 != 0x24 && o / 0x10000 != 0) = c.regOffsets :=
    List.filter_eq_self.2 fun o ho => by simp [hoff o ho]
  have hnone : ¬ (¬ s.mayManage = true ∨ (c.regOffsets.zip c.values).any (fun p => ! s.writeAllowed (c.rights.testBit 4) p.1 p.2) = true) := by
    rintro (hno | hany)
    · exact hno hmay
    · obtain ⟨p, hp, hnot⟩ := List.any_eq_true.1 hany
      rw [hall p hp] at hnot
      exact Bool.false_ne_true hnot
  rw [execMwrite_runs hc h hturn hright hkind, hin, if_neg Bool.false_ne_true, if_neg hnone, hcounted,
    if_neg (mt List.length_eq_zero_iff.1 hsome)]

end Management

/-! ## PUT and NOP capsules (R373, R376) -/

theorem execWcpNop_runs (h : Up s) (hkind : c.kind = 0x30) : execWcpNop x s = .next ((s.popCap x c true).skipBad x 65) := by
  rw [execWcpNop, State.live_of_up h, State.runCapsule_runs hc hkind fun hlt => absurd hlt (by decide)]

section Puts

variable (hg : Grants s) (hkind : c.kind = 0x10)

include hg hkind

theorem execPut_denied (hno : c.rights.testBit 1 = false) :
    execPut x s = .next (((s.popCap x c true).report F_WCP_DENIED 2 c.tag).skipBad x 65) := by
  rw [execPut, State.granting_of_grants hg, State.runCapsule_denied hc hkind (by decide) hno]

variable (hright : c.rights.testBit 1 = true)

include hright

theorem execPut_runs : execPut x s = .next ((if ¬ s.putOk c then (s.popCap x c true).report F_WCP_DATA 2 c.tag
    else if c.hold ∧ 1024 ≤ (s.ctx c.ctx).held.length then s
    else if c.hold then
      (s.popCap x c false).updCtx c.ctx (fun y => { y with held := y.held ++
        [⟨x, c.seq, c.space, c.offset, c.payload, c.word 2 63 52, c.word 2 31 0, c.buf⟩] })
    else if s.rangeBlocked c.space c.offset c.len then s.saturate 2
    else (((s.putWrite c.ctx c.space c.offset c.payload).addCc c.ctx (c.word 2 63 52) (c.word 2 31 0)).repeatEvent 5 1).popCap x c true).skipBad x
      65) := by
  rw [execPut, State.granting_of_grants hg, State.runCapsule_runs hc hkind fun _ => hright]

theorem execPut_bad (hbad : s.putOk c = false) :
    execPut x s = .next (((s.popCap x c true).report F_WCP_DATA 2 c.tag).skipBad x 65) := by
  rw [execPut_runs hc hg hkind hright, if_pos (by rw [hbad]; exact Bool.false_ne_true)]

variable (hok : s.putOk c = true)

include hok

theorem execPut_now (hnow : c.hold = false) : execPut x s = .next ((if s.rangeBlocked c.space c.offset c.len then s.saturate 2
    else (((s.putWrite c.ctx c.space c.offset c.payload).addCc c.ctx (c.word 2 63 52) (c.word 2 31 0)).repeatEvent 5 1).popCap x c true).skipBad x
      65) := by
  rw [execPut_runs hc hg hkind hright, if_neg (not_not.2 hok), hnow, if_neg (show ¬ (false = true ∧ _) by simp), if_neg Bool.false_ne_true]

theorem execPut_held (hhold : c.hold = true) (hroom : (s.ctx c.ctx).held.length < 1024) : execPut x s =
    .next (((s.popCap x c false).updCtx c.ctx (fun y => { y with held := y.held ++
      [⟨x, c.seq, c.space, c.offset, c.payload, c.word 2 63 52, c.word 2 31 0, c.buf⟩] })).skipBad x 65) := by
  rw [execPut_runs hc hg hkind hright, if_neg (not_not.2 hok), if_neg (fun hfull => absurd hfull.2 (Nat.not_le.2 hroom)), if_pos hhold]

end Puts

end Capsules

/-- Settles O48: the capsule at the head by its kind, its right and its checks. -/
theorem capsuleResults : Obligations.CapsuleResults := by
  intro x s c hg hc
  refine ⟨fun hturn => ⟨fun hkind hright => ⟨fun hout => ?_, fun hin hmay hall => execMread_allowed hc hg.1 hturn hright hkind hin hmay hall⟩,
      fun hno => ⟨fun hkind => execMread_denied hc hg.1 hturn hkind hno, fun hkind => execMwrite_denied hc hg.1 hturn hkind hno⟩,
      fun hkind hright => ⟨fun hout => ?_, fun hin hsec hblock => execMwrite_secDenied hc hg.1 hturn hright hkind hin hsec hblock,
        fun hin hmay hall hoff hsome => execMwrite_allowed hc hg.1 hturn hright hkind hin hmay hall hoff hsome⟩⟩,
    fun hkind hno => execPut_denied hc hg hkind hno, fun hkind hright hbad => execPut_bad hc hg hkind hright hbad,
    fun hkind hright hok hnow => ⟨fun hblocked => ?_, fun hfree => ?_⟩,
    fun hkind hright hok hhold hroom => execPut_held hc hg hkind hright hok hhold hroom, fun hkind => execWcpNop_runs hc hg.1 hkind⟩
  · exact (execMread_runs hc hg.1 hturn hright hkind).trans (by rw [if_pos hout])
  · exact (execMwrite_runs hc hg.1 hturn hright hkind).trans (by rw [if_pos hout])
  · exact (execPut_now hc hg hkind hright hok hnow).trans (by rw [if_pos hblocked])
  · exact (execPut_now hc hg hkind hright hok hnow).trans (by rw [hfree, if_neg Bool.false_ne_true])

end Sys2Proof.Machine

/-! # Security, the Setting Store and the census -/

namespace Sys2Proof.Machine

open Sys2Proof.Claims

/-! ## Commands of the security block (R386 to R391, R394, R405) -/

section Security

variable {s : State} (arg : BitVec 8) (hopen : s.sec.closed = false)

include hopen

theorem State.secCommand_busy (hbusy : s.bit SEC_STATUS.BUSY = true) (k : State → State) : s.secCommand k = s.secReport F_SEC_BUSY :=
  (if_neg (by rw [hopen]; exact Bool.false_ne_true)).trans (if_pos hbusy)

theorem State.secCommand_idle (hidle : s.bit SEC_STATUS.BUSY = false) (k : State → State) : s.secCommand k = k s :=
  (if_neg (by rw [hopen]; exact Bool.false_ne_true)).trans (if_neg (by rw [hidle]; exact Bool.false_ne_true))

variable (h : Up s)

include h

section Busy

variable (hbusy : s.bit SEC_STATUS.BUSY = true)

include hbusy

theorem execLcAdvance_busy : execLcAdvance arg s = .next (s.secReport F_SEC_BUSY) := by
  rw [execLcAdvance, State.live_of_up h, State.secCommand_busy hopen hbusy]

theorem execDbgSet_busy : execDbgSet arg s = .next (s.secReport F_SEC_BUSY) := by
  rw [execDbgSet, State.live_of_up h]
  dsimp only
  rw [hopen, if_neg Bool.false_ne_true, if_pos hbusy]

theorem execCredInstall_busy : execCredInstall arg s = .next (s.secReport F_SEC_BUSY) := by
  rw [execCredInstall, State.live_of_up h, State.secCommand_busy hopen hbusy]

theorem execAttest_busy : execAttest arg s = .next (s.secReport F_SEC_BUSY) := by
  rw [execAttest, State.live_of_up h, State.secCommand_busy hopen hbusy]

end Busy

variable (hidle : s.bit SEC_STATUS.BUSY = false)

include hidle

/-! ### The lifecycle and the debug level -/

theorem execLcAdvance_illegal (hno : s.transitionOk arg.toNat = false) : execLcAdvance arg s = .next (s.secReport F_SEC_LC).newNonce := by
  rw [execLcAdvance, State.live_of_up h, State.secCommand_idle hopen hidle]
  exact congrArg (fun t => Host.Outcome.next (State.newNonce t)) (if_pos (by rw [hno]; exact Bool.false_ne_true))

theorem execLcAdvance_unsigned (hok : s.transitionOk arg.toNat = true) (hno : s.tokenSigner 1 arg.toNat = none) :
    execLcAdvance arg s = .next (s.secReport F_SEC_TOKEN).newNonce := by
  rw [execLcAdvance, State.live_of_up h, State.secCommand_idle hopen hidle]
  dsimp only
  rw [if_neg (not_not.2 hok), hno]

theorem execLcAdvance_signed (hok : s.transitionOk arg.toNat = true) (hroot : s.tokenSigner 1 arg.toNat = some 0) {u : State}
    (hu : u = ((s.makeTransition arg.toNat).teardown 0 F_CTX_TEARDOWN 0).teardown 1 F_CTX_TEARDOWN 0) : execLcAdvance arg s =
      .next (((u.closeSessions (fun _ => true)).settleLost).updSec (fun x => { x with closed := true })).newNonce := by
  subst hu
  rw [execLcAdvance, State.live_of_up h, State.secCommand_idle hopen hidle]
  dsimp only
  rw [if_neg (not_not.2 hok), hroot]
  exact congrArg (fun t => Host.Outcome.next (State.newNonce t)) (if_pos (.inl rfl))

theorem execDbgSet_tooHigh (h3 : 3 < arg.toNat) : execDbgSet arg s = .next (s.secReport F_SEC_DBG) := by
  rw [execDbgSet, State.live_of_up h]
  dsimp only
  rw [hopen, hidle, if_neg Bool.false_ne_true, if_neg Bool.false_ne_true, if_pos (.inl h3)]

section Level

variable (h3 : arg.toNat ≤ 3) (hpow : s.powered = true)

include h3 hpow

theorem execDbgSet_lower (hle : arg.toNat ≤ s.dbg) : execDbgSet arg s = .next (s.setDebug arg.toNat) := by
  rw [execDbgSet, State.live_of_up h]
  dsimp only
  rw [hopen, hidle, if_neg Bool.false_ne_true, if_neg Bool.false_ne_true, if_neg (not_or.2 ⟨Nat.not_lt.2 h3, not_not.2 hpow⟩), if_pos hle]

theorem execDbgSet_raised (hlt : s.dbg < arg.toNat) (hlc : s.lc < 4) (hfree : s.needsToken arg.toNat = false) :
    execDbgSet arg s = .next (s.setDebug arg.toNat) := by
  rw [execDbgSet, State.live_of_up h]
  dsimp only
  rw [hopen, hidle, if_neg Bool.false_ne_true, if_neg Bool.false_ne_true, if_neg (not_or.2 ⟨Nat.not_lt.2 h3, not_not.2 hpow⟩),
    if_neg (Nat.not_le.2 hlt), if_neg (Nat.not_le.2 hlc), hfree, if_neg Bool.false_ne_true]

end Level

/-! ### Credentials and the certificate -/

theorem execCredInstall_idle : execCredInstall arg s = .next (if arg.toNat = 0 ∨ 16 ≤ arg.toNat then s.secReport F_SEC_CRED
    else withCred s arg.toNat (credFromWindow s)) := by
  rw [execCredInstall, State.live_of_up h, State.secCommand_idle hopen hidle]
  rfl

theorem execCredRevoke_idle : execCredRevoke arg s = .next (if arg.toNat = 0 ∨ 16 ≤ arg.toNat then s.secReport F_SEC_CRED
    else ((withCred s arg.toNat {}).closeSessions (fun x => (withCred s arg.toNat {}).rd (WCP_SESS.CRED x) == arg.toNat)).settleLost) := by
  rw [execCredRevoke, State.live_of_up h, State.secCommand_idle hopen hidle]
  rfl

theorem execCertInstall_unsigned (hno : s.tokenSigner 3 0 = none) : execCertInstall arg s = .next (s.secReport F_SEC_TOKEN).newNonce := by
  rw [execCertInstall, State.live_of_up h, State.secCommand_idle hopen hidle, hno]

theorem execCertInstall_own {ed ml cert : List Byte} (hroot : s.tokenSigner 3 0 = some 0) (hid : s.sec.identity = some (ed, ml))
    (hcert : cert = s.windowBytes (tokenWindow + 3456) certLen) (hed : (cert.drop 8).take 32 = Config.ed25519Public ed)
    (hml : (cert.drop 40).take 1952 = Config.mldsaPublic ml)
    (hver : s.rootsVerify 0 (cert.take 2000) ((cert.drop 2000).take 64) ((cert.drop 2064).take mldsaLen) = true) :
    execCertInstall arg s = .next (s.updSec (fun x => { x with certificate := cert })).newNonce := by
  subst hcert
  rw [execCertInstall, State.live_of_up h, State.secCommand_idle hopen hidle, hroot]
  dsimp only
  rw [hid]
  exact congrArg (fun t => Host.Outcome.next (State.newNonce t)) (if_pos ⟨hed, hml, hver⟩)

/-! ### Attestation and the SVN -/

theorem execAttest_idle : execAttest arg s = .next (if s.sec.identity = none ∨ ¬ s.mayAttest then s.secReport F_SEC_LC
    else (s.updSec (fun x => { x with attesting := true })).wr SEC_STATUS.BUSY 1) := by
  rw [execAttest, State.live_of_up h, State.secCommand_idle hopen hidle]

theorem execSvnCommit_idle : execSvnCommit s = .next (if s.lc ≠ 2 then s.secReport F_SEC_LC
    else (s.updSec (fun x => { x with fuseSvn := max s.sec.fuseSvn (min 64 s.sec.running.svn) })).wr SEC_BOOT.SVN
      (max s.sec.fuseSvn (min 64 s.sec.running.svn))) := by
  rw [execSvnCommit, State.live_of_up h, State.secCommand_idle hopen hidle]

end Security

/-- Settles O50: while a command runs, then each command by its argument, its token and the lifecycle. -/
theorem securityCommandResults : Obligations.SecurityCommandResults := by
  intro s arg h hopen
  refine ⟨fun hbusy => ⟨execLcAdvance_busy arg hopen h hbusy, execDbgSet_busy arg hopen h hbusy, execCredInstall_busy arg hopen h hbusy,
      execAttest_busy arg hopen h hbusy⟩,
    fun hidle => ⟨fun hno => execLcAdvance_illegal arg hopen h hidle hno, fun hok hno => execLcAdvance_unsigned arg hopen h hidle hok hno,
      fun hok hroot u hu => execLcAdvance_signed arg hopen h hidle hok hroot hu, fun hle h3 hpow => execDbgSet_lower arg hopen h hidle h3 hpow hle,
      fun hlt h3 hpow hlc hfree => execDbgSet_raised arg hopen h hidle h3 hpow hlt hlc hfree, fun h3 => execDbgSet_tooHigh arg hopen h hidle h3,
      fun hout => ⟨?_, ?_⟩, fun hpos hlt => ⟨?_, fun t ht => ?_⟩, fun hno => execCertInstall_unsigned arg hopen h hidle hno,
      fun ed ml cert hroot hid hcert hed hml hver => execCertInstall_own arg hopen h hidle hroot hid hcert hed hml hver, fun hno => ?_,
      fun hid hmay => ?_, fun hlc => ?_, fun hlc n hn => ?_⟩, ?_⟩
  · exact (execCredInstall_idle arg hopen h hidle).trans (by rw [if_pos hout])
  · exact (execCredRevoke_idle arg hopen h hidle).trans (by rw [if_pos hout])
  · exact (execCredInstall_idle arg hopen h hidle).trans (by rw [if_neg (by omega)])
  · refine (execCredRevoke_idle arg hopen h hidle).trans ?_
    rw [if_neg (by omega), ht]
  · exact (execAttest_idle arg hopen h hidle).trans (by rw [if_pos (.inl hno)])
  · exact (execAttest_idle arg hopen h hidle).trans (by rw [if_neg (not_or.2 ⟨hid, not_not.2 hmay⟩)])
  · exact (execSvnCommit_idle hopen h hidle).trans (by rw [if_pos hlc])
  · refine (execSvnCommit_idle hopen h hidle).trans ?_
    rw [if_neg (not_not.2 hlc), hn]
  · change execSecCommandDone s = _
    rw [execSecCommandDone, State.live_of_up h]

/-! ## The Setting Store (R395 to R397, R404, R406) -/

section Store

variable {s : State} {slot : Bool}

section Commands

variable (hopen : s.sec.closed = false)

include hopen

theorem State.ssCommand_busy (hbusy : s.bit SS_STATUS.BUSY = true) (k : State → State) : s.ssCommand k = s.ssReport F_SEC_BUSY :=
  (if_neg (by rw [hopen]; exact Bool.false_ne_true)).trans (if_pos hbusy)

theorem State.ssCommand_idle (hidle : s.bit SS_STATUS.BUSY = false) (k : State → State) : s.ssCommand k = k s :=
  (if_neg (by rw [hopen]; exact Bool.false_ne_true)).trans (if_neg (by rw [hidle]; exact Bool.false_ne_true))

end Commands

variable (h : Up s)

include h

theorem execSsWrite_eq (off : BitVec 10) : execSsWrite slot off s = .next (s.ssCommand (fun s =>
    if s.runningSlot (b01 slot) ∨ 768 ≤ off.toNat then s.ssReport F_SEC_IMG else s.ssStart (.write slot off.toNat))) := by
  rw [execSsWrite, State.live_of_up h]

theorem execSsVerify_eq : execSsVerify slot s = .next (s.ssCommand (fun s => s.ssStart (.verify slot))) := by
  rw [execSsVerify, State.live_of_up h]

theorem execSsActivate_eq : execSsActivate slot s = .next (s.ssCommand (fun s =>
    if s.bit (slotOkFld (b01 slot)) then s.ssStart (.activate slot) else s.ssReport F_SEC_IMG)) := by
  rw [execSsActivate, State.live_of_up h]

theorem execSsStore_eq : execSsStore s = .next (s.ssCommand (fun s => s.ssStart .store)) := by
  rw [execSsStore, State.live_of_up h]

/-- While one command runs every other is refused. -/
theorem ssCommands_busy (hopen : s.sec.closed = false) (hbusy : s.bit SS_STATUS.BUSY = true) (off : BitVec 10) :
    ∀ i ∈ [Instr.ssWrite slot off, .ssVerify slot, .ssActivate slot, .ssStore], Gives i s (s.ssReport F_SEC_BUSY) := by
  simp only [List.forall_mem_cons, List.not_mem_nil, false_imp_iff, implies_true, and_true]
  exact ⟨(execSsWrite_eq h off).trans (congrArg _ (State.ssCommand_busy hopen hbusy _)),
    (execSsVerify_eq h).trans (congrArg _ (State.ssCommand_busy hopen hbusy _)),
    (execSsActivate_eq h).trans (congrArg _ (State.ssCommand_busy hopen hbusy _)),
    (execSsStore_eq h).trans (congrArg _ (State.ssCommand_busy hopen hbusy _))⟩

section Done

variable {t u : State} (ht : t = (s.updSec (fun x => { x with ssJob := none })).wr SS_STATUS.BUSY 0)

include ht

theorem execSsCommandDone_write {off : Nat} (hj : s.sec.ssJob = some (.write slot off)) : execSsCommandDone s =
    .next (t.setMram (slotBase (b01 slot) + 0x8000 * off) (t.windowBytes imageWindow 0x8000)) := by
  rw [execSsCommandDone, State.live_of_up h, hj, ht]

theorem execSsCommandDone_activate (hj : s.sec.ssJob = some (.activate slot)) : execSsCommandDone s =
    .next ((t.updSec (fun x => { x with preferred := b01 slot })).wr SS_STATUS.PREFERRED (b01 slot)) := by
  rw [execSsCommandDone, State.live_of_up h, hj, ht]

theorem execSsCommandDone_store (hj : s.sec.ssJob = some .store) : execSsCommandDone s = .next t.storeSettings := by
  rw [execSsCommandDone, State.live_of_up h, hj, ht]

theorem execSsCommandDone_verify (hj : s.sec.ssJob = some (.verify slot)) (hu : u = t.readSlot (b01 slot)) : execSsCommandDone s =
    .next ((u.verifySlot (b01 slot)).elim (u.wr (slotOkFld (b01 slot)) 1) fun _ => (u.wr (slotOkFld (b01 slot)) 0).ssReport F_SEC_IMG) := by
  rw [execSsCommandDone, State.live_of_up h, hj]
  dsimp only
  rw [← ht, ← hu]
  cases u.verifySlot (b01 slot) with
  | none => rw [Option.elim_none]
  | some code => rw [Option.elim_some]

end Done

theorem execSsWearScan_eq {block : Nat} (bad : Bool) (hb : block < 2 ^ 20) : execSsWearScan block bad s =
    .next (if bad = true ∨ s.sec.badBlocks.contains block = true then
      (s.updSec (fun x => { x with badBlocks := block :: x.badBlocks.erase block })).ssReport F_SEC_SS else s) := by
  rw [execSsWearScan, State.live_of_up h]
  simp only [hb, true_and]

end Store

/-! ## The census (R399 to R401) -/

section Census

variable {s : State} (h : Up s)

include h

theorem execCensusStart_root {v : Word} {g : Nat} {u : State} {p : Packet} {x : CenState} (hg : g = fieldOf v CFG_CENSUS.GROUP)
    (hu : u = ((s.wr CFG_CENSUS.CID (fieldOf v CFG_CENSUS.CID)).wr CFG_CENSUS.GROUP g).wr CFG_CENSUS.TIMEOUT (fieldOf v CFG_CENSUS.TIMEOUT))
    (hp : p = censusPacket u g (fieldOf v CFG_CENSUS.CID)) (hvalid : bitsOf (u.mgWord g 0) 63 63 = 1) (hroot : u.mgRoot g = true)
    (hin : u.selfFenced = false) (hx : x = ⟨fieldOf v CFG_CENSUS.CID, u.rd CFG_CENLAP.LAP, none, u.censusExpect p g, false, {}, u.ct⟩) :
    execCensusStart v s = .next ((((u.updSec (fun y => { y with census := some x })).censusRecord x 1).originateTree 2 p).censusClose) := by
  have htree : bitsOf (u.mgWord g 0) 63 63 = 1 ∧ u.mgRoot g = true ∧ ¬ u.selfFenced = true :=
    ⟨hvalid, hroot, by rw [hin]; exact Bool.false_ne_true⟩
  subst hg
  rw [execCensusStart, State.live_of_up h]
  dsimp only
  rw [← hu, ← censusPacket, ← hp, if_pos htree, ← hx]

/-- A CENSUS packet of a CID that is under way is received like another; one that is not is taken up first. -/
theorem execCensusRx_received {n : Fin 13} {p : Packet} {t : State} (hcls : pkClass p = Cls.ctl) (hopc : pkOpc p = 0x12) (hmode : pkMode p = 1)
    (hsame : s.sec.census.any (fun x => x.cid == censusCid p) = true → t = s)
    (hnew : s.sec.census.any (fun x => x.cid == censusCid p) = false →
      ∀ x : CenState, x = ⟨censusCid p, censusLap p, some n.val, s.censusExpect p (pkMgroup p), false, {}, s.ct⟩ →
      (n.val = 12 ∨ s.treeTaken n p = true) ∧ t = s.updSec (fun y => { y with census := some x })) :
    execCensusRx n p s = .next (t.receive n p true (fun s q => (s.leave q).censusLocal (censusCid p) (censusLap p))).censusClose := by
  have hgo : ¬ (pkClass p ≠ Cls.ctl ∨ pkOpc p ≠ 0x12 ∨ pkMode p ≠ 1) := by simp [hcls, hopc, hmode]
  rw [execCensusRx, State.live_of_up h, if_neg hgo]
  dsimp only
  cases hany : s.sec.census.any (fun x => x.cid == censusCid p) with
  | true => rw [hsame hany, if_neg fun hboth => hboth.2 rfl]
  | false =>
    obtain ⟨htaken, ht⟩ := hnew hany _ rfl
    rw [ht, if_pos ⟨htaken, Bool.false_ne_true⟩]

theorem execCensusLcfRx_good {n : Fin 12} {g0 g1 : LcfGroup} (h0 : lcfType g0.lcf = 4) (h1 : lcfType g1.lcf = 4) (hin : s.inService n = true)
    (hg0 : groupGood g0 = true) (hs0 : lcfGseq g0.lcf = (s.port n).gseqRx) (hg1 : groupGood g1 = true)
    (hs1 : lcfGseq g1.lcf = (lcfGseq g0.lcf + 1) % 4096) :
    execCensusLcfRx n ⟨g0, g1⟩ s = .next (((s.takeGroup n g0 id).takeGroup n g1 id).censusReport n g0.lcf g1.lcf) := by
  rw [execCensusLcfRx, State.live_of_up h]
  exact congrArg _ ((if_neg (not_or.2 ⟨not_not.2 h0, not_not.2 h1⟩)).trans (if_pos ⟨hin, hg0, hs0, hg1, hs1⟩))

theorem execCensusTimeout_root {x : CenState} (hx : s.sec.census = some x) (hroot : x.arrival = none)
    (hage : x.since + s.rd CFG_CENSUS.TIMEOUT ≤ s.ct) :
    execCensusTimeout s = .next (((s.updSec (fun y => { y with census := none })).censusRecord x 3).secReport F_SEC_CENSUS) := by
  rw [execCensusTimeout, State.live_of_up h, hx]
  exact congrArg _ (if_pos ⟨hroot, hage⟩)

end Census

/-- Settles O51: each Setting Store command by what runs and what it names, then the census by where it stands. -/
theorem settingStoreAndCensusResults : Obligations.SettingStoreAndCensusResults := by
  refine ⟨fun s slot off h => ⟨fun hopen hbusy => ssCommands_busy h hopen hbusy off, fun hopen hidle => ⟨fun hrun hlt => ?_, fun hbad => ?_, ?_,
      fun hok => ?_, fun hno => ?_, ?_⟩,
      fun t u ht hu => ⟨fun hj => execSsCommandDone_write h ht hj, fun hj => execSsCommandDone_activate h ht hj, fun hj hnone => ?_,
        fun code hj hcode => ?_, fun hj => execSsCommandDone_store h ht hj⟩,
      fun block bad hb => ⟨fun hgood hnew => ?_, fun hlost => ?_⟩⟩,
    fun s h => ⟨fun v g u p hg hu hp hvalid hroot hin x hx => execCensusStart_root h hg hu hp hvalid hroot hin hx,
      fun n p t hcls hopc hmode hsame hnew => execCensusRx_received h hcls hopc hmode hsame hnew,
      fun n g0 g1 h0 h1 hin hg0 hs0 hg1 hs1 => execCensusLcfRx_good h h0 h1 hin hg0 hs0 hg1 hs1,
      fun x hx hroot hage => execCensusTimeout_root h hx hroot hage⟩⟩
  · refine (execSsWrite_eq h off).trans ?_
    rw [State.ssCommand_idle hopen hidle, if_neg (not_or.2 ⟨by rw [hrun]; exact Bool.false_ne_true, Nat.not_le.2 hlt⟩)]
  · exact (execSsWrite_eq h off).trans (by rw [State.ssCommand_idle hopen hidle, if_pos hbad])
  · exact (execSsVerify_eq h).trans (by rw [State.ssCommand_idle hopen hidle])
  · exact (execSsActivate_eq h).trans (by rw [State.ssCommand_idle hopen hidle, if_pos hok])
  · exact (execSsActivate_eq h).trans (by rw [State.ssCommand_idle hopen hidle, hno, if_neg Bool.false_ne_true])
  · exact (execSsStore_eq h).trans (by rw [State.ssCommand_idle hopen hidle])
  · exact (execSsCommandDone_verify h ht hj hu).trans (by rw [hnone, Option.elim_none])
  · exact (execSsCommandDone_verify h ht hj hu).trans (by rw [hcode, Option.elim_some])
  · refine (execSsWearScan_eq h bad hb).trans ?_
    rw [hgood, hnew, if_neg (by decide)]
  · exact (execSsWearScan_eq h bad hb).trans (by rw [if_pos hlost])

end Sys2Proof.Machine

/-! # Telemetry and debug -/

namespace Sys2Proof.Machine

open Sys2Proof.Claims

/-! ## Telemetry (R415 to R421) -/

section Telemetry

variable {s : State}

section Granted

variable (hg : Grants s)

include hg

theorem execTelemetrySample_due (hdue : s.sampleDue = true) : execTelemetrySample s =
    .next { s.telPush s.sampleRecord with telSeq := (s.telSeq + 1) % 2 ^ 32, telLast := some s.ct } := by
  rw [execTelemetrySample, State.granting_of_grants hg]
  exact congrArg _ (if_neg (not_not.2 hdue))

theorem execTelemetryRecordWrite_oldest {r : List Byte} {q : List (List Byte)} {t : State} (hq : s.telQueue = r :: q)
    (ht : t = { s with telQueue := q }) :
    execTelemetryRecordWrite s = .next (if t.ringOk then t.ringPut r else t.addSat TEL_STATUS.LOST 1) := by
  subst ht
  rw [execTelemetryRecordWrite, State.granting_of_grants hg, hq]

theorem execReadWindowRead_aligned {off : BitVec 24} (hlo : 0x248000 ≤ off.toNat) (hhi : off.toNat < 0x250000) (hal : off.toNat % 8 = 0) :
    execReadWindowRead off s = .next (if s.windowAllowed off.toNat then
        (s.windowRead off.toNat).2.emit (.shift "READ_WINDOW" [(s.windowRead off.toNat).1])
      else s.emit (.shift "READ_WINDOW DENIED" [])) := by
  rw [execReadWindowRead, State.granting_of_grants hg]
  exact congrArg _ (if_neg (by omega))

theorem execStandstillWriteDone_writing (hw : s.bit DBG_SSSTAT.WRITING = true) {t : State}
    (ht : t = ((s.present 50 (s.rd DBG_SSBUF.BASE) s.capture.length).setRink (s.rd DBG_SSBUF.BASE) s.capture).repeatEvent 4
      ((s.capture.length + 511) / 512)) : execStandstillWriteDone s =
    .next { (t.setBit DBG_SSSTAT.WRITING false).setBit DBG_SSSTAT.DONE true with capture := [] } := by
  subst ht
  rw [execStandstillWriteDone, State.granting_of_grants hg]
  exact congrArg _ (if_neg (not_not.2 hw))

end Granted

variable (h : Up s)

include h

theorem execTelCtlWrite_eq {v : Word} {t : State}
    (ht : t = ((s.wr TEL_CTL.PHASE (fieldOf v TEL_CTL.PHASE)).wr TEL_CTL.PEXP (fieldOf v TEL_CTL.PEXP)).setBit TEL_CTL.TRACE
      (decide (fieldOf v TEL_CTL.TRACE = 1 ∧ 2 ≤ s.dbg))) : execTelCtlWrite v s =
    .next (if fieldOf v TEL_CTL.EN = 0 then t.setBit TEL_CTL.EN false
      else if ¬ t.ringOk ∨ t.rd TEL_CTL.PEXP < 6 ∨ 20 < t.rd TEL_CTL.PEXP then t.setBit TEL_STATUS.CFGERR true
      else if t.dbg < 1 then t else t.setBit TEL_CTL.EN true) := by
  have hdbg : ((s.wr TEL_CTL.PHASE (fieldOf v TEL_CTL.PHASE)).wr TEL_CTL.PEXP (fieldOf v TEL_CTL.PEXP)).dbg = s.dbg :=
    (State.rd_wr_ne _ _ _ _ (by decide)).trans (State.rd_wr_ne _ _ _ _ (by decide))
  rw [execTelCtlWrite, State.live_of_up h, State.telCtl, hdbg, ← ht]

theorem execStandstillNow_taken {v : Word} {t : State} (ht : t = s.setBit DBG_SSCTL.ONFAULT (decide (fieldOf v DBG_SSCTL.ONFAULT = 1)))
    (harm : fieldOf v DBG_SSCTL.ARM = 0) (hlevel : 2 ≤ (t.setBit DBG_SSCTL.ARM false).dbg) :
    execStandstillNow v s = .next ((t.setBit DBG_SSCTL.ARM false).standstill 2) := by
  have hone : ¬ fieldOf v DBG_SSCTL.ARM = 1 := by rw [harm]; decide
  have hbad : ¬ ((fieldOf v DBG_SSCTL.ARM = 1 ∧ 2 ≤ t.dbg) ∧ ¬ t.ssBufferOk = true) := fun hboth => hone hboth.1.1
  have harmed : ¬ (fieldOf v DBG_SSCTL.ARM = 1 ∧ 2 ≤ t.dbg) := fun hboth => hone hboth.1
  rw [execStandstillNow, State.live_of_up h, State.ssControl, ← ht, if_neg hbad, if_neg harmed, if_pos ⟨rfl, hlevel⟩]

theorem execStandstillArmed_due (harm : s.bit DBG_SSCTL.ARM = true) (hlevel : 2 ≤ s.dbg) (hdue : s.rd DBG_SSCT.TARGET ≤ s.ct) :
    execStandstillArmed s = .next (s.standstill 0) := by
  rw [execStandstillArmed, State.live_of_up h, if_pos ⟨harm, hlevel, hdue⟩]

end Telemetry

/-- Settles O52: samples and records, TEL_CTL by its fields and the level, the window and the captures. -/
theorem telemetryResults : Obligations.TelemetryResults := by
  intro s hg
  refine ⟨fun hdue => execTelemetrySample_due hg hdue, fun r q t hq ht => ⟨fun hok => ?_, fun hbad => ?_⟩,
    fun v t ht => ⟨fun hoff => ?_, fun hon hbad => ?_, fun hon hok hlo hhi hlevel => ?_⟩,
    fun v t ht harm hlevel => execStandstillNow_taken hg.1 ht harm hlevel,
    fun off hlo hhi hal => ⟨fun hall => ?_, fun hno => ?_⟩, fun harm hlevel hdue => execStandstillArmed_due hg.1 harm hlevel hdue,
    fun hw t ht => execStandstillWriteDone_writing hg hw ht⟩
  · exact (execTelemetryRecordWrite_oldest hg hq ht).trans (by rw [if_pos hok])
  · exact (execTelemetryRecordWrite_oldest hg hq ht).trans (by rw [hbad, if_neg Bool.false_ne_true])
  · exact (execTelCtlWrite_eq hg.1 ht).trans (by rw [if_pos hoff])
  · refine (execTelCtlWrite_eq hg.1 ht).trans ?_
    rw [hon, if_neg (by decide), if_pos (hbad.imp_left fun hno => by rw [hno]; exact Bool.false_ne_true)]
  · refine (execTelCtlWrite_eq hg.1 ht).trans ?_
    rw [hon, if_neg (by decide), if_neg (not_or.2 ⟨not_not.2 hok, by omega⟩), if_neg (Nat.not_lt.2 hlevel)]
  · exact (execReadWindowRead_aligned hg hlo hhi hal).trans (by rw [if_pos hall])
  · exact (execReadWindowRead_aligned hg hlo hhi hal).trans (by rw [hno, if_neg Bool.false_ne_true])

/-! ## Debug (R392, R422 to R425, R465, R472) -/

section Debug

variable {s : State}

/-- A command of DBG_STREAM that acts at D3 on a stream in BRK. -/
theorem State.dbgStream_acts {v : Word} {t : State} (ht : t = s.wr DBG_STREAM.NUM (fieldOf v DBG_STREAM.NUM)) (hnum : fieldOf v DBG_STREAM.NUM < 50)
    (hlevel : 3 ≤ t.dbg) (hbrk : t.engState (fieldOf v DBG_STREAM.NUM) = EngSt.brk) (cmd : Nat) : s.dbgStream v cmd =
    if cmd = 1 then t.setEngState (fieldOf v DBG_STREAM.NUM) EngSt.run
    else if cmd = 2 then (t.updStream (fieldOf v DBG_STREAM.NUM) (fun x => { x with stepOne := true })).setEngState (fieldOf v DBG_STREAM.NUM) EngSt.run
    else t := by
  subst ht
  refine if_neg ?_
  rintro (hbig | hlow | hother)
  · omega
  · omega
  · exact hother hbrk

theorem execFreezeAssert_scan (hscan : s.mayScan = true) (hf : s.frozen = false) {u : State}
    (hu : u = (s.setBit CSV_STATUS.FRZSEEN true).trouble 24) :
    execFreezeAssert s = .next { u.free.2 with frozen := true, shadow := u.free.2.ssCapture u.free.1 } := by
  subst hu
  exact congrArg _ (if_neg (by simp [hscan, hf]))

theorem execFreezeAssert_noScan (hno : s.mayScan = false) : execFreezeAssert s = .next s :=
  congrArg _ (if_pos (.inl (by rw [hno]; exact Bool.false_ne_true)))

theorem execFreezeMemStop_frozen (hf : s.frozen = true) : execFreezeMemStop s = .next ((List.range 12).foldl (fun (s : State) m =>
    if s.rd (MEM_STATUS.STATE m) = MemSt.run then (List.range 16).foldl (fun (s : State) k => s.emit (.mem m k 0 "SRE"))
      (s.wr (MEM_STATUS.STATE m) MemSt.selfref) else s) s) := by
  rw [execFreezeMemStop, if_neg (not_not.2 hf)]

theorem execFreezeClockStop_frozen (hf : s.frozen = true) : execFreezeClockStop s = .next { s with stopped := true } :=
  congrArg _ (if_pos hf)

theorem execScanDump_eq : execScanDump s = .next (if s.frozen ∧ s.mayScan then
    (s.tapIr 0x21).emit (.shift "TDO" (leWords (s.readOut 0xFF))) else s.tapBypass) := by
  rw [execScanDump]

theorem execRoStart_eq (mask : BitVec 16) : execRoStart mask s = .next (if s.frozen ∧ s.mayScan then
    (s.tapIr 0x22).emit (.shift "DBG_RO" (leWords (s.readOut mask.toNat))) else s.tapBypass) := by
  rw [execRoStart]

theorem execSamplePreload_eq : execSamplePreload s = .next (if ¬ s.mayScan then s.tapBypass
    else ((s.free.2.tapIr 0x02).updPower (fun p => { p with cells := BitVec.ofNat 64 s.free.1 })).emit
      (.shift "TDO" [BitVec.ofNat 64 s.free.1])) := by
  rw [execSamplePreload]

theorem execExtest_eq (pins : Word) : execExtest pins s = .next (if ¬ s.mayScan then s.tapBypass
    else ((s.tapIr 0x03).updPower (fun p => { p with cells := pins })).emit (.shift "PINS" [pins])) := by
  rw [execExtest]

section Cspace

variable {off : BitVec 24} {v : Word} (hlevel : s.frozen = true ∨ s.dbg = 3) (hscan : s.mayScan = true)

include hlevel hscan

theorem execCspace_writeHole (hrow : findRow off.toNat = none) :
    execCspace true off v s = .next ((s.tapIr 0x20).csWrite .jtag true off.toNat v) := by
  rw [execCspace, hrow]
  exact congrArg _ (if_neg (not_or.2 ⟨not_not.2 hlevel, not_not.2 hscan⟩))

theorem execCspace_read {r : Word × State} (hr : r = (s.tapIr 0x20).csRead .jtag off.toNat) :
    execCspace false off v s = .next ((r.2.updPower (fun p => { p with shiftData := r.1 })).emit (.shift "TDO" [r.1])) := by
  subst hr
  rw [execCspace]
  exact congrArg _ (if_neg (not_or.2 ⟨not_not.2 hlevel, not_not.2 hscan⟩))

end Cspace

theorem execCspace_withheld {write : Bool} {off : BitVec 24} {v : Word} (hno : s.mayScan = false ∨ (s.frozen = false ∧ s.dbg ≠ 3)) :
    execCspace write off v s = .next s.tapBypass := by
  refine congrArg _ (if_pos ?_)
  rcases hno with hscan | ⟨hf, hd⟩
  · exact .inr (by rw [hscan]; exact Bool.false_ne_true)
  · exact .inl (by simp [hf, hd])

end Debug

/-- Settles O53: streams in BRK, the freeze, and each TAP instruction by what the matrix allows. -/
theorem debugResults : Obligations.DebugResults := by
  intro s
  refine ⟨fun v t h ht hnum hlevel hbrk => ⟨?_, ?_⟩, fun hscan hf u hu => execFreezeAssert_scan hscan hf hu, fun hno => execFreezeAssert_noScan hno,
    fun hf => execFreezeMemStop_frozen hf, fun hf => execFreezeClockStop_frozen hf, fun hf hscan => ⟨?_, fun mask => ?_⟩,
    fun hf => ⟨?_, fun mask => ?_⟩, rfl, rfl, fun hno => ⟨?_, fun pins => ?_⟩, fun hscan => ⟨?_, fun pins => ?_⟩, rfl,
    fun off v hlevel hscan hrow => ⟨execCspace_writeHole hlevel hscan hrow, fun r hr => execCspace_read hlevel hscan hr⟩,
    fun write off v hno => execCspace_withheld hno⟩
  · change execDbgResume v s = _
    rw [execDbgResume, State.live_of_up h, State.dbgStream_acts ht hnum hlevel hbrk, if_pos rfl]
  · change execDbgStep v s = _
    rw [execDbgStep, State.live_of_up h, State.dbgStream_acts ht hnum hlevel hbrk, if_neg (by decide), if_pos rfl]
  · exact execScanDump_eq.trans (by rw [if_pos ⟨hf, hscan⟩])
  · exact (execRoStart_eq mask).trans (by rw [if_pos ⟨hf, hscan⟩])
  · refine execScanDump_eq.trans ?_
    rw [if_neg fun hboth => Bool.false_ne_true (hf.symm.trans hboth.1)]
  · refine (execRoStart_eq mask).trans ?_
    rw [if_neg fun hboth => Bool.false_ne_true (hf.symm.trans hboth.1)]
  · exact execSamplePreload_eq.trans (by rw [if_pos (by rw [hno]; exact Bool.false_ne_true)])
  · exact (execExtest_eq pins).trans (by rw [if_pos (by rw [hno]; exact Bool.false_ne_true)])
  · exact execSamplePreload_eq.trans (by rw [if_neg (not_not.2 hscan)])
  · exact (execExtest_eq pins).trans (by rw [if_neg (not_not.2 hscan)])

end Sys2Proof.Machine

/-! # Supplies, clocks, resets and power commands -/

namespace Sys2Proof.Machine

open Sys2Proof.Claims

/-! ## Supplies, power and temperature (R429, R431, R436, R437) -/

section Supplies

variable {s : State}

theorem execSupplyExcursion_inside {n : Fin 9} {mv : BitVec 16} {t : State} (hused : s.supplyUsed n = true) (ht : t = s.supplyReading n mv.toNat)
    (hlo : (s.band n).1 ≤ 1000 * mv.toNat) (hhi : 1000 * mv.toNat ≤ (s.band n).2) :
    execSupplyExcursion n mv s = .next (t.updPower (fun p => { p with outside := p.outside.filter (fun i => i != n.val) })) := by
  subst ht
  rw [execSupplyExcursion]
  exact congrArg _ ((if_neg (not_not.2 hused)).trans (if_pos ⟨hlo, hhi⟩))

theorem execSupplyExcursion_outside {n : Fin 9} {mv : BitVec 16} {t u : State} (hused : s.supplyUsed n = true)
    (ht : t = s.supplyReading n mv.toNat) (hout : 1000 * mv.toNat < (s.band n).1 ∨ (s.band n).2 < 1000 * mv.toNat)
    (hu : u = (t.setBit (PWR_SUP.ALARM n) true).setLimit) (hfirst : u.power.outside.contains n.val = false) : execSupplyExcursion n mv s =
      .next ((u.updPower (fun p => { p with outside := n.val :: p.outside })).pwrReport F_PWR_SUPPLY n) := by
  have hband : ¬ ((s.band n).1 ≤ 1000 * mv.toNat ∧ 1000 * mv.toNat ≤ (s.band n).2) := by omega
  rw [execSupplyExcursion]
  dsimp only
  rw [if_neg (not_not.2 hused), if_neg hband, ← ht, ← hu, hfirst, if_neg Bool.false_ne_true]

theorem execPowerAverage10ms_eq {w : BitVec 16} {t : State} (ht : t = s.wr PWR_METER.PEAK10MS (max (s.rd PWR_METER.PEAK10MS) w.toNat)) :
    execPowerAverage10ms w s = .next (if 1500 < w.toNat then t.setLimit.pwrReport F_PWR_POWER 0 else t) := by
  rw [ht, execPowerAverage10ms]

theorem execPowerAverage1s_eq {w : BitVec 16} {t : State} (ht : t = s.wr PWR_METER.AVG1S w.toNat) :
    execPowerAverage1s w s = .next (if 1350 < w.toNat then t.pwrReport F_PWR_POWER 0 else t) := by
  rw [ht, execPowerAverage1s]

section Thermal

variable {temps : List (BitVec 16)} {i : Nat} {h m : BitVec 16} {t : State} (hhot : hottest temps 0 = some (i, h))
  (hm : m = BitVec.ofNat 16 (s.rd PWR_THERM.TJ_MAX)) (ht : t = ((s.wr PWR_THERM.HOT i).wr PWR_THERM.TJ_NOW h.toNat).wr PWR_THERM.TJ_MAX
    (if m = 0 ∨ celsius8 m < celsius8 h then h else m).toNat)

include hhot hm ht

theorem execThermalSample_cool (hcool : celsius8 h < 800) (htrip : celsius8 h < 920) :
    execThermalSample temps s = .next (t.updPower (fun p => { p with hot := [] })) := by
  rw [execThermalSample, hhot]
  dsimp only
  rw [← hm, ← ht, if_pos hcool, if_pos htrip]

theorem execThermalSample_hot (hwarm : 800 ≤ celsius8 h) (hfirst : (t.setBit PWR_THERM.ALARM true).setLimit.power.hot = []) {u : State}
    (hu : u = (((t.setBit PWR_THERM.ALARM true).setLimit.updPower (fun p => { p with hot := [i] })).pwrReport F_PWR_THERM i)) :
    execThermalSample temps s = .next (if celsius8 h < 920 then u else u.thermalTrip) := by
  rw [execThermalSample, hhot]
  dsimp only
  rw [← hm, ← ht, if_neg (Int.not_lt.2 hwarm), if_pos hfirst, ← hu]

end Thermal

/-- The state in which a supply has come in. -/
def State.supplied (s : State) (n : Fin 9) : State :=
  s.updPower (fun p => { p with
    inBand := (n.val, s.clk) :: p.inBand.filter (fun e => e.1 != n.val)
    outside := p.outside.filter (fun i => i != n.val)
    seqBad := p.seqBad || decide (n.val ≠ 0 ∧ ¬ s.supplyIn (n - 1)) })

theorem execSupplyInBand_eq (n : Fin 9) : execSupplyInBand n s = .next (s.supplied n) := rfl

theorem State.supplyIn_supplied (n : Fin 9) : (s.supplied n).supplyIn n = true := by
  simp [State.supplied, State.updPower, State.supplyIn]

theorem State.seqBad_supplied {n : Fin 9} (hn : n.val ≠ 0) (hearly : s.supplyIn (n.val - 1) = false) : (s.supplied n).power.seqBad = true := by
  simp [State.supplied, State.updPower, hn, hearly]

end Supplies

/-! ## Clock references (R447, R448) -/

section Clocks

variable {s : State}

theorem execRefclkLoss_eq {a : Nat} {t : State} (ha : a = s.rd CLK_STATUS.ACTIVE)
    (ht : t = (s.setBit (refFld a) false).addSat CLK_STATUS.SWITCHES 1) :
    execRefclkLoss s = .next ((if t.bit (refFld (1 - a)) then t.wr CLK_STATUS.ACTIVE (1 - a) else t).pwrReport F_PWR_REFCLK a) := by
  rw [ht, ha, execRefclkLoss]

theorem execRefclkBothLost_eq : execRefclkBothLost s =
    .next (((s.setBit CLK_STATUS.REF0 false).setBit CLK_STATUS.REF1 false).deviceFault F_PWR_CLKLOSS).interrupt := by
  rw [execRefclkBothLost]

theorem execRefclkReturn_eq {a : Nat} (ha : a = s.rd CLK_STATUS.ACTIVE) :
    execRefclkReturn s = .next (s.setBit (refFld (if s.bit (refFld (1 - a)) then a else 1 - a)) true) := by
  rw [ha, execRefclkReturn]

theorem execSrefclkLoss_eq {die : Fin 2} {t u : State} (ht : t = s.setBit (if die.val = 0 then CLK_STATUS.SREF_N else CLK_STATUS.SREF_S) false)
    (hu : u = ((List.range 6).map (fun d => d + 6 * die.val)).foldl (fun s n =>
      if s.portState n = PortSt.down ∨ s.portState n = PortSt.failed ∨ s.portState n = PortSt.discarded then s
      else s.portFail n F_FAB_LANE) t) : execSrefclkLoss die s =
    .next (if u.hostState die ≠ HpSt.down ∧ u.hostState die ≠ HpSt.discarded then
      ((u.wr (HP_STATUS.LAST_CODE die) F_HOST_LINK).setHostState die HpSt.train).report F_HOST_LINK 2 die else u) := by
  rw [hu, ht, execSrefclkLoss]

end Clocks

/-- Settles O54: each reading by its band, and each reference by which one is active. -/
theorem supplyAndClockResults : Obligations.SupplyAndClockResults := by
  refine ⟨fun s => ⟨fun n mv t hused ht => ⟨fun hlo hhi => execSupplyExcursion_inside hused ht hlo hhi,
      fun u hout hu hfirst => execSupplyExcursion_outside hused ht hout hu hfirst⟩,
      fun w t ht => ⟨fun hbig => ?_, fun hsmall => ?_⟩, fun w t ht => ⟨fun hbig => ?_, fun hsmall => ?_⟩,
      fun temps i h m t u hhot hm ht => ⟨fun hcool htrip => execThermalSample_cool hhot hm ht hcool htrip,
        fun hwarm hfirst hu => ⟨fun hlt => ?_, fun hge => ?_⟩⟩,
      fun n => ⟨s.supplied n, execSupplyInBand_eq n, State.supplyIn_supplied n, fun hn hearly => State.seqBad_supplied hn hearly⟩⟩,
    fun s => ⟨fun a t ha ht => ⟨fun hother => ?_, fun hnone => ?_⟩, execRefclkBothLost_eq, fun a ha => ⟨fun hgone => ?_, fun hthere => ?_⟩,
      fun die t u ht hu => ⟨fun hquiet => ?_, fun hdown hdisc => ?_⟩⟩⟩
  · exact (execPowerAverage10ms_eq ht).trans (by rw [if_pos hbig])
  · exact (execPowerAverage10ms_eq ht).trans (by rw [if_neg (Nat.not_lt.2 hsmall)])
  · exact (execPowerAverage1s_eq ht).trans (by rw [if_pos hbig])
  · exact (execPowerAverage1s_eq ht).trans (by rw [if_neg (Nat.not_lt.2 hsmall)])
  · exact (execThermalSample_hot hhot hm ht hwarm hfirst hu).trans (by rw [if_pos hlt])
  · exact (execThermalSample_hot hhot hm ht hwarm hfirst hu).trans (by rw [if_neg (Int.not_lt.2 hge)])
  · exact (execRefclkLoss_eq ha ht).trans (by rw [if_pos hother])
  · exact (execRefclkLoss_eq ha ht).trans (by rw [hnone, if_neg Bool.false_ne_true])
  · exact (execRefclkReturn_eq ha).trans (by rw [hgone, if_neg Bool.false_ne_true])
  · exact (execRefclkReturn_eq ha).trans (by rw [if_pos hthere])
  · refine (execSrefclkLoss_eq ht hu).trans ?_
    rw [if_neg fun hboth => hquiet.elim hboth.1 hboth.2]
  · exact (execSrefclkLoss_eq ht hu).trans (by rw [if_pos ⟨hdown, hdisc⟩])

/-! ## Resets (R383, R384, R430, R450 to R453, R475) -/

section Resets

variable {s : State}

theorem execColdReset_eq : execColdReset s = .next ((s.coldState 1).packagesReset.emit (.pin "THERMTRIP_N" true)) := by
  rw [execColdReset]

theorem execWarmReset_eq : execWarmReset s =
    .next (if (s.stopped ∧ s.power.held ∧ s.power.cause ≤ 1) ∨ s.pwrState = PwrSt.hold then s else s.warmState 2) := by
  rw [execWarmReset]

theorem execResetRelease_eq : execResetRelease s = .next (if s.power.held then s.startUp else s) := by
  rw [execResetRelease]

section Boot

variable (hv : s.sec.verdict = 0) (h : Up s) (hheld : s.power.held = false)

include hv h hheld

theorem execBootSlotVerified_passes (hok : s.verifySlot s.sec.tried = none) : execBootSlotVerified s = .next (s.bootPass s.sec.tried) := by
  have hgo : ¬ (s.sec.verdict ≠ 0 ∨ s.stopped = true ∨ s.power.held = true) := by simp [hv, show s.stopped = false from h, hheld]
  rw [execBootSlotVerified]
  dsimp only
  rw [if_neg hgo, hok]

theorem execBootSlotVerified_fails {code : Nat} {t : State} (hcode : s.verifySlot s.sec.tried = some code)
    (ht : t = ((((s.readSlot s.sec.tried).trouble 22).wr (slotOkFld s.sec.tried) 0).wr SEC_BOOT.CODE code).secReport code) :
    execBootSlotVerified s = .next (if s.sec.tried = t.sec.preferred then t.copyImage (1 - s.sec.tried) else t.bootFail) := by
  have hgo : ¬ (s.sec.verdict ≠ 0 ∨ s.stopped = true ∨ s.power.held = true) := by simp [hv, show s.stopped = false from h, hheld]
  rw [execBootSlotVerified]
  dsimp only
  rw [if_neg hgo, hcode]
  dsimp only
  rw [← ht]

end Boot

/-- What is emitted is seen at the pins only. -/
theorem State.foldl_emit {α : Type} (f : α → Out) (l : List α) (s : State) :
    ∃ o : List Out, l.foldl (fun s x => s.emit (f x)) s = { s with out := o } := by
  induction l generalizing s with
  | nil => exact ⟨s.out, rfl⟩
  | cons x l ih =>
    obtain ⟨o, ho⟩ := ih (s.emit (f x))
    exact ⟨o, ho⟩

/-- What a cold reset empties and what it keeps (R450, R475). -/
theorem State.coldReset_empties {t : State} (ht : t = (s.coldState 1).packagesReset.emit (.pin "THERMTRIP_N" true)) :
    t.rink = [] ∧ t.store = [] ∧ t.gsram = [] ∧ t.rstore = [] ∧ t.streams = [] ∧ t.ctxs = [] ∧
      t.reg DBG_SSCTL.ARM.off = resetWord DBG_SSCTL.ARM.off ∧ t.sec.fuseSerial = s.sec.fuseSerial ∧ t.sec.fuseSvn = s.sec.fuseSvn ∧
      t.sec.rootHashes = s.sec.rootHashes := by
  obtain ⟨o, ho⟩ := State.foldl_emit (fun m => Out.mem m 0 0 "RESET_N low") (List.range 12) (s.coldState 1)
  rw [ht, State.packagesReset, ho]
  exact ⟨rfl, rfl, rfl, rfl, rfl, rfl, rfl, rfl, rfl, rfl⟩

end Resets

/-- Settles O55: each reset by whether one is held, the boot slot by its verification, and what a cold reset leaves. -/
theorem resetResults : Obligations.ResetResults := by
  refine ⟨fun s => ⟨execColdReset_eq, fun hnot hpwr => ?_, fun hheld => ?_, fun hfree => ?_,
      fun hv h hheld => ⟨fun hok => execBootSlotVerified_passes hv h hheld hok, fun code t hcode ht => ⟨fun hpref => ?_, fun hother => ?_⟩⟩⟩,
    fun s => ⟨_, execColdReset_eq, State.coldReset_empties rfl⟩⟩
  · refine execWarmReset_eq.trans ?_
    rw [if_neg]
    rintro (⟨hstop, hheld, hcause⟩ | hhold)
    · rcases hnot with hs | hh | hc
      · exact Bool.false_ne_true (hs.symm.trans hstop)
      · exact Bool.false_ne_true (hh.symm.trans hheld)
      · omega
    · exact hpwr hhold
  · exact execResetRelease_eq.trans (by rw [if_pos hheld])
  · exact execResetRelease_eq.trans (by rw [hfree, if_neg Bool.false_ne_true])
  · exact (execBootSlotVerified_fails hv h hheld hcode ht).trans (by rw [if_pos hpref])
  · exact (execBootSlotVerified_fails hv h hheld hcode ht).trans (by rw [if_neg hother])

end Sys2Proof.Machine

/-! # Power commands, domains, retention and the BMC -/

namespace Sys2Proof.Machine

open Sys2Proof.Claims

/-! ## Power commands (R439 to R443) -/

section Commands

variable {s : State} {path : Path} {cmd : Nat} {sec : Bool}

theorem State.writePwrCmd_otherPath (hpath : path = .sequencer ∨ path = .jtag) : s.writePwrCmd path cmd sec = s.pwrReport F_PWR_CMD cmd := by
  refine if_pos ?_
  rcases hpath with rfl | rfl <;> decide

variable (hpath : path = .i3c ∨ path = .management) (hpos : 0 < cmd) (hle : cmd ≤ 4)

include hpath hpos hle

/-- A command of the BMC or the management port is judged by the power state. -/
theorem State.writePwrCmd_judged : s.writePwrCmd path cmd sec =
    if s.pwrState = PwrSt.p0 ∨ s.pwrState = PwrSt.p1 then
      s.updPower (fun p => { p with commands := p.commands ++ [(cmd, sec || path == .i3c, path == .i3c)] })
    else if s.pwrState = PwrSt.p2 ∧ cmd = 1 ∧ (path == .i3c) = true ∧ s.exitSupplies = true then s.exitState
    else s.pwrReport F_PWR_CMD cmd := by
  refine (if_neg ?_).trans (if_neg ?_)
  · rintro ⟨hi3c, hmgmt⟩
    exact hpath.elim hi3c hmgmt
  · omega

theorem State.writePwrCmd_waits (hst : s.pwrState = PwrSt.p0 ∨ s.pwrState = PwrSt.p1) : s.writePwrCmd path cmd true =
    s.updPower (fun p => { p with commands := p.commands ++ [(cmd, true, path == .i3c)] }) := by
  rw [State.writePwrCmd_judged hpath hpos hle, if_pos hst, Bool.true_or]

variable (h0 : s.pwrState ≠ PwrSt.p0) (h1 : s.pwrState ≠ PwrSt.p1)

include h0 h1

theorem State.writePwrCmd_exits (hst : s.pwrState = PwrSt.p2) (hcmd : cmd = 1) (hi3c : path = .i3c) (hsup : s.exitSupplies = true) :
    s.writePwrCmd path cmd sec = s.exitState := by
  rw [State.writePwrCmd_judged hpath hpos hle, if_neg (not_or.2 ⟨h0, h1⟩), if_pos ⟨hst, hcmd, by rw [hi3c]; rfl, hsup⟩]

theorem State.writePwrCmd_refused (hno : s.pwrState ≠ PwrSt.p2 ∨ cmd ≠ 1 ∨ path ≠ .i3c ∨ s.exitSupplies = false) :
    s.writePwrCmd path cmd sec = s.pwrReport F_PWR_CMD cmd := by
  rw [State.writePwrCmd_judged hpath hpos hle, if_neg (not_or.2 ⟨h0, h1⟩), if_neg]
  rintro ⟨hst, hcmd, hi3c, hsup⟩
  rcases hno with hn | hn | hn | hn
  · exact hn hst
  · exact hn hcmd
  · exact hn (eq_of_beq hi3c)
  · exact Bool.false_ne_true (hn.symm.trans hsup)

end Commands

/-- P0, P1, P2 and WARM are commands 1 to 4 over their path. -/
theorem powerCommand_writes {s : State} {path : Path} {cmd : Nat} {i : Instr} (hi : (i = .p0 path ∧ cmd = 1) ∨ (i = .p1 path ∧ cmd = 2) ∨
    (i = .p2 path ∧ cmd = 3) ∨ (i = .warm path ∧ cmd = 4)) : Gives i s (s.writePwrCmd path cmd true) ∧ 0 < cmd ∧ cmd ≤ 4 := by
  rcases hi with ⟨rfl, rfl⟩ | ⟨rfl, rfl⟩ | ⟨rfl, rfl⟩ | ⟨rfl, rfl⟩ <;> exact ⟨rfl, by decide, by decide⟩

/-! ## Domains, P2 and retention (R337, R440, R444, R445) -/

section Domains

variable {s : State}

theorem execPwrDomWrite_eq (i : Fin 2) (v : Word) :
    execPwrDomWrite i v s = .next (s.updPower (fun p => { p with domains := p.domains ++ [(i.val, v)] })) := rfl

theorem execDomainSwitch_oldest {d : Nat} {on : Bool} {l : List (Nat × Bool)} {t : State}
    (ht : t = s.updPower (fun p => { p with switches := l, usable := p.usable.filter (fun e => e.1 != d) }))
    (hsw : s.power.switches = (d, on) :: l) : execDomainSwitch s =
      .next (if on then (t.setDomain d true).updPower (fun p => { p with usable := (d, t.clk + domainSettle) :: p.usable })
        else (t.loseDomain d).setDomain d false) := by
  rw [ht, execDomainSwitch, hsw]

theorem execP2EntryDone_enters (hst : s.pwrState = PwrSt.p2prep) (htrip : s.power.tripped = false) {u v w x : State}
    (hu : u = (List.range 12).foldl (fun s n => s.portDown n) s.writeRetention)
    (hv : v = [0, 1].foldl (fun s n => (s.setBit (HP_CTL.EN n) false).setHostState n HpSt.down) u)
    (hw : w = (List.range 12).foldl (fun s m => s.enterSelfRefresh m) v.finishRequests)
    (hx : x = ((((w.setReg PWR_DSTAT0.DOM.off 0).setReg PWR_DSTAT1.DOM.off 0).setBit PWR_STATUS.READY false).wr LAP_STATUS.STATE
      LapSt.stopped).setPwrState PwrSt.p2) : execP2EntryDone s = .next { x.updPower (fun p => { p with
        inBand := p.inBand.filter (fun e => e.1 ≤ 1 || 7 ≤ e.1), switches := [], usable := [] }) with stopped := true } := by
  have hgo : ¬ (s.pwrState ≠ PwrSt.p2prep ∨ s.power.tripped = true) := by simp [hst, htrip]
  rw [execP2EntryDone, if_neg hgo]
  dsimp only
  rw [← hu, ← hv, ← hw, ← hx]

theorem execP2EntryDone_elsewhere (hno : s.pwrState ≠ PwrSt.p2prep ∨ s.power.tripped = true) : execP2EntryDone s = .next s := by
  rw [execP2EntryDone, if_pos hno]

theorem execRetentionRestoreDone_locked (hg : Grants s) {r : Retention} (hr : (s.ctx 0).retained = some r) (hneed : (s.ctx 0).needRetain = true)
    (hlock : s.bit LKR_CTL.LOCK = true) : execRetentionRestoreDone s = .next (if r.pools ≠ s.poolRegs then s.contextFault 0 F_CTX_RETAIN
      else (broughtBack s r).updCtx 0 (fun x => { x with retained := none, needRetain := false })) := by
  rw [execRetentionRestoreDone, State.granting_of_grants hg, hr]
  dsimp only
  rw [if_neg (not_or.2 ⟨not_not.2 hneed, not_not.2 hlock⟩), broughtBack]

end Domains

/-! ## The BMC over I3C (R384, R434) -/

section Bmc

variable {s : State} (hup : s.i3cUp = true)

include hup

theorem execI3cPrivateWrite_eq (off : BitVec 24) (v : Word) : execI3cPrivateWrite off v s =
    .next (if bmcWrites off.toNat = true ∧ s.rd SEC_BOOT.STATE ≠ 2 then s.csWrite .i3c true off.toNat v else s) := by
  rw [execI3cPrivateWrite]
  simp only [hup, true_and]

theorem execI3cPrivateRead_eq (off : BitVec 24) : execI3cPrivateRead off s =
    .next ((if s.bmcReads off.toNat then s.csRead .i3c off.toNat else (0, s)).2.emit
      (.shift "I3C" [(if s.bmcReads off.toNat then s.csRead .i3c off.toNat else (0, s)).1])) := by
  rw [execI3cPrivateRead, if_neg (not_not.2 hup)]

theorem execSetdasa_eq (addr : BitVec 7) : execSetdasa addr s = .next (s.updPower (fun p => { p with i3cAddr := some addr.toNat })) := by
  rw [execSetdasa, if_pos hup]

theorem execEntdaa_none (addr : BitVec 7) (hno : s.power.i3cAddr = none) :
    execEntdaa addr s = .next (s.updPower (fun p => { p with i3cAddr := some addr.toNat })) := by
  rw [execEntdaa, if_pos ⟨hup, hno⟩]

omit hup in
theorem execEntdaa_some (addr : BitVec 7) {a : Nat} (ha : s.power.i3cAddr = some a) : execEntdaa addr s = .next s := by
  rw [execEntdaa, ha, if_neg fun hboth => Option.some_ne_none a hboth.2]

end Bmc

/-- Settles O56: power commands by their path and the power state, domains, P2 and retention, and what the BMC may reach. -/
theorem powerCommandResults : Obligations.PowerCommandResults := by
  refine ⟨fun s => ⟨fun path cmd i hi => ?_, execPwrDomWrite_eq, fun d l t ht => ⟨fun hsw => ?_, fun hsw => ?_⟩,
      fun hst htrip u v w x hu hv hw hx => execP2EntryDone_enters hst htrip hu hv hw hx, fun hno => execP2EntryDone_elsewhere hno,
      fun r hg hr hneed hlock => ⟨fun hother => ?_, fun hsame => ?_⟩⟩,
    fun s hup => ⟨fun off v hmay hboot => ?_, fun off v hno => ?_, fun off hmay r hr => ?_, fun off hno => ?_,
      fun addr => execSetdasa_eq hup addr, fun addr hno => execEntdaa_none hup addr hno, fun addr a ha => execEntdaa_some addr ha⟩⟩
  · obtain ⟨hgives, hpos, hle⟩ := powerCommand_writes (s := s) hi
    refine ⟨fun hpath => ?_, fun hpath hst => ?_, fun hpath h0 h1 => ⟨fun hst hcmd hi3c hsup => ?_, fun hno => ?_⟩⟩
    · rwa [State.writePwrCmd_otherPath hpath] at hgives
    · rwa [State.writePwrCmd_waits hpath hpos hle hst] at hgives
    · rwa [State.writePwrCmd_exits hpath hpos hle h0 h1 hst hcmd hi3c hsup] at hgives
    · rwa [State.writePwrCmd_refused hpath hpos hle h0 h1 hno] at hgives
  · exact (execDomainSwitch_oldest ht hsw).trans (by rw [if_pos rfl])
  · exact (execDomainSwitch_oldest ht hsw).trans (by rw [if_neg Bool.false_ne_true])
  · exact (execRetentionRestoreDone_locked hg hr hneed hlock).trans (by rw [if_pos hother])
  · exact (execRetentionRestoreDone_locked hg hr hneed hlock).trans (by rw [if_neg (not_not.2 hsame)])
  · exact (execI3cPrivateWrite_eq hup off v).trans (by rw [if_pos ⟨hmay, hboot⟩])
  · refine (execI3cPrivateWrite_eq hup off v).trans ?_
    rw [if_neg]
    rintro ⟨hmay, hboot⟩
    exact hno.elim (fun hn => Bool.false_ne_true (hn.symm.trans hmay)) hboot
  · exact (execI3cPrivateRead_eq hup off).trans (by rw [if_pos hmay, hr])
  · exact (execI3cPrivateRead_eq hup off).trans (by rw [hno, if_neg Bool.false_ne_true])

end Sys2Proof.Machine

/-! # The reset state (R475) -/

namespace Sys2Proof.Machine

open Sys2Proof.Claims

theorem State.reset_ok : State.reset.Ok := ⟨rfl, rfl, rfl, rfl, rfl, rfl, rfl, rfl⟩

theorem State.reg_reset (off : Nat) : State.reset.reg off = resetWord off := rfl

theorem resetWord_of_row : ∀ r ∈ resetRows, resetWord r.1 = r.2 := by decide

/-- A register outside the table's rows resets to 0. -/
theorem resetWord_eq_zero {off : Nat} (hout : ∀ r ∈ resetRows, off ≠ r.1) : resetWord off = 0 := by
  have hmem : ∀ m, m < 12 → off ≠ 0x1C0000 + 0x4000 * m := fun m hm =>
    hout (0x1C0000 + 0x4000 * m, 0x4000006401000006) (List.mem_append_right _ (List.mem_map.2 ⟨m, List.mem_range.2 hm, rfl⟩))
  have hline := hmem ((off - 0x1C0000) / 0x4000)
  simp only [resetRows, List.forall_mem_append, List.forall_mem_cons] at hout
  rw [resetWord, if_neg, if_neg, if_neg, if_neg, if_neg, if_neg, if_neg, if_neg, if_neg, if_neg, if_neg, if_neg, if_neg, if_neg, if_neg, if_neg,
    if_neg, if_neg, if_neg, if_neg]
  all_goals omega

theorem State.sreg_reset (k r : Nat) : State.reset.sreg k r = 0 := ite_self ..

/-- Settles O58: the reset state has no table entry, so each register reads as the reset table has it. -/
theorem resetState : Obligations.ResetState :=
  ⟨State.reset_ok, rfl, rfl, rfl, rfl, rfl, fun r hr => (State.reg_reset r.1).trans (resetWord_of_row r hr),
    fun off hout _ => (State.reg_reset off).trans (resetWord_eq_zero hout), fun k r => ⟨State.sreg_reset k r, rfl⟩⟩

end Sys2Proof.Machine
